-- ==== Sys2Proof/Word.lean ====
section
/-! DEFINITION. The byte and word types of the module, and the two channels. -/

namespace Sys2Proof

/-- One byte of a frame, of a host message or of a memory. -/
abbrev Byte := BitVec 8

/-- A 64-bit working register of an action sequencer (R300). -/
abbrev Word64 := BitVec 64

/-- The two switching channels (R25). Variant C has channel `a` only (R2). -/
inductive Ch where
  | a
  | b
deriving DecidableEq, Repr

/-- The other channel. -/
def Ch.other : Ch → Ch
  | .a => .b
  | .b => .a

/-- 0 for channel A, 1 for channel B (R150, R619, R623). -/
def Ch.num : Ch → Nat
  | .a => 0
  | .b => 1

/-- The three variants of R2. -/
inductive Variant where
  | A
  | B
  | C
deriving DecidableEq, Repr

end Sys2Proof
end

