-- ==== Sys2Proof/Config.lean ====
section
/-! DEFINITION. What the spec leaves to the maker or to chance: constants without a body, so that
no proof can lean on a value of theirs. -/

namespace Sys2Proof.Config

/-- Free values drawn by the module: the CHALLENGE of R603 and the back-off of R119 are random.
The n-th draw is an unknown number. Assumption 5. -/
opaque freeNat : Nat → Nat

/-- The signature check of a vendor image (R321, R589: ECDSA P-384 with Pervel's public key, which the
spec does not give), as a function of the image's 64-byte entries. Assumption 6. -/
opaque signatureValid : List (Nat × Nat) → Bool

/-- Whether an image is at least as long as its own header states (R590); the spec gives no layout. Assumption 6. -/
opaque imageComplete : List (Nat × Nat) → Bool

/-- The version word of 0x1006 that a vendor image carries (R589, R636). Assumption 6. -/
opaque imageVersion : List (Nat × Nat) → Nat

/-- The 192 data bits of word `addr` (0 to 0x2FFF) that a vendor image carries (R321). Assumption 6. -/
opaque vendorWord : List (Nat × Nat) → Nat → Nat

/-- The vendor-region CRC-32C that a vendor image carries (R321). Assumption 6. -/
opaque imageCrc : List (Nat × Nat) → Nat

end Sys2Proof.Config
end

