-- ==== Sys2Proof/Syntax.lean ====
section
/-! DEFINITION. The commands of the block: one constructor per row of spec/opcode_table.json. -/

namespace Sys2Proof

/-- Where a host message arrives, and where its answer goes (R592): the two CAN FD buses, a station of the management Ethernet
by its address (R596), or relay frames of module `m` (R162, R163). -/
inductive Bus where
  | canA
  | canB
  | eth (mac : Nat)
  | relay (m : Nat)
deriving DecidableEq, Repr

/-- A complete host message: the identifier's fields of R593 but FUNCTION, which the row gives, and the message
bytes after reassembly (R598). -/
structure Request where
  bus  : Bus
  prio : Nat
  dest : Nat
  src  : Nat
  tag  : Nat
  msg  : List Byte
deriving DecidableEq, Repr

/-- The authenticated envelope of a host WRITE that has a row of its own; the model builds the message of R600. -/
structure AuthHdr where
  bus     : Bus
  prio    : Nat
  dest    : Nat
  src     : Nat
  tag     : Nat
  counter : Nat
  mac     : List Byte
deriving DecidableEq, Repr

/-- What a frame of a bus or port is that is no message of its own: a segment by SEG.KIND (R598); a classic CAN frame, an FD frame with
a base identifier or a remote frame (R595); an Ethernet frame of another EtherType, or one whose COUNT exceeds its bytes (R596). -/
inductive SegKind where
  | single
  | first
  | middle
  | last
  | classic
  | base
  | remote
  | foreign
  | short
deriving DecidableEq, Repr

/-- The error states that a CAN controller takes by itself (R627). -/
inductive CanLevel where
  | active
  | passive
  | off
deriving DecidableEq, Repr

/-- A change of the error state of a CAN controller. -/
structure CanChange where
  bus   : Bus
  level : CanLevel
deriving DecidableEq, Repr

/-- The posted domains of R655. -/
inductive Domain where
  | portMacro (m : Nat)
  | multidrop
  | fabricMacro (m : Nat)
  | controlStore
  | buffer
  | time
  | capture
deriving DecidableEq, Repr

/-- Who runs bring-up stages: the service block (0 to 2) or a channel (3 to 9) (R561). -/
inductive Part where
  | sb
  | chan (c : Ch)
deriving DecidableEq, Repr

/-- The supply inputs (R545). -/
inductive Inlet where
  | a
  | b
deriving DecidableEq, Repr

/-- What the supply sees on an input: AC or DC, RMS or DC voltage and the largest instantaneous voltage in 0.1 V,
the frequency in 0.1 Hz, and for how many microseconds this has held without a break (R546). -/
structure InputMeas where
  dc     : Bool
  volt   : Nat
  inst   : Nat
  freq   : Nat
  heldUs : Nat
deriving DecidableEq, Repr

/-- The measurements of one 10 ms grid point (R557, R558), in the units of those objects. -/
structure SupplyMeas where
  inA   : Nat
  inB   : Nat
  chAW  : Nat
  chBW  : Nat
  sbW   : Nat
  tempS : Nat
deriving DecidableEq, Repr

/-- What the line did to a received frame beside its bytes (R93, R124, R90); `fec` carries the codewords that could not be
corrected. -/
inductive LineErr where
  | none
  | pcs
  | fec (words : Nat)
  | symbol
  | noEnd
deriving DecidableEq, Repr

/-- A received MAC control frame: PAUSE, PFC with its enable vector and eight quanta, or another opcode (R95). -/
inductive MacControl where
  | pause (quanta : Nat)
  | pfc (enable : Nat) (quanta : List Nat)
  | other (opcode : Nat)
deriving DecidableEq, Repr

/-- What a received LACPDU says of the partner (R104, R109); the octet layout is IEEE 802.1AX's. -/
structure LacpInfo where
  sysPrio : Nat
  sysMac  : Nat
  key     : Nat
  prio    : Nat
  port    : Nat
  state   : Nat
deriving DecidableEq, Repr

/-- The fault and role contacts (R674). -/
inductive Contact where
  | fault
  | role
deriving DecidableEq, Repr

/-- The command objects that BUSY clears for at TABLE_COMMAND_DONE (R224, R279). -/
inductive Table where
  | bridge
  | sub
  | route
  | search
deriving DecidableEq, Repr

/-- The hashed tables with an engine and a stash (R201, R203, R242). -/
inductive Hashed where
  | bridge
  | sub
  | v4
  | v6
deriving DecidableEq, Repr

/-- The causes of R497 other than an output trip, which OUTPUT_TRIP brings. -/
inductive ArbCause where
  | lock
  | selfCheck
  | stall
deriving DecidableEq, Repr

/-- The commands. The row's mnemonic stands in LAWS.json. -/
inductive Instr where
  -- host messages (R592 to R624)
  | read (q : Request)
  | write (q : Request)
  | readBlock (q : Request)
  | writeBlock (q : Request)
  | snapshot (q : Request)
  | sessionOpen (q : Request)
  | sessionProve (q : Request)
  | heartbeatRequest (q : Request)
  | frameFromHost (q : Request)
  | segmentTimeout (bus : Bus) (src dest : Nat)
  | sequenceError (bus : Bus) (ident : Nat) (kind : SegKind) (seq total count : Nat)
  | challengeExpire (n : Nat)
  | sessionIdleExpire (n : Nat)
  | lockoutEnd (node : Nat)
  | moduleHeartbeat
  | notify (w : Nat)
  | frameToHost (ch : Ch)
  | busOff (change : CanChange)
  | busOffRecovery (bus : Bus)
  | relayRequest (func : Nat) (q : Request)
  | relayAnswer
  | relayTimeout (ident : Nat)
  | postedWriteApply (ch : Ch) (dom : Domain)
  -- resets, bring-up and persistence (R561 to R591)
  | coldStart
  | brownOut
  | resetPin (lowUs : Nat) (released : Bool)
  | moduleReset (h : AuthHdr) (confirm : Nat)
  | moduleResetBegin
  | channelReset (h : AuthHdr) (ch : Ch)
  | channelRestart (ch : Ch)
  | portReset (h : AuthHdr) (ch : Ch) (port : Nat)
  | stageComplete (p : Part) (captureTrained : Bool) (islands : Nat)
  | stageFail (p : Part) (cause : Nat)
  | backoffExpire (p : Part)
  | save (h : AuthHdr) (withRuntime : Bool)
  | saveDone (readBackOk : Bool)
  | invalidate (h : AuthHdr) (slotB : Bool)
  | erase (h : AuthHdr)
  | commit (h : AuthHdr)
  | microcodeCommandDone (flashOk : Bool)
  | eventLogWrite
  -- roles (R487 to R530)
  | switch (h : AuthHdr)
  | rearm (h : AuthHdr)
  | isolate (h : AuthHdr) (ch : Ch)
  | release (h : AuthHdr) (ch : Ch)
  | resync (h : Option AuthHdr)
  | resyncComplete
  | heartbeatArrival (ch : Ch)
  | heartbeatSlot
  | selfDeclare (ch : Ch) (coreFault : Bool)
  | leaseLapse
  | fenceConfirm (ch : Ch)
  | fenceFault (ch : Ch)
  | recoveryWindowEnd
  | arbiterLost (cause : ArbCause)
  | arbiterReturn
  | holdTurnExpire
  | drillDue
  | digestItemDone
  | releasePoint
  | drainEnd
  | drainComplete
  | deltaApply
  | relayDown
  -- modes and power (R531 to R560)
  | requestNight (h : AuthHdr)
  | nightDrainEnd
  | requestNoon (h : AuthHdr)
  | requestDay (h : AuthHdr)
  | wakeTimeDue
  | duskEntry
  | setPointUpdate (ch : Ch) (periods silent : List Nat) (measMv tj : Nat)
  | clrHighWater (h : AuthHdr) (ch : Ch)
  | junctionOvertemp (ch : Ch) (tj : Nat)
  | islandLockLoss (ch : Ch) (island : Nat)
  | supplyControllerFault
  | inputChange (i : Inlet) (m : InputMeas)
  | returningComplete (i : Inlet)
  | powerLoss
  | outputTrip (p : Part)
  | sbOutputRetry (holds : Bool)
  | supplyMeasure (m : SupplyMeas)
  | mateLoopOpen
  -- front ports (R82 to R114)
  | frameReceive (ch : Ch) (port : Nat) (bytes : List Byte) (err : LineErr) (fecCorrected : Nat)
  | pauseReceive (ch : Ch) (port : Nat) (m : MacControl)
  | pauseExpire (ch : Ch) (port : Nat) (prio : Option Nat)
  | pauseRefresh (ch : Ch) (port : Nat)
  | lacpduReceive (ch : Ch) (port : Nat) (info : LacpInfo)
  | markerResponse (ch : Ch) (port : Nat)
  | lacpPeriodic (ch : Ch) (port : Nat)
  | partnerExpire (ch : Ch) (port : Nat)
  | lockLoss (ch : Ch) (port : Nat)
  | linkDownHoldExpire (ch : Ch) (port : Nat)
  | linkUp (ch : Ch) (port : Nat) (partnerOp : Nat)
  | anTimeout (ch : Ch) (port : Nat)
  | anComplete (ch : Ch) (port : Nat) (partnerAdv : Nat)
  | lpiEnter (ch : Ch) (port : Nat)
  | lpiWake (ch : Ch) (port : Nat)
  | flushFinished (ch : Ch) (tier : Nat)
  -- multidrop ports (R115 to R138)
  | plcaBeacon (ch : Ch) (k : Nat)
  | transmitOpportunity (ch : Ch) (k : Nat)
  | toTimerExpire (ch : Ch) (k : Nat)
  | plcaBeaconReceive (ch : Ch) (k : Nat)
  | plcaBeaconLoss (ch : Ch) (k : Nat)
  | collision (ch : Ch) (k : Nat)
  | lateCollision (ch : Ch) (k : Nat)
  | collisionBackoffEnd (ch : Ch) (k : Nat)
  | tokenHandover (k : Nat)
  -- fabric (R139 to R168)
  | fabricFrameReceive (ch : Ch) (l : Nat) (bytes : List Byte) (err : LineErr) (fecCorrected : Nat)
  | beaconReceive (ch : Ch) (l : Nat) (bytes : List Byte)
  | beaconSend (ch : Ch) (l : Nat)
  | beaconExpire (ch : Ch) (l : Nat)
  | directionFlush (ch : Ch) (right : Bool)
  | cutThroughStart (ch : Ch) (l : Nat) (head : List Byte)
  | cutThroughEnd (ch : Ch) (l : Nat) (tail : List Byte) (err : Option LineErr) (fecCorrected : Nat)
  -- parser, lookups, sequencers (R169 to R340)
  | parseFrame (ch : Ch) (fid : Nat)
  | lookup (ch : Ch) (fid : Nat)
  | routeRound (ch : Ch) (fid : Nat)
  | associativeSearch (ch : Ch) (fid : Nat) (waited : Bool)
  | dispatch (ch : Ch) (fid : Nat)
  | framelessDispatch (ch : Ch)
  | nextWord (ch : Ch) (n : Nat)
  | jumpWord (ch : Ch) (n : Nat)
  | branchT (ch : Ch) (n : Nat)
  | branchF (ch : Ch) (n : Nat)
  | callWord (ch : Ch) (n : Nat)
  | returnWord (ch : Ch) (n : Nat)
  | endWord (ch : Ch) (n : Nat)
  | dropWord (ch : Ch) (n : Nat)
  | trapWord (ch : Ch) (n : Nat)
  | rttWord (ch : Ch) (n : Nat)
  | stepWatchdog (ch : Ch) (n : Nat)
  | sequencerResetEnd (ch : Ch) (n : Nat)
  | wordRepair (ch : Ch) (copy addr : Nat)
  | controlStoreScrub (ch : Ch)
  | raise (h : AuthHdr) (ch : Ch)
  | timeTrigger (ch : Ch)
  | resultRelease (ch : Ch) (pipe : Nat)
  -- policer, admission, queues, egress (R341 to R430)
  | policeFrame (ch : Ch) (fid : Nat)
  | admitCopy (ch : Ch)
  | selectFrame (ch : Ch) (tier : Nat)
  | matchingRound (ch : Ch)
  | recirculate (ch : Ch)
  | egressEdit (ch : Ch) (fid no : Nat)
  | transmitStart (ch : Ch) (port : Nat)
  | frameSent (ch : Ch) (port : Nat)
  | launchStart (ch : Ch) (port : Nat)
  | lateLaunch (ch : Ch) (port : Nat)
  | releaseCells (ch : Ch) (fid no owner ptr pool : Nat)
  | requesterGrant (ch : Ch) (pool : Nat)
  | requesterWaitTimeout (ch : Ch) (pool : Nat)
  | shaperRefill (ch : Ch)
  -- table engines (R201 to R291)
  | learn (ch : Ch)
  | move (ch : Ch)
  | stashMigration (ch : Ch) (t : Hashed)
  | ageTick (ch : Ch)
  | sweepRead (ch : Ch)
  | ageDelete (ch : Ch)
  | tableRead (h : AuthHdr) (ch : Ch) (t : Hashed)
  | tableWrite (h : AuthHdr) (ch : Ch) (t : Hashed)
  | tableInsert (h : AuthHdr) (ch : Ch) (t : Hashed)
  | tableDelete (h : AuthHdr) (ch : Ch) (t : Hashed)
  | tableSearch (h : AuthHdr) (ch : Ch) (t : Hashed)
  | tableNext (h : AuthHdr) (ch : Ch) (t : Hashed)
  | flushByPort (h : AuthHdr) (ch : Ch) (sub keepStatic : Bool)
  | ageNow (h : AuthHdr) (ch : Ch)
  | flushVrf (h : AuthHdr) (ch : Ch) (v6 : Bool)
  | cleanFilter (h : AuthHdr) (ch : Ch) (v6 : Bool)
  | lpmSearch (h : AuthHdr) (ch : Ch) (v6 : Bool)
  | tableCommandDone (ch : Ch) (t : Table)
  | searchEntryRead (h : AuthHdr) (ch : Ch)
  | searchEntryWrite (h : AuthHdr) (ch : Ch)
  | searchEntryClear (h : AuthHdr) (ch : Ch)
  | searchCommandSearch (h : AuthHdr) (ch : Ch) (gmask : Nat)
  | nextMatch (h : AuthHdr) (ch : Ch) (gmask : Nat)
  | clearAll (h : AuthHdr) (ch : Ch)
  | searchUpdateApply (ch : Ch)
  | searchScrub (ch : Ch)
  -- capture, check units (R441 to R486)
  | captureIntake (ch : Ch)
  | blockAged (ch : Ch)
  | blockWriteDone (ch : Ch) (ok : Bool)
  | flush (h : AuthHdr) (ch : Ch)
  | freeze (h : AuthHdr) (ch : Ch)
  | captureRelease (h : AuthHdr) (ch : Ch)
  | locate (h : AuthHdr) (ch : Ch)
  | checkStart (h : AuthHdr) (ch : Ch) (unit : Nat)
  | abort (h : AuthHdr) (ch : Ch) (unit : Nat)
  | checkChunk (ch : Ch) (unit : Nat) (readError : Bool)
  | checkJobEnd (ch : Ch) (unit : Nat)
  -- time (R415 to R440)
  | timeTick (ch : Ch)
  | ppsOutFall (ch : Ch)
  | ppsInEdge (ch : Ch)
  | incrementWrite (h : AuthHdr) (ch : Ch) (inc : Nat)
  | offsetStep (h : AuthHdr) (ch : Ch) (offset : Nat)
  | timeSet (h : AuthHdr) (ch : Ch) (time : Nat)
  | copyPartner (h : AuthHdr) (ch : Ch)
  | partnerTimeCopy (ch : Ch)
  | timestampPop (h : AuthHdr) (ch : Ch) (port : Nat)
  -- the rows that were added last to the table
  | islandRelock (ch : Ch) (island : Nat)
  | mateLoopClose
  | falseCarrier (ch : Ch) (k : Nat)
  | receiveLowPowerIdle (ch : Ch) (port : Nat) (entered : Bool)
  | managementLinkChange (up : Bool)
  | notifyIntervalEnd (w : Nat)
  | contactHoldEnd (c : Contact)
  | captureCommandDone (ch : Ch)
  | portResetDone
  | invalidateDone
deriving DecidableEq, Repr

end Sys2Proof
end

