-- ==== Sys2Proof/Machine/Bits.lean ====
section
/-! DEFINITION. Bit fields of register values (R19), byte order, and lists of bytes. -/

namespace Sys2Proof.Machine

/-- Bits `hi` down to `lo` of `v` (R19). -/
def bits (v hi lo : Nat) : Nat := (v >>> lo) % 2 ^ (hi + 1 - lo)

/-- Bit `i` of `v`. -/
def bitOf (v i : Nat) : Bool := (v >>> i) % 2 == 1

/-- The mask of bits `hi` down to `lo`. -/
def maskOf (hi lo : Nat) : Nat := (2 ^ (hi + 1 - lo) - 1) <<< lo

/-- `v` with bits `hi` down to `lo` replaced by `x`. -/
def setBits (v hi lo x : Nat) : Nat :=
  v - (bits v hi lo) * 2 ^ lo + (x % 2 ^ (hi + 1 - lo)) * 2 ^ lo

/-- `v` with bit `i` set to `b`. -/
def setBit (v i : Nat) (b : Bool) : Nat := setBits v i i b.toNat

/-- The bits of `old` outside `mask`, and those of `new` inside it: a write field by field (R609). -/
def maskWrite (mask old new : Nat) : Nat := (old - (old &&& mask)) + (new &&& mask)

/-- A two's complement field of `w` bits. -/
def signedOf (w v : Nat) : Int := if v % 2 ^ w < 2 ^ (w - 1) then (v % 2 ^ w : Nat) else (v % 2 ^ w : Nat) - (2 ^ w : Nat)

/-- The two's complement code of `i` in `w` bits. -/
def codeOf (w : Nat) (i : Int) : Nat := (i % (2 ^ w : Nat)).toNat

/-- `n` bytes of `v`, least significant first (R19). -/
def leBytes : Nat → Nat → List Byte
  | 0, _ => []
  | n + 1, v => BitVec.ofNat 8 v :: leBytes n (v >>> 8)

/-- The number that bytes carry least significant first. -/
def leNat : List Byte → Nat
  | [] => 0
  | b :: t => b.toNat + 256 * leNat t

/-- The number that bytes carry most significant first, as the fields of a frame do. -/
def beNat (l : List Byte) : Nat := l.foldl (fun n b => n * 256 + b.toNat) 0

/-- `n` bytes of `v`, most significant first. -/
def beBytes (n v : Nat) : List Byte := (leBytes n v).reverse

/-- `n` bytes of `l` from offset `o`; bytes past the end are absent. -/
def slice (l : List Byte) (o n : Nat) : List Byte := (l.drop o).take n

/-- Byte `o` of a frame, 0 past its end. -/
def byteAt (l : List Byte) (o : Nat) : Nat := (l.getD o 0).toNat

/-- The big-endian field of `n` bytes at `o`. -/
def field (l : List Byte) (o n : Nat) : Nat := beNat (slice l o n)

/-- `l` with the bytes from `o` on replaced by `x`, within its length. -/
def patch (l : List Byte) (o : Nat) (x : List Byte) : List Byte :=
  (l.take o ++ x ++ l.drop (o + x.length)).take l.length

/-- The smaller sum of 64 bits and its wrap (R114). -/
def wrap64 (n : Nat) : Nat := n % 2 ^ 64

/-- `n` rounded up to a multiple of 256, in cells (R342). -/
def cellsOf (bytes : Nat) : Nat := (bytes + 255) / 256

/-- Element `i` of a list replaced. -/
def setAt {α : Type} : List α → Nat → α → List α
  | [], _, _ => []
  | _ :: t, 0, v => v :: t
  | a :: t, i + 1, v => a :: setAt t i v

/-- The numbers from `lo` on, `n` of them. -/
def upFrom (lo n : Nat) : List Nat := (List.range n).map (lo + ·)

end Sys2Proof.Machine
end

