-- ==== Sys2Proof/Machine/Dictionary.lean ====
section
/-! DEFINITION. The dictionary: every object of the two map chapters with its type, access, class, writable bits
and default (R631 to R662). -/

namespace Sys2Proof.Machine

/-- The sizes of R608: a number of so many bytes, BOOL, or a window of entries of so many bytes. -/
inductive Ty where
  | num (bytes : Nat)
  | bool
  | window (size entries : Nat)
deriving DecidableEq, Repr

/-- The access codes of R609. `counter` is RW that takes a write of 0 only (R114, R632). -/
inductive Acc where
  | ro
  | rw
  | wo
  | rws
  | w1c
  | roh
  | counter
deriving DecidableEq, Repr

/-- The persistence classes of R20. -/
inductive Keep where
  | P
  | S
  | V
  | T
deriving DecidableEq, Repr

/-- One line of the map: an index range, its sub-index ranges, type, access, class, the bits that a WRITE reaches
(of an entry, for a window) and the default value. -/
structure Obj where
  lo   : Nat
  hi   : Nat
  subs : List (Nat × Nat)
  ty   : Ty
  acc  : Acc
  keep : Keep
  mask : Nat
  dflt : Nat
deriving DecidableEq, Repr

/-- The module objects of R635 to R645, part 1. -/
def moduleObjs1 : List Obj :=
  [
   ⟨0x1000, 0x1000, [(0, 0)], .num 4, .ro, .V, 0x0, 0x50564B53⟩,
   ⟨0x1001, 0x1001, [(0, 0)], .num 16, .ro, .V, 0x0, 0x3639584B20594C4C45525453⟩,
   ⟨0x1002, 0x1002, [(0, 0)], .num 1, .ro, .V, 0x0, 0x41⟩,
   ⟨0x1003, 0x1003, [(0, 0)], .num 2, .ro, .V, 0x0, 0x0⟩,
   ⟨0x1004, 0x1004, [(0, 0)], .num 16, .ro, .V, 0x0, 0x0⟩,
   ⟨0x1005, 0x1005, [(0, 0)], .num 4, .ro, .V, 0x0, 0x7F⟩,
   ⟨0x1006, 0x1006, [(0, 0)], .num 4, .ro, .V, 0x0, 0x0⟩,
   ⟨0x1100, 0x1100, [(0, 0)], .num 1, .ro, .V, 0x0, 0x1⟩,
   ⟨0x1101, 0x1101, [(0, 0)], .num 1, .rw, .V, 0xFF, 0x2⟩,
   ⟨0x1102, 0x1102, [(1, 1)], .num 4, .ro, .V, 0x0, 0x0⟩,
   ⟨0x1102, 0x1102, [(2, 2)], .num 4, .ro, .V, 0x0, 0x0⟩,
   ⟨0x1102, 0x1102, [(3, 3)], .num 4, .ro, .V, 0x0, 0x0⟩,
   ⟨0x1103, 0x1103, [(1, 1)], .num 4, .ro, .V, 0x0, 0x0⟩,
   ⟨0x1103, 0x1103, [(2, 2)], .num 4, .ro, .V, 0x0, 0x0⟩,
   ⟨0x1103, 0x1103, [(3, 3)], .num 4, .ro, .V, 0x0, 0x0⟩,
   ⟨0x1104, 0x1104, [(0, 0)], .num 8, .rw, .P, 0xFFFFFF00000000F9, 0x64100000000020⟩,
   ⟨0x1105, 0x1105, [(0, 0)], .num 8, .rw, .S, 0xBFFFFFFFFFFFFFFF, 0x0⟩,
   ⟨0x1106, 0x1106, [(0, 0)], .num 4, .w1c, .V, 0xFF, 0x0⟩,
   ⟨0x1107, 0x1107, [(0, 0)], .num 4, .ro, .V, 0x0, 0x0⟩,
   ⟨0x1108, 0x1108, [(1, 6)], .num 8, .counter, .V, 0x0, 0x0⟩,
   ⟨0x1109, 0x1109, [(0, 0)], .num 4, .rws, .V, 0x7F10, 0x0⟩,
   ⟨0x110A, 0x110A, [(1, 1)], .num 4, .ro, .V, 0x0, 0x0⟩,
   ⟨0x110A, 0x110A, [(2, 2)], .num 4, .ro, .V, 0x0, 0x0⟩,
   ⟨0x110A, 0x110A, [(3, 3)], .num 4, .ro, .V, 0x0, 0x0⟩,
   ⟨0x1200, 0x1200, [(1, 1)], .num 4, .ro, .V, 0x0, 0x0⟩,
   ⟨0x1200, 0x1200, [(2, 2)], .num 8, .ro, .V, 0x0, 0x0⟩,
   ⟨0x1200, 0x1200, [(3, 3)], .num 8, .ro, .V, 0x0, 0x0⟩,
   ⟨0x1200, 0x1200, [(4, 4)], .num 8, .ro, .V, 0x0, 0x0⟩,
   ⟨0x1200, 0x1200, [(5, 5)], .num 2, .ro, .V, 0x0, 0x0⟩,
   ⟨0x1200, 0x1200, [(6, 6)], .num 4, .w1c, .V, 0xFF, 0x0⟩,
   ⟨0x1200, 0x1200, [(7, 7)], .num 4, .rw, .P, 0xFFFF, 0x1F4⟩,
   ⟨0x1300, 0x1300, [(1, 1)], .num 4, .rw, .P, 0xFF0001, 0x400001⟩,
   ⟨0x1300, 0x1300, [(2, 2)], .num 4, .ro, .V, 0x0, 0x0⟩,
   ⟨0x1300, 0x1300, [(3, 3)], .num 4, .ro, .V, 0x0, 0x0⟩,
   ⟨0x1300, 0x1300, [(4, 4)], .num 4, .rws, .V, 0x100, 0x0⟩,
   ⟨0x1300, 0x1300, [(5, 5)], .num 8, .rw, .P, 0xFFFFFFFFFFFFFFFF, 0x1800B400780000⟩,
   ⟨0x1300, 0x1300, [(6, 6)], .num 8, .ro, .V, 0x0, 0x0⟩,
   ⟨0x1300, 0x1300, [(7, 7)], .num 4, .ro, .V, 0x0, 0x0⟩,
   ⟨0x1300, 0x1300, [(8, 8)], .num 4, .ro, .V, 0x0, 0x0⟩,
   ⟨0x1300, 0x1300, [(9, 9)], .num 4, .ro, .V, 0x0, 0x0⟩
  ]

/-- The module objects of R635 to R645, part 2. -/
def moduleObjs2 : List Obj :=
  [
   ⟨0x1300, 0x1300, [(10, 10)], .num 4, .w1c, .V, 0xFF, 0x0⟩,
   ⟨0x1300, 0x1300, [(11, 11)], .num 8, .ro, .V, 0x0, 0x0⟩,
   ⟨0x1310, 0x1310, [(1, 11)], .num 8, .counter, .V, 0x0, 0x0⟩,
   ⟨0x1400, 0x1400, [(1, 1)], .num 4, .rw, .P, 0xFFFF333F, 0x3E8000E⟩,
   ⟨0x1400, 0x1400, [(2, 2)], .num 4, .rw, .P, 0xFFFF, 0x12C⟩,
   ⟨0x1400, 0x1400, [(3, 3)], .num 4, .ro, .V, 0x0, 0x0⟩,
   ⟨0x1400, 0x1400, [(4, 4)], .num 8, .ro, .V, 0x0, 0x0⟩,
   ⟨0x1400, 0x1400, [(5, 5)], .num 8, .rw, .P, 0x7F00FFFFFFFFFFFF, 0x0⟩,
   ⟨0x1400, 0x1400, [(6, 6)], .num 8, .rw, .P, 0xFFFFFFFFFFFF, 0x0⟩,
   ⟨0x1400, 0x1400, [(7, 7)], .num 4, .w1c, .V, 0xFF, 0x0⟩,
   ⟨0x1400, 0x1400, [(16, 16)], .num 32, .wo, .P, 0xFFFFFFFFFFFFFFFFFFFFFFFFFFFFFFFFFFFFFFFFFFFFFFFFFFFFFFFFFFFFFFFF, 0x0⟩,
   ⟨0x1400, 0x1400, [(17, 19)], .num 32, .wo, .P, 0xFFFFFFFFFFFFFFFFFFFFFFFFFFFFFFFFFFFFFFFFFFFFFFFFFFFFFFFFFFFFFFFF, 0x0⟩,
   ⟨0x1410, 0x1410, [(0, 0)], .window 16 8, .ro, .V, 0x0, 0x0⟩,
   ⟨0x1420, 0x1420, [(1, 16)], .num 4, .rw, .P, 0xFFFFFF01, 0x0⟩,
   ⟨0x1430, 0x1430, [(1, 17)], .num 8, .counter, .V, 0x0, 0x0⟩,
   ⟨0x1500, 0x1500, [(1, 1)], .num 4, .rws, .V, 0x110, 0x0⟩,
   ⟨0x1500, 0x1500, [(2, 2)], .num 8, .ro, .V, 0x0, 0x0⟩,
   ⟨0x1500, 0x1500, [(3, 3)], .num 8, .ro, .V, 0x0, 0x0⟩,
   ⟨0x1500, 0x1500, [(4, 4)], .num 8, .ro, .V, 0x0, 0x0⟩,
   ⟨0x1500, 0x1500, [(5, 5)], .num 4, .rws, .V, 0x0, 0x0⟩,
   ⟨0x1500, 0x1500, [(6, 6)], .num 8, .ro, .V, 0x0, 0x0⟩,
   ⟨0x1510, 0x1510, [(0, 0)], .window 64 65536, .rw, .V, 0xFFFFFFFFFFFFFFFFFFFFFFFFFFFFFFFFFFFFFFFFFFFFFFFFFFFFFFFFFFFFFFFFFFFFFFFFFFFFFFFFFFFFFFFFFFFFFFFFFFFFFFFFFFFFFFFFFFFFFFFFFFFFFFFF, 0x0⟩,
   ⟨0x1600, 0x1600, [(1, 1)], .num 8, .ro, .V, 0x0, 0x0⟩,
   ⟨0x1600, 0x1600, [(2, 2)], .num 8, .counter, .V, 0x0, 0x0⟩,
   ⟨0x1601, 0x1601, [(0, 0)], .window 32 262144, .ro, .V, 0x0, 0x0⟩
  ]

/-- The module objects of R635 to R645. -/
def moduleObjs : List Obj := moduleObjs1 ++ moduleObjs2

/-- The channel objects of R651 to R662, part 1. -/
def channelObjs1 : List Obj :=
  [
   ⟨0x4000, 0x4000, [(1, 1)], .num 1, .ro, .V, 0x0, 0x0⟩,
   ⟨0x4000, 0x4000, [(16, 16)], .num 4, .rw, .P, 0x30, 0x0⟩,
   ⟨0x4000, 0x4000, [(17, 17)], .num 4, .ro, .V, 0x0, 0x0⟩,
   ⟨0x4000, 0x4000, [(18, 18)], .num 2, .ro, .V, 0x0, 0x0⟩,
   ⟨0x4000, 0x4000, [(19, 26)], .num 2, .ro, .V, 0x0, 0x0⟩,
   ⟨0x4000, 0x4000, [(27, 27)], .num 4, .ro, .V, 0x0, 0x0⟩,
   ⟨0x4000, 0x4000, [(28, 28)], .num 2, .ro, .V, 0x0, 0x0⟩,
   ⟨0x4000, 0x4000, [(29, 29)], .num 8, .counter, .V, 0x0, 0x0⟩,
   ⟨0x4000, 0x4000, [(30, 30)], .num 4, .ro, .V, 0x0, 0x0⟩,
   ⟨0x4000, 0x4000, [(31, 31)], .num 8, .counter, .V, 0x0, 0x0⟩,
   ⟨0x4000, 0x4000, [(32, 32)], .num 4, .ro, .V, 0x0, 0x0⟩,
   ⟨0x4000, 0x4000, [(33, 33)], .num 4, .w1c, .V, 0x1F, 0x0⟩,
   ⟨0x4100, 0x4100, [(1, 48)], .num 4, .rw, .P, 0xFC0FC01, 0x4000000⟩,
   ⟨0x4101, 0x4101, [(1, 48)], .num 2, .rw, .P, 0xFFF, 0x17E⟩,
   ⟨0x4102, 0x4102, [(1, 48)], .num 4, .ro, .V, 0x0, 0x0⟩,
   ⟨0x4103, 0x4103, [(1, 48)], .num 2, .rw, .P, 0xFFFF, 0x5F2⟩,
   ⟨0x4104, 0x4104, [(1, 48)], .num 4, .rw, .P, 0x7FFFFFF, 0xFFFF⟩,
   ⟨0x4105, 0x4105, [(1, 48)], .num 4, .rw, .P, 0xFFFFFF, 0xFAC688⟩,
   ⟨0x4106, 0x4106, [(1, 48)], .num 2, .rw, .P, 0xFFFF, 0x32⟩,
   ⟨0x4107, 0x4107, [(1, 48)], .num 4, .rw, .P, 0xFFFF, 0x0⟩,
   ⟨0x4108, 0x4108, [(1, 48)], .num 8, .rw, .P, 0x30000FFFFFFFF, 0x3000000008000⟩,
   ⟨0x4109, 0x4109, [(1, 48)], .num 8, .ro, .V, 0x0, 0x0⟩,
   ⟨0x410A, 0x410A, [(1, 48)], .num 8, .rw, .P, 0xFFFFFFFFFFFF, 0x0⟩,
   ⟨0x410B, 0x410B, [(1, 48)], .num 8, .ro, .V, 0x0, 0x0⟩,
   ⟨0x410C, 0x410C, [(1, 1)], .num 8, .rw, .P, 0xFFFFFFFFFFFFFFFF, 0x8000000000000000⟩,
   ⟨0x410D, 0x410D, [(1, 48)], .num 4, .w1c, .V, 0xFF, 0x0⟩,
   ⟨0x410E, 0x410E, [(1, 12)], .num 4, .ro, .V, 0x0, 0x0⟩,
   ⟨0x4110, 0x4128, [(1, 48)], .num 8, .counter, .V, 0x0, 0x0⟩,
   ⟨0x4200, 0x4200, [(1, 16)], .num 4, .rw, .P, 0x3D, 0x4⟩,
   ⟨0x4201, 0x4201, [(1, 16)], .num 8, .rw, .P, 0xFFFFFFFFFF, 0x880002000⟩,
   ⟨0x4202, 0x4202, [(1, 16)], .num 4, .ro, .V, 0x0, 0x0⟩,
   ⟨0x4203, 0x4203, [(1, 16)], .num 4, .rw, .P, 0xB3, 0x80⟩,
   ⟨0x4204, 0x4204, [(1, 16)], .num 4, .rw, .P, 0xFFFF, 0x100⟩,
   ⟨0x4205, 0x4205, [(1, 16)], .num 4, .rw, .T, 0xFFFF, 0x100⟩,
   ⟨0x4206, 0x4206, [(1, 16)], .num 4, .w1c, .V, 0x3F, 0x0⟩,
   ⟨0x4207, 0x4207, [(1, 16)], .num 2, .rw, .P, 0xFFFF, 0x5F2⟩,
   ⟨0x420E, 0x420E, [(1, 1)], .num 4, .ro, .V, 0x0, 0x0⟩,
   ⟨0x4210, 0x4223, [(1, 16)], .num 8, .counter, .V, 0x0, 0x0⟩,
   ⟨0x4230, 0x4230, [(0, 31)], .num 16, .rw, .P, 0xFFFFFFFFFFFFFFFFFFFFFFFFFFFFFFFF, 0x0⟩,
   ⟨0x4231, 0x4231, [(0, 31)], .num 4, .rw, .P, 0x3FFFFFF, 0x0⟩
  ]

/-- The channel objects of R651 to R662, part 2. -/
def channelObjs2 : List Obj :=
  [
   ⟨0x4232, 0x4232, [(0, 0)], .num 4, .w1c, .V, 0xFFFFFFFF, 0x0⟩,
   ⟨0x4233, 0x4233, [(0, 31)], .num 8, .counter, .V, 0x0, 0x0⟩,
   ⟨0x4250, 0x4250, [(1, 4)], .num 4, .rw, .P, 0x3000003, 0x2⟩,
   ⟨0x4251, 0x4251, [(1, 4)], .num 4, .ro, .V, 0x0, 0x0⟩,
   ⟨0x4252, 0x4252, [(1, 1)], .num 4, .rw, .P, 0x3FFFC3FF, 0x10064⟩,
   ⟨0x4253, 0x4253, [(1, 4)], .num 2, .rw, .P, 0xFFFF, 0x5F2⟩,
   ⟨0x4254, 0x4254, [(1, 4)], .num 4, .rw, .P, 0x7FFFFFF, 0xFFFF⟩,
   ⟨0x4255, 0x4255, [(1, 4)], .num 4, .rw, .P, 0xFFFFFF, 0xFAC688⟩,
   ⟨0x4256, 0x4256, [(1, 4)], .num 8, .ro, .V, 0x0, 0x0⟩,
   ⟨0x4257, 0x4257, [(0, 0)], .window 1 65536, .rw, .P, 0x7, 0x0⟩,
   ⟨0x4259, 0x4259, [(0, 0)], .window 16 65536, .rw, .P, 0xFFFFFFFFFFFFFFFFFFFFFFFFFFFFFFFF, 0x0⟩,
   ⟨0x425D, 0x425D, [(1, 4)], .num 4, .w1c, .V, 0xFF, 0x0⟩,
   ⟨0x425E, 0x425E, [(1, 2)], .num 4, .ro, .V, 0x0, 0x0⟩,
   ⟨0x4260, 0x427C, [(1, 4)], .num 8, .counter, .V, 0x0, 0x0⟩,
   ⟨0x4301, 0x4301, [(1, 54), (65, 80)], .num 2, .rw, .P, 0x7F0F, 0x100⟩,
   ⟨0x4302, 0x4302, [(1, 64)], .num 8, .rw, .P, 0x3FFFFFFFFFFFFFF, 0x0⟩,
   ⟨0x4303, 0x4303, [(1, 64)], .num 4, .rw, .P, 0x1FFFFFF, 0x1000000⟩,
   ⟨0x4304, 0x4304, [(0, 0)], .window 48 64, .rw, .P, 0xFF0FFF0FFF0FFF0FFF0FFF0FFF0FFF0FFF0FFF0FFF0FFF0FFF0FFF0FFF0FFF0FFF0FFF0FFF0FFF0FFF0FFF0FFF0FFF0F, 0x0⟩,
   ⟨0x4305, 0x4305, [(1, 64)], .num 4, .rw, .P, 0x7FFFFFF, 0x1FFFFFF⟩,
   ⟨0x4306, 0x4306, [(1, 64)], .num 8, .rw, .P, 0xFFFFFFFFFFFFFFF, 0xFFFFFFFFFFFFFFF⟩,
   ⟨0x4307, 0x4307, [(1, 64)], .num 4, .rw, .P, 0x1FFFFFF, 0x0⟩,
   ⟨0x4310, 0x4310, [(0, 0)], .window 8 65536, .rw, .P, 0xF0000000037FFFFF, 0x0⟩,
   ⟨0x4311, 0x4311, [(0, 0)], .window 16 4096, .rw, .P, 0xFFFFFFFF0001FFFF00001FFF0000FFFF, 0x0⟩,
   ⟨0x4320, 0x4320, [(1, 64)], .num 8, .counter, .V, 0x0, 0x0⟩,
   ⟨0x4321, 0x4321, [(1, 2)], .num 8, .counter, .V, 0x0, 0x0⟩,
   ⟨0x4322, 0x4322, [(1, 4)], .num 8, .counter, .V, 0x0, 0x0⟩,
   ⟨0x4323, 0x4323, [(1, 3)], .num 8, .counter, .V, 0x0, 0x0⟩,
   ⟨0x4324, 0x4324, [(1, 3)], .num 8, .counter, .V, 0x0, 0x0⟩,
   ⟨0x432F, 0x432F, [(1, 1)], .num 4, .w1c, .V, 0x3F, 0x0⟩,
   ⟨0x4400, 0x4400, [(0, 0)], .num 4, .rw, .P, 0x7FFFFFFF, 0x12C03E8⟩,
   ⟨0x4401, 0x4401, [(0, 0)], .num 8, .ro, .V, 0x0, 0x0⟩,
   ⟨0x4402, 0x4402, [(0, 0)], .num 4, .w1c, .V, 0x7F, 0x0⟩,
   ⟨0x4403, 0x4403, [(0, 0)], .window 2 4096, .rw, .P, 0xFFF, 0x0⟩,
   ⟨0x4404, 0x4404, [(1, 53), (65, 80)], .num 4, .rw, .P, 0x7FFFFFFF, 0x1⟩,
   ⟨0x4405, 0x4405, [(1, 48)], .num 4, .rw, .P, 0xFFFF, 0x1000⟩,
   ⟨0x4406, 0x4406, [(1, 48)], .num 4, .rw, .T, 0xFFFF, 0x1000⟩,
   ⟨0x4407, 0x4407, [(0, 0)], .num 8, .rw, .P, 0x3FFFFFFFFFF, 0x10000080000⟩,
   ⟨0x4408, 0x4408, [(0, 0)], .window 8 32768, .rw, .P, 0xFFFFFFFF, 0x0⟩,
   ⟨0x4410, 0x4410, [(1, 1)], .num 4, .rws, .V, 0x0, 0x80⟩,
   ⟨0x4410, 0x4410, [(2, 2)], .num 8, .rw, .V, 0xFFFFFFFFFFFFFFFF, 0x0⟩
  ]

/-- The channel objects of R651 to R662, part 3. -/
def channelObjs3 : List Obj :=
  [
   ⟨0x4410, 0x4410, [(3, 3)], .num 16, .rw, .V, 0xFFFFFFFFFFFFFFFFFFFFFFFFFFFFFFFF, 0x0⟩,
   ⟨0x4410, 0x4410, [(4, 4)], .num 4, .rw, .V, 0xFFFFFFFF, 0x0⟩,
   ⟨0x4410, 0x4410, [(5, 6)], .num 4, .ro, .V, 0x0, 0x0⟩,
   ⟨0x4411, 0x4411, [(0, 0)], .window 16 1048640, .ro, .T, 0x0, 0x0⟩,
   ⟨0x4420, 0x4420, [(1, 1)], .num 4, .rws, .V, 0x0, 0x80⟩,
   ⟨0x4420, 0x4420, [(2, 2)], .num 4, .rw, .V, 0xFFFFFFFF, 0x0⟩,
   ⟨0x4420, 0x4420, [(3, 3)], .num 8, .rw, .V, 0xFFFFFFFFFFFFFFFF, 0x0⟩,
   ⟨0x4420, 0x4420, [(4, 4)], .num 4, .rw, .V, 0xFFFFFFFF, 0x0⟩,
   ⟨0x4420, 0x4420, [(5, 6)], .num 4, .ro, .V, 0x0, 0x0⟩,
   ⟨0x4421, 0x4421, [(0, 0)], .window 8 65600, .ro, .T, 0x0, 0x0⟩,
   ⟨0x4430, 0x4438, [(1, 1)], .num 8, .counter, .V, 0x0, 0x0⟩,
   ⟨0x4439, 0x443B, [(1, 2)], .num 8, .counter, .V, 0x0, 0x0⟩,
   ⟨0x4500, 0x4500, [(1, 1)], .num 8, .ro, .V, 0x0, 0x0⟩,
   ⟨0x4500, 0x4500, [(2, 2)], .num 4, .ro, .V, 0x0, 0x0⟩,
   ⟨0x4501, 0x4501, [(0, 0)], .window 1 4096, .rw, .P, 0xFF, 0x0⟩,
   ⟨0x4502, 0x4502, [(0, 0)], .window 8 256, .rw, .P, 0x70000000000, 0x0⟩,
   ⟨0x4503, 0x4503, [(1, 16)], .num 8, .rw, .P, 0xFFFFFFFFFFFF, 0x0⟩,
   ⟨0x4504, 0x4504, [(0, 0)], .window 8 262144, .ro, .T, 0x0, 0x0⟩,
   ⟨0x4505, 0x4505, [(0, 0)], .window 24 2097152, .ro, .T, 0x0, 0x0⟩,
   ⟨0x4506, 0x4506, [(0, 0)], .window 16 65536, .rw, .P, 0xF003FFFFFFFFFFFFFFFF0000007F007F, 0x0⟩,
   ⟨0x4510, 0x4510, [(1, 1)], .num 4, .rws, .V, 0x0, 0x0⟩,
   ⟨0x4510, 0x4510, [(2, 2)], .num 20, .rw, .V, 0xFFFFFFFFFFFFFFFFFFFFFFFFFFFFFFFFFFFFFFFF, 0x0⟩,
   ⟨0x4510, 0x4510, [(3, 3)], .num 8, .rw, .V, 0xFFFFFFFFFFFFFFFF, 0x0⟩,
   ⟨0x4510, 0x4510, [(4, 4)], .num 4, .rw, .V, 0xFFFFFFFF, 0x0⟩,
   ⟨0x4510, 0x4510, [(5, 6)], .num 4, .ro, .V, 0x0, 0x0⟩,
   ⟨0x4511, 0x4511, [(0, 0)], .window 28 524352, .ro, .T, 0x0, 0x0⟩,
   ⟨0x4512, 0x4512, [(0, 0)], .window 28 262208, .ro, .T, 0x0, 0x0⟩,
   ⟨0x451F, 0x451F, [(1, 1)], .num 4, .w1c, .V, 0xF, 0x0⟩,
   ⟨0x4520, 0x4525, [(1, 2)], .num 8, .counter, .V, 0x0, 0x0⟩,
   ⟨0x4600, 0x4600, [(1, 1)], .num 4, .rw, .P, 0x3, 0x2⟩,
   ⟨0x4600, 0x4600, [(2, 2)], .num 4, .ro, .V, 0x0, 0x0⟩,
   ⟨0x4601, 0x4601, [(1, 64)], .num 4, .rw, .P, 0x10F, 0x0⟩,
   ⟨0x4602, 0x4602, [(1, 16)], .num 40, .rw, .P, 0xFFFFFFFFFFFFFFFFFFFFFFFFFFFFFFFFFFFFFFFFFFFFFFFFFFFFFFFFFFFFFFFFFFFFFFFFFFFFFFFF, 0x0⟩,
   ⟨0x4610, 0x4610, [(0, 0)], .window 96 32768, .ro, .T, 0x0, 0x0⟩,
   ⟨0x4611, 0x4611, [(0, 0)], .window 8 32768, .counter, .V, 0x0, 0x0⟩,
   ⟨0x461F, 0x461F, [(1, 1)], .num 4, .w1c, .V, 0xF, 0x0⟩,
   ⟨0x4620, 0x4620, [(1, 1)], .num 4, .rws, .V, 0x0, 0x0⟩,
   ⟨0x4620, 0x4620, [(2, 2)], .num 40, .rw, .V, 0xFFFFFFFFFFFFFFFFFFFFFFFFFFFFFFFFFFFFFFFFFFFFFFFFFFFFFFFFFFFFFFFFFFFFFFFFFFFFFFFF, 0x0⟩,
   ⟨0x4620, 0x4620, [(3, 3)], .num 96, .rw, .V, 0xFFFFFFFFFFFFFFFFFFFFFFFFFFFFFFFFFFFFFFFFFFFFFFFFFFFFFFFFFFFFFFFFFFFFFFFFFFFFFFFFFFFFFFFFFFFFFFFFFFFFFFFFFFFFFFFFFFFFFFFFFFFFFFFFFFFFFFFFFFFFFFFFFFFFFFFFFFFFFFFFFFFFFFFFFFFFFFFFFFFFFFFFFFFFFFFF, 0x0⟩,
   ⟨0x4620, 0x4620, [(4, 4)], .num 4, .rw, .V, 0xFFFFFFFF, 0x0⟩
  ]

/-- The channel objects of R651 to R662, part 4. -/
def channelObjs4 : List Obj :=
  [
   ⟨0x4620, 0x4620, [(5, 6)], .num 4, .ro, .V, 0x0, 0x0⟩,
   ⟨0x4630, 0x4636, [(1, 1)], .num 8, .counter, .V, 0x0, 0x0⟩,
   ⟨0x4700, 0x4700, [(1, 1)], .num 4, .rw, .S, 0x76, 0x2⟩,
   ⟨0x4700, 0x4700, [(2, 2)], .num 4, .ro, .V, 0x0, 0x0⟩,
   ⟨0x4701, 0x4701, [(1, 1)], .num 4, .ro, .V, 0x0, 0x0⟩,
   ⟨0x4701, 0x4701, [(2, 2)], .num 4, .ro, .V, 0x0, 0x0⟩,
   ⟨0x4703, 0x4703, [(1, 64)], .num 2, .rw, .P, 0x3FFF, 0x0⟩,
   ⟨0x4704, 0x4704, [(1, 64)], .num 4, .rw, .P, 0xFFFF033F, 0x8⟩,
   ⟨0x4705, 0x4705, [(1, 64)], .num 4, .rw, .P, 0xFFFFFF, 0xFAC688⟩,
   ⟨0x4706, 0x4706, [(1, 10)], .num 2, .rw, .P, 0x3FFF, 0x18⟩,
   ⟨0x4707, 0x4707, [(1, 1)], .num 4, .rws, .V, 0x0, 0x0⟩,
   ⟨0x4707, 0x4707, [(2, 2)], .num 8, .rw, .V, 0xFFFFFFFFFFFFFFFF, 0x0⟩,
   ⟨0x4707, 0x4707, [(3, 3)], .num 8, .ro, .V, 0x0, 0x0⟩,
   ⟨0x4708, 0x4708, [(1, 1)], .num 8, .rw, .S, 0xBFFFFFFFFFFFFFFF, 0x0⟩,
   ⟨0x4708, 0x4708, [(2, 2)], .num 4, .rw, .S, 0xFFFFFFFF, 0x0⟩,
   ⟨0x470E, 0x470E, [(1, 1)], .num 4, .ro, .V, 0x0, 0x0⟩,
   ⟨0x4710, 0x4710, [(0, 0)], .window 32 16384, .rw, .P, 0xFFFFFFFFFFFFFFFFFFFFFFFFFFFFFFFFFFFFFFFFFFFFFFFF, 0x0⟩,
   ⟨0x4712, 0x4712, [(1, 1)], .num 8, .ro, .V, 0x0, 0x0⟩,
   ⟨0x471F, 0x471F, [(1, 1)], .num 4, .w1c, .V, 0xFF, 0x0⟩,
   ⟨0x4720, 0x4720, [(1, 15)], .num 8, .counter, .V, 0x0, 0x0⟩,
   ⟨0x4721, 0x4721, [(1, 3)], .num 8, .counter, .V, 0x0, 0x0⟩,
   ⟨0x4722, 0x4723, [(1, 1)], .num 8, .counter, .V, 0x0, 0x0⟩,
   ⟨0x4724, 0x4724, [(1, 13)], .num 8, .counter, .V, 0x0, 0x0⟩,
   ⟨0x4725, 0x4725, [(1, 64)], .num 4, .counter, .V, 0x0, 0x0⟩,
   ⟨0x4800, 0x4800, [(1, 1)], .num 8, .ro, .V, 0x0, 0x0⟩,
   ⟨0x4800, 0x4800, [(2, 2)], .num 4, .ro, .V, 0x0, 0x0⟩,
   ⟨0x4800, 0x4800, [(3, 3)], .num 8, .rw, .P, 0xFFFFFFFF, 0x10000⟩,
   ⟨0x4801, 0x4801, [(0, 0)], .window 32 15, .rw, .P, 0xFFFFFFFFFFFFFFFFFFFFFFFFFFFFFFFFFFFFFFFFFFFFFFFF000000FFFFFF0033, 0x0⟩,
   ⟨0x4802, 0x4802, [(0, 0)], .window 16 16, .ro, .V, 0x0, 0x0⟩,
   ⟨0x4803, 0x4803, [(1, 1)], .num 8, .rw, .P, 0xFFFFFFFFF, 0xE00000400⟩,
   ⟨0x4803, 0x4803, [(2, 2)], .num 8, .rw, .P, 0xFFFFFFFFF, 0x400⟩,
   ⟨0x4803, 0x4803, [(3, 3)], .num 8, .rw, .P, 0xFFFFFFFFF, 0xD00000040⟩,
   ⟨0x4803, 0x4803, [(4, 4)], .num 8, .rw, .P, 0xFFFFFFFFF, 0x100⟩,
   ⟨0x4804, 0x4804, [(1, 15)], .num 4, .w1c, .V, 0x3F, 0x0⟩,
   ⟨0x4805, 0x4805, [(1, 52)], .num 4, .ro, .V, 0x0, 0x0⟩,
   ⟨0x480E, 0x480E, [(1, 1)], .num 4, .ro, .V, 0x0, 0x0⟩,
   ⟨0x480F, 0x480F, [(1, 1)], .num 4, .w1c, .V, 0x1F, 0x0⟩,
   ⟨0x4810, 0x4810, [(0, 0)], .window 16 1024, .rw, .P, 0xFFFFFFFFFFFFFFFFFFFF00FF87000000, 0x0⟩,
   ⟨0x4811, 0x4811, [(1, 54), (65, 80)], .num 8, .rw, .P, 0xFFFFFFFFFFFFFF03, 0x10000000000000⟩,
   ⟨0x4820, 0x4820, [(1, 12)], .num 8, .counter, .V, 0x0, 0x0⟩
  ]

/-- The channel objects of R651 to R662, part 5. -/
def channelObjs5 : List Obj :=
  [
   ⟨0x4821, 0x4822, [(1, 2)], .num 8, .counter, .V, 0x0, 0x0⟩,
   ⟨0x4823, 0x4823, [(1, 1)], .num 8, .counter, .V, 0x0, 0x0⟩,
   ⟨0x4824, 0x4824, [(1, 4)], .num 8, .counter, .V, 0x0, 0x0⟩,
   ⟨0x4825, 0x4825, [(1, 1)], .num 8, .counter, .V, 0x0, 0x0⟩,
   ⟨0x4900, 0x4900, [(1, 1)], .num 8, .ro, .V, 0x0, 0x0⟩,
   ⟨0x4901, 0x4901, [(1, 49), (51, 51), (53, 54), (65, 80)], .num 4, .rw, .P, 0x1FFFFFFF, 0x10003F00⟩,
   ⟨0x4902, 0x4902, [(1, 54)], .num 8, .rw, .P, 0x80FFFFFFFFFFFFFF, 0x800000000000⟩,
   ⟨0x4903, 0x4903, [(0, 0)], .window 8 32768, .rw, .P, 0x7F000001F0FFFFFF, 0x0⟩,
   ⟨0x4904, 0x4904, [(0, 0)], .window 8 32768, .rw, .P, 0x80FFFFFFFFFFFFFF, 0x0⟩,
   ⟨0x4905, 0x4905, [(0, 0)], .window 8 262144, .rw, .P, 0x80FFFFFFFFFFFFFF, 0x0⟩,
   ⟨0x4906, 0x4906, [(1, 16)], .num 8, .rw, .P, 0xFFFFFFFFFF, 0x101010101⟩,
   ⟨0x4907, 0x4907, [(1, 54)], .num 8, .rw, .V, 0xFFFFFFFFFFFFFFFF, 0x0⟩,
   ⟨0x4908, 0x4908, [(0, 0)], .window 8 32768, .rw, .V, 0xFFFFFFFFFFFFFFFF, 0x0⟩,
   ⟨0x4909, 0x4909, [(0, 0)], .window 8 262144, .rw, .V, 0xFFFFFFFFFFFFFFFF, 0x0⟩,
   ⟨0x490F, 0x490F, [(1, 1)], .num 4, .w1c, .V, 0x7, 0x0⟩,
   ⟨0x4910, 0x4910, [(0, 0)], .window 8 262144, .ro, .V, 0x0, 0x0⟩,
   ⟨0x4911, 0x4911, [(0, 0)], .window 8 1024, .ro, .V, 0x0, 0x0⟩,
   ⟨0x4912, 0x4912, [(1, 49), (51, 51), (53, 54), (65, 80)], .num 4, .ro, .V, 0x0, 0x0⟩,
   ⟨0x4920, 0x4920, [(0, 0)], .window 32 262144, .counter, .V, 0x0, 0x0⟩,
   ⟨0x4921, 0x4921, [(0, 0)], .window 32 1024, .counter, .V, 0x0, 0x0⟩,
   ⟨0x4922, 0x4922, [(1, 54), (65, 80)], .num 8, .counter, .V, 0x0, 0x0⟩,
   ⟨0x4923, 0x4924, [(1, 8)], .num 8, .counter, .V, 0x0, 0x0⟩,
   ⟨0x4A0F, 0x4A0F, [(1, 1)], .num 4, .w1c, .V, 0x3, 0x0⟩,
   ⟨0x4A10, 0x4A10, [(0, 0)], .window 16 524288, .rw, .P, 0xF8FFFFFFFFFFFF00FFFFFFFFFFFFFFFF, 0x0⟩,
   ⟨0x4A11, 0x4A11, [(0, 0)], .window 16 524288, .rw, .V, 0xFFFFFFFFFFFFFFFFFFFFFFFFFFFFFFFF, 0x0⟩,
   ⟨0x4A20, 0x4A20, [(0, 0)], .window 24 524288, .counter, .V, 0x0, 0x0⟩,
   ⟨0x4A30, 0x4A30, [(1, 4)], .num 8, .counter, .V, 0x0, 0x0⟩,
   ⟨0x4A40, 0x4A40, [(0, 0)], .window 32 16, .rw, .P, 0xFFFFFFFFFFFFFFFFFFFFFFFFFFFFFFFFFFFFFFFFFFFFFFFFFFFFFF000000000F, 0x0⟩,
   ⟨0x4B00, 0x4B00, [(1, 1)], .num 4, .rw, .P, 0x11, 0x0⟩,
   ⟨0x4B00, 0x4B00, [(2, 2)], .num 4, .ro, .V, 0x0, 0x0⟩,
   ⟨0x4B01, 0x4B01, [(0, 0)], .num 10, .ro, .V, 0x0, 0x0⟩,
   ⟨0x4B02, 0x4B02, [(0, 0)], .num 10, .wo, .V, 0xFFFFFFFFFFFF3FFFFFFF, 0x0⟩,
   ⟨0x4B03, 0x4B03, [(0, 0)], .num 8, .rw, .V, 0xFFFFFFFFFF, 0x400000000⟩,
   ⟨0x4B04, 0x4B04, [(0, 0)], .num 8, .wo, .V, 0xFFFFFFFFFFFFFFFF, 0x0⟩,
   ⟨0x4B05, 0x4B05, [(0, 0)], .num 8, .rw, .P, 0xFFFFFFFF00FFFFFF, 0x186A0⟩,
   ⟨0x4B06, 0x4B06, [(0, 0)], .num 11, .ro, .V, 0x0, 0x0⟩,
   ⟨0x4B07, 0x4B07, [(1, 52)], .num 4, .rw, .P, 0xFFFFFFFF, 0x0⟩,
   ⟨0x4B08, 0x4B08, [(1, 52)], .num 4, .rw, .P, 0x731, 0x0⟩,
   ⟨0x4B09, 0x4B09, [(1, 52)], .num 8, .rw, .P, 0xFFFFBFFF000FFFFF, 0x6403E8000007D0⟩,
   ⟨0x4B0E, 0x4B0E, [(1, 1)], .num 4, .ro, .V, 0x0, 0x0⟩
  ]

/-- The channel objects of R651 to R662, part 6. -/
def channelObjs6 : List Obj :=
  [
   ⟨0x4B0F, 0x4B0F, [(1, 1)], .num 4, .w1c, .V, 0x3F, 0x0⟩,
   ⟨0x4B10, 0x4B10, [(1, 52)], .num 16, .ro, .V, 0x0, 0x0⟩,
   ⟨0x4B11, 0x4B11, [(1, 52)], .bool, .rws, .V, 0x0, 0x0⟩,
   ⟨0x4B20, 0x4B27, [(1, 52)], .num 8, .counter, .V, 0x0, 0x0⟩,
   ⟨0x4B28, 0x4B28, [(1, 1)], .num 8, .counter, .V, 0x0, 0x0⟩,
   ⟨0x4C00, 0x4C00, [(1, 1)], .num 4, .rw, .P, 0xFFFF0001, 0x640000⟩,
   ⟨0x4C00, 0x4C00, [(2, 2)], .num 8, .ro, .V, 0x0, 0x0⟩,
   ⟨0x4C01, 0x4C01, [(1, 1)], .num 8, .ro, .V, 0x0, 0x0⟩,
   ⟨0x4C01, 0x4C01, [(2, 3)], .num 4, .ro, .V, 0x0, 0x0⟩,
   ⟨0x4C02, 0x4C02, [(1, 1)], .num 8, .ro, .V, 0x0, 0x0⟩,
   ⟨0x4C02, 0x4C02, [(2, 3)], .num 4, .ro, .V, 0x0, 0x0⟩,
   ⟨0x4C0E, 0x4C0E, [(1, 1)], .num 4, .ro, .V, 0x0, 0x0⟩,
   ⟨0x4C0F, 0x4C0F, [(1, 1)], .num 4, .w1c, .V, 0x1F, 0x0⟩,
   ⟨0x4C10, 0x4C10, [(1, 16)], .num 8, .rw, .P, 0xFFFFFFFFFFFFFFFF, 0x0⟩,
   ⟨0x4C11, 0x4C11, [(1, 16)], .num 16, .rw, .P, 0xFFFFFFFFFFFFFFFFFFFFFFFFFFFFFFFF, 0x0⟩,
   ⟨0x4C12, 0x4C12, [(1, 16)], .num 32, .rw, .P, 0xFFFFFFFFFFFFFFFFFFFFFFFFFFFFFFFFFFFFFFFFFFFFFFFFFFFFFFFFFFFFFFFF, 0x0⟩,
   ⟨0x4C13, 0x4C13, [(1, 16)], .num 8, .rw, .P, 0x3FFFF0003FFFF, 0x0⟩,
   ⟨0x4C20, 0x4C20, [(1, 1)], .num 4, .rws, .V, 0x0, 0x0⟩,
   ⟨0x4C20, 0x4C20, [(2, 2)], .num 8, .rw, .V, 0xFFFFFFFFFFFFFFFF, 0x0⟩,
   ⟨0x4C20, 0x4C20, [(5, 6)], .num 4, .ro, .V, 0x0, 0x0⟩,
   ⟨0x4C30, 0x4C30, [(0, 0)], .window 32 64, .ro, .V, 0x0, 0x0⟩,
   ⟨0x4C40, 0x4C40, [(0, 0)], .window 64 0, .ro, .V, 0x0, 0x0⟩,
   ⟨0x4C50, 0x4C51, [(1, 1)], .num 8, .counter, .V, 0x0, 0x0⟩,
   ⟨0x4C52, 0x4C52, [(1, 4)], .num 8, .counter, .V, 0x0, 0x0⟩,
   ⟨0x4C53, 0x4C54, [(1, 16)], .num 8, .counter, .V, 0x0, 0x0⟩,
   ⟨0x4C55, 0x4C55, [(1, 1)], .num 8, .counter, .V, 0x0, 0x0⟩,
   ⟨0x4D01, 0x4D01, [(1, 4)], .num 4, .rw, .V, 0xF3F337F, 0x320⟩,
   ⟨0x4D02, 0x4D02, [(1, 4)], .num 8, .rw, .V, 0xFFFFFFFFFFFFFFFF, 0x1EDC6F41⟩,
   ⟨0x4D03, 0x4D04, [(1, 4)], .num 8, .rw, .V, 0xFFFFFFFFFFFFFFFF, 0xFFFFFFFF⟩,
   ⟨0x4D05, 0x4D07, [(1, 4)], .num 8, .rw, .V, 0xFFFFFFFFFFFFFFFF, 0x0⟩,
   ⟨0x4D08, 0x4D08, [(1, 4)], .num 4, .rws, .V, 0x0, 0x0⟩,
   ⟨0x4D09, 0x4D09, [(1, 4)], .num 4, .ro, .V, 0x0, 0x0⟩,
   ⟨0x4D0A, 0x4D0B, [(1, 4)], .num 8, .ro, .V, 0x0, 0x0⟩,
   ⟨0x4D0F, 0x4D0F, [(1, 1)], .num 4, .w1c, .V, 0xF, 0x0⟩,
   ⟨0x4D20, 0x4D22, [(1, 4)], .num 8, .counter, .V, 0x0, 0x0⟩,
   ⟨0x4E00, 0x4E00, [(1, 3)], .num 16, .roh, .V, 0x0, 0x0⟩
  ]

/-- The channel objects of R651 to R662. -/
def channelObjs : List Obj := channelObjs1 ++ channelObjs2 ++ channelObjs3 ++ channelObjs4 ++ channelObjs5 ++ channelObjs6

/-- Whether a line of the map covers index and sub-index. -/
def Obj.covers (o : Obj) (idx sub : Nat) : Bool :=
  Nat.ble o.lo idx && Nat.ble idx o.hi && o.subs.any fun r => Nat.ble r.1 sub && Nat.ble sub r.2

/-- The line of `objs` for an index and sub-index. -/
def objIn (objs : List Obj) (idx sub : Nat) : Option Obj := objs.find? fun o => o.covers idx sub

/-- The highest defined sub-index of an index (R631, R651); none where the index is reserved. -/
def highestSub (objs : List Obj) (idx : Nat) : Option Nat :=
  objs.foldl (fun m o =>
    if Nat.ble o.lo idx && Nat.ble idx o.hi then
      o.subs.foldl (fun m r => some (max r.2 (m.getD 0))) m
    else m) none

/-- The key of an object in a dictionary store. -/
def objKey (idx sub : Nat) : Nat := idx * 256 + sub

/-- The key of an entry in a window store. -/
def winKey (idx entry : Nat) : Nat := idx * 2 ^ 40 + entry

/-- The size of an object in bytes by READ (R608). -/
def Ty.readSize : Ty → Nat
  | .num n => n
  | .bool => 1
  | .window _ _ => 12

/-- CLASS of each port (R191): 0 front ports, 1 fabric links, 2 host path, 3 recirculation, 4 multidrop ports. -/
def portClassDefault (p : Nat) : Nat :=
  if p ≤ 48 then 0 else if p ≤ 52 then 1 else if p = 53 then 2 else if p = 54 then 3 else 4

/-- The default of a channel object: the map's value, and where it is given per sub-index, that one. -/
def chDflt (key : Nat) : Nat :=
  let idx := key / 256
  let sub := key % 256
  match objIn channelObjs idx sub with
  | none => 0
  | some o =>
    if idx = 0x4108 then o.dflt + sub * 0x10000
    else if idx = 0x4301 then o.dflt + portClassDefault sub
    else if idx = 0x4303 then (if sub = 1 then o.dflt else 0)
    else if idx = 0x4706 then (if sub = 1 then 0x18 else if sub = 2 then 0x19 else 0)
    else if idx = 0x4602 then 2 ^ 320 - 1
    else if idx = 0x4907 then 1024000000
    else o.dflt

/-- A pool configuration entry of 0x4801 (R367) with the default WARN levels and HYST of R347. -/
def poolEntry (size hard stride : Nat) : Nat :=
  size * 2 ^ 224 + hard * 2 ^ 192 + (hard * 15 / 16) * 2 ^ 160 + (hard * 7 / 8) * 2 ^ 128 + (hard * 3 / 4) * 2 ^ 96
    + (hard / 64) * 2 ^ 64 + stride

/-- Cells of pools 0 to 14 (R341). -/
def poolArea : Variant → Nat
  | .A => 66977792
  | .B => 65929216
  | .C => 32374784

/-- The default entry of pool `k` (R347). -/
def poolDefault (v : Variant) (k : Nat) : Nat :=
  if k = 0 then poolEntry (poolArea v - 4352) (poolArea v - 4352 - 1280) 0
  else if k = 13 then poolEntry 256 192 1
  else if k = 14 then poolEntry 4096 3072 2
  else 0

/-- The default of a window entry of a channel. Pool 0 has variant A's value; `freshWin` lists the others'. -/
def winDflt (key : Nat) : Nat :=
  let idx := key / 2 ^ 40
  let e := key % 2 ^ 40
  if idx = 0x4403 then e
  else if idx = 0x4311 then 0xFFFFFFFF * 2 ^ 96
  else if idx = 0x4408 then 0x400040
  else if idx = 0x4506 then 2 ^ 113
  else if idx = 0x4801 then poolDefault .A e
  else if idx = 0x4810 then 262144 * 2 ^ 96 + 16384 * 2 ^ 64
  else if idx = 0x4903 then 0x640
  else if idx = 0x4904 || idx = 0x4905 then 0x800000000000
  else if idx = 0x4908 || idx = 0x4909 then 1024000000
  else 0

/-- The channel windows whose defaults differ from `winDflt` in a variant (R347). -/
def freshWin : Variant → Store
  | .A => []
  | v => [(winKey 0x4801 0, poolDefault v 0)]

/-- The default of a module object (R635 to R645). -/
def mDflt (key : Nat) : Nat :=
  match objIn moduleObjs (key / 256) (key % 256) with
  | none => 0
  | some o => o.dflt

/-- The default of a module window entry: erased flash reads all ones (R590, R646). -/
def mwinDflt (key : Nat) : Nat :=
  if key / 2 ^ 40 = 0x1601 then 2 ^ 256 - 1 else 0

/-- Whether an index lies in the documented ranges (R13). -/
def documented (idx : Nat) : Bool := (0x1000 ≤ idx && idx ≤ 0x16FF) || (0x4000 ≤ idx && idx ≤ 0x7FFF)

/-- Whether an index is of channel scope (R18). -/
def channelScope (idx : Nat) : Bool := 0x4000 ≤ idx

/-- The channel of a channel-scope index, and its channel A index (R18). -/
def chanOf (idx : Nat) : Ch × Nat := if idx < 0x6000 then (.a, idx) else (.b, idx - 0x2000)

/-- The posted domain of a channel object (R655). -/
def postedDomain (idx sub : Nat) : Option Domain :=
  if 0x4100 ≤ idx && idx ≤ 0x410A then some (.portMacro ((sub + 3) / 4))
  else if idx = 0x4200 || idx = 0x4201 || idx = 0x4203 || idx = 0x4204 || idx = 0x4207 then some .multidrop
  else if idx = 0x4250 || (0x4253 ≤ idx && idx ≤ 0x4255) then some (.fabricMacro ((sub + 1) / 2))
  else if idx = 0x4252 then some (.fabricMacro 1)
  else if idx = 0x4710 then some .controlStore
  else if idx = 0x4801 || idx = 0x4803 || idx = 0x4811 then some .buffer
  else if (idx = 0x4B00 && sub = 1) || (0x4B02 ≤ idx && idx ≤ 0x4B05) || (0x4B07 ≤ idx && idx ≤ 0x4B09) then some .time
  else if (idx = 0x4C00 && sub = 1) || (0x4C10 ≤ idx && idx ≤ 0x4C13) then some .capture
  else none

/-- The busy objects of a posted domain (R655); 0x4252 lies in both fabric domains. -/
def busyKey : Domain → Nat
  | .portMacro m => objKey 0x410E m
  | .multidrop => objKey 0x420E 1
  | .fabricMacro m => objKey 0x425E m
  | .controlStore => objKey 0x470E 1
  | .buffer => objKey 0x480E 1
  | .time => objKey 0x4B0E 1
  | .capture => objKey 0x4C0E 1

/-- Whether the relay repeats an accepted write of this channel object (R499). -/
def relayedObj (o : Obj) (idx : Nat) : Bool :=
  o.keep != .V && o.keep != .T && o.acc != .w1c && o.acc != .counter &&
  !(idx ≤ 0x40FF) && idx != 0x410A && !(0x4B00 ≤ idx && idx ≤ 0x4BFF) && idx != 0x4C20 && !(0x4D00 ≤ idx)

/-! ## Carriage: the bytes in which objects and entries are carried (R19, R608 to R611) -/

/-- Objects of type OCT that are carried octet 0 first: a 1PPS capture (R424, R436), the search keys, masks and data (R269, R280),
and octet strings without a layout in bits: key slots (R602), wake masks (R111) and the port and code sets of sessions (R465).
Every other OCT object has a layout in bits and is carried least significant byte first (R653). -/
def isOct (idx sub : Nat) : Bool :=
  (idx == 0x1400 && Nat.ble 0x10 sub && Nat.ble sub 0x13) || idx == 0x4230 || (idx == 0x4620 && (sub == 2 || sub == 3)) ||
  idx == 0x4602 || idx == 0x4B06 || idx == 0x4C11 || idx == 0x4C12

/-- Windows whose entries are carried octet 0 first (R194, R280, R684). -/
def isOctWin (idx : Nat) : Bool := idx == 0x4259 || idx == 0x4304 || idx == 0x4610

/-- The bytes of an object of `n` bytes. -/
def carryObj (idx sub n v : Nat) : List Byte := if isOct idx sub then beBytes n v else leBytes n v

/-- The value that the bytes of an object carry. -/
def objOf (idx sub : Nat) (b : List Byte) : Nat := if isOct idx sub then beNat b else leNat b

/-- The bytes of a window entry; a route is its Key, then its Data, each least significant byte first (R258, R653), a control
store word its CHECK and its data bits, the highest first (R336). -/
def carryEntry (idx n v : Nat) : List Byte :=
  if isOctWin idx then beBytes n v
  else if idx = 0x4511 || idx = 0x4512 then leBytes 20 (v / 2 ^ 64) ++ leBytes 8 v
  else if idx = 0x4710 then beBytes 2 (v / 2 ^ 192) ++ beBytes 24 v ++ leBytes 6 0
  else leBytes n v

/-- The value that the bytes of a window entry carry. -/
def entryNat (idx : Nat) (b : List Byte) : Nat :=
  if isOctWin idx then beNat b
  else if idx = 0x4710 then beNat (slice b 2 24)
  else leNat b

end Sys2Proof.Machine
end

