-- ==== Sys2Proof/Machine/State.lean ====
section
/-! DEFINITION. The state of the module as plain data, the reasons a step can stop, and the state after reset. -/

namespace Sys2Proof.Machine

/-- Why a command stops. Each names an operand for which the spec has no part at all; safe: nothing is claimed of it. -/
inductive Fault where
  /-- Raised by every channel command that names channel B in variant C, which has no such channel (R2). Safe. -/
  | noSuchChannel
  /-- Raised by every command that names a port, link, tier, island, sequencer, control store copy, pipeline, pool, check unit, watch,
  bus or posted domain outside those of R30, R35, R54, R68, R292, R318, R344, R378, R469, R595, R622 and R655. Safe. -/
  | noSuchPart
deriving DecidableEq, Repr

/-- Why a command has no meaning yet. -/
inductive Refusal where
  /-- An arm of `exec` whose command has no meaning in this model; none is left. Safe: nothing is claimed. -/
  | notModelled (mnemonic : String)
deriving DecidableEq, Repr

/-- A strap pin (R673): wired to STRAP_COM, left open, or at a voltage between the thresholds. -/
inductive StrapPin where
  | low
  | high
  | between
deriving DecidableEq, Repr

/-- What the unit was built and mounted with (R2, R635, R626, R673). -/
structure UnitData where
  variant : Variant
  hwRev   : Nat
  serial  : Nat
  mac     : Nat
  straps  : List StrapPin
deriving DecidableEq, Repr

/-- The channel states of R44. -/
inductive ChState where
  | off
  | starting
  | standby
  | active
  | draining
  | failed
  | isolated
deriving DecidableEq, Repr

/-- Reset causes of R586. -/
inductive ResetCause where
  | none
  | host
  | arbiter
  | hold
  | release
  | trip
  | bringup
  | module
deriving DecidableEq, Repr

/-- What the service block and the arbiter hold of one channel (R44, R487 to R511, R561 to R586). -/
structure ChanRole where
  st         : ChState
  stage      : Nat
  attempt    : Nat
  restarts   : Nat
  backoffEnd : Option Nat
  waitNight  : Bool
  waitArb    : Bool
  failStage  : Nat
  failCause  : Nat
  resetCause : ResetCause
  imageFails : Nat
  regionBad  : Bool
  outputOn   : Bool
  restartDue : Bool
  resetAt    : Nat
  ready      : Bool
  fence      : Bool
  fenceDone  : Bool
  fenceLate  : Bool
  hbSeen     : Bool
  misses     : Nat
  goodRun    : Nat
  lowRun     : Nat
  health     : Nat
  epoch      : Nat
  orphan     : Bool
  silent     : Bool
  stale      : Bool
  deferred   : Bool
deriving DecidableEq, Repr

/-- The causes of a declaration and of 0x1300:0B (R529). -/
inductive DeclCause where
  | heartbeat
  | unfit
  | score
  | isolate
  | reinstatement
  | drillFault
  | trip
deriving DecidableEq, Repr

/-- The recovery window of R508. -/
structure Window where
  first : Ch
  new   : Ch
  cause : DeclCause
deriving DecidableEq, Repr

/-- A grant that waits for the fence of the declared channel (R495): the channel it goes to, why, whether 0x1300:0B
records it and FAILOVERS counts it, whether FENCE_FAULT was taken, and when the declaration came (R529). -/
structure Grant where
  dest     : Ch
  declared : Ch
  cause    : DeclCause
  record   : Bool
  counted  : Bool
  faulted  : Bool
  since    : Nat
deriving DecidableEq, Repr

/-- A swap drill in progress (R516 to R520); `noon`: it began in NOON (R544). -/
structure Drill where
  phase   : Nat
  old     : Ch
  new     : Ch
  item    : Nat
  noon    : Bool
  began   : Nat
  lossOld : Nat
  lossNew : Nat
  released : Bool
deriving DecidableEq, Repr

/-- A reinstatement in progress (R511): the channel that returns, the one whose failure it answers, and whether the channel has
passed from OFF to STARTING, and when the declaration came (R529). -/
structure Comeback where
  chan     : Ch
  declared : Ch
  starting : Bool
  since    : Nat
deriving DecidableEq, Repr

/-- The role arbiter (R487 to R530). -/
structure Arbiter where
  ok        : Bool
  back      : Option Comeback
  holder    : Option Ch
  last      : Option Ch
  drainer   : Option Ch
  epoch     : Nat
  window    : Option Window
  stable    : Bool
  hold      : Option Ch
  suspended : Bool
  pending   : Option Grant
  leaseAt   : Nat
  grantAt   : Nat
  drill     : Option Drill
  drillBase : Nat
  retryAt   : Nat
  tokens    : Tab Ch
deriving DecidableEq, Repr

/-- One item that the relay carries (R499): a table entry with its charge flags, a filter entry, a configuration
value or window entry. Keys are those of the channel's stores. -/
inductive Delta where
  | obj (key value : Nat)
  | win (key value : Nat)
  | slot (t : Hashed) (addr value : Nat)
  | entry (addr value : Nat)
deriving DecidableEq, Repr

/-- The state relay (R498 to R502). -/
structure Relay where
  up     : Bool
  deltas : List Delta
  hold   : List Delta
  resync : Option Ch
  copyLeft : Nat
deriving DecidableEq, Repr

/-- The states of a supply input (R546). -/
inductive InputState where
  | lost
  | ac
  | dc
  | low
  | overvoltage
  | frequency
  | returning
deriving DecidableEq, Repr

/-- One supply input: its state and, while RETURNING, the state it returns to. -/
structure InputSt where
  st   : InputState
  next : InputState
deriving DecidableEq, Repr

/-- A changeover contact (R674): the relay, whether its 100 ms hold runs. -/
structure ContactSt where
  on   : Bool
  held : Bool
deriving DecidableEq, Repr

/-- The wake causes of R541. -/
inductive WakeCause where
  | host
  | pattern (ch : Ch) (port pat : Nat)
  | time
  | fault
deriving DecidableEq, Repr

/-- The supply, its pins and the contacts (R545 to R549, R670 to R674). -/
structure Power where
  powered  : Bool
  inA      : InputSt
  inB      : InputSt
  warn     : Bool
  warnWritten : Bool
  sbOut    : Bool
  ctrlOk   : Bool
  looped   : Bool
  resetLow : Bool
  wakeBy   : List WakeCause
  fault    : ContactSt
  role     : ContactSt
deriving DecidableEq, Repr

/-- NIGHT: not in it, entering (R537 before step f), or asleep. -/
inductive Night where
  | awake
  | entering
  | asleep
deriving DecidableEq, Repr

/-- The mode conditions of R50 that are not computed from other state; `wake`: the wake source that waits for step f, `pins`: every
source that has arisen with it (R541). -/
structure ModeSt where
  dawn   : Bool
  night  : Night
  dusk   : Bool
  last   : Nat
  wake   : Option WakeCause
  pins   : List WakeCause
deriving DecidableEq, Repr

/-- The service block's bring-up (R561, R566, R582, R584). -/
structure Bringup where
  stage      : Nat
  attempt    : Nat
  restarts   : Nat
  backoffEnd : Option Nat
  kind       : Nat
  moduleId   : Nat
  strapError : Bool
  fallback   : Bool
  image      : Nat
  unconf     : Bool
  resetDue   : Bool
deriving DecidableEq, Repr

/-- A host session (R603). -/
structure Session where
  num       : Nat
  node      : Nat
  slot      : Nat
  proven    : Bool
  challenge : Nat
  addressed : Nat
  skey      : List Byte
  counter   : Nat
  since     : Nat
deriving DecidableEq, Repr

/-- A request kept for 200 ms with its answer (R597). -/
structure Dup where
  src    : Nat
  tag    : Nat
  func   : Nat
  msg    : List Byte
  answer : Option (List Byte)
  time   : Nat
deriving DecidableEq, Repr

/-- A message being reassembled (R599). -/
structure Partial where
  bus   : Bus
  ident : Nat
  seq   : Nat
  got   : Nat
  total : Nat
deriving DecidableEq, Repr

/-- A relayed request that waits for its answer (R164). -/
structure Relayed where
  bus   : Bus
  ident : Nat
  time  : Nat
deriving DecidableEq, Repr

/-- A relay frame delivered to this module: its sender and the body after its EtherType (R162, R596). -/
structure RelayMsg where
  ch     : Ch
  sender : Nat
  body   : List Byte
deriving DecidableEq, Repr

/-- The states of a CAN controller (R627). -/
inductive CanState where
  | off
  | active
  | passive
  | busOff
deriving DecidableEq, Repr

/-- The host port (R592 to R630). `refuse`: which of the requests that wait in the command queue found 16 waiting before
them, counted from the next (R615); `watchHeld`: watches whose 10 ms run; `rates`: CAN rates in force. -/
structure HostPort where
  keys     : Tab Nat
  sessions : List Session
  fails    : List (Nat × Nat)
  lockouts : List Nat
  partials : List Partial
  dups     : List Dup
  refuse   : List Nat
  relayed  : List Relayed
  relayIn  : List RelayMsg
  watchNew : Tab Nat
  watchHeld : List Nat
  canA     : CanState
  canB     : CanState
  ethLink  : Bool
  tag      : Nat
  rates    : Nat
deriving DecidableEq, Repr

/-- A vendor image slot (R589, R590): its 64-byte entries, those written since the last ERASE, its SEQUENCE, and whether it still
holds the image that the module was delivered with (assumption 4). -/
structure VendorSlot where
  data    : Store
  written : List Nat
  seq     : Option Nat
  delivered : Bool
deriving DecidableEq, Repr

/-- A running command on the configuration flash (R575, R587, R590). -/
inductive FlashJob where
  | save (slotB : Bool) (image : List Byte)
  | invalidate (slotB : Bool)
  | erase
  | commit
deriving DecidableEq, Repr

/-- The configuration flash but the event log (R572). An image slot is its bytes, empty when erased. -/
structure Flash where
  imageA   : List Byte
  imageB   : List Byte
  vendor0  : VendorSlot
  vendor1  : VendorSlot
  selected : Option Nat
  imageJob : Option FlashJob
  microJob : Option FlashJob
deriving DecidableEq, Repr

/-- An event-log entry before its SEQUENCE is known (R647). -/
structure LogEntry where
  source : Nat
  code   : Nat
  detail : Nat
  time   : Nat
deriving DecidableEq, Repr

/-- The event log beside its window (R646 to R648). `recent`: when the entries of the last second that count towards its limit came,
oldest first. -/
structure LogSt where
  waiting : List LogEntry
  recent  : List Nat
  next    : Nat
  held    : Nat
deriving DecidableEq, Repr

/-- What the module has put out, oldest first. Assumption 2. -/
inductive Sent where
  | can (bus : Bus) (ident : Nat) (data : List Byte)
  | eth (bytes : List Byte)
  | frame (ch : Ch) (port : Nat) (bytes : List Byte) (good : Bool)
  | pause (ch : Ch) (port : Nat) (pfc : Bool) (enable quanta : Nat)
  | lacpdu (ch : Ch) (port : Nat) (bytes : List Byte)
  | marker (ch : Ch) (port : Nat)
  | beacon (ch : Ch) (link : Nat) (bytes : List Byte)
  | plcaBeacon (ch : Ch) (port : Nat)
  | jam (ch : Ch) (port : Nat)
deriving DecidableEq, Repr

/-- A write that a posted domain has accepted and not yet applied (R617): its store key and the value still in force. -/
structure Posted where
  dom : Domain
  win : Bool
  key : Nat
  old : Nat
deriving DecidableEq, Repr

/-- The core of a channel (R62 to R64, R534): `heard` is the line occupancy of the present window at each ingress pipeline, in bits
(R60); `markDue`: a CLR_HIGH_WATER waits for the next update (R74). -/
structure CoreSt where
  setMv     : Nat
  drain     : Bool
  exitPend  : Bool
  monFault  : Bool
  regFault  : Bool
  validRun  : Nat
  quietRun  : Nat
  occPeak   : Nat
  heard     : List Nat
  markDue   : Bool
deriving DecidableEq, Repr

/-- What a channel hands to the service block at the end of a command; empty between commands. `wake`: the front port and
the wake patterns that match. -/
structure Outbox where
  out    : List Sent
  events : List (Nat × Nat)
  flags  : List (Nat × Nat)
  deltas : List Delta
  up     : List RelayMsg
  wake   : Option (Nat × List Nat)
  drawn  : Nat
deriving DecidableEq, Repr

/-- The time base and its 1PPS output (R415 to R422): seconds 48, nanoseconds 30, fraction 32 bits; the increment
in force; the signed step sum of R418 in nanoseconds; `ppsWait`: what is left, in 2^-32 ns, until a pulse that OFFSET_NS delays. -/
structure TimeSt where
  sec    : Nat
  ns     : Nat
  frac   : Nat
  stepSum : Int
  valid  : Bool
  copied : Bool
  pps    : Bool
  ppsWait : Option Nat
  copyDue : Bool
deriving DecidableEq, Repr

/-- Where a frame stands in stages 3 to 7 (R33): to be parsed, looked up, on a sequencer, finished there, released to
the policer, or past the pipeline with its copies alone left. -/
inductive FrameAt where
  | parse
  | look
  | run
  | done
  | police
  | live
deriving DecidableEq, Repr

/-- What the lookups of a pass found (R205 to R208, R248 to R254, R270), and the groups resolved (R186). `fields`, `kmap`, `assoc`,
`hash`: the profile's objects as the parser read them (R188). `v6`, `addr`, `region`: the family and address of its route search, and the
filter group and region read for it (R248, R249). -/
structure Look where
  profile  : Nat
  fields   : Nat
  kmap     : Nat
  assoc    : Nat
  hash     : Nat
  vid      : Nat
  fid      : Nat
  vrf      : Nat
  probed   : Bool
  dst      : Option Nat
  src      : Option Nat
  subHit   : Bool
  sub      : Nat
  parity   : Option Nat
  copyHost : Bool
  todo     : Option (List Nat)
  rounds   : Nat
  routed   : Bool
  route    : Option (Nat × Nat)
  nextHop  : Nat
  indirect : Nat
  resolves : Nat
  searchOn : Bool
  searched : Bool
  hit      : Option (Nat × Nat)
  multi    : Bool
  v6       : Bool
  addr     : Nat
  region   : Nat × Nat
deriving DecidableEq, Repr

/-- What a copy of a frame is (R363, R441): a forwarding copy, the copy that passes on to the next module (R157), the host
copy, or the copy of a mirror session. -/
inductive CopyKind where
  | fwd
  | onward
  | host
  | mirror (s : Nat)
deriving DecidableEq, Repr

/-- Where a copy stands: before admission, in the capture intake, queued, selected with cells due, all cells moved,
waiting for a requester, edited in the transmit buffer or for port 53 or 54, on the line. -/
inductive CopyAt where
  | arrived
  | intake
  | queued
  | selected
  | moved
  | waiting
  | edited
  | line
deriving DecidableEq, Repr

/-- A copy of a frame: its number and owner tag (R362), destination tier and queue (R378, R379), outgoing fabric tag
(R144), capture metadata (R447), carrying port, cells moved, whether its requester's charge is held (R359), its
launch time in nanoseconds of the 32-bit seconds (R429), whether the guard has counted it (R430), whether its cells are
released, whether the sessions of the transmit point have seen it (R443), and its place in the order of selection. -/
structure Copy where
  no     : Nat
  owner  : Nat
  kind   : CopyKind
  pos    : CopyAt
  tier   : Nat
  q      : Nat
  sub    : Bool
  tag    : Option Nat
  info   : List Byte
  bytes  : Option (List Byte)
  port   : Nat
  moved  : Nat
  req    : Bool
  launch : Option Nat
  guarded : Bool
  freed  : Bool
  seen   : Bool
  sel    : Nat
deriving DecidableEq, Repr

/-- Where R157 sends a data frame from a fabric link beside or instead of local delivery: the tier away from its link, the
HOPS it leaves with, whether it is delivered here too, and whether a cut-through copy has gone already. -/
structure Transit where
  tier : Nat
  hops : Nat
  loc  : Bool
  cut  : Bool
deriving DecidableEq, Repr

/-- A stored frame (R341 to R365): its bytes without fabric tag, the tag, first-pass and present ingress port, pass,
receive timestamp, pipeline, marks, its cells and charge split (R349), its share record (R363) and its onward way (R157). -/
structure Frame where
  id     : Nat
  bytes  : List Byte
  tag    : Option Nat
  inPort : Nat
  port   : Nat
  pass   : Nat
  rx     : Nat
  rxSum  : Int
  pipe   : Nat
  oversize : Bool
  fcsBad : Bool
  stomp  : Bool
  pos    : FrameAt
  look   : Look
  window : List Byte
  edits  : List Nat
  act    : List Nat
  seqDrop : Nat
  colour : Nat
  drop   : Nat
  taken  : List Nat
  cells  : List Nat
  pool   : Nat
  rq     : Nat
  rp     : Nat
  rs     : Nat
  share  : Nat
  owner  : Nat × Nat
  parked : Bool
  charged : Bool
  nextNo : Nat
  copies : List Copy
  transit : Option Transit
deriving DecidableEq, Repr

/-- One queue (R377 to R381, R354): its copies as (frame, copy), its cells and its RED average. -/
structure QueueSt where
  items : List (Nat × Nat)
  cells : Nat
  avg   : Int
deriving DecidableEq, Repr

/-- A node of a tier (R384, R385): deficit, fresh mark, WRR counts of classes 3 to 7 and pointer. -/
structure NodeSt where
  deficit : Nat
  fresh   : Bool
  sent    : List Nat
  ptr     : Nat
deriving DecidableEq, Repr

/-- A port tier (R378, R382, R400): whether it is down and flushing, the last express node served, the DRR list,
its selected copies and the cells of each service class at the port (R348). -/
structure TierSt where
  down     : Bool
  flushing : Bool
  xptr     : Nat
  dlist    : List Nat
  picked   : List (Nat × Nat)
  cells    : List Nat
deriving DecidableEq, Repr

/-- The central matching scheduler (R389): the pointers of pipelines and slots, and the turn of slot 53 (R36). -/
structure MatchSt where
  aptr : List Nat
  rptr : List Nat
  gptr : List Nat
  host : Bool
deriving DecidableEq, Repr

/-- An internal requester's wait (R359 to R361). -/
inductive Wait where
  | capture
  | recirc (fid no : Nat)
  | scan (unit : Nat)
  | host (fid no : Nat)
deriving DecidableEq, Repr

/-- What an internal requester holds cells for: a capture block, a check unit's chunk, a copy that it has been handed, or a frame on
a further pass (R359). -/
inductive HeldFor where
  | block
  | unit (u : Nat)
  | copy (fid no : Nat)
  | pass (fid : Nat)
deriving DecidableEq, Repr

/-- A holding of requester `who` (R359, R360): the pool that it is charged to, the cells within the requester's minimum and the
shared ones, and the cells taken for it; a frame's own cells are not listed. -/
structure ReqHold where
  who      : Nat
  for_     : HeldFor
  pool     : Nat
  reserved : Nat
  shared   : Nat
  cells    : List Nat
deriving DecidableEq, Repr

/-- A buffer pool (R344 to R364): its accounts, its level, the ports' shares of them, and who waits. -/
structure PoolSt where
  shared    : Nat
  reserved  : Nat
  quarantined : Nat
  level     : Nat
  atHard    : Bool
  portShared : Store
  portReserved : Store
  waiting   : List Wait
deriving DecidableEq, Repr

/-- What a port keeps beside its status registers: receive lock and LINK_DOWN_HOLD (R86), PAUSE and PFC priorities
that hold it (R100), whether a frame may have been in progress when lock was lost or link down reported (R86, R93), whether EEE
is resolved (R99), the LACP partner, its sync and port priority, whether the receive machine is in EXPIRED, the LACPDUs of a fast periodic time and which one that is (R104 to R107), the copy on the line,
the transmit timestamps (R438), whether an LACPDU waits for the end of a PAUSE or of the fast
periodic time, and whether it is one of a change of role (R100, R107), the operation that clause 73 resolved (R85), and the control
frames that wait for the end of the frame in progress or for the launch guard, and whether the guard has counted them (R98, R102, R151, R430). -/
structure PortSt where
  locked  : Bool
  holding : Bool
  tail    : Bool
  paused  : Bool
  pfc     : Nat
  eee     : Bool
  partner : Bool
  sync    : Bool
  farPrio : Nat
  expired : Bool
  sentPdu : Nat
  pduTime : Nat
  line    : Option (Nat × Nat)
  stamps  : List Nat
  owed    : Bool
  forRole : Bool
  anOp    : Nat
  due     : List (Sent × Bool)
deriving DecidableEq, Repr

/-- What a multidrop port keeps (R115 to R127): its transmit opportunity and the frames sent in it, the opportunities that
have ended in the present PLCA cycle (none before the first), whether its own has come in it, attempts of the frame that
collided, that frame and its backoff, beacons passed in vain, beacons lost, duplicate ID left PLCA, and the copy on the line. -/
structure DropSt where
  turn     : Bool
  burst    : Nat
  cycle    : Option Nat
  had      : Bool
  attempts : Nat
  hand     : Option (Nat × Nat)
  backoff  : Option Nat
  starved  : Nat
  lost     : Bool
  dup      : Bool
  line     : Option (Nat × Nat)
deriving DecidableEq, Repr

/-- A fabric link (R150 to R155): the last beacon's tag and body, whether it is fresh and passes the wiring check,
and whether the link is selected. -/
structure LinkSt where
  epoch  : Nat
  state  : Nat
  chan   : Nat
  fresh  : Bool
  wired  : Bool
  sel    : Bool
deriving DecidableEq, Repr

/-- A frame that is being cut through (R146, R147): its links, its rewritten tag, the bytes that had arrived when
its transmission began, the maxima of both links then in force (R92, R141), the code with which the transmission has
ended (0 while it runs), the cells that the frame holds (R65), its receive and transmit timestamps and the step sum then (R425, R427). -/
structure CutSt where
  ingress : Nat
  egress  : Nat
  tag     : Nat
  head    : List Byte
  rxMax   : Nat
  txMax   : Nat
  fate    : Nat
  cells   : List Nat
  rx      : Nat
  tx      : Nat
  sum     : Int
deriving DecidableEq, Repr

/-- An action sequencer (R292 to R317): its frame (none: frameless), micro-PC, W0 to W15, flags word, return stack,
header window and bytes stored to it, action record, resolutions, trap frame and item 17, steps, frameless cause. -/
structure SeqSt where
  frame  : Option Nat
  cause  : Nat
  inReset : Bool
  pc     : Nat
  regs   : List Word64
  flags  : Nat
  stack  : List Nat
  window : List Byte
  edits  : List Nat
  act    : List Nat
  res    : List Nat
  trap   : List Word64
  item   : Nat
  steps  : Nat
deriving DecidableEq, Repr

/-- Dispatch (R293, R295): the group of the last dispatch and the frameless causes that wait, with argument and detail. -/
structure DispatchSt where
  group : Nat
  wait  : List (Nat × Nat × Nat)
  repair : List (Nat × Nat × Bool)
  scrub : Nat
deriving DecidableEq, Repr

/-- A request of the learn queue (R213 to R216): key, destination bits [13:0], subscriber, whether it is a move, and
whether it came over the fabric. -/
structure LearnReq where
  key  : Nat
  dest : Nat
  sub  : Nat
  move : Bool
  remote : Bool
deriving DecidableEq, Repr

/-- A table engine (R209 to R211): rotor and start side. -/
structure EngSt where
  rotor : Nat
  side  : Nat
deriving DecidableEq, Repr

/-- The bridge engine's queue, the sweep's place and the deletions it has asked for (R213, R220). -/
structure BridgeSt where
  learns : List LearnReq
  sweep  : Nat
  ages   : List (Nat × Nat)
  clock  : Nat
deriving DecidableEq, Repr

/-- A table command whose effect has been made and whose result is not yet published (R224): the object values that
TABLE_COMMAND_DONE or CAPTURE_COMMAND_DONE stores. `walk`: of a command that walks its table, the next bucket and the entries deleted so
far (R226). `added`: of a CLEAN-FILTER, the length and address of the routes inserted meanwhile (R256). `late`: the command came while
a drill held the table's engine, and its effect is still to be made (R516). -/
structure CmdSt where
  puts : List (Nat × Nat)
  walk : Option (Nat × Nat)
  added : Option (List (Nat × Nat))
  late : Bool
deriving DecidableEq, Repr

/-- No command. -/
def CmdSt.empty : CmdSt := ⟨[], none, none, false⟩

/-- The associative search (R275 to R283): updates that wait, as index and entry, the scrubber's place. -/
structure SearchSt where
  updates : List (Nat × Nat × Bool)
  clearing : Bool
  cleared : Nat
  scrub   : Nat
deriving DecidableEq, Repr

/-- The open block of the capture engine (R449 to R452): its slot, its records oldest first, its times, marks and the
record numbers skipped before its last record. -/
structure BlockSt where
  slot    : Nat
  records : List (List Byte)
  first   : Nat
  opened  : Nat
  lost    : Nat
deriving DecidableEq, Repr

/-- A sealed block that is staged for writing (R455, R456): sequence number, slot, records and bytes, failed writes. -/
structure Staged where
  seq   : Nat
  slot  : Nat
  count : Nat
  bytes : List Byte
  tries : Nat
deriving DecidableEq, Repr

/-- The capture engine (R446 to R458): copies in the intake queue with their record numbers, the number after that of the last record
made, the next record number, the numbers lost with blocks since the last block was opened, block number, CHECK of the last block, the next slot, the open and the staged blocks, the slots that
hold blocks and those retired, session sampling counters and the freeze regions. -/
structure CapSt where
  intake  : List (Nat × Nat × Nat)
  recEnd  : Nat
  nextRec : Nat
  lostBlks : Nat
  nextSeq : Nat
  prevCheck : Nat
  resumed : Bool
  nextSlot : Nat
  ready   : Bool
  openBlk : Option BlockSt
  staged  : List Staged
  slotSeq : Store
  retired : List Nat
  lastSlot : Nat
  samples : Store
  regions : List (Nat × Nat × Nat)
  hold    : Bool
  stopped : Bool
deriving DecidableEq, Repr

/-- A check unit's job (R469 to R480): place, register, digest sum, whether its next chunk holds its cells, and the entry of a table that
the last chunk ended within, as it was read (R477). -/
structure JobSt where
  pos     : Nat
  reg     : Nat
  sum     : Nat
  granted : Bool
  carry   : Nat
deriving DecidableEq, Repr

/-- A job of the module's own (R482): the vendor region of a control store copy (R321), or an item of a drill's digest phase (R516). -/
inductive OwnJob where
  | region (copy : Nat)
  | digest (item : Nat)
deriving DecidableEq, Repr

/-- The module's own jobs on unit 0 (R482): those still to run, the first of them running or waiting for the unit, each with whether it is
run for the second time (R516); the results of those that have ended, none where a job did not end well; and the table whose engine a
drill holds (R516). -/
structure OwnSt where
  todo    : List (OwnJob × Bool)
  running : Bool
  got     : List (Option Nat)
  halt    : Option Nat
deriving DecidableEq, Repr

/-- A holding of SNAPSHOT (R619): its scope kind and selector, and the counters held. -/
structure Holding where
  kind     : Nat
  selector : Nat
  dict     : Store
  win      : Store
deriving DecidableEq, Repr


/-- Errors that stand in memories until the next write: cells whose read fails (R97), and profile objects and indirection entries
whose parity fails, by their store keys (R190). -/
structure Damage where
  cells : List Nat
  objs  : List Nat
deriving DecidableEq, Repr

/-- One switching channel (R25), but its role. `scan`: the check unit whose chunk the scan engine served last (R479). -/
structure Channel where
  dict   : Store
  win    : Store
  posted : List Posted
  core   : CoreSt
  time   : TimeSt
  drops  : Tab Nat
  box    : Outbox
  frames : List Frame
  nextId : Nat
  admitQ : List (Nat × Nat)
  selNo  : Nat
  pend   : List (Nat × Nat)
  queues : Tab QueueSt
  nodes  : Tab NodeSt
  tiers  : Tab TierSt
  matching : MatchSt
  lfsr   : Nat
  pools  : Tab PoolSt
  requesters : List ReqHold
  cells  : Store
  ports  : Tab PortSt
  mdrops : Tab DropSt
  links  : Tab LinkSt
  cuts   : List CutSt
  seqs   : Tab SeqSt
  disp   : DispatchSt
  vendor : Option Store
  engines : Tab EngSt
  bridge : BridgeSt
  cmds   : Tab CmdSt
  search : SearchSt
  cap    : CapSt
  jobs   : Tab JobSt
  scan   : Nat
  own    : OwnSt
  held   : List Holding
  damage : Damage
deriving DecidableEq, Repr

/-- The module. -/
structure State where
  unit    : UnitData
  mdict   : Store
  mwin    : Store
  host    : HostPort
  bring   : Bringup
  roleA   : ChanRole
  roleB   : ChanRole
  arb     : Arbiter
  relay   : Relay
  power   : Power
  mode    : ModeSt
  flash   : Flash
  log     : LogSt
  chA     : Channel
  chB     : Channel
  pending : List Instr
  sent    : List Sent
  sbTime  : Nat
  free    : Nat
deriving DecidableEq, Repr

/-- A channel whose every object and unit has its reset value: nothing written, nothing stored, links and queues
empty, the generator of R354 at 0xACE1, the slot pointers of R389 at pipeline 0 and slot 1. Slot 53 begins with the multidrop ports
(DESIGN CHOICE, assumption 132). -/
def Channel.fresh : Channel where
  dict := []
  win := []
  posted := []
  core := ⟨0, false, false, false, false, 0, 0, 0, List.replicate 8 0, false⟩
  time := ⟨0, 0, 0, 0, false, false, false, none, false⟩
  drops := []
  box := ⟨[], [], [], [], [], none, 0⟩
  frames := []
  nextId := 0
  admitQ := []
  selNo := 0
  pend := []
  queues := []
  nodes := []
  tiers := []
  matching := ⟨List.replicate 8 1, List.replicate 8 1, List.replicate 54 0, false⟩
  lfsr := 0xACE1
  pools := []
  requesters := []
  cells := []
  ports := []
  mdrops := []
  links := []
  cuts := []
  seqs := []
  disp := ⟨7, [], [], 0⟩
  vendor := none
  engines := []
  bridge := ⟨[], 0, [], 0⟩
  cmds := []
  search := ⟨[], false, 0, 0⟩
  cap := ⟨[], 0, 0, 0, 0, 0, false, 0, false, none, [], [], [], 0, [], [], false, false⟩
  jobs := []
  scan := 0
  own := ⟨[], false, [], none⟩
  held := []
  damage := ⟨[], []⟩

/-- A channel's role record after a module-wide reset: OFF (R44, R583, R586). -/
def ChanRole.fresh : ChanRole where
  st := .off
  stage := 14
  attempt := 0
  restarts := 0
  backoffEnd := none
  waitNight := false
  waitArb := false
  failStage := 0
  failCause := 0
  resetCause := .module
  imageFails := 0
  regionBad := false
  outputOn := false
  restartDue := false
  resetAt := 0
  ready := false
  fence := true
  fenceDone := true
  fenceLate := false
  hbSeen := false
  misses := 0
  goodRun := 0
  lowRun := 0
  health := 0
  epoch := 0
  orphan := false
  silent := false
  stale := false
  deferred := false

/-- A strap set that reads ID 1 with right parity: ID0 and ID_PAR open, the rest wired (R673) (assumption 3). -/
def UnitData.delivered : UnitData := ⟨.A, 0x0100, 0, 0, [.low, .low, .low, .low, .low, .high, .high]⟩

/-- The module right after power has come up (R576): DAWN with the service block about to run stage 0, both channels
OFF after a module-wide reset (R586), every object at its default, the start of bring-up logged, the flash as delivered
(assumptions 3, 4 and 12). -/
def State.reset : State where
  unit := UnitData.delivered
  mdict := [(0x110A02, 7), (0x110A03, 7)]
  mwin := []
  host := ⟨[(0, 1)], [], [], [], [], [], [], [], [], [], [], .off, .off, false, 0, 0⟩
  bring := ⟨0, 1, 0, none, 1, 0, false, false, 0, false, false⟩
  roleA := ChanRole.fresh
  roleB := ChanRole.fresh
  arb := ⟨false, none, none, none, none, 0, none, false, none, false, none, 0, 0, none, 0, 0, []⟩
  relay := ⟨false, [], [], none, 0⟩
  power := ⟨true, ⟨.lost, .lost⟩, ⟨.lost, .lost⟩, false, false, true, true, true, false, [], ⟨false, false⟩, ⟨false, false⟩⟩
  mode := ⟨true, .awake, false, 1, none, []⟩
  flash := ⟨[], [], ⟨[], [], some 0, true⟩, ⟨[], [], none, false⟩, none, none, none⟩
  log := ⟨[⟨0, 0x50, 1, 0⟩], [0], 0, 0⟩
  chA := Channel.fresh
  chB := Channel.fresh
  pending := []
  sent := []
  sbTime := 0
  free := 0

end Sys2Proof.Machine
end

