-- ==== Sys2Proof/Machine/Ops.lean ====
section
/-! DEFINITION. The named operations over the dictionary, the windows, the event flags, the log and the channels:
every meaning reads and writes the state through these. -/

namespace Sys2Proof.Machine

/-! ## One channel -/

/-- The value of a channel object (its channel A index), as accepted. -/
def Channel.reg (c : Channel) (idx sub : Nat) : Nat := tabGet chDflt c.dict (objKey idx sub)

/-- Store a channel object. -/
def Channel.put (c : Channel) (idx sub v : Nat) : Channel :=
  { c with dict := tabSet chDflt c.dict (objKey idx sub) v }

/-- An entry of a channel window. -/
def Channel.wget (c : Channel) (idx e : Nat) : Nat := tabGet winDflt c.win (winKey idx e)

/-- Store an entry of a channel window. -/
def Channel.wput (c : Channel) (idx e v : Nat) : Channel :=
  { c with win := tabSet winDflt c.win (winKey idx e) v }

/-- The value of a channel object that the hardware works by: of a posted object, the value last applied (R617). -/
def Channel.hw (c : Channel) (idx sub : Nat) : Nat :=
  match c.posted.find? fun p => !p.win && p.key == objKey idx sub with
  | some p => p.old
  | none => c.reg idx sub

/-- The entry of a posted window that the hardware works by (R617). -/
def Channel.hww (c : Channel) (idx e : Nat) : Nat :=
  match c.posted.find? fun p => p.win && p.key == winKey idx e with
  | some p => p.old
  | none => c.wget idx e

/-- Count `n` in a 64-bit counter, which wraps (R114). -/
def Channel.add (c : Channel) (idx sub n : Nat) : Channel := c.put idx sub (wrap64 (c.reg idx sub + n))

/-- Count one. -/
def Channel.inc (c : Channel) (idx sub : Nat) : Channel := c.add idx sub 1

/-- Set bits of a W1C object; the bits that were clear are newly set (R622). -/
def Channel.flag (c : Channel) (idx sub mask : Nat) : Channel :=
  let old := c.reg idx sub
  let new := mask - (mask &&& old)
  if new = 0 then c else
    let c := c.put idx sub (old ||| mask)
    { c with box := { c.box with flags := c.box.flags ++ [(objKey idx sub, new)] } }

/-- Log an event of the channel (R649). -/
def Channel.log (c : Channel) (code detail : Nat) : Channel :=
  { c with box := { c.box with events := c.box.events ++ [(code, detail)] } }

/-- Put something out. -/
def Channel.emit (c : Channel) (x : Sent) : Channel :=
  { c with box := { c.box with out := c.box.out ++ [x] } }

/-- Offer a delta to the relay (R499). -/
def Channel.delta (c : Channel) (d : Delta) : Channel :=
  { c with box := { c.box with deltas := c.box.deltas ++ [d] } }

/-- Set one field of a channel object. -/
def Channel.putBits (c : Channel) (idx sub hi lo x : Nat) : Channel := c.put idx sub (setBits (c.reg idx sub) hi lo x)

/-- Set one bit of a channel object. -/
def Channel.putBit (c : Channel) (idx sub i : Nat) (b : Bool) : Channel := c.put idx sub (setBit (c.reg idx sub) i b)

/-- Draw a free value in a channel (assumption 5). -/
def Channel.draw (c : Channel) (free : Nat) : Nat × Channel :=
  (Config.freeNat (free + c.box.drawn), { c with box := { c.box with drawn := c.box.drawn + 1 } })

/-- Whether a bit of a channel object is set. -/
def Channel.bit (c : Channel) (idx sub i : Nat) : Bool := bitOf (c.reg idx sub) i

/-- Whether a bit of a channel object, as applied, is set. -/
def Channel.hwBit (c : Channel) (idx sub i : Nat) : Bool := bitOf (c.hw idx sub) i

/-- Count a drop with its reason code (R37). -/
def Channel.dropCode (c : Channel) (code : Nat) : Channel :=
  { c with drops := tabSet (fun _ => 0) c.drops code (tabGet (fun _ => 0) c.drops code + 1) }

/-- Drops counted with a reason code. -/
def Channel.dropped (c : Channel) (code : Nat) : Nat := tabGet (fun _ => 0) c.drops code

/-! ## The module -/

/-- Channel `ch`. -/
def State.chan (s : State) : Ch → Channel
  | .a => s.chA
  | .b => s.chB

/-- Replace channel `ch`. -/
def State.setChan (s : State) (ch : Ch) (c : Channel) : State :=
  match ch with
  | .a => { s with chA := c }
  | .b => { s with chB := c }

/-- What the service block and the arbiter hold of channel `ch`. -/
def State.role (s : State) : Ch → ChanRole
  | .a => s.roleA
  | .b => s.roleB

/-- Replace it. -/
def State.setRole (s : State) (ch : Ch) (r : ChanRole) : State :=
  match ch with
  | .a => { s with roleA := r }
  | .b => { s with roleB := r }

/-- Change it. -/
def State.modRole (s : State) (ch : Ch) (f : ChanRole → ChanRole) : State := s.setRole ch (f (s.role ch))

/-- Whether the channel is present: channel B is absent in variant C (R2). -/
def State.present (s : State) : Ch → Bool
  | .a => true
  | .b => s.unit.variant != .C

/-- The present channels. -/
def State.channels (s : State) : List Ch := if s.present .b then [.a, .b] else [.a]

/-- The value of a module object. -/
def State.mreg (s : State) (idx sub : Nat) : Nat := tabGet mDflt s.mdict (objKey idx sub)

/-- Store a module object. -/
def State.mput (s : State) (idx sub v : Nat) : State := { s with mdict := tabSet mDflt s.mdict (objKey idx sub) v }

/-- Set one field of a module object. -/
def State.mputBits (s : State) (idx sub hi lo x : Nat) : State := s.mput idx sub (setBits (s.mreg idx sub) hi lo x)

/-- Count one in a module counter. -/
def State.minc (s : State) (idx sub : Nat) : State := s.mput idx sub (wrap64 (s.mreg idx sub + 1))

/-- Note newly set bits with the watches that name the object by its full index (R622). -/
def State.noteFlags (s : State) (idx sub new : Nat) : State :=
  let mark := fun (t : Tab Nat) (k : Nat) =>
    let w := s.mreg 0x1420 k
    if bitOf w 0 && bits w 31 16 == idx && bits w 15 8 == sub then
      tabSet (fun _ => 0) t k (tabGet (fun _ => 0) t k ||| new)
    else t
  { s with host := { s.host with watchNew := (upFrom 1 16).foldl mark s.host.watchNew } }

/-- Set bits of a module W1C object. -/
def State.mflag (s : State) (idx sub mask : Nat) : State :=
  let old := s.mreg idx sub
  let new := mask - (mask &&& old)
  if new = 0 then s else (s.mput idx sub (old ||| mask)).noteFlags idx sub new

/-- The time of a time base as a timestamp (R424). -/
def TimeSt.stamp (t : TimeSt) : Nat := t.sec * 2 ^ 40 + t.ns * 2 ^ 8 + t.frac / 2 ^ 24

/-- The channel whose time base is the reference (R683). -/
def State.refChan (s : State) : Option Ch :=
  match s.arb.holder with
  | some h => some h
  | none =>
    if s.roleA.st != .off then some .a
    else if s.present .b && s.roleB.st != .off then some .b
    else none

/-- The reference time as a timestamp, zero when there is none (R683). -/
def State.refStamp (s : State) : Nat :=
  match s.refChan with
  | some ch => (s.chan ch).time.stamp
  | none => 0

/-- Log an event (R648): at most 1,000 entries in any second but for mode changes, power-fail warnings and their end, and
failures declared; 256 waiting entries once the warning entry is written. A lost entry counts in 0x1600:02. -/
def State.logEvent (s : State) (source code detail : Nat) : State :=
  let l := { s.log with recent := s.log.recent.filter fun t => Nat.blt s.sbTime (t + 100000) }
  let free := code == 1 || code == 2 || code == 3 || code == 0x20
  if (!free && 1000 ≤ l.recent.length) || (s.power.warn && s.power.warnWritten && 256 ≤ l.waiting.length) then
    { s with log := l }.minc 0x1600 2
  else
    { s with log := { l with
        recent := if free then l.recent else l.recent ++ [s.sbTime],
        waiting := l.waiting ++ [⟨source, code, detail, s.refStamp⟩] } }

/-- Put something out. -/
def State.emit (s : State) (x : Sent) : State := { s with sent := s.sent ++ [x] }

/-- Draw the next free value (assumption 5). -/
def State.draw (s : State) : Nat × State := (Config.freeNat s.free, { s with free := s.free + 1 })

/-! ## Roles and modes as every unit sees them -/

/-- Code of a channel state (R44). -/
def ChState.code : ChState → Nat
  | .off => 0
  | .starting => 1
  | .standby => 2
  | .active => 3
  | .draining => 4
  | .failed => 5
  | .isolated => 6

/-- Whether a channel state keeps the module in TWILIGHT (R50). -/
def ChState.out : ChState → Bool
  | .failed | .isolated | .off | .starting => true
  | _ => false

/-- The TWILIGHT condition of R50. -/
def State.twilight (s : State) : Bool :=
  if s.present .b then s.roleA.st.out || s.roleB.st.out else s.roleA.st != .active

/-- The mode that 0x1100 reports (R50). -/
def State.modeCode (s : State) : Nat :=
  if s.mode.dawn then 1
  else if s.mode.night != .awake then 4
  else if s.twilight then 5
  else if s.mreg 0x1101 0 = 6 then 6
  else if s.mode.dusk then 3
  else 2

/-- Whether the channel forwards: ACTIVE, under the lease, the drain permission or as an orphan (R44, R493). -/
def State.forwards (s : State) (ch : Ch) : Bool := (s.role ch).st == .active && !(s.role ch).silent

/-- What a channel's units see of the module outside the channel. `fence`: its transmitters are off, by the fence or by the channel itself
(R493, R494); `back`: it returns to service without a reset (R511). -/
structure Ctx where
  ch       : Ch
  variant  : Variant
  mode     : Nat
  night    : Night
  st       : ChState
  holder   : Bool
  forwards : Bool
  arbiterOk : Bool
  moduleId : Nat
  strapError : Bool
  epoch    : Nat
  sbTime   : Nat
  free     : Nat
  rampQueue : Nat
  stale    : Bool
  warn     : Bool
  swap     : Bool
  tokens   : Tab Ch
  otherSt  : Nat
  partnerDual : Nat
  fence    : Bool
  await    : Bool
  released : Bool
  ctrlOk   : Bool
  back     : Bool
deriving DecidableEq, Repr

/-- That view for channel `ch`. -/
def State.ctx (s : State) (ch : Ch) : Ctx where
  ch := ch
  variant := s.unit.variant
  mode := s.modeCode
  night := s.mode.night
  st := (s.role ch).st
  holder := s.arb.holder == some ch
  forwards := s.forwards ch
  arbiterOk := s.arb.ok
  moduleId := s.bring.moduleId
  strapError := s.bring.strapError
  epoch := (s.role ch).epoch
  sbTime := s.sbTime
  free := s.free
  rampQueue := bits (s.mreg 0x1104 0) 47 40
  stale := (s.role ch).stale
  warn := s.power.warn
  swap := s.arb.drainer.isSome
  tokens := s.arb.tokens
  otherSt := if s.present ch.other then (s.role ch.other).st.code else 0
  partnerDual := if !s.present ch.other then 0 else
    (upFrom 1 16).foldl (fun m k => if (s.chan ch.other).hwBit 0x4200 k 3 then m + 2 ^ k else m) 0
  fence := (s.role ch).fence || (s.role ch).silent
  await := match s.arb.drill with
    | some d => d.phase == 2 && !d.released && d.new == ch
    | none => false
  released := match s.arb.drill with
    | some d => d.released && d.old == ch && (s.role ch).st == .active
    | none => false
  ctrlOk := s.power.ctrlOk
  back := s.arb.back.any fun b => b.chan == ch

/-- Queue a delta for the other channel (R498): in flight, or in the hold buffer while that channel holds the drain
permission or is FAILED with its reset deferred. A delta that finds 65,536 waiting, or the relay down, makes the receiver stale, since
the sequence has a gap (R502). -/
def State.relayDelta (s : State) (ch : Ch) (d : Delta) : State :=
  let o := ch.other
  let r := s.role o
  if !s.present o || s.arb.holder != some ch then s
  else if (s.arb.drainer == some o && r.st == .active) || (r.st == .failed && r.deferred) then
    if 65536 ≤ s.relay.hold.length then s.modRole o fun r => { r with stale := true }
    else { s with relay := { s.relay with hold := s.relay.hold ++ [d] } }
  else if r.st == .standby || r.st == .draining || (r.st == .starting && 7 ≤ r.stage) then
    if !s.relay.up then s.modRole o fun r => { r with stale := true }
    else if 65536 ≤ s.relay.deltas.length - s.relay.copyLeft then s.modRole o fun r => { r with stale := true }
    else { s with relay := { s.relay with deltas := s.relay.deltas ++ [d] } }
  else s

/-- A channel that has handed over its outbox. -/
def Channel.emptied (c : Channel) : Channel := { c with box := ⟨[], [], [], [], [], none, 0⟩ }

/-- Take over what a channel has handed to the service block. -/
def State.drainBox (s : State) (ch : Ch) : State :=
  let c := s.chan ch
  let b := c.box
  let s := s.setChan ch c.emptied
  let s := { s with sent := s.sent ++ b.out, free := s.free + b.drawn,
                    host := { s.host with relayIn := s.host.relayIn ++ b.up } }
  let s := b.events.foldl (fun s e => s.logEvent (ch.num + 1) e.1 e.2) s
  let s := b.flags.foldl (fun s f => s.noteFlags (f.1 / 256 + 0x2000 * ch.num) (f.1 % 256) f.2) s
  b.deltas.foldl (fun s d => s.relayDelta ch d) s

/-- Insert a log entry by SOURCE and then CODE. -/
def insertLog (e : LogEntry) : List LogEntry → List LogEntry
  | [] => [e]
  | x :: t => if e.source < x.source || (e.source == x.source && e.code < x.code) then e :: x :: t else x :: insertLog e t

/-- Entries that arise in the same step are ordered by SOURCE and then by CODE (R648). -/
def State.orderLog (before s : State) : State :=
  let n := before.log.waiting.length
  { s with log := { s.log with
      waiting := s.log.waiting.take n ++ (s.log.waiting.drop n).foldl (fun l e => insertLog e l) [] } }

/-- Run an operation of one channel and hand its results to the service block. -/
def State.onChan (s : State) (ch : Ch) (f : Ctx → Channel → Channel) : State :=
  (s.setChan ch (f (s.ctx ch) (s.chan ch))).drainBox ch

/-- A command to one channel: a fault where the channel or the part does not exist (R2), else the operation. -/
def onCh (s : State) (ch : Ch) (part : Bool) (f : Ctx → Channel → Channel) : Host.Outcome State Fault Refusal :=
  if !s.present ch then .fault .noSuchChannel
  else if !part then .fault .noSuchPart
  else .next (s.orderLog (s.onChan ch f))

/-- A command of a handshake stage of the forwarding pipeline: in NIGHT no such stage runs, and what is in it waits (R538). -/
def onPipe (s : State) (ch : Ch) (part : Bool) (f : Ctx → Channel → Channel) : Host.Outcome State Fault Refusal :=
  onCh s ch part fun cx c => if cx.night == .asleep then c else f cx c

end Sys2Proof.Machine
end

