-- ==== Sys2Proof/Machine/Buffer.lean ====
section
/-! DEFINITION. Stored frames and their copies, cells, pools, requesters, releases and back-pressure (R341 to R372). -/

namespace Sys2Proof.Machine

/-! ## Frames and copies -/

/-- The lookup record of a pass before its lookups. -/
def Look.empty : Look :=
  ⟨0, 0, 0, 0, 0, 0, 0, 0, false, none, none, false, 0, none, false, none, 0, false, none, 0, 0, 0, false, false, none,
    false, false, 0, (0, 0)⟩

/-- Frame `fid`. -/
def Channel.frame (c : Channel) (fid : Nat) : Option Frame := c.frames.find? fun f => f.id == fid

/-- Replace the frame of the same number. -/
def Channel.setFrame (c : Channel) (f : Frame) : Channel :=
  { c with frames := c.frames.map fun g => if g.id = f.id then f else g }

/-- Change frame `fid`. -/
def Channel.modFrame (c : Channel) (fid : Nat) (f : Frame → Frame) : Channel :=
  { c with frames := c.frames.map fun g => if g.id = fid then f g else g }

/-- Copy `no` of a frame. -/
def Frame.copy (f : Frame) (no : Nat) : Option Copy := f.copies.find? fun x => x.no == no

/-- Copy `no` of frame `fid`. -/
def Channel.copyOf (c : Channel) (r : Nat × Nat) : Option (Frame × Copy) :=
  match c.frame r.1 with
  | none => none
  | some f =>
    match f.copy r.2 with
    | none => none
    | some x => some (f, x)

/-- Change copy `no` of frame `fid`. -/
def Channel.modCopy (c : Channel) (r : Nat × Nat) (g : Copy → Copy) : Channel :=
  c.modFrame r.1 fun f => { f with copies := f.copies.map fun x => if x.no = r.2 then g x else x }

/-- Whether a frame only passes through this module (R157). -/
def Frame.through (f : Frame) : Bool := match f.transit with
  | some t => !t.loc
  | none => false

/-- The bytes of a frame's tag on a fabric link. -/
def Frame.tagLen (f : Frame) : Nat := if f.tag.isSome then 16 else 0

/-- The stored length, the fabric tag included where present (R447). -/
def Frame.stored (f : Frame) : Nat := f.bytes.length + f.tagLen

/-- The cells of a frame (R348). -/
def Frame.cellCount (f : Frame) : Nat := cellsOf f.stored

/-! ## Ports -/

/-- A port at reset: no lock, nothing held, no partner. -/
def PortSt.empty : PortSt where
  locked := false
  holding := false
  tail := false
  paused := false
  pfc := 0
  eee := false
  partner := false
  sync := false
  farPrio := 0
  expired := false
  sentPdu := 0
  pduTime := 0
  line := none
  stamps := []
  owed := false
  forRole := false
  anOp := 0
  due := []

/-- What is left of a port once its link has gone down: its transmit timestamps, and the frame that may have been in progress. -/
def PortSt.dropped (x : PortSt) : PortSt := { PortSt.empty with stamps := x.stamps, tail := x.tail || !x.holding }

/-- What port `p` (1 to 52) keeps beside its registers. -/
def Channel.port (c : Channel) (p : Nat) : PortSt := tabGet (fun _ => PortSt.empty) c.ports p

/-- Replace it. -/
def Channel.setPort (c : Channel) (p : Nat) (x : PortSt) : Channel :=
  { c with ports := tabSet (fun _ => PortSt.empty) c.ports p x }

/-- A multidrop port at reset. -/
def DropSt.empty : DropSt where
  turn := false
  burst := 0
  cycle := none
  had := false
  attempts := 0
  hand := none
  backoff := none
  starved := 0
  lost := false
  dup := false
  line := none

/-- Multidrop port `k` (1 to 16). -/
def Channel.mdrop (c : Channel) (k : Nat) : DropSt := tabGet (fun _ => DropSt.empty) c.mdrops k

/-- Replace it. -/
def Channel.setMdrop (c : Channel) (k : Nat) (x : DropSt) : Channel :=
  { c with mdrops := tabSet (fun _ => DropSt.empty) c.mdrops k x }

/-! ## Pools -/

/-- A pool with nothing charged. -/
def PoolSt.empty : PoolSt := ⟨0, 0, 0, 0, false, [], [], []⟩

/-- The account of pool `k`. -/
def Channel.pool (c : Channel) (k : Nat) : PoolSt := tabGet (fun _ => PoolSt.empty) c.pools k

/-- Replace it. -/
def Channel.setPool (c : Channel) (k : Nat) (p : PoolSt) : Channel :=
  { c with pools := tabSet (fun _ => PoolSt.empty) c.pools k p }

/-- The configuration entry of pool `k` in force (R365, R367). -/
def Channel.poolCfg (c : Channel) (k : Nat) : Nat := c.hww 0x4801 k

/-- WARN1 to WARN3 (R367). -/
def warnOf (cfg i : Nat) : Nat := if i = 1 then bits cfg 127 96 else if i = 2 then bits cfg 159 128 else bits cfg 191 160

/-- The level after shared use has become `sh`, from level `lv` (R356). -/
def levelUp (cfg sh : Nat) : Nat → Nat → Nat
  | 0, lv => lv
  | n + 1, lv => if lv < 3 && warnOf cfg (lv + 1) ≤ sh then levelUp cfg sh n (lv + 1) else lv

/-- The fall of a level below WARNi − HYST (R356). -/
def levelDown (cfg sh : Nat) : Nat → Nat → Nat
  | 0, lv => lv
  | n + 1, lv => if lv > 0 && sh < warnOf cfg lv - bits cfg 95 64 then levelDown cfg sh n (lv - 1) else lv

/-- The flow-control object base of a port: its FLOW_MODE, 0x4104 or 0x4254, and quanta (R103, R142). -/
def Channel.flowMode (c : Channel) (p : Nat) : Nat :=
  if p ≤ 48 then bits (c.hw 0x4100 p) 25 24 else bits (c.hw 0x4250 (p - 48)) 25 24

/-- Flow control of port `p` (R103, R142). -/
def Channel.flowCtl (c : Channel) (p : Nat) : Nat := if p ≤ 48 then c.hw 0x4104 p else c.hw 0x4254 (p - 48)

/-- Whether the link of port 1 to 52 is up. -/
def Channel.linkUp (c : Channel) (p : Nat) : Bool := if p ≤ 48 then c.bit 0x4102 p 0 else c.bit 0x4251 (p - 48) 0

/-- What pool `k` asks port `p` to assert: PFC priorities and PAUSE (R357), by the level of the pool alone; the priority that R102 gives
each received frame takes no part (assumption 133). -/
def Channel.asked (c : Channel) (p k : Nat) : Nat × Bool :=
  let cfg := c.poolCfg k
  let pool := c.pool k
  if tabGet (fun _ => 0) pool.portShared p = 0 || bits cfg 1 0 ≠ 0 then (0, false)
  else
    let set := (if 1 ≤ pool.level then bits cfg 23 16 else 0) ||| (if 2 ≤ pool.level then bits cfg 31 24 else 0)
      ||| (if 3 ≤ pool.level then bits cfg 39 32 else 0)
    let m := c.flowMode p
    (if m = 2 then set &&& bits (c.flowCtl p) 23 16 else 0,
      m == 1 && bits cfg 5 4 != 0 && Nat.ble (bits cfg 5 4) pool.level)

/-- Count a frame of `n` bytes that a port has sent (R114, R138, R168). -/
def Channel.countOut (c : Channel) (p n : Nat) : Channel :=
  let base := if p ≤ 48 then 0x4120 else if p ≤ 52 then 0x4273 else 0x421A
  let k := if p ≤ 48 then p else if p ≤ 52 then p - 48 else p - 64
  (c.inc base k).add (base + 1) k n

/-- A control frame goes out on port `p` (1 to 52) and is counted (R102, R104, R114, R151, R168); it ends low-power idle (R99). -/
def Channel.putControl (c : Channel) (p : Nat) (x : Sent) : Channel :=
  let c := c.emit x
  let c := if p ≤ 48 && c.bit 0x4102 p 22 then c.putBit 0x4102 p 22 false else c
  match x with
  | .pause _ _ pfc _ _ =>
    let c := c.countOut p 64
    if p ≤ 48 then c.inc (if pfc then 0x4123 else 0x4122) p else c.inc (if pfc then 0x427A else 0x4279) (p - 48)
  | .beacon _ _ _ => (c.countOut p 64).inc 0x4277 (p - 48)
  | .lacpdu _ _ _ => (c.countOut p 128).inc 0x4124 p
  | .marker _ _ => (c.countOut p 128).inc 0x4124 p
  | _ => c

/-- Whether a frame is in progress on port `p` (1 to 52): on the line, or cut through to it. -/
def Channel.inProgress (c : Channel) (p : Nat) : Bool :=
  (c.port p).line.isSome || c.cuts.any fun x => x.egress + 48 == p && x.fate == 0

/-- A control frame goes out after the frame in progress and ahead of every queued frame (R98, R102, R151). -/
def Channel.sendControl (c : Channel) (p : Nat) (x : Sent) : Channel :=
  if c.inProgress p then c.setPort p { c.port p with due := (c.port p).due ++ [(x, false)] } else c.putControl p x

/-- Send a PAUSE or PFC frame on port `p` (R102). -/
def Channel.sendPause (c : Channel) (cx : Ctx) (p : Nat) (pfc : Bool) (enable quanta : Nat) : Channel :=
  if !c.linkUp p then c else c.sendControl p (.pause cx.ch p pfc enable quanta)

/-- Bring the assertions of port `p` up to date and send what changed (R357, R102). -/
def Channel.backPressure (c : Channel) (cx : Ctx) (p : Nat) : Channel :=
  if p = 0 || 52 < p then c
  else
    let want := (List.range 15).foldl (fun (a : Nat × Bool) k =>
      let b := c.asked p k
      (a.1 ||| b.1, a.2 || b.2)) (0, false)
    let old := c.reg 0x4805 p
    let pfc := bits old 15 8
    let q := bits (c.flowCtl p) 15 0
    let c := if want.1 ||| pfc ≠ pfc then c.sendPause cx p true want.1 q else c
    let gone := pfc - (pfc &&& want.1)
    let c := if gone ≠ 0 then c.sendPause cx p true gone 0 else c
    let c := if want.2 && !bitOf old 0 then c.sendPause cx p false 0 q else c
    let c := if !want.2 && bitOf old 0 then c.sendPause cx p false 0 0 else c
    c.put 0x4805 p (want.1 * 256 + want.2.toNat)

/-- Store a pool's account: its level, HARD_REACHED and the events follow shared use, and the back-pressure of the
ports that contribute or contributed (R356, R357). Shared use reaches no level in a pool whose SIZE is 0: it takes no cell (R346). -/
def Channel.account (c : Channel) (cx : Ctx) (k : Nat) (p : PoolSt) : Channel :=
  let old := c.pool k
  let cfg := c.poolCfg k
  let size := bits cfg 255 224
  if k = 15 then c.setPool k p
  else
    let up := if size = 0 then old.level else levelUp cfg p.shared 3 old.level
    let lv := levelDown cfg p.shared 3 up
    let hard := Nat.ble (bits cfg 223 192) p.shared && (size != 0 || (old.atHard && p.shared != 0))
    let c := c.setPool k { p with level := lv, atHard := hard }
    let rise := (upFrom 1 3).foldl (fun m i => if old.level < i && i ≤ up then m + 2 ^ (i - 1) else m) 0
    let c := if rise ≠ 0 then c.flag 0x4804 (k + 1) rise else c
    let c := if hard && !old.atHard then c.flag 0x4804 (k + 1) 8 else c
    ((old.portShared ++ p.portShared).map (·.1)).eraseDups.foldl (fun c q => c.backPressure cx q) c

/-! ## Cells -/

/-- Cells of a STRIDE (R367). -/
def strideCells (s : Nat) : Nat := if s = 0 then 1 else if s = 1 then 16 else 256

/-- The first `n` cells from `k` on that a sorted record does not list. -/
def unlisted : Store → Nat → Nat → List Nat
  | [], k, n => upFrom k n
  | (j, _) :: t, k, n => upFrom k (min n (j - k)) ++ unlisted t (max k (j + 1)) (n - (j - k))

/-- Set the record of cells: pool + 1, 0 for free (R342). -/
def Channel.markCells (c : Channel) (l : List Nat) (v : Nat) : Channel :=
  { c with cells := l.foldl (fun t k => tabSet (fun _ => 0) t k v) c.cells }

/-- The record of a cell: pool + 1, or 0, plus 256 when quarantined, plus 256 again once its frame is charged elsewhere and its pool alone
goes on carrying it (R364). -/
def Channel.cellRec (c : Channel) (k : Nat) : Nat := tabGet (fun _ => 0) c.cells k

/-- Cells of the pool area and pool 15 (R341); the pool area is taken to come first (assumption 90). -/
def managedCells (v : Variant) : Nat := poolArea v + 131072

/-- The ranges of the strided pools from `n` pools down, highest pool first: pool, first cell and the cell after the last, below cell
`top` (R345). -/
def Channel.rangesBelow (c : Channel) : Nat → Nat → List (Nat × Nat × Nat)
  | 0, _ => []
  | n + 1, top =>
    let cfg := c.poolCfg n
    let z := strideCells (bits cfg 1 0)
    let base := (top - bits cfg 255 224) / z * z
    if z = 1 || bits cfg 255 224 = 0 then c.rangesBelow n top
    else (n, base, base + bits cfg 255 224) :: c.rangesBelow n base

/-- The fixed ranges of the strided pools, highest first (R345). -/
def Channel.ranges (c : Channel) (v : Variant) : List (Nat × Nat × Nat) := c.rangesBelow 15 (poolArea v)

/-- The range of pool `k`; none for a pool without a stride. -/
def Channel.rangeOf (c : Channel) (v : Variant) (k : Nat) : Option (Nat × Nat) :=
  ((c.ranges v).find? fun r => r.1 == k).map (·.2)

/-- The first `n` cells of the free list: those of no record that lie outside the strided ranges (R342), for ranges that stand in
falling order below cell `top`. -/
def freeOutside (t : Store) (n : Nat) : List (Nat × Nat × Nat) → Nat → List Nat
  | [], top => (unlisted t 0 n).filter fun k => Nat.blt k top
  | r :: l, top =>
    let low := freeOutside t n l r.2.1
    low ++ (unlisted t r.2.2 (n - low.length)).filter fun k => Nat.blt k top

/-- The first free block of a strided pool (R345). -/
def Channel.freeBlock (c : Channel) (v : Variant) (k : Nat) : Option (List Nat) :=
  let z := strideCells (bits (c.poolCfg k) 1 0)
  match c.rangeOf v k with
  | none => none
  | some r =>
    let used := (c.cells.filter fun p => Nat.ble r.1 p.1 && Nat.blt p.1 r.2).map fun p => (p.1 - r.1) / z
    ((List.range (used.length + 1)).find? fun b => !used.contains b && Nat.ble (r.1 + b * z + z) r.2).map fun b =>
      upFrom (r.1 + b * z) z

/-- Occupancy of pool 15 in cells, and its high-water mark (R79). -/
def Channel.ramp (c : Channel) (cx : Ctx) (n : Nat) : Channel :=
  let c := c.account cx 15 { c.pool 15 with shared := n }
  if c.reg 0x4000 0x1E < n then c.put 0x4000 0x1E n else c

/-- `n` cells of the free list for a frame, those of `mine` that are free before others, with record `mark`; what is written to them
reads well again. -/
def Channel.pickCells (c : Channel) (v : Variant) (mine : List Nat) (n mark : Nat) : List Nat × Channel :=
  let kept := (mine.filter fun k => c.cellRec k == 0).take n
  let c := c.markCells kept mark
  let l := freeOutside c.cells (n - kept.length) (c.ranges v) (managedCells v)
  let c := c.markCells l mark
  (kept ++ l, { c with damage := { c.damage with cells := c.damage.cells.filter fun k => !(kept ++ l).contains k } })

/-- Take `n` cells for a frame into pool 15 (R65). -/
def Channel.takeCells (c : Channel) (cx : Ctx) (n : Nat) : List Nat × Channel :=
  let got := c.pickCells cx.variant [] n 16
  (got.1, got.2.ramp cx ((got.2.pool 15).shared + n))

/-- Cells that are quarantined (R364): their records say so, until a reset of the channel frees every cell. -/
def Channel.quarantineTotal (c : Channel) : Nat := (c.cells.filter fun p => Nat.ble 256 p.2).length

/-- The quarantined cells of a frame that its own charge still counts (R364). -/
def Channel.badCells (c : Channel) (l : List Nat) : List Nat := l.filter fun k => Nat.ble 256 (c.cellRec k) && Nat.blt (c.cellRec k) 512

/-- Quarantined cells stay charged to the pool of their records alone, whatever their frame is charged to from now on (R364). -/
def Channel.settleCells (c : Channel) (l : List Nat) : Channel := (c.badCells l).foldl (fun c k => c.markCells [k] (c.cellRec k + 256)) c

/-- Quarantine a cell of the managed area (R362, R364). -/
def Channel.quarantine (c : Channel) (cx : Ctx) (k : Nat) : Channel :=
  let r := c.cellRec k
  if managedCells cx.variant ≤ k || 256 ≤ r then c
  else
    let c := c.markCells [k] (r + 256)
    let c := if 0 < r && r ≤ 15 then
        let p := c.pool (r - 1)
        (c.setPool (r - 1) { p with quarantined := p.quarantined + 1 }).flag 0x4804 r 0x20
      else if r = 16 then
        let p := c.pool 15
        c.setPool 15 { p with quarantined := p.quarantined + 1 }
      else c
    if bits (c.reg 0x4800 3) 31 0 ≤ c.quarantineTotal then c.flag 0x480F 1 4 else c

/-- Log a pointer or share fault and raise trap cause 3, which is dispatched frameless with the pointer in DETAIL
(R313, R362, R649). -/
def Channel.pointerTrap (c : Channel) (ptr owner : Nat) : Channel :=
  let c := c.log 0x32 (ptr % 2 ^ 40 + (owner % 256) * 2 ^ 40)
  { c with disp := { c.disp with wait := c.disp.wait ++ [(3, 0, ptr % 2 ^ 32)] } }

/-- The check that a pointer released to `pool` fails (R362): 1 range, 2 alignment. No cell's record names a pool above 15. -/
def Channel.badPointer (c : Channel) (v : Variant) (ptr pool : Nat) : Option Nat :=
  let cell := ptr / 256
  let r := c.rangeOf v pool
  let z := strideCells (bits (c.poolCfg pool) 1 0)
  if 15 < pool || managedCells v ≤ cell || c.cellRec cell ≠ pool + 1 || (match r with
      | some r => Nat.blt cell r.1 || Nat.ble r.2 cell
      | none => z != 1) then some 1
  else if ptr % 256 ≠ 0 || (cell - (r.map (·.1)).getD 0) % z ≠ 0 then some 2
  else none

/-- A refused pointer (R362): counted, cause 3, its cell quarantined. -/
def Channel.pointerFault (c : Channel) (cx : Ctx) (ptr owner which : Nat) : Channel :=
  (((c.inc 0x4822 which).flag 0x480F 1 1).pointerTrap ptr owner).quarantine cx (ptr / 256)

/-! ## What requesters hold (R359 to R361) -/

/-- The pool of requester `i` (1 to 4). -/
def Channel.reqPool (c : Channel) (i : Nat) : Nat := bits (c.hw 0x4803 i) 35 32

/-- The cells that requester `i` holds within its minimum, in its pool. -/
def Channel.reqUse (c : Channel) (i : Nat) : Nat :=
  c.requesters.foldl (fun n h => if h.who = i && h.pool = c.reqPool i then n + h.reserved else n) 0

/-- What the holding for `key` of requester `i` is. -/
def Channel.holdOf (c : Channel) (i : Nat) (key : HeldFor) : Option ReqHold :=
  c.requesters.find? fun h => h.who == i && h.for_ == key

/-- An account to which a holding is given back; `bad` cells of it are quarantined and stay charged (R364). -/
def PoolSt.paid (p : PoolSt) (h : ReqHold) (bad : Nat) : PoolSt :=
  let rest := bad - min h.shared bad
  { p with shared := p.shared - (h.shared - min h.shared bad), reserved := p.reserved - (h.reserved - rest) }

/-- Give a holding's charge back to the pool it was taken from. -/
def Channel.payBack (c : Channel) (cx : Ctx) (h : ReqHold) (bad : Nat) : Channel :=
  let c := { c with requesters := c.requesters.erase h }
  c.account cx h.pool ((c.pool h.pool).paid h bad)

/-- A holding ends with its cells (R359): they are free again, but for quarantined ones. -/
def Channel.endReq (c : Channel) (cx : Ctx) (h : ReqHold) : Channel :=
  let ok := h.cells.filter fun k => c.cellRec k < 256
  (c.payBack cx h (h.cells.length - ok.length)).markCells ok 0

/-- Requester `i` releases what it holds for `key`, with a pointer to its first cell and its owner tag (R362). -/
def Channel.reqGive (c : Channel) (cx : Ctx) (i : Nat) (key : HeldFor) : Channel :=
  match c.holdOf i key with
  | none => c
  | some h =>
    let ptr := h.cells.headD 0 * 256
    match c.badPointer cx.variant ptr h.pool with
    | some which => c.pointerFault cx ptr (0x80 + i) which
    | none => c.endReq cx h

/-- A holding of the frame itself is given back (R359). -/
def Channel.endHandled (c : Channel) (cx : Ctx) (cells : List Nat) (key : HeldFor) : Channel :=
  (c.requesters.filter fun h => h.for_ == key).foldl
    (fun c h => c.payBack cx h (c.badCells cells).length) c

/-- An account to which a frame's charge split is given back, but for its `bad` quarantined cells (R349, R364). -/
def PoolSt.undone (p : PoolSt) (f : Frame) (bad : Nat) : PoolSt :=
  let rest := bad - min f.rs bad
  let less := fun (t : Store) (n : Nat) => tabSet (fun _ => 0) t f.inPort (tabGet (fun _ => 0) t f.inPort - n)
  { p with
    shared := p.shared - (f.rs - min f.rs bad), reserved := p.reserved - (f.rq + f.rp - rest),
    portShared := less p.portShared f.rs, portReserved := less p.portReserved f.rp }

/-- Free the cells of a frame and undo its charge split; quarantined cells stay charged (R349, R364). -/
def Channel.freeFrame (c : Channel) (cx : Ctx) (f : Frame) : Channel :=
  let c := c.endHandled cx f.cells (.pass f.id)
  let bad := (c.badCells f.cells).length
  let ok := f.cells.filter fun k => c.cellRec k < 256
  let c := c.markCells ok 0
  let c := c.modFrame f.id fun g => { g with cells := [], rq := 0, rp := 0, rs := 0 }
  if f.pool = 15 then c.ramp cx ((c.pool 15).shared - ok.length)
  else if 15 < f.pool then c
  else c.account cx f.pool ((c.pool f.pool).undone f bad)

/-- The step of a share record (R363): the release is a fault, leaves the frame, or is the last. -/
inductive Release where
  | fault
  | keep (share : Nat) (parked : Bool)
  | last
deriving DecidableEq, Repr

/-- The table of R363. -/
def shareStep (share : Nat) (parked last : Bool) : Release :=
  if last then
    if share = 1 then .last
    else if share = 0 || parked then .fault
    else .keep share true
  else if 3 ≤ share then .keep (share - 1) parked
  else if share = 2 then (if parked then .last else .keep 1 false)
  else .fault

/-- A frame without copies whose pass is over is gone. -/
def Channel.sweepFrame (c : Channel) (fid : Nat) : Channel :=
  { c with frames := c.frames.filter fun f => !(f.id == fid && f.pos == .live && f.copies.isEmpty) }

/-- A release with its pointer and owner tag (R362, R363). While the frame is still in the pipeline, its cells stay
until its pass is over. -/
def Channel.release (c : Channel) (cx : Ctx) (fid no owner ptr pool : Nat) : Channel :=
  match c.badPointer cx.variant ptr pool with
  | some which => c.pointerFault cx ptr owner which
  | none =>
    match c.requesters.find? fun h => h.who + 0x80 == owner && h.cells.head? == some (ptr / 256) with
    | some h => c.endReq cx h
    | none =>
      match c.frame fid with
      | none => c.pointerFault cx ptr owner 1
      | some f =>
        match shareStep f.share f.parked (f.owner == (owner, no)) with
        | .keep n p => c.modFrame fid fun f => { f with share := n, parked := p }
        | .last =>
          let c := c.modFrame fid fun f => { f with share := 0, parked := false }
          if f.pos == .live then c.freeFrame cx f else c
        | .fault => f.cells.foldl (fun c k => c.quarantine cx k) (((c.inc 0x4823 1).flag 0x480F 1 2).pointerTrap ptr owner)

/-- Mark a copy's cells as given up without a further release. -/
def Channel.releaseCells (c : Channel) (cx : Ctx) (r : Nat × Nat) : Channel :=
  match c.copyOf r with
  | none => c
  | some (f, x) =>
    if x.freed then c
    else (c.modCopy r fun x => { x with freed := true }).release cx r.1 r.2 x.owner (f.cells.headD 0 * 256) f.pool

/-- Whether a wait is for a copy. -/
def Wait.isFor (r : Nat × Nat) : Wait → Bool
  | .recirc fid no | .host fid no => fid == r.1 && no == r.2
  | _ => false

/-- Waits that `gone` says have lost their object leave their line; those behind them move up (R360). -/
def Channel.unwait (c : Channel) (gone : Wait → Bool) : Channel :=
  (c.pools.map (·.1)).foldl (fun c k =>
    if (c.pool k).waiting.any gone then c.setPool k { c.pool k with waiting := (c.pool k).waiting.filter fun w => !gone w } else c) c

/-- A copy is done with: a wait for it ends, a requester that holds it gives its charge back (R359), it is released (R363) and
forgotten. -/
def Channel.endCopy (c : Channel) (cx : Ctx) (r : Nat × Nat) : Channel :=
  let c := c.unwait (Wait.isFor r)
  let cells := match c.frame r.1 with
    | some f => f.cells
    | none => []
  let c := (c.endHandled cx cells (.copy r.1 r.2)).releaseCells cx r
  (c.modFrame r.1 fun f => { f with copies := f.copies.filter fun x => x.no ≠ r.2 }).sweepFrame r.1

/-- The pass of a frame is over: without a copy its cells are freed (R349). -/
def Channel.endPass (c : Channel) (cx : Ctx) (fid : Nat) : Channel :=
  let c := c.modFrame fid fun f => { f with pos := .live }
  match c.frame fid with
  | none => c
  | some f => (if f.share = 0 then c.freeFrame cx f else c).sweepFrame fid

/-! ## Requesters (R359 to R361) -/

/-- Take `n` cells for requester `i`: first its minimum, then shared cells up to HARD (R360). A strided pool gives a free block of its
range. `back` is what is given back to that pool in the same step (R359). -/
def Channel.reqTakeWith (c : Channel) (cx : Ctx) (i n : Nat) (key : HeldFor) (back : PoolSt → PoolSt) : Option Channel :=
  let k := c.reqPool i
  let p := back (c.pool k)
  let cfg := c.poolCfg k
  let r := min n (bits (c.hw 0x4803 i) 31 0 - c.reqUse i)
  let s := n - r
  if (s ≠ 0 && bits cfg 223 192 < p.shared + s) || bits cfg 255 224 < p.shared + p.reserved + n then none
  else
    (if bits cfg 1 0 = 0 then some [] else c.freeBlock cx.variant k).map fun l =>
      let c := { c.markCells l (k + 1) with requesters := c.requesters ++ [(⟨i, key, k, r, s, l⟩ : ReqHold)] }
      c.account cx k { p with shared := p.shared + s, reserved := p.reserved + r }

/-- Take `n` cells for requester `i` where nothing is given back. -/
def Channel.reqTake (c : Channel) (cx : Ctx) (i n : Nat) (key : HeldFor) : Option Channel := c.reqTakeWith cx i n key id

/-- A copy is handed to requester `i`: in one step its frame gives up its queue charge and `n` cells are charged to the requester; the
frame keeps its cells, whose records name the requester's pool from then on (R359, assumption 91). Its quarantined cells stay charged to
the pool they were in (R364). -/
def Channel.handOver (c : Channel) (cx : Ctx) (i n : Nat) (r : Nat × Nat) : Option Channel :=
  match c.frame r.1 with
  | none => none
  | some f =>
    let k := c.reqPool i
    let bad := (c.badCells f.cells).length
    let back := fun (p : PoolSt) => if f.pool = k then p.undone f bad else p
    (c.reqTakeWith cx i (n - bad) (.copy r.1 r.2) back).map fun c =>
      let c := if f.pool = k || 15 ≤ f.pool then c else c.account cx f.pool ((c.pool f.pool).undone f bad)
      ((c.settleCells f.cells).markCells (f.cells.filter fun j => c.cellRec j < 256) (k + 1)).modFrame r.1 fun f =>
        { f with pool := k, rq := 0, rp := 0, rs := 0 }

/-- The bytes of an edited copy as it re-enters the parser, padded to 64 with a fresh FCS still to come (R180). -/
def Copy.again (x : Copy) : List Byte :=
  let body := x.bytes.getD []
  body ++ List.replicate (60 - body.length) 0

/-- The requester that a wait belongs to, and the cells that it asks for; a recirculated frame counts as edited. -/
def Channel.waitFor (c : Channel) : Wait → Nat × Nat
  | .capture => (1, 256)
  | .scan _ => (3, 16)
  | .recirc fid no => (2, match c.copyOf (fid, no) with
      | some (f, x) => cellsOf (x.again.length + 4 + f.tagLen)
      | none => 0)
  | .host fid no => (4, match c.copyOf (fid, no) with
      | some (f, _) => f.cellCount
      | none => 0)

/-- Take what a wait asks for, if there is room. -/
def Channel.serve (c : Channel) (cx : Ctx) (w : Wait) : Option Channel :=
  let n := c.waitFor w
  match w with
  | .capture => c.reqTake cx n.1 n.2 .block
  | .scan u => c.reqTake cx n.1 n.2 (.unit u)
  | .recirc fid no => c.handOver cx n.1 n.2 (fid, no)
  | .host fid no => c.handOver cx n.1 n.2 (fid, no)

/-- Take at once what `w` asks for, or wait behind the requests of the pool that wait already (R360). -/
def Channel.request (c : Channel) (cx : Ctx) (w : Wait) : Bool × Channel :=
  let k := c.reqPool (c.waitFor w).1
  let p := c.pool k
  if p.waiting.contains w then (false, c)
  else
    match (if p.waiting.isEmpty then c.serve cx w else none) with
    | some c => (true, c)
    | none => (false, c.setPool k { p with waiting := p.waiting ++ [w] })

/-- The cells of pool `k` that the request at the head of its line has the first turn to, and those of them that are shared (R360). -/
def Channel.firstTurn (c : Channel) (k : Nat) : Nat × Nat :=
  match (c.pool k).waiting.head? with
  | none => (0, 0)
  | some w =>
    let n := c.waitFor w
    (n.2, n.2 - (bits (c.hw 0x4803 n.1) 31 0 - c.reqUse n.1))

end Sys2Proof.Machine
end

