-- ==== Sys2Proof/Machine/Crc.lean ====
section
/-! DEFINITION. The check values of the module: the CRC of R470 with its parameters, and the CRCs of R112 and R182. -/

namespace Sys2Proof.Machine

/-- The lowest `n` bits of `v` in reverse order. -/
def reflect (n v : Nat) : Nat :=
  (List.range n).foldl (fun r i => r * 2 + (v >>> i) % 2) 0

/-- The parameters of R470. -/
structure CrcParams where
  width  : Nat
  poly   : Nat
  refin  : Bool
  refout : Bool
  xorout : Nat
deriving DecidableEq, Repr

/-- One bit of R470's loop. -/
def crcBit (p : CrcParams) (reg : Nat) : Nat :=
  if bitOf reg (p.width - 1) then ((reg * 2) ^^^ p.poly) % 2 ^ p.width else (reg * 2) % 2 ^ p.width

/-- One byte of R470's loop. -/
def crcByte (p : CrcParams) (reg : Nat) (b : Byte) : Nat :=
  let b := if p.refin then reflect 8 b.toNat else b.toNat
  (List.range 8).foldl (fun r _ => crcBit p r) (reg ^^^ (b <<< (p.width - 8)))

/-- The register after some bytes (R470). -/
def crcRun (p : CrcParams) (reg : Nat) (data : List Byte) : Nat := data.foldl (crcByte p) reg

/-- The result of a register (R470). -/
def crcOut (p : CrcParams) (reg : Nat) : Nat :=
  ((if p.refout then reflect p.width reg else reg) ^^^ p.xorout) % 2 ^ p.width

/-- The CRC-32C of R182. -/
def crc32cParams : CrcParams := ⟨32, 0x1EDC6F41, true, true, 0xFFFFFFFF⟩

/-- The CRC-32C with a seed; over no bytes it is the seed XOR 0xFFFF_FFFF (R182). -/
def crc32c (seed : Nat) (data : List Byte) : Nat :=
  if data.isEmpty then (seed ^^^ 0xFFFFFFFF) % 2 ^ 32 else crcOut crc32cParams (crcRun crc32cParams seed data)

/-- The 24 bytes of a control store word, [191:184] first (R321, R685). -/
def wordBytes (w : Nat) : List Byte := beBytes 24 w

/-- The CRC-32C of some control store words (R321). -/
def wordsCrc (words : List Nat) : Nat := crc32c 0xFFFFFFFF (words.flatMap wordBytes)

/-- The CRC-16 of the wake patterns (R112). -/
def crc16 (data : List Byte) : Nat := crcRun ⟨16, 0x1021, false, false, 0⟩ 0xFFFF data

/-- The FCS of a frame, the CRC-32 of IEEE 802.3 (outside the spec: assumption 10), as its four bytes. -/
def fcsBytes (data : List Byte) : List Byte :=
  let p : CrcParams := ⟨32, 0x04C11DB7, true, true, 0xFFFFFFFF⟩
  leBytes 4 (crcOut p (crcRun p 0xFFFFFFFF data))

end Sys2Proof.Machine
end

