-- ==== Sys2Proof/Machine/Paths.lean ====
section
/-! DEFINITION. Ports and pipelines (R30 to R36), the selected fabric link, fabric paths and tags (R143, R154, R158), the
parser profile's fields and hash (R174, R181), and the indirection unit (R184). -/

namespace Sys2Proof.Machine

/-! ## Ports -/

/-- The ingress pipeline of a port (R35). -/
def pipeOf (p : Nat) : Nat :=
  if p ≤ 48 then (p - 1) / 6 else if p ≤ 52 then 2 * (p - 49) else if p = 54 then 7 else 1

/-- Count a frame of `n` bytes received on port `p` in the offered load (R60). -/
def Channel.hear (c : Channel) (p n : Nat) : Channel :=
  let h := c.core.heard
  { c with core := { c.core with heard := setAt h (pipeOf p) (h.getD (pipeOf p) 0 + (n + 20) * 8) } }

/-- A port that a frame may enter or leave by: 1 to 54 and 65 to 80 (R30). -/
def isPort (p : Nat) : Bool := (1 ≤ p && p ≤ 54) || (65 ≤ p && p ≤ 80)

/-- A port with a line: not the internal ports (R32). -/
def isLine (p : Nat) : Bool := isPort p && p != 53 && p != 54

/-- Ports 50 and 52 share the tiers of 49 and 51 (R378). -/
def tierOf (p : Nat) : Nat := if p = 50 || p = 52 then p - 1 else p

/-- A tier (R378). -/
def isTier (e : Nat) : Bool := isPort e && e != 50 && e != 52

/-- What a fabric link has before its first beacon. -/
def LinkSt.empty : LinkSt := ⟨0, 0, 0, false, false, false⟩

/-- Fabric link `l` (1 to 4). -/
def Channel.link (c : Channel) (l : Nat) : LinkSt := tabGet (fun _ => LinkSt.empty) c.links l

/-- Replace it. -/
def Channel.setLink (c : Channel) (l : Nat) (x : LinkSt) : Channel :=
  { c with links := tabSet (fun _ => LinkSt.empty) c.links l x }

/-- The selected link of the direction of tier 49 (left) or 51 (right) (R154). -/
def Channel.selected (c : Channel) (e : Nat) : Option Nat :=
  let l := if e = 49 then 1 else 3
  if (c.link l).sel then some l else if (c.link (l + 1)).sel then some (l + 1) else none

/-- MODULES, TOPOLOGY and own ID (R156). -/
def Channel.modules (c : Channel) : Nat := bits (c.hw 0x4252 1) 22 16

/-- TOPOLOGY of 0x4252 (R156). -/
def Channel.topology (c : Channel) : Nat := bits (c.hw 0x4252 1) 15 14

/-- DOMAIN_CONFIG holds (R156), or the straps could not be read (R565). -/
def Channel.domainBad (c : Channel) (cx : Ctx) : Bool :=
  cx.strapError || Nat.blt c.modules cx.moduleId || ((c.topology == 1 || c.topology == 2) && Nat.blt c.modules 2)

/-- Where the origin sends a unicast frame (R158): no path, this module, or a direction's tier with HOPS. -/
inductive Way where
  | none
  | here
  | to (tier hops : Nat)
deriving DecidableEq, Repr

/-- R158; a module under DOMAIN_CONFIG carries beacons only, so it has no path to another module (R156, assumption 81). -/
def Channel.way (c : Channel) (cx : Ctx) (d : Nat) : Way :=
  let n := c.modules
  let s := cx.moduleId
  let t := c.topology
  if t = 0 || d < 1 || n < d then .none
  else if d = s then .here
  else if c.domainBad cx then .none
  else if t = 1 then
    let dir := if s < d then 51 else 49
    if (c.selected dir).isNone then .none else .to dir (if s < d then d - s else s - d)
  else
    let r := (d + n - s % n) % n
    let l := n - r
    let dir := if r ≤ l then 51 else 49
    let hops := if r ≤ l then r else l
    if (c.selected dir).isSome then .to dir hops
    else
      let back := if dir = 51 then 49 else 51
      if (c.selected back).isSome then .to back (n - hops) else .none

/-- The way with a forced direction (R187): 1 left, 2 right, with the HOPS of a line or of that direction in a ring. -/
def Channel.forcedWay (c : Channel) (cx : Ctx) (d dir : Nat) : Way :=
  let n := c.modules
  let s := cx.moduleId
  let tier := if dir = 1 then 49 else 51
  if c.topology = 0 || d < 1 || n < d || c.domainBad cx || (c.selected tier).isNone then .none
  else if c.topology = 1 then .to tier (if s < d then d - s else s - d)
  else
    let r := (d + n - s % n) % n
    .to tier (if dir = 2 then r else n - r)

/-- A fabric tag of R143, 112 bits. `dest` is bits [89:74]. -/
def mkTag (mc relay : Bool) (cx : Ctx) (srcPort dest q colour pass hops : Nat) : Nat :=
  2 ^ 108 + mc.toNat * 2 ^ 107 + relay.toNat * 2 ^ 104 + ((cx.moduleId - 1) % 64) * 2 ^ 98 + (srcPort % 128) * 2 ^ 91
    + cx.ch.num * 2 ^ 90 + (dest % 2 ^ 16) * 2 ^ 74 + (q % 2 ^ 18) * 2 ^ 56 + (colour % 4) * 2 ^ 54
    + (pass % 4) * 2 ^ 52 + (hops % 64) * 2 ^ 46

/-- DEST of a unicast tag (R143). -/
def tagDest (module port : Nat) : Nat := ((module - 1) % 64) * 2 ^ 10 + (port % 128) * 2 ^ 3

/-- The 16 bytes of a tag on the line (R143). -/
def tagBytes (t : Nat) : List Byte := beBytes 2 0x88B5 ++ beBytes 14 t

/-- A frame's bytes with its tag inserted at byte 12. -/
def withTag (bytes : List Byte) : Option Nat → List Byte
  | none => bytes
  | some t => bytes.take 12 ++ tagBytes t ++ bytes.drop 12

/-- The tag that a frame goes on with from one fabric link to another (R144): HOPS and COLOUR rewritten, STOMP_AWARE left to the
egress MAC. -/
def onwardTag (tag hops : Nat) : Nat := setBit (setBits tag 51 46 hops) 106 false

/-- The tag of a copy that a record or a session names fabric port itself (R143, R144): a frame that has a tag keeps it with HOPS and
COLOUR rewritten; for another, DEST and HOPS are open (assumption 35). -/
def Channel.portTag (c : Channel) (cx : Ctx) (f : Frame) (q : Nat) : Nat × Channel :=
  match f.tag with
  | some t => (setBits (onwardTag t (bits t 51 46 - 1)) 55 54 f.colour, c)
  | none =>
    let d := c.draw cx.free
    (mkTag false false cx f.inPort (d.1 % 2 ^ 16) q f.colour f.pass (d.1 / 2 ^ 16 % 64), d.2)

/-! ## Profiles (R172 to R177) -/

/-- The descriptor of field `k` in an entry of 0x4304 (R194). -/
def descOf (e k : Nat) : Nat :=
  let at_ := (47 - 2 * k) * 8
  bits e (at_ + 7) at_ + 256 * bits e (at_ - 1) (at_ - 8)

/-- The descriptor of field `k` of a profile (R194). -/
def Channel.fieldDesc (c : Channel) (prof k : Nat) : Nat := descOf (c.wget 0x4304 (prof - 1)) k

/-- The window of R169 and R170: 128 bytes of the frame, zeros in place of the FCS and beyond. -/
def windowOf (bytes : List Byte) : List Byte :=
  let body := (bytes.take (bytes.length - 4)).take 128
  body ++ List.replicate (128 - body.length) 0

/-- Bytes of a field with its descriptor (R174). -/
def fieldBytes (window : List Byte) (d : Nat) : List Byte := slice window (bits d 6 0) (bits d 10 7 + 1)

/-- Whether a field reaches the FCS of a frame of length `len` (R174). -/
def fieldIncomplete (d len : Nat) : Bool := Nat.ble (len - 3) (bits d 6 0 + bits d 10 7 + 1)

/-- The descriptor of field `k` with which a frame was parsed (R188). -/
def Frame.fieldDesc (f : Frame) (k : Nat) : Nat := descOf f.look.fields k

/-- The hash bytes of a frame (R181). -/
def Frame.hashBytes (f : Frame) : List Byte :=
  let h := f.look.hash
  let w := windowOf f.bytes
  (if bitOf h 24 then [BitVec.ofNat 8 f.inPort] else []) ++
    ((List.range 24).filter (bitOf h)).flatMap fun k => fieldBytes w (f.fieldDesc k)

/-- Whether multidrop port `k` is dual-attached: the field has the same value on both channels (R127, R128). -/
def Channel.dual (c : Channel) (cx : Ctx) (k : Nat) : Bool := c.hwBit 0x4200 k 3 && bitOf cx.partnerDual k

/-- Whether the channel's multidrop port `k` may transmit and forward (R126, R127). -/
def Channel.token (c : Channel) (cx : Ctx) (k : Nat) : Bool :=
  if c.dual cx k then tabGet (fun _ => Ch.a) cx.tokens k == cx.ch && !cx.fence && (cx.forwards || cx.st == .draining)
  else cx.forwards

/-- A port is up for SKIP_DOWN (R184). -/
def Channel.memberUp (c : Channel) (cx : Ctx) (p : Nat) : Bool :=
  if p ≤ 48 then c.bit 0x4102 p 0 && (!c.hwBit 0x4100 p 26 || c.bit 0x4102 p 20)
  else if p ≤ 52 then (c.link (p - 48)).sel
  else c.bit 0x4202 (p - 64) 0 && c.token cx (p - 64)

/-- A unit with no job. -/
def JobSt.empty : JobSt := ⟨0, 0, 0, false, 0⟩

/-- The job of unit `u`. -/
def Channel.job (c : Channel) (u : Nat) : JobSt := tabGet (fun _ => JobSt.empty) c.jobs u

/-- A table is written between the first and the last read of a check unit's job over it: CHANGED (R477). -/
def Channel.noteTable (c : Channel) (n : Nat) : Channel :=
  (upFrom 1 4).foldl (fun c u =>
    let ctl := c.reg 0x4D01 u
    let reading := c.bit 0x4D09 u 16 && Nat.blt 0 (c.job u).pos && Nat.blt (c.job u).pos (c.reg 0x4D07 u)
    if reading && bits ctl 21 20 == 3 && bits ctl 27 24 == n then c.putBit 0x4D09 u 10 true else c) c

/-- A write of an object or entry ends an error in it (R190). -/
def Channel.mend (c : Channel) (key : Nat) : Channel :=
  { c with damage := { c.damage with objs := c.damage.objs.filter (· ≠ key) } }

/-- Read entry `i` of the indirection table for a frame: none when its parity fails; it then reads TYPE 0 (R190). -/
def Channel.readIndirect (c : Channel) (i : Nat) : Option Nat × Channel :=
  let key := winKey 0x4310 i
  let e := c.wget 0x4310 i
  if c.damage.objs.contains key then (none, ((c.mend key).wput 0x4310 i (setBits e 63 60 0)).noteTable 6) else (some e, c)

/-- The fallback entry of a group, taken as it stands and counted by its reason (R184): the entry, or the drop code. -/
def Channel.fallback (c : Channel) (d reason : Nat) : Sum Nat Nat × Channel :=
  match (c.inc 0x4323 reason).readIndirect (bits d 79 64) with
  | (none, c) => (.inl 0x39, c)
  | (some e, c) => (if bits e 63 60 = 0 then .inl 0x38 else .inr e, c)

/-- The indirection unit (R184): the entry found, or the code of the drop. -/
def Channel.resolve (c : Channel) (cx : Ctx) (f : Frame) (g : Nat) : Sum Nat Nat × Channel :=
  let d := c.wget 0x4311 (g % 4096)
  let size := bits d 44 32
  if size = 0 then c.fallback d 1
  else
    let h := crc32c (bits d 127 96) f.hashBytes
    match c.readIndirect (bits d 15 0 + (h % 65536) * size / 65536) with
    | (none, c) => (.inl 0x39, c)
    | (some e, c) =>
      if bits e 63 60 = 0 then c.fallback d 2
      else if bitOf d 80 && bits e 63 60 == 2 && !c.memberUp cx (bits e 6 0) then c.fallback d 3
      else (.inr e, c)

/-- Count a drop of the indirection unit: INDIRECT_DROP for 0x37 and 0x38, INDIRECT_PARITY for 0x39 (R186, R190, R199, R200). -/
def Channel.countIndirect (c : Channel) (code : Nat) : Channel :=
  if 0x37 ≤ code && code ≤ 0x39 then (c.inc 0x4324 (code - 0x36)).flag 0x432F 1 (if code = 0x39 then 32 else 8) else c

end Sys2Proof.Machine
end

