-- ==== Sys2Proof/Machine/Mirror.lean ====
section
/-! DEFINITION. Mirror sessions and the copies they take, drops of frames and of copies (R441 to R448, R37). -/

namespace Sys2Proof.Machine

/-- Bit `p` of an octet string of `n` octets, octet 0 first (R111). -/
def octBit (n v p : Nat) : Bool := bitOf v ((n - 1 - p / 8) * 8 + p % 8)

/-- Field `i` of a frame's action record; zero when the routine did not run. -/
def Frame.field (f : Frame) (i : Nat) : Nat := f.act.getD i 0

/-- The egress port that the action record has chosen, 0 where it names none (R447). -/
def Frame.egress (f : Frame) : Nat := if bits (f.field 0) 26 24 = 1 then bits (f.field 0) 6 0 else 0

/-- The metadata of a record but its number (R447). -/
def Frame.info (f : Frame) (stamp point s port q reason len : Nat) (tagged : Bool) : List Byte :=
  let flags := f.oversize.toNat + f.fcsBad.toNat * 2 + f.stomp.toNat * 4 + tagged.toNat * 8 + (bitOf (f.field 6) 2).toNat * 16
  let src := match f.tag with
    | some t => bits t 103 98 + 1
    | none => 0
  beBytes 11 stamp ++ leBytes 1 (point * 16 + s) ++ leBytes 1 port ++ leBytes 1 f.inPort ++ leBytes 1 reason ++
    leBytes 1 (f.field 10) ++ leBytes 4 (q + f.colour * 2 ^ 18 + f.pass * 2 ^ 20) ++ leBytes 2 len ++ leBytes 1 flags ++
    leBytes 1 src ++ leBytes 8 0

/-! ## What leaves the egress editor (R306) -/

/-- The Internet checksum of a header whose checksum field counts as zero. -/
def ipv4Sum (hdr : List Byte) : Nat :=
  let words := (List.range (hdr.length / 2)).map fun i => if i = 5 then 0 else field hdr (2 * i) 2
  let s := words.foldl (· + ·) 0
  let s := s % 65536 + s / 65536
  let s := s % 65536 + s / 65536
  65535 - s

/-- The body of a frame (without FCS) after the edits of its action record (R306). -/
def Frame.edited (f : Frame) : List Byte :=
  let body := f.bytes.take (f.bytes.length - 4)
  let body := f.edits.foldl (fun b o => patch b o (slice f.window o 1)) body
  let pop := 4 * bits (f.field 6) 4 3
  let body := body.take 12 ++ body.drop (12 + pop)
  let body := if bitOf (f.field 8) 32 then body.take 12 ++ beBytes 4 (bits (f.field 8) 31 0) ++ body.drop 12 else body
  if bitOf (f.field 6) 1 then
    let o := f.field 7
    let len := 4 * (byteAt body o % 16)
    patch body (o + 10) (beBytes 2 (ipv4Sum (slice body o len)))
  else body

/-- The bytes with which a copy leaves the egress editor, without FCS and with its fabric tag: a forwarding copy as edited (R306); the
copy that passes on from link to link as it came, since R144 has nothing of it but its tag rewritten; a session's copy with the content
that its session took. -/
def Frame.outBody (f : Frame) (x : Copy) : List Byte :=
  match x.kind with
  | .fwd => withTag f.edited x.tag
  | _ => match x.bytes with
    | some b => withTag (b.take (b.length - 4)) x.tag
    | none => withTag (f.bytes.take (f.bytes.length - 4)) x.tag

/-! ## Copies and sessions -/

/-- A copy with its fields at rest. -/
def Copy.mk0 (no owner : Nat) (kind : CopyKind) (pos : CopyAt) (tier q : Nat) (tag : Option Nat) : Copy :=
  ⟨no, owner, kind, pos, tier, q, false, tag, [], none, tier, 0, false, none, false, false, false, 0⟩

/-- The capture engine is stopped: its store failed training, or the capture island is unlocked (R80, R562). -/
def Channel.capStopped (c : Channel) : Bool := c.cap.stopped || !c.bit 0x4000 0x20 28

/-- Create a copy of frame `fid` (R363): at most 255, and the last one created is LAST_OWNER. -/
def Channel.addCopy (c : Channel) (fid : Nat) (mk : Nat → Copy) : Option Nat × Channel :=
  match c.frame fid with
  | none => (none, c)
  | some f =>
    if 255 ≤ f.nextNo then (none, (c.inc 0x4825 1).flag 0x480F 1 16)
    else
      let x := mk f.nextNo
      (some f.nextNo, c.modFrame fid fun f => { f with
        nextNo := f.nextNo + 1, share := f.share + 1, owner := (x.owner, x.no), copies := f.copies ++ [x] })

/-- Lose `n` records under a cause of R455. -/
def Channel.loseRecords (c : Channel) (cause n : Nat) : Channel :=
  if n = 0 then c else (c.add 0x4C52 cause n).flag 0x4C0F 1 2

/-- The next RECORD_SEQ is given to a copy (R448) and 0x4C01:03 goes on (R463). -/
def Channel.takeNumber (c : Channel) : Nat × Channel :=
  let n := (c.cap.nextRec + 1) % 2 ^ 32
  (c.cap.nextRec, ({ c with cap := { c.cap with nextRec := n } } : Channel).put 0x4C01 3 n)

/-- Session `s` takes a capture copy, which gets its number: it goes to the engine's intake queue, or is lost (R446, R448, R455). A frame
of 255 copies has none made (R363), and none is counted (R468). -/
def Channel.toCapture (c : Channel) (fid s : Nat) (x : Nat → Copy) : Channel :=
  let lose := fun cause => (c.takeNumber.2.inc 0x4C53 (s + 1)).loseRecords cause 1
  if ((c.frame fid).map (·.nextNo)).any (Nat.ble 255 ·) then (c.addCopy fid x).2
  else if c.cap.hold then lose 3
  else if 4096 ≤ c.cap.intake.length then lose 1
  else
    let n := c.takeNumber
    match (n.2.inc 0x4C53 (s + 1)).addCopy fid x with
    | (none, c) => c
    | (some no, c) => { c with cap := { c.cap with intake := c.cap.intake ++ [(fid, no, n.1)] } }

/-- What happens to a frame at the moment sessions look at it (R441): received, dropped with a code, its action record
complete, a copy enqueued with a queue ID, a copy sent or dropped by the MAC of a port; and the egress port, queue,
time and content that a record of the moment carries; the empty content is that of a frame whose stored cells are gone (R444). -/
structure Moment where
  rx    : Bool
  drop  : Nat
  act   : Bool
  queue : Option Nat
  tx    : Option Nat
  port  : Nat
  q     : Nat
  stamp : Nat
  bytes : Option (List Byte)
deriving DecidableEq, Repr

/-- Whether the frame qualifies for session `s` at the moment, by the session's source kind (R441). A MAC drop has two moments: that of
the transmit point, with the frame as edited, and that of the drop. -/
def Channel.qualifies (c : Channel) (f : Frame) (m : Moment) (s : Nat) : Bool :=
  let ports := c.hw 0x4C11 (s + 1)
  let src := bits (c.hw 0x4C10 (s + 1)) 63 60
  if src = 1 then m.rx && octBit 16 ports f.inPort && m.drop != 0x0C && m.drop != 0x0D
  else if src = 2 then
    match m.tx with
    | some p => octBit 16 ports p
    | none => false
  else if src = 3 then
    match m.queue with
    | some q => Nat.ble (bits (c.hw 0x4C13 (s + 1)) 49 32) q && Nat.ble q (bits (c.hw 0x4C13 (s + 1)) 17 0)
    | none => false
  else if src = 4 then m.drop != 0 && m.tx.isNone && octBit 32 (c.hw 0x4C12 (s + 1)) m.drop
  else if src = 5 then m.act && bitOf (f.field 5) s
  else false

/-- Count a copy that a session could not take (R444, R94). -/
def Channel.skipSession (c : Channel) (s : Nat) : Channel := (c.inc 0x4C54 (s + 1)).flag 0x4C0F 1 1

/-- Make session `s`'s copy of a frame (R445, R94), or count it as skipped where no stored cells remain (R444). A copy whose content has
a fabric tag already keeps it on a fabric port, and the tag stays out of its egress length (R386). -/
def Channel.sessionCopy (c : Channel) (cx : Ctx) (f : Frame) (m : Moment) (s : Nat) : Channel :=
  let cfg := c.hw 0x4C10 (s + 1)
  let dest := bits cfg 58 56
  let port := bits cfg 55 49
  let q := bits cfg 41 24
  let src := bits cfg 63 60
  let point := if src = 1 then 0 else if src = 2 then 1 else if src = 3 then 2 else if src = 4 then 3 else 4
  let tagged := match m.bytes with
    | some b => 49 ≤ m.port && m.port ≤ 52 && field b 12 2 == 0x88B5
    | none => f.tag.isSome
  let len := match m.bytes with
    | some b => b.length
    | none => f.stored
  let info := f.info m.stamp point s (if src = 1 then f.inPort else m.port) m.q m.drop len tagged
  let base := fun (no owner : Nat) (pos : CopyAt) (tier : Nat) (tag : Option Nat) =>
    { Copy.mk0 no owner (.mirror s) pos tier q tag with info := info, bytes := m.bytes }
  let place := fun (c : Channel) (tier owner : Nat) (tag : Option Nat) (content : Option (List Byte)) =>
    match c.addCopy f.id fun no => { base no owner .arrived tier tag with bytes := content } with
    | (none, c) => c
    | (some no, c) => { c.inc 0x4C53 (s + 1) with admitQ := c.admitQ ++ [(f.id, no)] }
  let barred := (m.drop != 0 && m.drop < 0x20) || f.oversize
  let bare := f.cells.isEmpty || m.drop == 0x94 || m.drop == 0x95 || m.bytes == some []
  if dest = 0 then c
  else if dest ≤ 2 then
    if cx.night != .awake then c
    else if bare || c.capStopped then c.skipSession s
    else c.toCapture f.id s fun no => base no 0x81 .intake 0 none
  else if bare || (barred && (dest == 4 || port != 53)) then c.skipSession s
  else if dest = 3 then
    if 49 ≤ port && port ≤ 52 then
      match (if tagged then m.bytes else none) with
      | some b => place c (tierOf port) port (some (field b 14 14)) (some (b.take 12 ++ b.drop 28))
      | none =>
        let t := c.portTag cx f q
        place t.2 (tierOf port) port (some t.1) m.bytes
    else place c (tierOf port) port none m.bytes
  else
    match c.way cx (bits cfg 48 42) with
    | .none => c.dropCode 0x3D
    | .here => place c (tierOf port) port none m.bytes
    | .to tier hops =>
      place c tier tier (some (mkTag false false cx f.inPort (tagDest (bits cfg 48 42) port) q f.colour f.pass hops)) m.bytes

/-- All sessions look at a frame at a moment, in increasing number (R442, R443); those of a capture that is not enabled take nothing and
count nothing (R446). -/
def Channel.mirror (c : Channel) (cx : Ctx) (fid : Nat) (m : Moment) : Channel :=
  (List.range 16).foldl (fun c s =>
    match c.frame fid with
    | none => c
    | some f =>
      let cfg := c.hw 0x4C10 (s + 1)
      let once := bits cfg 63 60 != 2
      let still := Nat.ble 1 (bits cfg 58 56) && Nat.ble (bits cfg 58 56) 2 && !c.hwBit 0x4C00 1 0
      if still || !c.qualifies f m s || (bitOf cfg 59 && !bitOf (f.field 5) s) || (once && f.taken.contains s) || bits cfg 23 0 == 0 then c
      else
        let n := tabGet (fun _ => 0) c.cap.samples s + 1
        let c := if once then c.modFrame fid fun f => { f with taken := f.taken ++ [s] } else c
        let take := Nat.ble (bits cfg 23 0) n
        let c := { c with cap := { c.cap with samples := tabSet (fun _ => 0) c.cap.samples s (if take then 0 else n) } }
        if take then c.sessionCopy cx f m s else c) c

/-- Host copy of a frame (R129, R274, R305): to port 53, in the queue of the action record. -/
def Channel.hostCopy (c : Channel) (fid : Nat) : Channel :=
  match c.frame fid with
  | none => c
  | some f =>
    match c.addCopy fid fun no =>
        { Copy.mk0 no 53 .host .arrived 53 (f.field 1) none with info := f.info f.rx 15 0 53 (f.field 1) f.drop f.stored f.tag.isSome } with
    | (none, c) => c
    | (some no, c) => { c with admitQ := c.admitQ ++ [(fid, no)] }

/-- Drop a frame in the pipeline: its code is counted, its mirror copies and, where asked, its host copy are made, and
its pass is over (R37, R94, R308). -/
def Channel.dropFrame (c : Channel) (cx : Ctx) (fid code : Nat) (host : Bool) : Channel :=
  match c.frame fid with
  | none => c
  | some f =>
    let c := (c.dropCode code).modFrame fid fun f => { f with drop := code }
    let early := f.pos == .parse || f.pos == .look
    let c := c.mirror cx fid ⟨true, code, !f.act.isEmpty, none, none, if early then f.inPort else f.egress, f.field 1, f.rx, none⟩
    let c := if (host && bitOf (f.field 6) 0) || f.look.copyHost then c.hostCopy fid else c
    c.endPass cx fid

/-- Drop one copy after its admission point: counted, seen by drop sessions unless it is itself a session's copy, and
released (R37, R441, R445). -/
def Channel.dropCopy (c : Channel) (cx : Ctx) (r : Nat × Nat) (code : Nat) : Channel :=
  match c.copyOf r with
  | none => c
  | some (f, x) =>
    let c := c.dropCode code
    let c := match x.kind with
      | .mirror _ => c
      | _ => c.mirror cx r.1 ⟨false, code, false, none, none, x.port, x.q, f.rx, none⟩
    c.endCopy cx r

end Sys2Proof.Machine
end

