-- ==== Sys2Proof/Machine/Queue.lean ====
section
/-! DEFINITION. Queues, tiers and their lengths, RED averages, shaper settings in force, flushes (R348, R354, R377 to R381,
R391 to R395, R400, R401). -/

namespace Sys2Proof.Machine

/-- The key of port queue `cls` of tier `e`; a subscriber queue's key is its ID (R377, R378). -/
def portQueue (e cls : Nat) : Nat := 2 ^ 20 + e * 8 + cls

/-- The queue that a copy lies in (R379). -/
def Copy.queue (x : Copy) : Nat := if x.sub then x.q else portQueue x.tier (x.q % 8)

/-- An empty queue. -/
def QueueSt.empty : QueueSt := ⟨[], 0, 0⟩

/-- Queue `k`. -/
def Channel.queue (c : Channel) (k : Nat) : QueueSt := tabGet (fun _ => QueueSt.empty) c.queues k

/-- Replace it. -/
def Channel.setQueue (c : Channel) (k : Nat) (q : QueueSt) : Channel :=
  { c with queues := tabSet (fun _ => QueueSt.empty) c.queues k q }

/-- A tier at reset: a tier whose link has never been up counts as up until link down is first reported (R400). -/
def TierSt.empty : TierSt := ⟨false, false, 0, [], [], List.replicate 8 0⟩

/-- Tier `e`. -/
def Channel.tier (c : Channel) (e : Nat) : TierSt := tabGet (fun _ => TierSt.empty) c.tiers e

/-- Replace it. -/
def Channel.setTier (c : Channel) (e : Nat) (t : TierSt) : Channel :=
  { c with tiers := tabSet (fun _ => TierSt.empty) c.tiers e t }

/-- A node that has sent nothing: no deficit, first WRR turn at class 3 (R384, R385). -/
def NodeSt.empty : NodeSt := ⟨0, true, [0, 0, 0, 0, 0], 3⟩

/-- Node `n` of tier `e`: 0 for node P, subscriber + 1 for a subscriber (R384). -/
def Channel.node (c : Channel) (e n : Nat) : NodeSt := tabGet (fun _ => NodeSt.empty) c.nodes (e * 2 ^ 20 + n)

/-- Replace it. -/
def Channel.setNode (c : Channel) (e n : Nat) (x : NodeSt) : Channel :=
  { c with nodes := tabSet (fun _ => NodeSt.empty) c.nodes (e * 2 ^ 20 + n) x }

/-- Cells queued at a port (R348). -/
def TierSt.total (t : TierSt) : Nat := t.cells.foldl (· + ·) 0

/-- The class admission entry of a class at a tier (R373). -/
def Channel.classCfg (c : Channel) (e cls : Nat) : Nat := c.wget 0x4810 (e * 8 + cls)

/-- The RED profile entry of a class (R373, R375). -/
def Channel.redCfg (c : Channel) (e cls : Nat) : Nat := c.wget 0x4A40 (bits (c.classCfg e cls) 35 32)

/-- Update a queue's RED average from its length (R354). -/
def QueueSt.average (q : QueueSt) (w : Nat) : QueueSt :=
  { q with avg := q.avg + (((q.cells * 65536 : Nat) : Int) - q.avg) / (2 ^ w : Nat) }

/-- Change the three lengths of a copy by its cells (R348) and bring its queue's average up to date (R354). -/
def Channel.lengths (c : Channel) (x : Copy) (n : Nat) (grow : Bool) : Channel :=
  let k := x.queue
  let q := c.queue k
  let q := { q with cells := if grow then q.cells + n else q.cells - n }
  let c := c.setQueue k (q.average (bits (c.redCfg x.tier (x.q % 8)) 3 0))
  let t := c.tier x.tier
  let old := t.cells.getD (x.q % 8) 0
  c.setTier x.tier { t with cells := setAt t.cells (x.q % 8) (if grow then old + n else old - n) }

/-- Count a queue's frame in 0x4920 or 0x4921: sent or dropped (R414). -/
def Channel.countQueue (c : Channel) (x : Copy) (bytes : Nat) (sent : Bool) : Channel :=
  let idx := if x.sub then 0x4920 else 0x4921
  let e := if x.sub then x.q else x.tier * 8 + x.q % 8
  let v := c.wget idx e
  let at_ := if sent then 192 else 64
  let v := setBits v (at_ + 63) at_ (bits v (at_ + 63) at_ + 1)
  c.wput idx e (setBits v (at_ - 1) (at_ - 64) (bits v (at_ - 1) (at_ - 64) + bytes))

/-- The queue of class `cls` of a node: 0 is node P, subscriber + 1 a subscriber (R378). -/
def nodeQueue (e n cls : Nat) : Nat := if n = 0 then portQueue e cls else (n - 1) * 8 + cls

/-- The node of a copy's queue. -/
def Copy.node (x : Copy) : Nat := if x.sub then x.q / 8 + 1 else 0

/-- Whether a node has no queued frame. -/
def Channel.nodeEmpty (c : Channel) (e n : Nat) : Bool := (List.range 8).all fun i => (c.queue (nodeQueue e n i)).items.isEmpty

/-- A node with no queued frame leaves the list of its tier, with deficit 0 (R384). -/
def Channel.nodeOut (c : Channel) (e n : Nat) : Channel :=
  if !(c.tier e).dlist.contains n || !c.nodeEmpty e n then c
  else (c.setNode e n { c.node e n with deficit := 0, fresh := true }).setTier e
    { c.tier e with dlist := (c.tier e).dlist.filter (· != n) }

/-- Remove a copy from its queue and from its tier's selected copies. -/
def Channel.unqueue (c : Channel) (r : Nat × Nat) (x : Copy) : Channel :=
  let q := c.queue x.queue
  let c := c.setQueue x.queue { q with items := q.items.filter (· != r) }
  let t := c.tier x.tier
  (c.setTier x.tier { t with picked := t.picked.filter (· != r) }).nodeOut x.tier x.node

/-- A multidrop MAC forgets the attempts of a frame that it no longer holds (R118, R119). -/
def Channel.forget (c : Channel) (r : Nat × Nat) (x : Copy) : Channel :=
  let d := c.mdrop (x.port - 64)
  if 65 ≤ x.port && d.hand == some r then c.setMdrop (x.port - 64) { d with attempts := 0, hand := none, backoff := none } else c

/-- Whether a copy counts in the lengths: it has been admitted and has not left. -/
def Copy.counted (x : Copy) : Bool := x.pos != .arrived && x.pos != .intake

/-- A copy that has been admitted leaves: its lengths shrink, it leaves queue and tier, and is released. -/
def Channel.leave (c : Channel) (cx : Ctx) (r : Nat × Nat) : Channel :=
  match c.copyOf r with
  | none => c
  | some (f, x) =>
    let c := if x.counted && !x.freed then c.lengths x f.cellCount false else c
    ((c.unqueue r x).forget r x).endCopy cx r

/-- A copy that has been admitted is dropped with a code (R352, R400, R97). -/
def Channel.discard (c : Channel) (cx : Ctx) (r : Nat × Nat) (code : Nat) : Channel :=
  match c.copyOf r with
  | none => c
  | some (f, x) =>
    let c := if x.counted && !x.freed then c.lengths x f.cellCount false else c
    let c := (c.unqueue r x).forget r x
    let c := if (0x70 ≤ code && code ≤ 0x7B) || code == 0x80 || (0x90 ≤ code && code ≤ 0x93) then
        c.countQueue x f.bytes.length false else c
    c.dropCopy cx r code

/-- Count a drop of the transmit MAC in TX_DROPS and the counters of R440. -/
def Channel.countTxDrop (c : Channel) (p code : Nat) : Channel :=
  if code = 0x97 then (c.inc 0x4B22 p).flag 0x4B0F 1 8
  else if code = 0x98 then (c.inc 0x4B23 p).flag 0x4B0F 1 4
  else if p ≤ 48 then c.inc 0x4125 p
  else if p ≤ 52 then (if code = 0x93 then c else c.inc 0x427B (p - 48))
  else c.inc 0x421C (p - 64)

/-- A frame dropped by the MAC of a port, or selected for it when link down is reported (R97, R430): counted, seen by the sessions of the
transmit point as it was to leave, unless an attempt has shown it to them already (R441, R443), and discarded. -/
def Channel.macDrop (c : Channel) (cx : Ctx) (r : Nat × Nat) (p code : Nat) : Channel :=
  match c.copyOf r with
  | none => c
  | some (f, x) =>
    let body := if x.pos == .edited then x.bytes.getD [] else f.outBody x
    let c := c.countTxDrop p code
    let c := match x.kind, x.seen with
      | .mirror _, _ | _, true => c
      | _, false => c.mirror cx r.1 ⟨false, code, false, none, some p, p, x.q, c.time.stamp, some (body ++ fcsBytes body)⟩
    c.discard cx r code

/-! ## Shaper settings in force (R391 to R394) -/

/-- The value in force of an object or entry whose writes take effect at the next refill (R394, R399). -/
def Channel.inForce (c : Channel) (key new : Nat) : Nat :=
  match c.pend.find? fun p => p.1 == key with
  | some p => p.2
  | none => new

/-- Port shaper in force (R405). -/
def Channel.portShaper (c : Channel) (p : Nat) : Nat := c.inForce (objKey 0x4902 p) (c.reg 0x4902 p)

/-- Subscriber shaper in force. -/
def Channel.subShaper (c : Channel) (s : Nat) : Nat := c.inForce (winKey 0x4904 s) (c.wget 0x4904 s)

/-- Service shaper in force. -/
def Channel.queueShaper (c : Channel) (q : Nat) : Nat := c.inForce (winKey 0x4905 q) (c.wget 0x4905 q)

/-- A shaper with SHAPE_EN set allows while its level is not negative; RATE 0 holds (R391, R393). -/
def shaperAllows (cfg level : Nat) : Bool := !bitOf cfg 63 || (level < 2 ^ 63 && bits cfg 31 0 != 0)

/-- A level after `e` bytes are charged; a bucket that does not shape is held full (R391, R392). -/
def shaperCharge (cfg level e : Nat) : Nat :=
  if bitOf cfg 63 then codeOf 64 (signedOf 64 level - ((e * 31250 : Nat) : Int)) else level

/-! ## Flushes (R400, R401) -/

/-- Every copy queued at a tier, oldest queue key first. -/
def Channel.queuedAt (c : Channel) (e : Nat) : List (Nat × Nat) :=
  (c.queues.flatMap fun q => q.2.items).filter fun r =>
    match c.copyOf r with
    | some (_, x) => x.tier == e
    | none => false

/-- Drop a tier's unselected copies with code 0x80 (R400). -/
def Channel.flushQueues (c : Channel) (cx : Ctx) (e : Nat) : Channel :=
  let l := c.queuedAt e
  let c := l.foldl (fun c r => (c.inc 0x4922 e).discard cx r 0x80) c
  if l.isEmpty then c else c.flag 0x490F 1 1

/-- Drop a tier's selected copies that have not left with 0x91 (R97, R400). One that link loss has cut short on the line is such a copy
too (assumption 110). -/
def Channel.flushSelected (c : Channel) (cx : Ctx) (e : Nat) : Channel :=
  (c.tier e).picked.foldl (fun c r =>
    match c.copyOf r with
    | none => c
    | some (_, x) => c.macDrop cx r x.port 0x91) c

/-- A tier goes down: what is queued and selected is dropped, DRR state is cleared (R400). -/
def Channel.tierDown (c : Channel) (cx : Ctx) (e : Nat) : Channel :=
  if (c.tier e).down then c
  else
    let some_ := !(c.queuedAt e).isEmpty
    let c := (c.flushQueues cx e).flushSelected cx e
    let c := (c.tier e).dlist.foldl (fun c n => c.setNode e n { c.node e n with deficit := 0 }) c
    c.setTier e { c.tier e with down := true, flushing := some_, dlist := [] }

/-- A tier comes back up (R400). -/
def Channel.tierUp (c : Channel) (e : Nat) : Channel :=
  c.setTier e { c.tier e with down := false, flushing := false }

/-- The tier that queue `k` belongs to by its key: that of a port queue, or of its subscriber's HOME (R378). -/
def Channel.queueTier (c : Channel) (k : Nat) : Nat :=
  if 2 ^ 20 ≤ k then (k - 2 ^ 20) / 8 else tierOf (bits (c.wget 0x4903 (k / 8)) 62 56)

/-- RED averages and the DRR and WRR state of tier `e` are cleared, as a reset of its port does (R581). -/
def Channel.clearTier (c : Channel) (e : Nat) : Channel :=
  let c := ((c.queues.map (·.1)).filter fun k => c.queueTier k == e).foldl (fun c k => c.setQueue k { c.queue k with avg := 0 }) c
  { c with nodes := c.nodes.filter fun n => n.1 / 2 ^ 20 != e }.setTier e { c.tier e with dlist := [] }

/-- All frames still queued are flushed with 0x80 (R401, R537). -/
def Channel.flushTiers (c : Channel) (cx : Ctx) : Channel :=
  (c.tiers.map (·.1)).foldl (fun c e => (c.flushQueues cx e)) c

end Sys2Proof.Machine
end

