-- ==== Sys2Proof/Machine/Admission.lean ====
section
/-! DEFINITION. The release of results, the policer, replication and admission (R294, R305, R348 to R355, R363, R396 to R399). -/

namespace Sys2Proof.Machine

/-! ## The policer -/

/-- Bytes in credit units (R391). -/
def credit (n : Nat) : Nat := n * 31250

/-- Meter `m`'s configuration in force (R399, R412). -/
def Channel.meterCfg (c : Channel) (m : Nat) : Nat := c.inForce (winKey 0x4A10 m) (c.wget 0x4A10 m)

/-- The function mark of R398 over mode, levels TC and TE or TP, and input colour: the result and the new levels. -/
def markFrame (mode tc tx b col : Nat) : Nat × Nat × Nat :=
  if mode = 1 then
    if col = 0 && b ≤ tc then (0, tc - b, tx)
    else if col ≤ 1 && b ≤ tx then (1, tc, tx - b)
    else (2, tc, tx)
  else if col = 2 || tx < b then (2, tc, tx)
  else if col = 1 || tc < b then (1, tc, tx - b)
  else (0, tc - b, tx - b)

/-- One meter of a pass (R397): the drop code, or the colour after it. -/
def Channel.runMeter (c : Channel) (f : Frame) (j col : Nat) : Sum Nat Nat × Channel :=
  let sel := f.field (2 + j)
  let m := bits sel 18 0
  let cfg := c.meterCfg m
  let mode := bits cfg 127 126
  if !bitOf sel 19 || mode = 0 then (.inr col, c)
  else
    let lv := c.wget 0x4A11 m
    let r := markFrame mode (bits lv 127 64) (bits lv 63 0) (credit f.bytes.length) (if bitOf cfg 125 then col else 0)
    let c := c.wput 0x4A11 m (r.2.1 * 2 ^ 64 + r.2.2)
    let at_ := 191 - 64 * r.1
    let n := c.wget 0x4A20 m
    let c := c.wput 0x4A20 m (setBits n at_ (at_ - 63) (bits n at_ (at_ - 63) + 1))
    if r.1 = 2 && bitOf cfg 124 then (.inl (0x60 + j), (c.inc 0x4A30 (1 + j)).flag 0x4A0F 1 1)
    else if r.1 = 1 && bitOf cfg 123 then (.inl (0x62 + j), (c.inc 0x4A30 (3 + j)).flag 0x4A0F 1 2)
    else (.inr (max col r.1), c)

/-! ## Replication -/

/-- Add a copy to the admission line. -/
def Channel.placeCopy (c : Channel) (fid : Nat) (kind : CopyKind) (tier q : Nat) (tag launch : Option Nat) : Channel :=
  match c.frame fid with
  | none => c
  | some f =>
    match c.addCopy fid fun no => { Copy.mk0 no tier kind .arrived tier q tag with
        launch := launch, info := f.info f.rx 15 0 tier q 0 f.stored f.tag.isSome } with
    | (none, c) => c
    | (some no, c) => { c with admitQ := c.admitQ ++ [(fid, no)] }

/-- Add a forwarding copy, with the launch time of the frame's action record (R305). -/
def Channel.fwdCopy (c : Channel) (fid tier q : Nat) (tag : Option Nat) : Channel :=
  match c.frame fid with
  | none => c
  | some f =>
    let la := f.field 9
    c.placeCopy fid .fwd tier q tag (if bitOf (f.field 6) 2 then some (bits la 61 30 * 1000000000 + bits la 29 0) else none)

/-- The copy of a frame that passes on to the next module (R157), unless it has been cut through: in the queue of its tag, with no
edits and no launch time. -/
def Channel.onwardCopy (c : Channel) (f : Frame) : Channel :=
  match f.transit with
  | none => c
  | some t =>
    let tag := f.tag.getD 0
    if t.cut || t.hops = 0 then c
    else c.placeCopy f.id .onward t.tier (bits tag 73 56) (some (setBits (onwardTag tag t.hops) 55 54 f.colour)) none

/-- The fabric copies of a multicast frame at its origin (R159): one each way whose bit is set, which waits where the direction has
no selected link (R155). A module that stands alone sends none, whatever the bits say (assumption 112). -/
def Channel.groupCopies (c : Channel) (cx : Ctx) (f : Frame) (g q : Nat) : Channel :=
  let m := c.wget 0x4257 g
  let n := c.modules
  let s := cx.moduleId
  let mk := fun hops => some (mkTag true false cx f.inPort g q f.colour f.pass hops)
  let send := fun (c : Channel) (tier hops : Nat) =>
    if hops = 0 then c else c.fwdCopy f.id tier q (mk hops)
  if c.topology = 0 || c.domainBad cx then c
  else if c.topology = 1 then
    let c := if bitOf m 0 then send c 49 (s - 1) else c
    if bitOf m 1 then send c 51 (n - s) else c
  else if bitOf m 0 && bitOf m 1 then
    let l := (c.selected 49).isSome
    let r := (c.selected 51).isSome
    if l == r then send (send c 49 ((n - 1) / 2)) 51 (n / 2)
    else if l then send c 49 (n - 1)
    else send c 51 (n - 1)
  else
    let c := if bitOf m 0 then send c 49 (n - 1) else c
    if bitOf m 1 then send c 51 (n - 1) else c

/-- The ports of the local members of group `g` but the frame's first ingress port, in increasing number (R684). -/
def Channel.members (c : Channel) (f : Frame) (g : Nat) : List Nat :=
  let e := c.wget 0x4259 g
  (upFrom 1 80).filter fun p => octBit 16 e p && p != f.inPort

/-- The forwarding copies of a frame by its action record (R305, R684); none when it has no destination, with the code
of the drop. SRC_PORT of a tag is the port of the frame's first pass, also after recirculation (assumption 85). A frame that came
over the fabric makes no fabric copies of a group but the one of R157 (assumption 86); one that its record sends on by TYPE FABRIC
gets a new tag (assumption 134). -/
def Channel.replicate (c : Channel) (cx : Ctx) (f : Frame) : Sum Nat Channel :=
  let dest := f.field 0
  let q := f.field 1
  let port := bits dest 6 0
  let t := bits dest 26 24
  if t = 1 then
    if 49 ≤ port && port ≤ 52 then
      let t := c.portTag cx f q
      .inr (t.2.fwdCopy f.id (tierOf port) q (some t.1))
    else .inr (c.fwdCopy f.id port q none)
  else if t = 2 then
    let m := bits dest 22 16
    if m = cx.moduleId then .inr (c.fwdCopy f.id (tierOf port) q none)
    else
      match (if f.field 11 = 0 then c.way cx m else c.forcedWay cx m (f.field 11)) with
      | .none => .inl 0x3D
      | .here => .inr (c.fwdCopy f.id (tierOf port) q none)
      | .to tier hops => .inr (c.fwdCopy f.id tier q (some (mkTag false false cx f.inPort (tagDest m port) q f.colour f.pass hops)))
  else if t = 3 then
    let g := bits dest 15 0
    let l := c.members f g
    let dirs := bits (c.wget 0x4257 g) 1 0
    if l.isEmpty && f.transit.isNone && dirs = 0 then .inl 0x40
    else
      let c := l.foldl (fun c p => c.fwdCopy f.id p q none) c
      .inr (if f.tag.isSome then c else c.groupCopies cx f g q)
  else if t = 4 then .inr (c.fwdCopy f.id 53 q none)
  else .inr (c.fwdCopy f.id 54 q none)

/-- Stage 7 of a pass: its forwarding copies and the onward copy of R157, then its mirror and host copies (R363, R443). A frame that
only passes through has no other copy. -/
def Channel.spread (c : Channel) (cx : Ctx) (fid : Nat) : Channel :=
  match c.frame fid with
  | none => c
  | some f =>
    match (if f.through then .inr c else c.replicate cx f) with
    | .inl code => ((if code = 0x40 then c.inc 0x4724 1 else c).onwardCopy f).dropFrame cx fid code true
    | .inr c =>
      let c := c.onwardCopy f
      let c := c.mirror cx fid ⟨true, 0, true, none, none, f.egress, f.field 1, f.rx, none⟩
      let c := if bitOf (f.field 6) 0 || f.look.copyHost then c.hostCopy fid else c
      c.endPass cx fid

/-- The policer on one pass (R397), then stage 7. -/
def Channel.police (c : Channel) (cx : Ctx) (fid : Nat) : Channel :=
  match c.frame fid with
  | none => c
  | some f =>
    if f.pos != .police then c
    else
      match c.runMeter f 0 (f.field 4) with
      | (.inl code, c) => c.dropFrame cx fid code false
      | (.inr col, c) =>
        match c.runMeter f 1 col with
        | (.inl code, c) => c.dropFrame cx fid code false
        | (.inr col, c) => (c.modFrame fid fun f => { f with colour := col }).spread cx fid

/-! ## Admission -/

/-- The generator of R354: polynomial x^16 + x^14 + x^13 + x^11 + 1, one advance. -/
def lfsrNext (r : Nat) : Nat :=
  let b := (r ^^^ (r / 4) ^^^ (r / 8) ^^^ (r / 32)) % 2
  r / 2 + b * 2 ^ 15

/-- The RED test (R354): whether the copy is dropped, for average `avg`, profile `p`, colour `col` and generator value `r`. -/
def redDrops (avg : Int) (p col r : Nat) : Bool :=
  let mn := bits p (255 - 64 * col) (224 - 64 * col)
  let mx := bits p (223 - 64 * col) (192 - 64 * col)
  let maxp := bits p (63 - 8 * col) (56 - 8 * col)
  let x := (avg / 65536).toNat
  if mx = 0 || x < mn then false
  else if mx ≤ x then true
  else r < maxp * (x - mn) * 256 / (mx - mn)

/-- Unselected cells of a queue (R352). -/
def Channel.unselected (c : Channel) (q : QueueSt) : Nat :=
  q.items.foldl (fun n r => match c.copyOf r with
    | some (f, _) => n + f.cellCount
    | none => n) 0

/-- The queue that push-out takes from: the most unselected cells among the queues of tier `e` of lower rank (R352) that losing their
last frame does not take below their class's QUEUE_MIN (R353, assumption 92). -/
def Channel.victim (c : Channel) (e rank : Nat) : Option (Nat × Nat) :=
  c.queues.foldl (fun best kq =>
    match kq.2.items.head? with
    | none => best
    | some r =>
      match c.copyOf r with
      | none => best
      | some (_, x) =>
        let cfg := c.classCfg e (x.q % 8)
        let n := c.unselected kq.2
        let last := (kq.2.items.getLast?.bind fun r => (c.copyOf r).map fun p => p.1.cellCount).getD 0
        if x.tier ≠ e || rank ≤ bits cfg 26 24 || n ≤ bits cfg 63 48 || kq.2.cells < bits cfg 63 48 + last then best
        else
          match best with
          | none => some (kq.1, n)
          | some b => if b.2 < n then some (kq.1, n) else best) none

/-- Evict until `need` cells are free, eight frames have gone or no victim is left (R352): cells still needed, frames
evicted. -/
def Channel.pushOut (c : Channel) (cx : Ctx) (e rank : Nat) : Nat → Nat → Nat → Nat × Nat × Channel
  | 0, need, done => (need, done, c)
  | n + 1, need, done =>
    if need = 0 then (0, done, c)
    else
      match c.victim e rank with
      | none => (need, done, c)
      | some v =>
        match (c.queue v.1).items.getLast? with
        | none => (need, done, c)
        | some r =>
          let cells := match c.copyOf r with
            | some (f, _) => f.cellCount
            | none => 0
          let c := (((c.inc 0x4821 1).add 0x4821 2 cells).flag 0x480F 1 8).inc 0x4820 2
          (c.discard cx r 0x71).pushOut cx e rank n (need - cells) (done + 1)

/-- Drop a copy at admission (R355). -/
def Channel.refuseCopy (c : Channel) (cx : Ctx) (r : Nat × Nat) (f : Frame) (x : Copy) (code : Nat) : Channel :=
  ((c.inc 0x4820 (code - 0x6F)).countQueue x f.bytes.length false).dropCopy cx r code

/-- The limits of R350 for a copy that is not wholly within its queue's minimum: the drop code, if any. -/
def Channel.limits (c : Channel) (cx : Ctx) (f : Frame) (x : Copy) : Option Nat × Channel :=
  let e := x.tier
  let a := c.classCfg e (x.q % 8)
  let n := f.cellCount
  let q := c.queue x.queue
  let t := c.tier e
  let b := c.hw 0x4811 e
  if q.cells + n ≤ bits a 63 48 then (none, c)
  else if bits a 127 96 < t.cells.getD (x.q % 8) 0 + n then (some 0x74, c)
  else if bits a 95 64 < q.cells + n then (some 0x75, c)
  else
    let room := if t.total + n ≤ bits b 63 32 then (none, c)
      else if bits b 1 0 = 1 then
        match c.pushOut cx e (bits a 26 24) 8 (t.total + n - bits b 63 32) 0 with
        | (0, _, c) => (none, c)
        | (_, 0, c) => (some 0x73, c)
        | (_, _, c) => (some 0x72, c)
      else (some 0x73, c)
    match room with
    | (some code, c) => (some code, c)
    | (none, c) =>
      if bitOf a 31 then
        let v := lfsrNext c.lfsr
        let c := { c with lfsr := v }
        if redDrops (c.queue x.queue).avg (c.redCfg e (x.q % 8)) f.colour v then (some (0x76 + f.colour), c) else (none, c)
      else (none, c)

/-- The pool that a frame's cells come from at the admission of a copy: that of the copy's class entry (R349); for a frame from the host that of
port 53's class entry of its service class (R624, assumption 44). Relay frames, sent from port 53 too (R162), are no frames from the host. -/
def Channel.chargePool (c : Channel) (f : Frame) (x : Copy) : Nat :=
  let relay := bitOf (x.tag.getD 0) 104
  bits (c.classCfg (if f.inPort = 53 && !relay then 53 else x.tier) (x.q % 8)) 39 36

/-- Charge a frame to its pool with its first admitted copy (R349, R350): the drop code, or the channel charged. What the frame holds
of the pool itself is given back in the same step, and no cell is taken from the turn of a request that waits (R360). Its quarantined
cells stay charged to the pool they were in (R364). -/
def Channel.charge (c : Channel) (cx : Ctx) (f : Frame) (x : Copy) : Sum Nat Channel :=
  let a := c.classCfg x.tier (x.q % 8)
  let k := c.chargePool f x
  let cfg := c.poolCfg k
  let p := c.pool k
  let bad := (f.cells.filter fun k => 256 ≤ c.cellRec k).length
  let n := f.cellCount - bad
  let rq := min n (bits a 63 48 - (c.queue x.queue).cells)
  let rp := min (n - rq) (bits (c.hw 0x4811 f.inPort) 31 8 - tabGet (fun _ => 0) p.portReserved f.inPort)
  let s := n - rq - rp
  let held := (c.holdOf 2 (.pass f.id)).filter fun h => h.pool == k
  let back := fun (p : PoolSt) => match held with
    | some h => p.paid h (c.badCells f.cells).length
    | none => p
  let turn := c.firstTurn k
  let room := back p
  if bits cfg 223 192 < room.shared + s + (if s = 0 then 0 else turn.2) then .inl 0x79
  else if bits cfg 255 224 < room.reserved + room.shared + n + turn.1 then .inl 0x7A
  else
    let cells := f.cells
    let c := match held with
      | some h => { c with requesters := c.requesters.erase h }
      | none => c
    let c := (c.freeFrame cx f).settleCells cells
    let p := back (c.pool k)
    let more := fun (t : Store) (n : Nat) => tabSet (fun _ => 0) t f.inPort (tabGet (fun _ => 0) t f.inPort + n)
    let c := (c.markCells (cells.filter fun i => c.cellRec i = 0) (k + 1)).account cx k { p with
      shared := p.shared + s, reserved := p.reserved + rq + rp,
      portShared := more p.portShared s, portReserved := more p.portReserved rp }
    .inr (c.modFrame f.id fun f => { f with cells := cells, pool := k, rq := rq, rp := rp, rs := s, charged := true })

/-- Put an admitted copy at the tail of its queue (R379, R381, R384) and let the queue sessions see it (R441). -/
def Channel.enqueue (c : Channel) (cx : Ctx) (r : Nat × Nat) (f : Frame) (x : Copy) : Channel :=
  let c := c.modCopy r fun _ => { x with pos := .queued }
  let c := c.lengths x f.cellCount true
  let q := c.queue x.queue
  let c := c.setQueue x.queue { q with items := q.items ++ [r] }
  let node := if x.sub then x.q / 8 + 1 else 0
  let t := c.tier x.tier
  let c := if t.dlist.contains node then c
    else (c.setNode x.tier node { c.node x.tier node with deficit := 0, fresh := true }).setTier x.tier
      { t with dlist := t.dlist ++ [node] }
  match x.kind with
  | .mirror _ => c
  | _ => c.mirror cx r.1 ⟨false, 0, false, some x.q, none, x.tier, x.q, f.rx, none⟩

/-- Admission of one copy (R350, R379, R400). -/
def Channel.admitOne (c : Channel) (cx : Ctx) (r : Nat × Nat) : Channel :=
  match c.copyOf r with
  | none => c
  | some (f, x) =>
    let x := { x with sub := tierOf (bits (c.wget 0x4903 (x.q / 8)) 62 56) == x.tier }
    let c := c.modCopy r fun _ => x
    if (c.tier x.tier).down then
      ((c.inc 0x4922 x.tier).flag 0x490F 1 2).dropCopy cx r 0x81
    else if bits (c.poolCfg (c.chargePool f x)) 255 224 = 0 then c.refuseCopy cx r f x 0x70
    else
      match c.limits cx f x with
      | (some code, c) => c.refuseCopy cx r f x code
      | (none, c) =>
        match (if f.charged then .inr c else c.charge cx f x) with
        | .inl code => c.refuseCopy cx r f x code
        | .inr c => c.enqueue cx r f x

/-! ## The rows -/

/-- RESULT_RELEASE: the oldest frame of pipeline `p` that is still in stages 3 to 5 is released to the policer if its
routine is complete (R294). -/
def Channel.releaseResult (c : Channel) (p : Nat) : Channel :=
  match c.frames.find? fun f => f.pipe == p && f.pos != .live && f.pos != .police with
  | none => c
  | some f => if f.pos == .done then c.modFrame f.id fun f => { f with pos := .police } else c

/-- RESULT_RELEASE (R294). -/
def execResultRelease (ch : Ch) (pipe : Nat) (s : State) : Host.Outcome State Fault Refusal :=
  onPipe s ch (Nat.blt pipe 8) fun _ c => c.releaseResult pipe

/-- POLICE_FRAME (R397). -/
def execPoliceFrame (ch : Ch) (fid : Nat) (s : State) : Host.Outcome State Fault Refusal :=
  onPipe s ch true fun cx c => c.police cx fid

/-- ADMIT_COPY: the copy that waits longest is decided (R350, R351). -/
def execAdmitCopy (ch : Ch) (s : State) : Host.Outcome State Fault Refusal :=
  onPipe s ch true fun cx c =>
    match c.admitQ with
    | [] => c
    | r :: t => ({ c with admitQ := t }).admitOne cx r

end Sys2Proof.Machine
end

