-- ==== Sys2Proof/Machine/Sched.lean ====
section
/-! DEFINITION. The port schedulers, the central matching scheduler, the egress editor, recirculation and the refill of
shapers and meters (R382 to R399, R306, R179). -/

namespace Sys2Proof.Machine

/-- The time in nanoseconds (R415). -/
def TimeSt.now (t : TimeSt) : Nat := t.sec * 1000000000 + t.ns

/-- Nanoseconds in units of 2^-32 ns, the resolution of the time base (R415). -/
def ticks (n : Nat) : Int := ((n * 2 ^ 32 : Nat) : Int)

/-- How far a launch time of 32-bit seconds lies ahead, in units of 2^-32 ns: the nearest instant with those low bits (R429). -/
def TimeSt.ahead (t : TimeSt) (launch : Nat) : Int :=
  let m := 2 ^ 32 * 1000000000 * 2 ^ 32
  let d := (launch * 2 ^ 32 + m - (t.now * 2 ^ 32 + t.frac) % m) % m
  if d < m / 2 then (d : Int) else (d : Int) - (m : Int)

/-- LEAD_NS, HORIZON_MS, LATE_LIMIT_NS and LATE_ACTION of a port (R437). -/
def Channel.launchCfg (c : Channel) (p : Nat) : Nat := c.hw 0x4B09 p

/-- Service classes that PFC holds at a port (R100, R101). -/
def Channel.heldClass (c : Channel) (p cls : Nat) : Bool :=
  if p = 0 || 52 < p || c.flowMode p ≠ 2 then false
  else
    let map := if p ≤ 48 then c.hw 0x4105 p else c.hw 0x4255 (p - 48)
    (List.range 8).any fun i => bitOf (c.port p).pfc i && bits map (3 * i + 2) (3 * i) == cls

/-! ## Selection -/

/-- The egress length of a copy (R386): its stored length with PUSH and POP of a forwarding copy, without the fabric tag. -/
def egressLen (f : Frame) (x : Copy) : Nat :=
  match x.kind with
  | .fwd => f.bytes.length + (if bitOf (f.field 8) 32 then 4 else 0) - 4 * bits (f.field 6) 4 3
  | _ => match x.bytes with
    | none => f.bytes.length
    | some b =>
      let tag := if x.tag.isSome then 16 else 0
      if x.tier = 53 then b.length
      else match x.pos with
        | .edited => b.length + 4 - tag
        | .line => b.length - tag
        | _ => b.length

/-- Whether queue `k`, bound for a carrying port, is eligible (R383, R430). -/
def Channel.eligible (c : Channel) (k cls port : Nat) : Bool :=
  match (c.queue k).items.head? with
  | none => false
  | some r =>
    match c.copyOf r with
    | none => false
    | some (_, x) =>
      (!x.sub || shaperAllows (c.queueShaper k) (c.wget 0x4909 k)) && !c.heldClass port cls && x.pos != .waiting &&
      (match x.launch with
        | none => true
        | some t =>
          let d := c.time.ahead t
          let cfg := c.launchCfg port
          52 < port || !(decide (ticks (bits cfg 19 0) < d) && decide (d ≤ ticks (bits cfg 45 32 * 1000000))))

/-- Whether a node is eligible (R383). -/
def Channel.nodeEligible (c : Channel) (e n port : Nat) : Bool :=
  (List.range 8).any (fun cls => c.eligible (nodeQueue e n cls) cls port) &&
    (n == 0 || shaperAllows (c.subShaper (n - 1)) (c.wget 0x4908 (n - 1)))

/-- Whether a node is in the express group (R384). Node P of a multidrop tier is its only node and counts as express. -/
def Channel.express (c : Channel) (e n : Nat) : Bool :=
  if n = 0 then 65 ≤ e || c.bit 0x4901 e 28 else bitOf (c.wget 0x4903 (n - 1)) 32

/-- A node's DRR quantum (R404, R406). -/
def Channel.quantum (c : Channel) (n e : Nat) : Nat :=
  if n = 0 then bits (c.reg 0x4901 e) 23 0 else bits (c.wget 0x4903 (n - 1)) 23 0

/-- Weight of class `cls` (3 to 7) in a node's WRR profile (R407). -/
def Channel.weight (c : Channel) (e n cls : Nat) : Nat :=
  let p := if n = 0 then bits (c.reg 0x4901 e) 27 24 else bits (c.wget 0x4903 (n - 1)) 31 28
  bits (c.reg 0x4906 (p + 1)) (8 * (cls - 3) + 7) (8 * (cls - 3))

/-- Classes 3 to 7 starting at `p`, wrapping (R385). -/
def classesFrom (p : Nat) : List Nat := (List.range 5).map fun i => 3 + (p - 3 + i) % 5

/-- The class after a WRR class (R385). -/
def classAfter (c : Nat) : Nat := if c = 7 then 3 else c + 1

/-- The offer of a node (R385): the class whose head is offered and the node as it is after the offer is selected. -/
def Channel.offer (c : Channel) (e n port : Nat) : Option (Nat × NodeSt) :=
  let st := c.node e n
  let ok := fun cls => c.eligible (nodeQueue e n cls) cls port
  let w := fun cls => c.weight e n cls
  match [0, 1, 2].find? ok with
  | some cls => some (cls, st)
  | none =>
    let order := classesFrom st.ptr
    match order.find? fun cls => ok cls && 0 < w cls && st.sent.getD (cls - 3) 0 < w cls with
    | some cls => some (cls, { st with
        sent := setAt st.sent (cls - 3) (st.sent.getD (cls - 3) 0 + 1), ptr := classAfter cls })
    | none =>
      match order.find? fun cls => ok cls && 0 < w cls with
      | some cls => some (cls, { st with sent := setAt [0, 0, 0, 0, 0] (cls - 3) 1, ptr := classAfter cls })
      | none =>
        match order.find? fun cls => ok cls && w cls == 0 with
        | some cls => some (cls, { st with ptr := classAfter cls })
        | none => none

/-! ## The launch guard (R430) -/

/-- The line speed of a port in Gb/s (R83, R139). -/
def Channel.speed (c : Channel) (p : Nat) : Nat :=
  if p ≤ 48 then [0, 1, 10, 10, 25, 25, 25, 40, 40, 50, 100].getD (bits (c.reg 0x4102 p) 15 12) 0 else 200

/-- The copies loaded in the transmit buffer of a port, in the order of selection. A frame that was selected for a fabric link but has
not started keeps that link when the selection of R154 moves (assumption 99). -/
def Channel.loaded (c : Channel) (p : Nat) : List ((Nat × Nat) × Frame × Copy) :=
  (c.tier (tierOf p)).picked.filterMap fun r =>
    match c.copyOf r with
    | some (f, x) => if x.port = p && x.pos == .edited then some (r, f, x) else none
    | none => none

/-- The launch times that guard a port: of every frame selected for it that has not started (R430), as time ahead, with its class. -/
def Channel.guards (c : Channel) (p : Nat) : List ((Nat × Nat) × Int × Nat) :=
  if 52 < p then []
  else (c.tier (tierOf p)).picked.filterMap fun r =>
    match c.copyOf r with
    | some (_, x) =>
      match x.launch with
      | some t => if x.port = p && x.pos != .line then some (r, c.time.ahead t, x.q % 8) else none
      | none => none
    | none => none

/-- Whether `len` bytes on the line of port `p`, with the 20 of preamble, delimiter and gap, end no later than a launch time that lies
`ahead` (R430). -/
def Channel.fitsBefore (c : Channel) (p len : Nat) (ahead : Int) : Bool :=
  decide (ticks ((len + 20) * 8) ≤ ahead * (c.speed p : Int))

/-- Whether the launch guard lets copy `r` of `len` bytes on the line start (R430). Of launch-time frames whose times have come the
earliest leaves first (assumption 41). -/
def Channel.guardAllows (c : Channel) (p : Nat) (r : Nat × Nat) (cls len : Nat) : Bool :=
  let mine := (c.copyOf r).bind fun q => q.2.launch.map c.time.ahead
  (c.guards p).all fun g => g.1 == r || Nat.blt cls g.2.2 || c.fitsBefore p len g.2.1 ||
    (decide (g.2.1 ≤ 0) && mine.any fun t => decide (t ≤ g.2.1))

/-- Whether the launch guard holds port `p`: it keeps a frame that is loaded, or an LACPDU or Marker Response, from starting (R382,
R430). -/
def Channel.guardHolds (c : Channel) (p : Nat) : Bool :=
  (c.loaded p).any (fun a => !c.guardAllows p a.1 (a.2.2.q % 8) ((a.2.2.bytes.getD []).length + 4)) ||
    (!c.inProgress p && !(c.port p).due.isEmpty)

/-! ## The tier that selects -/

/-- The port that carries a tier (R382): for a direction, its selected link. -/
def Channel.carrier (c : Channel) (e : Nat) : Option Nat :=
  if e = 49 || e = 51 then (c.selected e).map (48 + ·) else some e

/-- Whether a tier may select (R382): it is up, has fewer than two selected frames, a carrying port that neither
PAUSE nor the launch guard holds, and its port shaper allows. A link under DOMAIN_CONFIG carries beacons only (R156). -/
def Channel.maySelect (c : Channel) (cx : Ctx) (e : Nat) : Option Nat :=
  let t := c.tier e
  match c.carrier e with
  | none => none
  | some p =>
    if t.down || 2 ≤ t.picked.length || ((e == 49 || e == 51) && c.domainBad cx) || (p ≤ 52 && ((c.port p).paused || c.guardHolds p)) ||
        (p ≤ 54 && !shaperAllows (c.portShaper p) (c.reg 0x4907 p)) then none
    else some p

/-- The egress length of the head of a queue. -/
def Channel.headLen (c : Channel) (k : Nat) : Nat :=
  match (c.queue k).items.head? with
  | none => 0
  | some r =>
    match c.copyOf r with
    | some (f, x) => egressLen f x
    | none => 0

/-- The DRR part of R384: the node and class selected, and the nodes and list as they are then. -/
def Channel.drr (c : Channel) (e port : Nat) : Nat → Option (Nat × Nat × NodeSt) × Channel
  | 0 => (none, c)
  | fuel + 1 =>
    let t := c.tier e
    let ok := fun n => !c.express e n && c.nodeEligible e n port
    if !t.dlist.any ok then (none, c)
    else
      match t.dlist with
      | [] => (none, c)
      | n :: rest =>
        let turn := { t with dlist := rest ++ [n] }
        if !ok n then (c.setTier e turn).drr e port fuel
        else
          let st := c.node e n
          let st := if st.fresh then { st with deficit := st.deficit + c.quantum n e, fresh := false } else st
          let c := c.setNode e n st
          match c.offer e n port with
          | none => (none, c)
          | some (cls, st) =>
            let len := c.headLen (nodeQueue e n cls)
            if len ≤ st.deficit then (some (n, cls, { st with deficit := st.deficit - len }), c)
            else ((c.setNode e n { c.node e n with fresh := true }).setTier e turn).drr e port fuel

/-- The greatest egress length at the head of a queue of the nodes of a tier's list: a node that gains a quantum of at least 1 a turn
(R388) is selected within that many turns (R387). -/
def Channel.longestHead (c : Channel) (e : Nat) : Nat :=
  (c.tier e).dlist.foldl (fun m n => (List.range 8).foldl (fun m cls => max m (c.headLen (nodeQueue e n cls))) m) 0

/-- The selection of R384: the express nodes in turn, then DRR. -/
def Channel.choose (c : Channel) (e port : Nat) : Option (Nat × Nat × NodeSt) × Channel :=
  let t := c.tier e
  let ex := (t.dlist.filter fun n => c.express e n && c.nodeEligible e n port)
  let least := fun (l : List Nat) => l.foldl (fun (m : Option Nat) n => match m with
    | none => some n
    | some k => some (min k n)) none
  let next := match least (ex.filter fun n => t.xptr ≤ n) with
    | some n => some n
    | none => least ex
  match next with
  | some n =>
    match c.offer e n port with
    | some (cls, st) => (some (n, cls, st), c.setTier e { t with xptr := n + 1 })
    | none => (none, c)
  | none => c.drr e port (t.dlist.length * (c.longestHead e + 2))

/-- Charge the shapers of a selection (R386, R391). -/
def Channel.chargeShapers (c : Channel) (x : Copy) (port len : Nat) : Channel :=
  let c := if x.sub then
      let c := c.wput 0x4909 x.q (shaperCharge (c.queueShaper x.q) (c.wget 0x4909 x.q) len)
      c.wput 0x4908 (x.q / 8) (shaperCharge (c.subShaper (x.q / 8)) (c.wget 0x4908 (x.q / 8)) len)
    else c
  if port ≤ 54 then c.put 0x4907 port (shaperCharge (c.portShaper port) (c.reg 0x4907 port) len) else c

/-- SELECT_FRAME: tier `e` selects its next frame (R384). A frame for port 53 first takes the host path requester's
charge, or waits for it in its queue (R359). -/
def Channel.select (c : Channel) (cx : Ctx) (e : Nat) : Channel :=
  let waits := cx.await && e ≤ 48 && c.hwBit 0x4100 e 26 && !c.bit 0x4109 e 4
  match (if waits then none else c.maySelect cx e) with
  | none => c
  | some port =>
    match c.choose e port with
    | (none, _) => c
    | (some (n, cls, st), c') =>
      let k := nodeQueue e n cls
      match (c'.queue k).items with
      | [] => c
      | r :: rest =>
        match c'.copyOf r with
        | none => c
        | some (f, x) =>
          let got := if e = 53 && !x.req then c'.request cx (.host r.1 r.2) else (true, c')
          if !got.1 then got.2.modCopy r fun x => { x with pos := .waiting }
          else
            let c := if e = 53 then got.2.modCopy r fun x => { x with req := true } else got.2
            let c := (c.setNode e n st).chargeShapers x port (egressLen f x)
            let c := c.setQueue k { c.queue k with items := rest }
            let c := c.modCopy r fun x => { x with pos := .selected, port := port, sel := c.selNo }
            let c := c.nodeOut e n
            { c.setTier e { c.tier e with picked := (c.tier e).picked ++ [r] } with selNo := c.selNo + 1 }

/-! ## The central matching scheduler (R389) -/

/-- The slot of a carrying port (R36). -/
def slotOf (p : Nat) : Nat := if 65 ≤ p then 53 else p

/-- Selected copies with due cells: pipeline, slot, place in the order of selection, cells moved and reference. -/
def Channel.due (c : Channel) : List (Nat × Nat × Nat × Bool × (Nat × Nat)) :=
  c.frames.flatMap fun f => (f.copies.filter fun x => x.pos == .selected).map fun x =>
    (f.pipe, slotOf x.port, x.sel, x.port == 53, (f.id, x.no))

/-- Slots 1 to 54 from `p` on, wrapping. -/
def slotsFrom (p : Nat) : List Nat := (List.range 54).map fun i => 1 + (p - 1 + i) % 54

/-- Pipelines 0 to 7 from `p` on, wrapping. -/
def pipesFrom (p : Nat) : List Nat := (List.range 8).map fun i => (p + i) % 8

/-- The due cells that a round may move: on slot 53 the host path and the multidrop ports take turns while both have cells due
(R36). -/
def inTurn (l : List (Nat × Nat × Nat × Bool × (Nat × Nat))) (hostTurn : Bool) : List (Nat × Nat × Nat × Bool × (Nat × Nat)) :=
  if l.any (fun d => d.2.1 == 53 && d.2.2.2.1) && l.any (fun d => d.2.1 == 53 && !d.2.2.2.1) then
    l.filter fun d => d.2.1 != 53 || d.2.2.2.1 == hostTurn
  else l

/-- The copy whose next cell moves: the oldest selected of the slot at the pipeline, and whether it is for the host path. -/
def pickDue (l : List (Nat × Nat × Nat × Bool × (Nat × Nat))) (i s : Nat) : Option (Bool × (Nat × Nat)) :=
  ((l.filter fun d => d.1 == i && d.2.1 == s).foldl (fun (m : Option (Nat × Bool × (Nat × Nat))) d =>
    match m with
    | none => some (d.2.2.1, d.2.2.2.1, d.2.2.2.2)
    | some b => if d.2.2.1 < b.1 then some (d.2.2.1, d.2.2.2.1, d.2.2.2.2) else some b) none).map fun b => (b.2.1, b.2.2)

/-- Move one cell of a copy; with its last cell the frame reaches the egress editor. -/
def Channel.moveCell (c : Channel) (i : Nat) (r : Nat × Nat) : Channel :=
  match c.copyOf r with
  | none => c
  | some (f, x) =>
    (c.modCopy r fun y => { y with
      moved := x.moved + 1,
      pos := if f.cellCount ≤ x.moved + 1 then .moved else .selected }).inc 0x4923 (i + 1)

/-- One round (R389). Every slot has room: its buffer holds two frames of the greatest length (R96), and R382 selects no
third. -/
def Channel.matchRound (c : Channel) : Channel :=
  let m := c.matching
  let due := inTurn c.due m.host
  let has := fun i s => due.any fun d => d.1 == i && d.2.1 == s
  let req := (List.range 8).map fun i => ((slotsFrom (m.rptr.getD i 1)).filter (has i)).take 8
  let grant := fun s => (pipesFrom (m.gptr.getD (s - 1) 0)).find? fun i => (req.getD i []).contains s
  let acc := (List.range 8).map fun i => ((slotsFrom (m.aptr.getD i 1)).filter fun s => grant s == some i).take 2
  let c := (List.range 8).foldl (fun c i =>
    if 2 < ((upFrom 1 54).filter (has i)).length then (c.inc 0x4924 (i + 1)).flag 0x490F 1 4 else c) c
  let c := (List.range 8).foldl (fun c i => (acc.getD i []).foldl (fun (c : Channel) s =>
    match pickDue due i s with
    | none => c
    | some (host, r) =>
      let c := c.moveCell i r
      { c with matching := { c.matching with
          gptr := setAt c.matching.gptr (s - 1) ((i + 1) % 8), host := if s = 53 then !host else c.matching.host } }) c) c
  let after := fun s => s % 54 + 1
  let aptr := (List.range 8).map fun i => match (acc.getD i []).getLast? with
    | some s => after s
    | none => m.aptr.getD i 1
  let rptr := (List.range 8).map fun i => match (acc.getD i []).getLast? with
    | some s => after s
    | none => match (req.getD i []).getLast? with
      | some s => after s
      | none => m.rptr.getD i 1
  { c with matching := { c.matching with aptr := aptr, rptr := rptr } }

/-! ## The egress editor (R306) -/

/-- EGRESS_EDIT: a copy whose cells have all moved is edited and loaded into its port's transmit buffer (R306, R96). -/
def Channel.egressEdit (c : Channel) (r : Nat × Nat) : Channel :=
  match c.copyOf r with
  | none => c
  | some (f, x) =>
    if x.pos != .moved then c
    else if x.tier = 53 then c.modCopy r fun x => { x with pos := .edited }
    else c.modCopy r fun y => { y with pos := .edited, bytes := some (f.outBody x) }

/-- The fields of a frame that a pass starts from (R180). -/
def Frame.fresh (id : Nat) (bytes : List Byte) (port rx : Nat) (rxSum : Int) : Frame where
  id := id
  bytes := bytes
  tag := none
  inPort := port
  port := port
  pass := 1
  rx := rx
  rxSum := rxSum
  pipe := pipeOf port
  oversize := false
  fcsBad := false
  stomp := false
  pos := .parse
  look := Look.empty
  window := []
  edits := []
  act := []
  seqDrop := 0
  colour := 0
  drop := 0
  taken := []
  cells := []
  pool := 15
  rq := 0
  rp := 0
  rs := 0
  share := 0
  owner := (0, 0)
  parked := false
  charged := false
  nextNo := 0
  copies := []
  transit := none

/-- Store a frame in cells of pool 15, those that it holds already among them (R65). -/
def Channel.store (c : Channel) (cx : Ctx) (f : Frame) : Channel :=
  let got := c.takeCells cx (f.cellCount - f.cells.length)
  { got.2 with frames := got.2.frames ++ [{ f with id := c.nextId, cells := f.cells ++ got.1 }], nextId := c.nextId + 1 }

/-- Put a frame back in front of the parser in the cells `mine` that it keeps, under what requester 2 holds for its copy `r` (R359). -/
def Channel.storeAgain (c : Channel) (cx : Ctx) (f : Frame) (mine : List Nat) (h : ReqHold) : Channel :=
  let id := c.nextId
  let got := c.pickCells cx.variant mine f.cellCount (h.pool + 1)
  { got.2 with
    frames := got.2.frames ++ [{ f with id := id, cells := got.1, pool := h.pool }], nextId := id + 1,
    requesters := got.2.requesters ++ [{ h with for_ := .pass id }] }

/-- Hand an edited frame to port 54 (R179, R180): it re-enters the parser at the next pass, or is dropped at a fourth. It keeps its
cells and the charge of the recirculation requester until it is admitted again or dropped (R359, assumption 91). -/
def Channel.recirculate (c : Channel) (cx : Ctx) : Channel :=
  match (c.tier 54).picked.find? fun r => match c.copyOf r with
    | some (_, x) => x.pos == .edited
    | none => false with
  | none => c
  | some r =>
    match c.copyOf r with
    | none => c
    | some (f, x) =>
      if 3 ≤ f.pass then (((c.inc 0x4322 1).flag 0x432F 1 2).discard cx r 0x20)
      else
        let got := if x.req then (true, c) else c.request cx (.recirc r.1 r.2)
        if !got.1 then got.2.modCopy r fun x => { x with pos := .waiting }
        else
          let c := got.2
          let new := { Frame.fresh 0 (x.again ++ fcsBytes x.again) 54 f.rx f.rxSum with
            tag := f.tag, inPort := f.inPort, pass := f.pass + 1, taken := f.taken, colour := f.colour }
          let c := (c.countQueue x (egressLen f x) true).hear 54 new.bytes.length
          match c.holdOf 2 (.copy r.1 r.2) with
          | none => c.leave cx r
          | some h =>
            let c := { c with requesters := c.requesters.erase h }
            ((c.leave cx r).storeAgain cx new f.cells h).inc 0x4321 f.pass

/-! ## Refills (R391, R394, R398, R399) -/

/-- A shaper's level after a refill with the settings now in force, `was` those before. -/
def shaperRefill (was cfg level : Nat) : Nat :=
  let full := credit (bits cfg 55 32)
  if !bitOf cfg 63 || !bitOf was 63 then full
  else
    let v := signedOf 64 level + (bits cfg 31 0 : Int)
    codeOf 64 (if v ≤ (full : Int) then v else (full : Int))

/-- A meter's levels after a refill. -/
def meterRefill (was cfg level : Nat) : Nat :=
  let cap1 := credit (bits cfg 95 72)
  let cap2 := credit (bits cfg 119 96)
  let mode := bits cfg 127 126
  if mode = 0 then level
  else if bits was 127 126 = 0 then cap1 * 2 ^ 64 + cap2
  else
    let tc := bits level 127 64 + bits cfg 31 0
    let tx := bits level 63 0
    if mode = 1 then min tc cap1 * 2 ^ 64 + min (tx + (tc - min tc cap1)) cap2
    else min tc cap1 * 2 ^ 64 + min (tx + bits cfg 63 32) cap2

/-- Entries of a window that a store lists. -/
def listedIn (t : Store) (idx : Nat) : List Nat :=
  (t.filter fun p => p.1 / 2 ^ 40 == idx).map fun p => p.1 % 2 ^ 40

/-- Sub-indices of an object that a store lists. -/
def listedSubs (t : Store) (idx : Nat) : List Nat :=
  (t.filter fun p => p.1 / 256 == idx).map fun p => p.1 % 256

/-- SHAPER_REFILL: all buckets are refilled in one step; buckets whose settings and level are untouched stay full (R391). -/
def Channel.refill (c : Channel) : Channel :=
  let was := c.pend
  let old := fun key new => match was.find? fun p => p.1 == key with
    | some p => p.2
    | none => new
  let c := { c with pend := [] }
  let ports := (listedSubs c.dict 0x4902 ++ listedSubs c.dict 0x4907).eraseDups
  let c := ports.foldl (fun c p => c.put 0x4907 p
    (shaperRefill (old (objKey 0x4902 p) (c.reg 0x4902 p)) (c.reg 0x4902 p) (c.reg 0x4907 p))) c
  let win := fun (c : Channel) (cfg lv : Nat) (f : Nat → Nat → Nat → Nat) =>
    (listedIn c.win cfg ++ listedIn c.win lv ++ listedIn was cfg).eraseDups.foldl
      (fun c i => c.wput lv i (f (old (winKey cfg i) (c.wget cfg i)) (c.wget cfg i) (c.wget lv i))) c
  let c := win c 0x4904 0x4908 shaperRefill
  let c := win c 0x4905 0x4909 shaperRefill
  win c 0x4A10 0x4A11 meterRefill

/-! ## The rows -/

/-- SELECT_FRAME (R384). -/
def execSelectFrame (ch : Ch) (tier : Nat) (s : State) : Host.Outcome State Fault Refusal :=
  onPipe s ch (isTier tier) fun cx c => c.select cx tier

/-- MATCHING_ROUND (R389). -/
def execMatchingRound (ch : Ch) (s : State) : Host.Outcome State Fault Refusal :=
  onPipe s ch true fun _ c => c.matchRound

/-- RECIRCULATE (R179). -/
def execRecirculate (ch : Ch) (s : State) : Host.Outcome State Fault Refusal :=
  onPipe s ch true fun cx c => c.recirculate cx

/-- EGRESS_EDIT (R306). -/
def execEgressEdit (ch : Ch) (fid no : Nat) (s : State) : Host.Outcome State Fault Refusal :=
  onPipe s ch true fun _ c => c.egressEdit (fid, no)

/-- SHAPER_REFILL (R391). -/
def execShaperRefill (ch : Ch) (s : State) : Host.Outcome State Fault Refusal :=
  onCh s ch true fun _ c => c.refill

/-- RELEASE_CELLS: a release with its pointer and owner tag (R362, R363); a copy that it releases counts in no length any more
(R348). -/
def execReleaseCells (ch : Ch) (fid no owner ptr pool : Nat) (s : State) : Host.Outcome State Fault Refusal :=
  onCh s ch true fun cx c =>
    let after := c.release cx fid no owner ptr pool
    let sig := fun (c : Channel) => (c.frame fid).map fun f => (f.share, f.parked)
    match c.copyOf (fid, no) with
    | some (f, x) =>
      if x.owner = owner && sig after != sig c then
        let after := if x.counted && !x.freed then after.lengths x f.cellCount false else after
        after.modCopy (fid, no) fun x => { x with freed := true }
      else after
    | none => after

end Sys2Proof.Machine
end

