-- ==== Sys2Proof/Machine/Mac.lean ====
section
/-! DEFINITION. The transmit MACs: the checks of R97, PTP messages, launch times, the line, low-power idle (R96 to R99,
R118, R141, R425 to R430). -/

namespace Sys2Proof.Machine

/-! ## Timestamps -/

/-- A timestamp of R424 in units of 1/256 ns. -/
def stampUnits (t : Nat) : Nat := bits t 87 40 * 256000000000 + bits t 39 8 * 256 + bits t 7 0

/-- The timestamp of a number of 1/256 ns. -/
def stampOf (n : Int) : Nat :=
  let n := n.toNat
  (n / 256000000000 % 2 ^ 48) * 2 ^ 40 + n % 256000000000

/-- A timestamp moved by a signed 16-bit delay, added or subtracted (R425). -/
def delayed (t delay : Nat) (add : Bool) : Nat :=
  let d := signedOf 16 delay
  stampOf ((stampUnits t : Int) + (if add then d else -d))

/-- The receive timestamp at port `p` (R425, R123). -/
def Channel.rxStamp (c : Channel) (p : Nat) : Nat :=
  if p ≤ 52 then delayed c.time.stamp (bits (c.hw 0x4B07 p) 15 0) false else c.time.stamp

/-- The transmit timestamp at port `p` (R425, R123). -/
def Channel.txStamp (c : Channel) (p : Nat) : Nat :=
  if p ≤ 52 then delayed c.time.stamp (bits (c.hw 0x4B07 p) 31 16) true else c.time.stamp

/-! ## PTP event messages (R426 to R428) -/

/-- A PTP event message in a frame: its offset, and the IP header's offset and kind (4, 6, or 0 for L2). -/
structure PtpAt where
  ptp : Nat
  ip  : Nat
  ver : Nat
deriving DecidableEq, Repr

/-- Skip up to `n` VLAN tags (R426). -/
def skipTags (b : List Byte) : Nat → Nat → Nat
  | 0, o => o
  | n + 1, o => if field b o 2 = 0x8100 || field b o 2 = 0x88A8 then skipTags b n (o + 4) else o

/-- Recognise a PTP event message in a frame on a fabric link or on a front port (R426). `cfg` is 0x4B08. -/
def findPtp (fabric : Bool) (cfg : Nat) (b : List Byte) : Option PtpAt :=
  let o := if fabric && field b 12 2 == 0x88B5 then 28 else 12
  let o := skipTags b 2 o
  let et := field b o 2
  let ip := o + 2
  let hit :=
    if et = 0x88F7 && bitOf cfg 8 then some (⟨ip, ip, 0⟩ : PtpAt)
    else if et = 0x0800 && bitOf cfg 9 && byteAt b ip == 0x45 && byteAt b (ip + 9) == 17 && field b (ip + 22) 2 == 319 then
      some ⟨ip + 28, ip, 4⟩
    else if et = 0x86DD && bitOf cfg 10 && byteAt b (ip + 6) == 17 && field b (ip + 42) 2 == 319 then
      some ⟨ip + 48, ip, 6⟩
    else none
  match hit with
  | none => none
  | some h =>
    if byteAt b (h.ptp + 1) % 16 = 2 && byteAt b h.ptp % 16 ≤ 3 then some h else none

/-- Add to correctionField, in units of 2^-16 ns, with the overflow value of R427. -/
def addCorrection (b : List Byte) (o : Nat) (d : Int) : List Byte :=
  let v := signedOf 64 (field b (o + 8) 8) + d
  let v := if v < -(2 ^ 63 : Nat) || ((2 ^ 63 - 1 : Nat) : Int) < v then 2 ^ 63 - 1 else codeOf 64 v
  patch b (o + 8) (beBytes 8 v)

/-- The sum of the 16-bit words of some bytes, an odd last byte counted high. -/
def wordSum : List Byte → Nat
  | [] => 0
  | [a] => a.toNat * 256
  | a :: b :: t => a.toNat * 256 + b.toNat + wordSum t

/-- Fold a sum of words to 16 bits. -/
def foldSum (s : Nat) : Nat :=
  let s := s % 65536 + s / 65536
  let s := s % 65536 + s / 65536
  s % 65536 + s / 65536

/-- Recompute the UDP checksum of a message (R428); an IPv4 checksum of zero stays. -/
def fixUdp (b : List Byte) (h : PtpAt) : List Byte :=
  let udp := h.ptp - 8
  let len := field b (udp + 4) 2
  if h.ver = 0 || (h.ver = 4 && field b (udp + 6) 2 = 0) then b
  else
    let z := patch b (udp + 6) [0, 0]
    let addrs := if h.ver = 4 then slice b (h.ip + 12) 8 else slice b (h.ip + 8) 32
    let s := 65535 - foldSum (wordSum addrs + 17 + len + wordSum (slice z udp len))
    patch b (udp + 6) (beBytes 2 (if s = 0 then 65535 else s))

/-- What the MAC does to a recognised message with one step (R427): the frame, and whether a value was inserted. -/
def ptpInsert (cfg : Nat) (b : List Byte) (h : PtpAt) (tx rx : Nat) (growth : Int) : List Byte × Bool :=
  let mode := bits cfg 5 4
  if mode = 1 && byteAt b h.ptp % 16 = 0 then
    let b := patch b (h.ptp + 34) (beBytes 6 (bits tx 87 40) ++ beBytes 4 (bits tx 39 8))
    (fixUdp (addCorrection b h.ptp ((bits tx 7 0 * 256 : Nat) : Int)) h, true)
  else if mode = 2 then
    let res := (stampUnits tx : Int) - (stampUnits rx : Int) - growth * 256
    (fixUdp (addCorrection b h.ptp (res * 256)) h, true)
  else (b, false)

/-- An entry of the transmit timestamp queue (R438). -/
def stampEntry (b : List Byte) (h : PtpAt) (tx : Nat) : Nat :=
  2 ^ 127 + (byteAt b h.ptp % 16) * 2 ^ 120 + byteAt b (h.ptp + 4) * 2 ^ 112 + field b (h.ptp + 30) 2 * 2 ^ 96 + tx

/-- Queue a transmit timestamp, or discard it from a full queue (R438). -/
def Channel.queueStamp (c : Channel) (p e : Nat) : Channel :=
  let x := c.port p
  if 16 ≤ x.stamps.length then (c.inc 0x4B27 p).flag 0x4B0F 1 16
  else (c.setPort p { x with stamps := x.stamps ++ [e] }).inc 0x4B25 p

/-! ## Starting a frame -/

/-- The maximum frame length of a line port (R92, R124, R141). -/
def Channel.maxLen (c : Channel) (p : Nat) : Nat :=
  if p ≤ 48 then c.hw 0x4103 p else if p ≤ 52 then c.hw 0x4253 (p - 48) else c.hw 0x4207 (p - 64)

/-- The copy that is on the line of a port. -/
def Channel.onLine (c : Channel) (p : Nat) : Option (Nat × Nat) :=
  if p ≤ 52 then (c.port p).line else (c.mdrop (p - 64)).line

/-- Put a copy on the line of a port, or take it off. -/
def Channel.setLine (c : Channel) (p : Nat) (r : Option (Nat × Nat)) : Channel :=
  if p ≤ 52 then c.setPort p { c.port p with line := r }
  else c.setMdrop (p - 64) { c.mdrop (p - 64) with line := r }

/-- What the MAC of a front port or fabric link does to the PTP message in some bytes that leave at `tx`, received at `rx` with step sum
`sum` (R426, R427): the bytes, the message, and whether a value was inserted. -/
def Channel.timePtp (c : Channel) (p : Nat) (body : List Byte) (tx rx : Nat) (sum : Int) :
    List Byte × Option (PtpAt × List Byte) × Bool :=
  match (if p ≤ 52 then findPtp (Nat.ble 49 p) (c.hw 0x4B08 p) body else none) with
  | none => (body, none, false)
  | some h =>
    let b := ptpInsert (c.hw 0x4B08 p) body h tx rx (c.time.stepSum - sum)
    (b.1, some (h, b.1), b.2)

/-- A recognised message leaves at `tx` on a port with TWO_STEP set: its timestamp is queued (R427, R438). -/
def Channel.noteStamp (c : Channel) (p tx : Nat) : Option (PtpAt × List Byte) → Channel
  | some (h, b) => if c.hwBit 0x4B08 p 0 then c.queueStamp p (stampEntry b h tx) else c
  | none => c

/-- The frame as it goes out: STOMP_AWARE set on a link with CT_EN (R148), PTP values inserted (R427), a fresh FCS (R96). -/
def Channel.outgoing (c : Channel) (f : Frame) (x : Copy) (p tx : Nat) : List Byte × Option (PtpAt × List Byte) × Bool :=
  let body := x.bytes.getD []
  let body := if 49 ≤ p && p ≤ 52 && field body 12 2 == 0x88B5 && c.hwBit 0x4250 (p - 48) 1 then
      patch body 14 [BitVec.ofNat 8 (setBit (byteAt body 14) 2 true)] else body
  let o := c.timePtp p body tx f.rx f.rxSum
  (o.1 ++ fcsBytes o.1, o.2)

/-- The first bit of a copy leaves (R98, R425, R428, R430). The sessions of the transmit point see it at its first attempt alone
(R443). -/
def Channel.startCopy (c : Channel) (cx : Ctx) (r : Nat × Nat) (p : Nat) (late : Bool) : Channel :=
  match c.copyOf r with
  | none => c
  | some (f, x) =>
    let tx := c.txStamp p
    let o := c.outgoing f x p tx
    let c := c.noteStamp p tx o.2.1
    let c := if o.2.2 then c.inc 0x4B26 p else c
    let c := if x.launch.isSome && p ≤ 52 then c.inc 0x4B20 p else c
    let c := if late then (c.inc 0x4B21 p).flag 0x4B0F 1 8 else c
    let c := c.modCopy r fun x => { x with pos := .line, bytes := some o.1, seen := true }
    let c := c.setLine p (some r)
    match x.kind, x.seen with
    | .mirror _, _ | _, true => c
    | _, false => c.mirror cx r.1 ⟨false, 0, false, none, some p, p, x.q, tx, some o.1⟩

/-- Whether a port can start a frame now: a link, an idle line, no PAUSE, no low-power idle; a plain front port a channel that
forwards, a fabric link its wiring and domain; a multidrop port its turn, token and no backoff (R34, R96 to R100, R108, R115,
R119, R126, R152, R156). -/
def Channel.lineFree (c : Channel) (cx : Ctx) (p : Nat) : Bool :=
  cx.night != .asleep && !cx.fence && (c.onLine p).isNone && (cx.st != .active || cx.forwards) &&
  (if p ≤ 52 then
    c.linkUp p && !c.inProgress p && !(c.port p).paused && !(p ≤ 48 && c.bit 0x4102 p 22) &&
      (if p ≤ 48 then c.hwBit 0x4100 p 26 || cx.forwards else (c.link (p - 48)).wired && !c.domainBad cx)
  else
    let k := p - 64
    let d := c.mdrop k
    c.bit 0x4202 k 0 && c.token cx k && d.backoff.isNone &&
      (!(c.hwBit 0x4200 k 2 && !d.lost && !d.dup) || d.turn))

/-- The checks of R97 before a frame is loaded and of R430 before it is started: the drop code. A retry of R118 has been loaded and is sent
from the MAC's own copy. -/
def Channel.txCheck (c : Channel) (p : Nat) (f : Frame) (x : Copy) : Option Nat :=
  let body := x.bytes.getD []
  let len := body.length + 4 - (if 49 ≤ p && p ≤ 52 then 16 else 0)
  if 65 ≤ p && (c.mdrop (p - 64)).hand == some (f.id, x.no) then none
  else if c.maxLen p < len then some 0x90
  else if f.cells.any c.damage.cells.contains then some 0x92
  else if p ≤ 48 && c.hwBit 0x4100 p 26 && !c.bit 0x4102 p 20 then some 0x93
  else
    match x.launch with
    | none => none
    | some t => if p ≤ 52 && decide (ticks (bits (c.launchCfg p) 45 32 * 1000000) < c.time.ahead t) then some 0x98 else none

/-- How late a launch-time frame is that starts now: on time, late but sent, or to be dropped (R430). -/
def Channel.lateness (c : Channel) (p : Nat) (x : Copy) : Nat :=
  match x.launch with
  | none => 0
  | some t =>
    let d := -(c.time.ahead t)
    let cfg := c.launchCfg p
    if 52 < p || d ≤ ticks 8 then 0
    else if d ≤ ticks (8 + bits cfg 63 48) || bitOf cfg 47 then 1
    else 2

/-- A multidrop MAC holds its own copy once it starts, and the cells are released (R118). -/
def Channel.ownCopy (c : Channel) (cx : Ctx) (r : Nat × Nat) (p : Nat) : Channel :=
  if p ≤ 52 then c
  else
    match c.copyOf r with
    | none => c
    | some (f, x) => if x.freed then c else (c.lengths x f.cellCount false).releaseCells cx r

/-- A control frame that waits at an idle port goes out, or goes on waiting: the launch guard exempts PAUSE, PFC and beacons alone (R430),
and an LACPDU that PAUSE holds is asked for anew when the PAUSE ends (R100); the LACPDU that was third in its fast periodic time is one
of a change of role (R107). -/
def Channel.goOut (c : Channel) (p : Nat) (x : Sent × Bool) : Channel :=
  let y := c.port p
  let role := Nat.ble 3 y.sentPdu
  let free := (c.guards p).all fun g => c.fitsBefore p 128 g.2.1
  let wait := fun (c : Channel) => if free then c.putControl p x.1
    else
      let c := c.setPort p { y with due := y.due ++ [(x.1, true)] }
      if x.2 then c else c.inc 0x4B24 p
  match x.1 with
  | .lacpdu _ _ _ =>
    if y.paused then c.setPort p { y with owed := true, forRole := y.forRole || role, sentPdu := y.sentPdu - 1 } else wait c
  | .marker _ _ => wait c
  | _ => c.putControl p x.1

/-- The frame in progress on a port has ended: the control frames that wait go out. -/
def Channel.sendDue (c : Channel) (p : Nat) : Channel :=
  if 52 < p || c.inProgress p || (c.port p).due.isEmpty then c
  else (c.port p).due.foldl (fun c x => c.goOut p x) (c.setPort p { c.port p with due := [] })

/-- An LACPDU or a Marker Response goes out after the frame in progress and where the launch guard lets it, which counts it when it does
not (R98, R430). -/
def Channel.sendGuarded (c : Channel) (p : Nat) (x : Sent) : Channel :=
  if c.inProgress p then c.sendControl p x else c.goOut p (x, false)

/-- Start a loaded frame, or drop it (R97, R430). -/
def Channel.tryStart (c : Channel) (cx : Ctx) (p : Nat) (r : Nat × Nat) (x : Copy) : Channel :=
  match (c.copyOf r).bind fun q => c.txCheck p q.1 x with
  | some code => (c.macDrop cx r p code).sendDue p
  | none =>
    if !c.lineFree cx p || c.heldClass p (x.q % 8) then c
    else
      match c.lateness p x with
      | 2 => (c.macDrop cx r p 0x97).sendDue p
      | n =>
        if !c.guardAllows p r (x.q % 8) ((x.bytes.getD []).length + 4) then
          if x.guarded then c else (c.inc 0x4B24 p).modCopy r fun x => { x with guarded := true }
        else (c.startCopy cx r p (n == 1)).ownCopy cx r p

/-- The loaded frames of a port that PFC does not hold (R100); all of them where it holds each. -/
def Channel.unheld (c : Channel) (p : Nat) : List ((Nat × Nat) × Frame × Copy) :=
  let l := c.loaded p
  let free := l.filter fun a => !c.heldClass p (a.2.2.q % 8)
  if free.isEmpty then l else free

/-- The loaded launch-time frames of a port whose time has come, the earliest first, then the frames without one. A multidrop MAC sends
the frame that has collided before any other, from its own copy (R118, R119). -/
def Channel.ready (c : Channel) (p : Nat) : Option ((Nat × Nat) × Copy) :=
  let l := if 65 ≤ p && (c.mdrop (p - 64)).hand.isSome then
      (c.unheld p).filter fun a => (c.mdrop (p - 64)).hand == some a.1
    else c.unheld p
  let due := l.filterMap fun a => match a.2.2.launch with
    | some t => if p ≤ 52 && decide (c.time.ahead t ≤ 0) then some (a.1, c.time.ahead t, a.2.2) else none
    | none => none
  let first := due.foldl (fun (m : Option ((Nat × Nat) × Int × Copy)) a => match m with
    | none => some a
    | some b => if a.2.1 < b.2.1 then some a else some b) none
  match first with
  | some a => some (a.1, a.2.2)
  | none => (l.find? fun a => a.2.2.launch.isNone || 52 < p ||
      (match a.2.2.launch with
        | some t => decide (ticks (bits (c.launchCfg p) 45 32 * 1000000) < c.time.ahead t)
        | none => false)).map fun a => (a.1, a.2.2)

/-- TRANSMIT_START of a port (R97), after the control frames that wait (R102). -/
def Channel.transmit (c : Channel) (cx : Ctx) (p : Nat) : Channel :=
  let c := c.sendDue p
  match c.ready p with
  | none => c
  | some (r, x) => c.tryStart cx p r x

/-- A frame finishes on the line: it is counted and its copy released (R96). -/
def Channel.sent (c : Channel) (cx : Ctx) (p : Nat) : Channel :=
  match c.onLine p with
  | none => c
  | some r =>
    match c.copyOf r with
    | none => c.setLine p none
    | some (f, x) =>
      let b := x.bytes.getD []
      let n := if p ≤ 48 then p else if p ≤ 52 then p - 48 else p - 64
      let c := (c.countOut p b.length).emit (.frame cx.ch p b true)
      let c := if 49 ≤ p && p ≤ 52 && bitOf (field b 14 14) 104 then c.inc 0x4278 n else c
      let c := ((c.countQueue x (egressLen f x) true).setLine p none).leave cx r
      if p ≤ 52 then c.sendDue p
      else
        let d := c.mdrop n
        let more := d.turn && d.burst < bits (c.hw 0x4201 n) 23 16
        c.setMdrop n { d with
          attempts := 0, hand := none, burst := d.burst + 1, turn := more,
          cycle := if d.turn && !more then d.cycle.map (· + 1) else d.cycle }

/-- A frame on the line is cut short (R98, R86): the partner sees it truncated. -/
def Channel.cutLine (c : Channel) (cx : Ctx) (p : Nat) : Channel :=
  match c.onLine p with
  | none => c
  | some r =>
    match c.copyOf r with
    | none => c.setLine p none
    | some (_, x) => (c.emit (.frame cx.ch p (x.bytes.getD []) false)).setLine p none

/-- LAUNCH_START: the earliest held frame of the port whose launch time has come starts (R430). -/
def Channel.launch (c : Channel) (cx : Ctx) (p : Nat) : Channel :=
  match c.ready p with
  | some (r, x) => if x.launch.isSome then c.tryStart cx p r x else c
  | none => c

/-- LATE_LAUNCH: a loaded frame that has passed T + 8 ns + LATE_LIMIT_NS is dropped or sent (R430). -/
def Channel.lateLaunch (c : Channel) (cx : Ctx) (p : Nat) : Channel :=
  match (c.loaded p).find? fun a => match a.2.2.launch with
    | some t => decide (ticks (8 + bits (c.launchCfg p) 63 48) < -(c.time.ahead t))
    | none => false with
  | none => c
  | some (r, _, x) => if bitOf (c.launchCfg p) 47 then c.tryStart cx p r x else (c.macDrop cx r p 0x97).sendDue p

/-- LPI_ENTER: the idle port enters low-power idle where EEE is allowed and resolved (R99). -/
def Channel.enterLpi (c : Channel) (p : Nat) : Channel :=
  let ctl := c.hw 0x4100 p
  let resolved := if bits ctl 15 12 = 0 then (c.port p).eee else bitOf (c.hw 0x4101 p) 11
  if bitOf ctl 23 && c.bit 0x4102 p 0 && resolved && !c.bit 0x4102 p 22 && (c.onLine p).isNone && (c.tier p).picked.isEmpty &&
      (c.queuedAt p).isEmpty
  then (c.putBit 0x4102 p 22 true).inc 0x4126 p else c

/-! ## The rows -/

/-- TRANSMIT_START (R97). -/
def execTransmitStart (ch : Ch) (port : Nat) (s : State) : Host.Outcome State Fault Refusal :=
  onCh s ch (isLine port) fun cx c => c.transmit cx port

/-- FRAME_SENT (R96). -/
def execFrameSent (ch : Ch) (port : Nat) (s : State) : Host.Outcome State Fault Refusal :=
  onCh s ch (isLine port) fun cx c => c.sent cx port

/-- LAUNCH_START (R430); launch times are honoured on front ports and fabric links. -/
def execLaunchStart (ch : Ch) (port : Nat) (s : State) : Host.Outcome State Fault Refusal :=
  onCh s ch (1 ≤ port && port ≤ 52) fun cx c => c.launch cx port

/-- LATE_LAUNCH (R430). -/
def execLateLaunch (ch : Ch) (port : Nat) (s : State) : Host.Outcome State Fault Refusal :=
  onCh s ch (1 ≤ port && port ≤ 52) fun cx c => c.lateLaunch cx port

/-- LPI_ENTER (R99). -/
def execLpiEnter (ch : Ch) (port : Nat) (s : State) : Host.Outcome State Fault Refusal :=
  onCh s ch (1 ≤ port && port ≤ 48) fun _ c => c.enterLpi port

/-- LPI_WAKE (R99). -/
def execLpiWake (ch : Ch) (port : Nat) (s : State) : Host.Outcome State Fault Refusal :=
  onCh s ch (1 ≤ port && port ≤ 48) fun _ c => c.putBit 0x4102 port 22 false

end Sys2Proof.Machine
end

