-- ==== Sys2Proof/Machine/Parser.lean ====
section
/-! DEFINITION. The parser: profile selection, required fields, key slots (R169 to R178). -/

namespace Sys2Proof.Machine

/-- Whether selector entry `e` matches (R172). -/
def selectorMatches (e cls et12 et16 : Nat) : Bool :=
  bitOf e 57 && bitOf e cls && (bitOf e 32 || bits e 31 16 == et12) && (bitOf e 49 || bits e 48 33 == et16)

/-- The profile of a frame (R172). -/
def Channel.profileOf (c : Channel) (f : Frame) : Nat :=
  let w := windowOf f.bytes
  let pc := c.reg 0x4301 f.port
  match (upFrom 1 64).find? fun i => selectorMatches (c.reg 0x4302 i) (bits pc 3 0) (field w 12 2) (field w 16 2) with
  | some i => bits (c.reg 0x4302 i) 56 50
  | none => bits pc 14 8

/-- The bytes of a key slot whose field number is `k` (R176); none where it is empty. -/
def Frame.slotBytes (f : Frame) (k : Nat) : Option (List Byte) :=
  if 24 ≤ k then none else some (fieldBytes (windowOf f.bytes) (f.fieldDesc k))

/-- The VID of a slot, if it is filled. -/
def Frame.slotVid (f : Frame) (k : Nat) : Option Nat := (f.slotBytes k).map fun b => beNat b % 4096

/-- What the pass of a frame with profile `p` keeps of the profile's objects, each read once and whole (R188). -/
def Channel.lookOf (c : Channel) (p : Nat) : Look :=
  { Look.empty with
    profile := p, fields := c.wget 0x4304 (p - 1), kmap := c.reg 0x4305 p, assoc := c.reg 0x4306 p, hash := c.reg 0x4307 p }

/-- Whether the parity of an object of profile `p` fails: window 0x4304 or an object with the profile's sub-index (R190). The profile
objects are 0x4303 to 0x4307; 0x4301 and 0x4302, which select a profile, are taken for none (assumption 122). -/
def Channel.profileBad (c : Channel) (p idx : Nat) : Bool :=
  c.damage.objs.contains (if idx = 0x4304 then winKey idx (p - 1) else objKey idx p)

/-- PARSE_FRAME: frames of a pipeline are parsed in arrival order (R35). The control object is read first and the others for a valid
profile only (assumption 93); a frame dropped before its profile is found valid and whole counts in no PROFILE_FRAMES (assumption
94). -/
def Channel.parse (c : Channel) (cx : Ctx) (fid : Nat) : Channel :=
  match c.frame fid with
  | none => c
  | some f =>
    let older := c.frames.takeWhile fun g => g.id != fid
    if f.pos != .parse || older.any (fun g => g.pipe == f.pipe && g.pos == .parse) then c
    else
      let p := c.profileOf f
      let ctl := c.reg 0x4303 p
      let missing := (List.range 24).any fun k => bitOf ctl k && fieldIncomplete (c.fieldDesc p k) f.bytes.length
      let damaged := (c.inc 0x4322 3).flag 0x432F 1 16
      if c.profileBad p 0x4303 then damaged.dropFrame cx fid 0x22 false
      else if !bitOf ctl 24 then ((c.inc 0x4322 2).flag 0x432F 1 1).dropFrame cx fid 0x21 false
      else if [0x4304, 0x4305, 0x4306, 0x4307].any (c.profileBad p) then damaged.dropFrame cx fid 0x22 false
      else
        let c := c.inc 0x4320 p
        if missing then ((c.inc 0x4322 4).flag 0x432F 1 4).dropFrame cx fid 0x23 false
        else c.modFrame fid fun f => { f with
          pos := .look, look := c.lookOf p, window := windowOf f.bytes, edits := [] }

/-- PARSE_FRAME (R172). -/
def execParseFrame (ch : Ch) (fid : Nat) (s : State) : Host.Outcome State Fault Refusal :=
  onPipe s ch true fun cx c => c.parse cx fid

end Sys2Proof.Machine
end

