-- ==== Sys2Proof/Machine/Table.lean ====
section
/-! DEFINITION. The hashed tables: layout, parity, lookups, insertion with relocation, stash (R201 to R211, R222, R242,
R243, R257). -/

namespace Sys2Proof.Machine

/-! ## Layout -/

/-- The window of a table. -/
def winOf : Hashed → Nat
  | .bridge => 0x4411
  | .sub => 0x4421
  | .v4 => 0x4511
  | .v6 => 0x4512

/-- Buckets per bank (R201, R203, R242). -/
def bucketsOf : Hashed → Nat
  | .bridge => 131072
  | .sub => 8192
  | .v4 => 65536
  | .v6 => 32768

/-- First stash address. -/
def stashOf (t : Hashed) : Nat := 8 * bucketsOf t

/-- The number of table addresses. -/
def sizeOf_ (t : Hashed) : Nat := stashOf t + 64

/-- The table's number in R474. -/
def tableNo : Hashed → Nat
  | .bridge => 0
  | .sub => 1
  | .v4 => 2
  | .v6 => 3

/-- The VALID bit of an entry. A route entry is its key above its 64-bit data (R258). -/
def slotValid (t : Hashed) (e : Nat) : Bool :=
  match t with
  | .bridge => bitOf e 127
  | _ => bitOf e 63

/-- The key of an entry (R202, R203, R258): of a route, its 160-bit Key. -/
def slotKey (t : Hashed) (e : Nat) : Nat :=
  match t with
  | .bridge => bits e 119 60
  | .sub => bits e 54 24
  | _ => e / 2 ^ 64

/-- The bytes of a key that are hashed (R202, R203, R243). -/
def keyBytes (t : Hashed) (k : Nat) : List Byte :=
  match t with
  | .bridge => beBytes 8 k
  | .sub => beBytes 4 k
  | .v4 => beBytes 2 (k / 2 ^ 144) ++ beBytes 4 k
  | .v6 => beBytes 2 (k / 2 ^ 144) ++ beBytes 16 k

/-- The candidate bucket of a key in bank `side`. -/
def bucketOf (t : Hashed) (side k : Nat) : Nat :=
  let h := crc32c 0xFFFFFFFF (keyBytes t k)
  match t with
  | .bridge => if side = 0 then bits h 16 0 else bits h 31 15
  | .sub => if side = 0 then bits h 12 0 else bits h 31 19
  | .v4 => if side = 0 then bits h 15 0 else bits h 31 16
  | .v6 => if side = 0 then bits h 14 0 else bits h 31 17

/-- The table address of a slot. -/
def slotAddr (t : Hashed) (side bucket way : Nat) : Nat := side * (4 * bucketsOf t) + bucket * 4 + way

/-- The candidate addresses of a key in its banks and the stash, in increasing order. -/
def candidates (t : Hashed) (k : Nat) : List Nat :=
  upFrom (slotAddr t 0 (bucketOf t 0 k) 0) 4 ++ upFrom (slotAddr t 1 (bucketOf t 1 k) 0) 4 ++ upFrom (stashOf t) 64

/-! ## Parity (R222, R257) -/

/-- The low bit of the count of ones among `n` bits of `v`. -/
def parityOf : Nat → Nat → Nat
  | 0, _ => 0
  | n + 1, v => (v % 2 + parityOf n (v / 2)) % 2

/-- Where the four parity bits stand, and how many bits a quarter has. -/
def parityAt : Hashed → Nat × Nat
  | .bridge => (120, 32)
  | .sub => (56, 32)
  | _ => (59, 56)

/-- The four parity bits that an entry should carry, over quarters of `w` bits, with its bits at `at_` excluded. -/
def parityBits (at_ w e : Nat) : Nat :=
  let v := setBits e (at_ + 3) at_ 0
  (List.range 4).foldl (fun m q => m + parityOf w (v / 2 ^ (w * q) % 2 ^ w) * 2 ^ q) 0

/-- An entry with its parity computed, as hardware writes it. -/
def withParity (t : Hashed) (e : Nat) : Nat :=
  let p := parityAt t
  setBits e (p.1 + 3) p.1 (parityBits p.1 p.2 e)

/-- Whether quarter `q` of an entry passes its check. -/
def quarterGood (t : Hashed) (e q : Nat) : Bool :=
  let p := parityAt t
  bitOf (bits e (p.1 + 3) p.1) q == bitOf (parityBits p.1 p.2 e) q

/-- Whether an entry passes all four; an empty slot, all zero, does. -/
def slotGood (t : Hashed) (e : Nat) : Bool := (List.range 4).all (quarterGood t e)

/-! ## Slots -/

/-- The slot at an address. -/
def Channel.slot (c : Channel) (t : Hashed) (a : Nat) : Nat := c.wget (winOf t) a

/-- The value that a slot takes: an invalid entry is all zero. -/
def slotWord (t : Hashed) (e : Nat) : Nat := if slotValid t e then withParity t e else 0

/-- Write a slot whole (R209). -/
def Channel.writeSlot (c : Channel) (t : Hashed) (a e : Nat) : Channel :=
  (c.wput (winOf t) a (slotWord t e)).noteTable (tableNo t)

/-- Addresses of a table whose slots are not all zero, in increasing order. -/
def Channel.listedSlots (c : Channel) (t : Hashed) : List Nat := listedIn c.win (winOf t)

/-- Valid addresses of a table, in increasing order. -/
def Channel.occupied (c : Channel) (t : Hashed) : List Nat :=
  (c.listedSlots t).filter fun a => slotValid t (c.slot t a)

/-- The lowest address that holds a key, without a parity error (R204, R222). -/
def Channel.findKey (c : Channel) (t : Hashed) (k : Nat) : Option Nat :=
  (candidates t k).find? fun a =>
    let e := c.slot t a
    slotValid t e && slotKey t e == k && slotGood t e

/-- Lowest empty way of a bucket. -/
def Channel.emptyWay (c : Channel) (t : Hashed) (side bucket : Nat) : Option Nat :=
  (List.range 4).find? fun w => !slotValid t (c.slot t (slotAddr t side bucket w))

/-- The engine of a table. -/
def Channel.engine (c : Channel) (t : Hashed) : EngSt := tabGet (fun _ => ⟨0, 0⟩) c.engines (tableNo t)

/-- Replace it. -/
def Channel.setEngine (c : Channel) (t : Hashed) (x : EngSt) : Channel :=
  { c with engines := tabSet (fun _ => ⟨0, 0⟩) c.engines (tableNo t) x }

/-- The relocation search of R210: the path of slot addresses and the free slot at its end. -/
def Channel.relocPath (c : Channel) (t : Hashed) : Nat → Nat → Nat → List Nat → Option (List Nat × Nat) × Channel
  | 0, _, _, _ => (none, c)
  | n + 1, side, key, path =>
    let eng := c.engine t
    let c := c.setEngine t { eng with rotor := (eng.rotor + 1) % 4 }
    let a := slotAddr t side (bucketOf t side key) eng.rotor
    let key := slotKey t (c.slot t a)
    let side := 1 - side
    let path := path ++ [a]
    match c.emptyWay t side (bucketOf t side key) with
    | some w => (some (path, slotAddr t side (bucketOf t side key) w), c)
    | none => c.relocPath t n side key path

/-- Count hops and stash writes (R241); routes have no such counters. -/
def Channel.countReloc (c : Channel) (t : Hashed) (idx n : Nat) : Channel :=
  match t with
  | .bridge => c.add idx 1 n
  | .sub => c.add idx 2 n
  | _ => c

/-- An entry goes to the stash: the event of R232. -/
def Channel.noteStash (c : Channel) (t : Hashed) : Channel :=
  match t with
  | .bridge | .sub => c.flag 0x4402 0 8
  | _ => c

/-- Insert an entry by R210; false where the table is full. -/
def Channel.insertSlot (c : Channel) (t : Hashed) (e : Nat) : Bool × Channel :=
  let k := slotKey t e
  match c.emptyWay t 0 (bucketOf t 0 k) with
  | some w => (true, c.writeSlot t (slotAddr t 0 (bucketOf t 0 k) w) e)
  | none =>
    match c.emptyWay t 1 (bucketOf t 1 k) with
    | some w => (true, c.writeSlot t (slotAddr t 1 (bucketOf t 1 k) w) e)
    | none =>
      let eng := c.engine t
      let side := eng.side
      let c := c.setEngine t { eng with side := 1 - side }
      match c.relocPath t 8 side k [] with
      | (some (path, free), c) =>
        let r := path.reverse.foldl (fun (r : Channel × Nat) s => (r.1.writeSlot t r.2 (r.1.slot t s), s)) (c, free)
        (true, (r.1.writeSlot t r.2 e).countReloc t 0x4439 path.length)
      | (none, c) =>
        match (upFrom (stashOf t) 64).find? fun a => !slotValid t (c.slot t a) with
        | some a => (true, ((c.writeSlot t a e).countReloc t 0x443A 1).noteStash t)
        | none => (false, c)

/-- Count, log and flag a parity error (R222, R257). -/
def Channel.countParity (c : Channel) (t : Hashed) (a : Nat) : Channel :=
  let c := c.log 0x30 (tableNo t + a * 2 ^ 32)
  match t with
  | .bridge => (c.inc 0x443B 1).flag 0x4402 0 16
  | .sub => (c.inc 0x443B 2).flag 0x4402 0 32
  | .v4 => (c.inc 0x4524 1).flag 0x451F 1 4
  | .v6 => (c.inc 0x4524 2).flag 0x451F 1 4

/-- STASH_MIGRATION: the lowest occupied stash slot moves into the table if a way is free (R211). -/
def Channel.migrate (c : Channel) (t : Hashed) : Channel :=
  match (upFrom (stashOf t) 64).find? fun a => slotValid t (c.slot t a) with
  | none => c
  | some a =>
    let e := c.slot t a
    let k := slotKey t e
    match c.emptyWay t 0 (bucketOf t 0 k) with
    | some w => (c.writeSlot t (slotAddr t 0 (bucketOf t 0 k) w) e).writeSlot t a 0
    | none =>
      match c.emptyWay t 1 (bucketOf t 1 k) with
      | some w => (c.writeSlot t (slotAddr t 1 (bucketOf t 1 k) w) e).writeSlot t a 0
      | none => c

/-- The command object of a table. -/
def cmdOf : Hashed → Nat
  | .bridge => 0x4410
  | .sub => 0x4420
  | _ => 0x4510

/-- Whether a drill holds the engine of a table, by its number (R516). -/
def Channel.halted (c : Channel) (n : Nat) : Bool := c.own.halt == some n

/-- Whether the engine of a table has work besides migration: a host command, or pending learns, moves and deletions (R211, R217). -/
def Channel.engineBusy (c : Channel) (t : Hashed) : Bool :=
  c.bit (cmdOf t) 5 16 ||
    match t with
    | .bridge => !c.bridge.learns.isEmpty || !c.bridge.ages.isEmpty
    | _ => false

/-- STASH_MIGRATION (R211); a drill holds it (R516). -/
def execStashMigration (ch : Ch) (t : Hashed) (s : State) : Host.Outcome State Fault Refusal :=
  onCh s ch true fun _ c => if c.engineBusy t || c.halted (tableNo t) then c else c.migrate t

end Sys2Proof.Machine
end

