-- ==== Sys2Proof/Machine/Match.lean ====
section
/-! DEFINITION. The associative array: the key of a frame, matching, parity, and the search that a pass makes (R177, R267 to R272,
R283, R284). -/

namespace Sys2Proof.Machine

/-- The 320-bit key of a frame (R177). -/
def Frame.searchKey (f : Frame) : Nat :=
  let list := f.look.assoc
  let picks := ((List.range 12).map fun j => bits list (5 * j + 4) (5 * j)).takeWhile fun k => k != 31
  let body := (picks.flatMap fun k => fieldBytes (windowOf f.bytes) (f.fieldDesc k)).take 38
  (f.inPort % 256) * 2 ^ 312 + (f.look.profile % 256) * 2 ^ 304 + beNat body * 2 ^ (8 * (38 - body.length))

/-- Whether entry `e` matches key `k` under a global mask (R268). -/
def entryMatches (gmask k e : Nat) : Bool :=
  bitOf e 127 && (k ^^^ bits e 767 448) &&& (bits e 447 128 &&& gmask) == 0

/-- Global mask `i` (0 to 15) (R268). -/
def Channel.gmask (c : Channel) (i : Nat) : Nat := c.reg 0x4602 (i + 1)

/-- Indices of the entries that match, lowest first, from `lo` on (R271). -/
def Channel.matches_ (c : Channel) (gm k lo : Nat) : List Nat :=
  (listedIn c.win 0x4610).filter fun i => lo ≤ i && entryMatches gm k (c.wget 0x4610 i)

/-- The 12 parity bits of an entry (R283). -/
def searchParity (e : Nat) : Nat :=
  let v := setBit (setBits e 123 112 0) 127 false
  (List.range 12).foldl (fun m q => m + parityOf 64 (v / 2 ^ (64 * q) % 2 ^ 64) * 2 ^ q) 0

/-- Whether an entry passes its check (R283). -/
def searchGood (e : Nat) : Bool := bits e 123 112 == searchParity e

/-- Write an entry whole; an invalid one is all zero. -/
def Channel.writeEntry (c : Channel) (i e : Nat) : Channel := (c.wput 0x4610 i e).noteTable 4

/-- The entry that a WRITE stores (R273, R280, R283). -/
def entryOf (d : Nat) : Nat :=
  let v := (d / 2 ^ 128) * 2 ^ 128 + (d &&& (maskOf 111 96 + maskOf 91 62 + maskOf 39 0)) + 2 ^ 127
  setBits v 123 112 (searchParity v)

/-- A failed check invalidates the entry (R284). -/
def Channel.invalidateEntry (c : Channel) (i : Nat) : Channel :=
  (((c.log 0x30 (4 + i * 2 ^ 32)).inc 0x4635 1).flag 0x461F 1 1).writeEntry i 0

/-- The search of a frame's pass, counted (R267, R291); `waited`: for a slot. Whether its entry fails the parity check, the hit's index
and ACTION, and MULTI (R271, R284). -/
def Channel.makeSearch (c : Channel) (f : Frame) (waited : Bool) : Channel × Bool × Option (Nat × Nat) × Bool :=
  let c := c.inc 0x4630 1
  let c := if waited then (c.inc 0x4633 1).flag 0x461F 1 4 else c
  match c.matches_ (c.gmask (bits (c.reg 0x4601 f.look.profile) 3 0)) f.searchKey 0 with
  | [] => (c, false, none, false)
  | i :: rest =>
    let e := c.wget 0x4610 i
    if !searchGood e then (c.invalidateEntry i, true, none, false)
    else
      let multi := !rest.isEmpty
      let c := (c.inc 0x4631 1).wput 0x4611 i (wrap64 (c.wget 0x4611 i + 1))
      let c := if multi then (c.inc 0x4632 1).flag 0x461F 1 2 else c
      (c, false, some (i, setBits (setBit (e % 2 ^ 128) 127 false) 123 112 0), multi)

/-- Whether a frame's pass has its search still to make (R267). -/
def Channel.searchOwed (c : Channel) (f : Frame) : Bool :=
  f.pos == .look && !f.look.searched && c.bit 0x4601 f.look.profile 8

/-- A step took frame `fid` of `before` out of the lookups, by a drop or a trap: each pass makes its search, in parallel with them (R33,
R267). -/
def Channel.searchLeft (c before : Channel) (fid : Nat) : Channel :=
  match before.frame fid with
  | none => c
  | some f => if before.searchOwed f && !(c.frame fid).any (fun g => g.pos == .look) then (c.makeSearch f false).1 else c

end Sys2Proof.Machine
end

