-- ==== Sys2Proof/Machine/Bridge.lean ====
section
/-! DEFINITION. The lookups of a frame, learning, moves, allowances, ageing (R129 to R132, R205 to R223). -/

namespace Sys2Proof.Machine

/-! ## Allowances (R131, R235 to R237) -/

/-- A learn allowance: of a front port, of a multidrop port, the remote one, or of a subscriber. -/
inductive Allow where
  | port (p : Nat)
  | drop (k : Nat)
  | remote
  | sub (s : Nat)
deriving DecidableEq, Repr

/-- LEARNED, LIMIT and REMAINING of an allowance. -/
def Channel.allowance (c : Channel) : Allow → Nat × Nat × Nat
  | .port p => (bits (c.reg 0x4406 p) 31 16, bits (c.reg 0x4405 p) 15 0, bits (c.reg 0x4406 p) 15 0)
  | .drop k => (bits (c.reg 0x4205 k) 31 16, bits (c.hw 0x4204 k) 15 0, bits (c.reg 0x4205 k) 15 0)
  | .remote => (bits (c.reg 0x4407 0) 62 42, bits (c.reg 0x4407 0) 41 21, bits (c.reg 0x4407 0) 20 0)
  | .sub s => (bits (c.wget 0x4408 s) 47 32, bits (c.wget 0x4408 s) 31 16, bits (c.wget 0x4408 s) 15 0)

/-- Store LEARNED and REMAINING; hardware keeps REMAINING at or below LIMIT − LEARNED (R131). -/
def Channel.setAllowance (c : Channel) (w : Allow) (learned remaining : Nat) : Channel :=
  let r := min remaining ((c.allowance w).2.1 - learned)
  match w with
  | .port p => c.put 0x4406 p ((learned % 2 ^ 16) * 2 ^ 16 + r)
  | .drop k => c.put 0x4205 k ((learned % 2 ^ 16) * 2 ^ 16 + r)
  | .remote => c.put 0x4407 0 (setBits (setBits (c.reg 0x4407 0) 62 42 learned) 20 0 r)
  | .sub s => c.wput 0x4408 s (setBits (setBits (c.wget 0x4408 s) 47 32 learned) 15 0 r)

/-- Charge one pending learn (R131). -/
def Channel.chargeOne (c : Channel) (w : Allow) : Channel :=
  let a := c.allowance w
  c.setAllowance w a.1 (a.2.2 - 1)

/-- Credit one pending learn that was not made (R131, R215). -/
def Channel.creditOne (c : Channel) (w : Allow) : Channel :=
  let a := c.allowance w
  c.setAllowance w a.1 (a.2.2 + 1)

/-- The allowances that an entry's charges stand in (R214, R238). -/
def chargesOf (e : Nat) : List Allow :=
  if bitOf e 43 then []
  else
    let p := bits e 6 0
    (if !bitOf e 31 then []
      else if bitOf e 13 then [.remote]
      else if 1 ≤ p && p ≤ 48 then [.port p]
      else if 65 ≤ p && p ≤ 80 then [.drop (p - 64)]
      else []) ++ (if bitOf e 32 then [.sub (bits e 30 16)] else [])

/-- The allowances that a learn is charged to (R213, R214). -/
def LearnReq.charges (r : LearnReq) : List Allow :=
  if r.remote then [.remote]
  else
    let p := r.dest % 128
    (if p ≤ 48 then [.port p] else [.drop (p - 64)]) ++ [.sub r.sub]

/-- An entry that leaves the table gives its charges back (R131). -/
def Channel.creditEntry (c : Channel) (e : Nat) : Channel :=
  (chargesOf e).foldl (fun c w =>
    let a := c.allowance w
    c.setAllowance w (a.1 - 1) (a.2.2 + 1)) c

/-- A learned entry stands in the table: its pending charge becomes LEARNED. -/
def Channel.settle (c : Channel) (e : Nat) : Channel :=
  (chargesOf e).foldl (fun c w =>
    let a := c.allowance w
    c.setAllowance w (a.1 + 1) a.2.2) c

/-- An entry that the relay brings is charged as it was at the other channel (R499). -/
def Channel.chargeEntry (c : Channel) (e : Nat) : Channel :=
  (chargesOf e).foldl (fun c w =>
    let a := c.allowance w
    c.setAllowance w (a.1 + 1) (a.2.2 - 1)) c

/-- Invalidate a slot with a parity error (R222, R223). -/
def Channel.invalidate (c : Channel) (t : Hashed) (a : Nat) : Channel :=
  let e := c.slot t a
  let c := (c.countParity t a).writeSlot t a 0
  if t ≠ .bridge then c
  else if quarterGood t e 0 && quarterGood t e 1 then c.creditEntry e
  else c.flag 0x4402 0 64

/-- Invalidate every slot with a parity error among some addresses. -/
def Channel.checkSlots (c : Channel) (t : Hashed) (l : List Nat) : Channel :=
  l.foldl (fun c a => if slotGood t (c.slot t a) then c else c.invalidate t a) c

/-- A lookup probes a key in both buckets and the stash (R205). -/
def Channel.probe (c : Channel) (t : Hashed) (k : Nat) : Option Nat × Channel :=
  let c := c.checkSlots t (candidates t k)
  (c.findKey t k, c)

/-! ## Stamps -/

/-- AGE_CLOCK (R219). -/
def Channel.ageClock (c : Channel) : Nat := bits (c.reg 0x4401 0) 63 48

/-- Write one field of every copy of a key. -/
def Channel.rewrite (c : Channel) (t : Hashed) (k : Nat) (f : Nat → Nat) : Channel :=
  (candidates t k).foldl (fun c a =>
    let e := c.slot t a
    if slotValid t e && slotKey t e == k then c.writeSlot t a (f e) else c) c

/-- A source hit refreshes the stamp of every copy of a non-static entry; on the lease holder only (R212, R219). It is none of the
writes that CHANGED tells of (R477). -/
def Channel.refresh (c : Channel) (cx : Ctx) (k e : Nat) : Channel :=
  if !cx.holder || bitOf e 126 || bits e 59 44 == c.ageClock then c
  else
    let now := c.ageClock
    (candidates .bridge k).foldl (fun c a =>
      let e := c.slot .bridge a
      if slotValid .bridge e && slotKey .bridge e == k then
        c.wput 0x4411 a (slotWord .bridge (setBits e 59 44 now))
      else c) c

/-! ## Learn requests (R129 to R132, R213, R216) -/

/-- What becomes of a frame after its source has been handled: it goes on, it goes to port 53, or it is dropped. -/
inductive Fate where
  | on
  | trap
  | drop (code : Nat)
deriving DecidableEq, Repr

/-- LIMIT_ACTION of an ingress port (R130, R213). -/
def Channel.limitAction (c : Channel) (p : Nat) : Nat :=
  if p ≤ 48 then bits (c.reg 0x4404 p) 28 27 else bits (c.hw 0x4203 (p - 64)) 5 4

/-- The fate that a LIMIT_ACTION gives (R130). -/
def limitFate (a : Nat) : Fate := if a = 1 then .drop 0x3B else if a = 2 then .trap else .on

/-- An allowance is found at 0: LIMIT_HITS (R241) or LEARN_LIMIT_HIT (R130). A subscriber's allowance counts in LIMIT_HITS on a
multidrop port too (assumption 123). -/
def Channel.countLimit (c : Channel) : Allow → Channel
  | .drop k => c.inc 0x4222 k
  | .remote => c
  | _ => c.inc 0x4438 1

/-- A learn or move request of a frame (R213, R216). While a request for its key waits, a further frame of the source makes none and
meets no limit (assumption 119); a channel that forwards without the lease asks for nothing and applies no limit (assumption 120). -/
def Channel.ask (c : Channel) (cx : Ctx) (p : Nat) (r : LearnReq) : Fate × Channel :=
  if !cx.holder || c.bridge.learns.any (fun q => q.key == r.key) then (.on, c)
  else
    match r.charges.find? fun w => (c.allowance w).2.2 == 0 with
    | some w => (if r.remote then .on else limitFate (c.limitAction p), c.countLimit w)
    | none =>
      if 4096 ≤ c.bridge.learns.length then (.on, (c.inc 0x4436 1).flag 0x4402 0 4)
      else
        let c := r.charges.foldl (fun c w => c.chargeOne w) c
        (.on, { c with bridge := { c.bridge with learns := c.bridge.learns ++ [r] } })

/-- The destination bits [13:0] that a frame's source has (R214). -/
def Frame.sourceDest (f : Frame) : Nat :=
  match f.tag with
  | some t => 2 ^ 13 + bits t 103 98 * 2 ^ 7 + bits t 97 91
  | none => f.inPort % 128

/-- MOVE_LOCK of a frame's ingress port (R132, R216). -/
def Channel.moveLock (c : Channel) (p : Nat) : Bool :=
  if p ≤ 48 then c.bit 0x4404 p 29 else if 65 ≤ p then c.hwBit 0x4203 (p - 64) 7 else false

/-- A frame whose source is unknown (R129, R130, R213): its fate, and whether a copy goes to the host path. -/
def Channel.stranger (c : Channel) (cx : Ctx) (f : Frame) (r : LearnReq) : Fate × Bool × Channel :=
  let p := f.inPort
  if p < 65 then
    let a := c.ask cx p r
    (a.1, false, a.2)
  else
    let k := p - 64
    let c := (c.inc 0x4221 k).flag 0x4206 k 2
    let act := bits (c.hw 0x4203 k) 1 0
    if act = 1 then (.drop 0x3A, false, c)
    else if act = 2 then (.trap, false, c)
    else
      let a := c.ask cx p r
      (a.1, act == 3 && a.1 == .on, a.2)

/-- The source lookup of a first pass (R206, R213, R216, R219). -/
def Channel.sourceLookup (c : Channel) (cx : Ctx) (f : Frame) (fid sub : Nat) (sa : List Byte) :
    Fate × Bool × Option Nat × Channel :=
  let key := fid * 2 ^ 48 + beNat sa % 2 ^ 48
  let dest := f.sourceDest
  let req := fun mv => (⟨key, dest, sub, mv, f.tag.isSome⟩ : LearnReq)
  match c.probe .bridge key with
  | (none, c) =>
    let r := (c.inc 0x4431 1).stranger cx f (req false)
    (r.1, r.2.1, none, r.2.2)
  | (some a, c) =>
    let e := c.slot .bridge a
    if !bitOf e 43 && bits e 13 0 = dest then (.on, false, some e, c.refresh cx key e)
    else if c.moveLock f.inPort then
      (.drop 0x3C, false, some e, if 65 ≤ f.inPort then c.inc 0x4223 (f.inPort - 64) else c)
    else if bitOf e 126 then (.on, false, some e, c)
    else
      let r := (c.refresh cx key e).ask cx f.inPort (req true)
      (r.1, false, some e, r.2)

/-- The source lookup of a first pass whose frame is dropped for its subscriber: it is made in the same step (R205), counts
and refreshes, and asks for no learn, since no subscriber could be charged. The drop comes before UNKNOWN_ACTION, MOVE_LOCK and a move
(assumption 118). -/
def Channel.sourceAlone (c : Channel) (cx : Ctx) (f : Frame) (fid : Nat) (sa : List Byte) : Option Nat × Channel :=
  let key := fid * 2 ^ 48 + beNat sa % 2 ^ 48
  match c.probe .bridge key with
  | (none, c) =>
    let c := c.inc 0x4431 1
    (none, if f.inPort < 65 then c else (c.inc 0x4221 (f.inPort - 64)).flag 0x4206 (f.inPort - 64) 2)
  | (some a, c) =>
    let e := c.slot .bridge a
    let same := !bitOf e 43 && bits e 13 0 == f.sourceDest
    (some e, if same || (!c.moveLock f.inPort && !bitOf e 126) then c.refresh cx key e else c)

/-- The three lookups of a pass (R205 to R208). Of a frame that only passes through the module nothing is learned (R160); its source
hit refreshes (R219), and a subscriber miss drops it as any other (R207). -/
def Channel.lookups (c : Channel) (cx : Ctx) (fid : Nat) : Channel :=
  match c.frame fid with
  | none => c
  | some f =>
    if f.pos != .look || f.look.probed then c
    else
      let km := f.look.kmap
      let pb := c.reg 0x4404 f.inPort
      let ov := f.slotVid (bits km 14 10)
      let iv := f.slotVid (bits km 19 15)
      let vid := if ov.getD 0 = 0 then bits pb 11 0 else ov.getD 0
      let fidNo := bits (c.wget 0x4403 vid) 11 0
      let subKey := f.inPort * 2 ^ 24 + ov.getD 0 * 2 ^ 12 + iv.getD 0
      let s := c.probe .sub subKey
      let hit := s.1.map fun a => bits (s.2.slot .sub a) 14 0
      let c := if hit.isSome then s.2 else s.2.inc 0x4432 1
      let sub := hit.getD (bits pb 26 12)
      let d := match f.slotBytes (bits km 4 0) with
        | none => (none, c)
        | some b =>
          let r := c.probe .bridge (fidNo * 2 ^ 48 + beNat b % 2 ^ 48)
          (r.1.map fun a => r.2.slot .bridge a, if r.1.isSome then r.2 else r.2.inc 0x4430 1)
      let c := d.2
      let look := { f.look with vid := vid, fid := fidNo, vrf := bits (c.wget 0x4501 fidNo) 7 0, probed := true,
                                dst := d.1, subHit := hit.isSome, sub := sub,
                                routed := 24 ≤ bits km 24 20 || bits km 26 25 == 0 }
      let c := c.modFrame fid fun f => { f with look := look }
      let lost := hit.isNone && bitOf pb 30
      match (if f.pass = 1 && f.inPort != 53 && f.inPort != 54 then f.slotBytes (bits km 9 5) else none) with
      | none => if lost then c.dropFrame cx fid 0x31 false else c
      | some sa =>
        if lost || f.through then
          let r := c.sourceAlone cx f fidNo sa
          let c := r.2.modFrame fid fun f => { f with look := { look with src := r.1 } }
          if lost then c.dropFrame cx fid 0x31 false else c
        else
          let r := c.sourceLookup cx f fidNo sub sa
          let c := r.2.2.2.modFrame fid fun f => { f with look := { look with src := r.2.2.1, copyHost := r.2.1 } }
          match r.1 with
          | .on => c
          | .drop code => c.dropFrame cx fid code false
          | .trap => c.modFrame fid fun f => { f with pos := .done, act := 4 * 2 ^ 24 :: List.replicate 11 0 }

/-- LOOKUP: the three keys of a pass are probed in one step (R205); a parity error that leaves the frame alive is kept
for trap cause 4 (R222, R313). A pass that ends here has made its search too (R267). -/
def Channel.lookup (c : Channel) (cx : Ctx) (fid : Nat) : Channel :=
  let r := (c.lookups cx fid).searchLeft c fid
  let met := fun (c : Channel) (n : Nat) => c.reg 0x443B n
  if met r 1 = met c 1 && met r 2 = met c 2 then r
  else r.modFrame fid fun f => { f with look := { f.look with parity := some (if met r 1 = met c 1 then 1 else 0) } }

/-! ## The engine's work (R214 to R217) -/

/-- The entry that a learn writes (R214). -/
def Channel.learnedEntry (c : Channel) (r : LearnReq) (moved : Bool) : Nat :=
  2 ^ 127 + moved.toNat * 2 ^ 125 + r.key * 2 ^ 60 + c.ageClock * 2 ^ 44 + (!r.remote).toNat * 2 ^ 32 + 2 ^ 31
    + (if r.remote then 0 else r.sub * 2 ^ 16) + r.dest

/-- The engine executes a learn or a move (R215 to R217): an absent key is inserted, a present one moved; an entry that
software has made static or that names the source already gives the charges back. MOVE_LOCK is judged with the frame and not again
here, where the spec is silent (assumption 97). -/
def Channel.execLearnReq (c : Channel) (cx : Ctx) (r : LearnReq) : Channel :=
  let back := fun (c : Channel) => r.charges.foldl (fun c w => c.creditOne w) c
  if !cx.holder then back c
  else
    match c.findKey .bridge r.key with
    | none =>
      let e := c.learnedEntry r false
      match c.insertSlot .bridge e with
      | (true, c) => ((c.settle e).inc 0x4433 1).delta (.slot .bridge r.key e)
      | (false, c) => ((back c).inc 0x4437 1).flag 0x4402 0 2
    | some a =>
      let old := c.slot .bridge a
      if bitOf old 126 then back c
      else if !bitOf old 43 && bits old 13 0 = r.dest then (back c).refresh cx r.key old
      else
        let e := c.learnedEntry r true
        let c := (c.creditEntry old).rewrite .bridge r.key fun _ => e
        ((((c.settle e).inc 0x4434 1).flag 0x4402 0 1)).delta (.slot .bridge r.key e)

/-- LEARN and MOVE: the head of the learn queue, where it is of the kind asked for; a drill holds it (R516). -/
def Channel.nextLearn (c : Channel) (cx : Ctx) (mv : Bool) : Channel :=
  match c.bridge.learns with
  | [] => c
  | r :: t => if r.move == mv && !c.halted 0 then { c with bridge := { c.bridge with learns := t } }.execLearnReq cx r else c

/-! ## Ageing (R219 to R221) -/

/-- Whether an entry has aged: a new lease holder ages nothing for AGE_TIME ticks (R503). -/
def Channel.aged (c : Channel) (e : Nat) : Bool :=
  let limit := bits (c.reg 0x4400 0) 30 16
  limit != 0 && slotValid .bridge e && !bitOf e 126 && Nat.ble limit c.bridge.clock &&
    Nat.ble limit ((c.ageClock + 65536 - bits e 59 44) % 65536)

/-- AGE_TICK (R219); AGE_CLOCK is stopped in NIGHT (R537). -/
def Channel.ageTick (c : Channel) (cx : Ctx) : Channel :=
  if cx.night == .asleep then c
  else { c.putBits 0x4401 0 63 48 (c.ageClock + 1) with bridge := { c.bridge with clock := c.bridge.clock + 1 } }

/-- The addresses that the sweep's read number `n` covers: a bucket, or the stash. -/
def sweepAddrs (n : Nat) : List Nat := if n < 262144 then upFrom (4 * n) 4 else upFrom (stashOf .bridge) 64

/-- Delete the entry at an address: charges credited, the deletion relayed (R131, R212). -/
def Channel.deleteSlot (c : Channel) (t : Hashed) (a : Nat) : Channel :=
  let e := c.slot t a
  let c := (c.writeSlot t a 0).delta (.slot t (slotKey t e) 0)
  if t = .bridge then c.creditEntry e else c

/-! ## Commands that walk a table (R225, R226, R256) -/

/-- The table that the running command of an object walks, and the entries that it deletes: FLUSH-BY-PORT, AGE-NOW or FLUSH-VRF, as
its registers say. -/
def Channel.walkOf (c : Channel) (idx : Nat) : Hashed × (Nat → Bool) :=
  let ctl := c.reg idx 1
  let d := c.reg idx 3
  if idx = 0x4410 then
    if bits ctl 3 0 = 8 then (.bridge, c.aged)
    else
      let dest := fun e => if bitOf e 43 then 2 ^ 16 + bits e 15 0 else bits e 13 0
      (.bridge, fun e => dest e == dest d && !(bitOf ctl 7 && bitOf e 126))
  else if idx = 0x4420 then (.sub, fun e => bits e 54 48 == bits d 54 48)
  else (if bitOf ctl 5 then .v6 else .v4, fun e => e / 2 ^ 216 == c.reg idx 2 / 2 ^ 152)

/-- A walk over some slots: those with a parity error are invalidated, then the entries that the command names are deleted; how
many. -/
def Channel.walkSlots (c : Channel) (idx : Nat) (l : List Nat) : Nat × Channel :=
  let w := c.walkOf idx
  let c := c.checkSlots w.1 l
  let l := l.filter fun a => slotValid w.1 (c.slot w.1 a) && w.2 (c.slot w.1 a)
  let c := l.foldl (fun c a => c.deleteSlot w.1 a) c
  (l.length, if idx = 0x4410 && bits (c.reg idx 1) 3 0 = 8 then c.add 0x4435 1 l.length else c)

/-- The state of a command object that walks a table. -/
def Channel.walking (c : Channel) (n : Nat) : Option (Nat × Nat) := (tabGet (fun _ => CmdSt.empty) c.cmds n).walk

/-- The walk of a command takes its next bucket, one for each read of the sweep (assumption 18). -/
def Channel.walkStep (c : Channel) (idx n : Nat) : Channel :=
  match c.walking n with
  | none => c
  | some (at_, count) =>
    if stashOf (c.walkOf idx).1 ≤ 4 * at_ || c.halted (tableNo (c.walkOf idx).1) then c
    else
      let r := c.walkSlots idx (upFrom (4 * at_) 4)
      let st := tabGet (fun _ => CmdSt.empty) r.2.cmds n
      { r.2 with cmds := tabSet (fun _ => CmdSt.empty) r.2.cmds n { st with walk := some (at_ + 1, count + r.1) } }

/-- SWEEP_READ: one bucket; compare-and-delete requests go to the engine (R220, R222). Commands that walk a table go on (R226). The age
sweep is stopped in NIGHT (R538). -/
def Channel.sweepRead (c : Channel) (cx : Ctx) : Channel :=
  let c := ((c.walkStep 0x4410 0).walkStep 0x4420 1).walkStep 0x4510 2
  if !cx.holder || cx.night == .asleep then c
  else
    let l := sweepAddrs c.bridge.sweep
    let c := c.checkSlots .bridge l
    let old := l.filter fun a => c.aged (c.slot .bridge a)
    { c with bridge := { c.bridge with
        sweep := (c.bridge.sweep + 1) % 262145,
        ages := c.bridge.ages ++ old.map fun a => (slotKey .bridge (c.slot .bridge a), bits (c.slot .bridge a) 59 44) } }

/-- AGE_DELETE: the engine deletes the entry only when its stamp is unchanged; learns and moves go first (R217, R220). A channel
that no longer holds the lease discards the request (R212). A drill holds the deletions (R516), and the sweep is stopped in NIGHT
(R538). -/
def Channel.ageDelete (c : Channel) (cx : Ctx) : Channel :=
  match c.bridge.ages with
  | [] => c
  | (k, st) :: t =>
    if !c.bridge.learns.isEmpty || c.halted 0 || cx.night == .asleep then c
    else
      let c := { c with bridge := { c.bridge with ages := t } }
      match (if cx.holder then c.findKey .bridge k else none) with
      | none => c
      | some a => if bits (c.slot .bridge a) 59 44 = st then (c.deleteSlot .bridge a).inc 0x4435 1 else c

/-! ## The rows -/

/-- LOOKUP (R205). -/
def execLookup (ch : Ch) (fid : Nat) (s : State) : Host.Outcome State Fault Refusal :=
  onPipe s ch true fun cx c => c.lookup cx fid

/-- LEARN (R215). -/
def execLearn (ch : Ch) (s : State) : Host.Outcome State Fault Refusal := onCh s ch true fun cx c => c.nextLearn cx false

/-- MOVE (R216). -/
def execMove (ch : Ch) (s : State) : Host.Outcome State Fault Refusal := onCh s ch true fun cx c => c.nextLearn cx true

/-- AGE_TICK (R219). -/
def execAgeTick (ch : Ch) (s : State) : Host.Outcome State Fault Refusal := onCh s ch true fun cx c => c.ageTick cx

/-- SWEEP_READ (R220). -/
def execSweepRead (ch : Ch) (s : State) : Host.Outcome State Fault Refusal := onCh s ch true fun cx c => c.sweepRead cx

/-- AGE_DELETE (R220). -/
def execAgeDelete (ch : Ch) (s : State) : Host.Outcome State Fault Refusal := onCh s ch true fun cx c => c.ageDelete cx

end Sys2Proof.Machine
end

