-- ==== Sys2Proof/Machine/Route.lean ====
section
/-! DEFINITION. Route lookup: the length filter, rounds, next hops and groups (R242 to R257). -/

namespace Sys2Proof.Machine

/-- Address bits and region bits of a family (R245). -/
def famBits (v6 : Bool) : Nat × Nat := if v6 then (128, 20) else (32, 16)

/-- The table of a family. -/
def famTable (v6 : Bool) : Hashed := if v6 then .v6 else .v4

/-- The counter sub-index of a family (R266). -/
def famSub (v6 : Bool) : Nat := if v6 then 2 else 1

/-- The filter group of a VRF (R262). -/
def Channel.vrfGroup (c : Channel) (v6 : Bool) (vrf : Nat) : Nat :=
  let e := c.wget 0x4502 vrf
  if v6 then bits e 42 42 else bits e 41 40

/-- The region of an address (R245). -/
def regionOf (v6 : Bool) (addr : Nat) : Nat := addr / 2 ^ ((famBits v6).1 - (famBits v6).2)

/-- The filter window of a family and the index of a region's entry in it (R263). -/
def filterAt (v6 : Bool) (g r : Nat) : Nat × Nat := if v6 then (0x4505, g * 2 ^ 20 + r) else (0x4504, g * 2 ^ 16 + r)

/-- An address masked to a length. -/
def maskTo (v6 : Bool) (len addr : Nat) : Nat :=
  let n := (famBits v6).1 - len
  addr / 2 ^ n * 2 ^ n

/-- The Key of a route (R258). -/
def routeKey (vrf len addr : Nat) : Nat := vrf * 2 ^ 152 + len * 2 ^ 144 + addr

/-- Set the filter bits of a prefix in group `g` (R246). -/
def Channel.filterBits (c : Channel) (v6 : Bool) (g len addr : Nat) : Channel :=
  let w := (famBits v6).2
  let n := if w ≤ len then 1 else 2 ^ (w - len)
  (upFrom (regionOf v6 addr) n).foldl (fun c r =>
    let at_ := filterAt v6 g r
    c.wput at_.1 at_.2 (setBit (c.wget at_.1 at_.2) len true)) c

/-- A route is inserted: its filter bits are set, and in the shadow copy too while a CLEAN-FILTER rebuilds the group (R246, R256). -/
def Channel.setFilter (c : Channel) (v6 : Bool) (g len addr : Nat) : Channel :=
  let st := tabGet (fun _ => CmdSt.empty) c.cmds 2
  let here := bitOf (c.reg 0x4510 1) 5 == v6 && c.reg 0x4510 2 / 2 ^ 152 == g
  let c := match st.added with
    | some l => if here then { c with cmds := tabSet (fun _ => CmdSt.empty) c.cmds 2 { st with added := some (l ++ [(len, addr)]) } } else c
    | none => c
  c.filterBits v6 g len addr

/-- Lengths set in the bitmap of an address's region, longest first (R248). -/
def Channel.lengthsFor (c : Channel) (v6 : Bool) (vrf addr : Nat) : List Nat :=
  let at_ := filterAt v6 (c.vrfGroup v6 vrf) (regionOf v6 addr)
  let m := c.wget at_.1 at_.2
  (List.range ((famBits v6).1 + 1)).reverse.filter (bitOf m)

/-- Probe one round of lengths (R248): whether a probe met a parity error, the address of the longest hit, the channel. -/
def Channel.routeProbe (c : Channel) (v6 : Bool) (vrf addr : Nat) (round : List Nat) : Bool × Option Nat × Channel :=
  let t := famTable v6
  let slots := round.flatMap fun l => candidates t (routeKey vrf l (maskTo v6 l addr))
  let bad := slots.any fun a => !slotGood t (c.slot t a)
  let c := c.checkSlots t slots
  (bad, round.findSome? fun l => c.findKey t (routeKey vrf l (maskTo v6 l addr)), c)

/-! ## Results (R253, R254, R184) -/

/-- A next-hop entry with its parity computed (R264). -/
def nextHopParity (e : Nat) : Nat := setBits e 123 120 (parityBits 120 32 e)

/-- Read next-hop entry `i` for a frame (R254): the drop code, 0 where it can be used, and the entry. -/
def Channel.readNextHop (c : Channel) (i : Nat) : Nat × Nat × Channel :=
  let e := c.wget 0x4506 (i % 65536)
  if bits e 127 124 = 0 then (0x34, 0, c.inc 0x4525 1)
  else if bits e 123 120 ≠ parityBits 120 32 e then (0x36, 0, (c.inc 0x4525 2).flag 0x451F 1 8)
  else (0, e, c)

/-- Drop a frame for want of an indirection entry or a resolution (R184, R186). -/
def Channel.dropIndirect (c : Channel) (cx : Ctx) (fid code : Nat) : Channel :=
  (c.countIndirect code).dropFrame cx fid code false

/-- The route of a frame is known: it is resolved before the routine runs (R253). -/
def Channel.routeFound (c : Channel) (cx : Ctx) (fid len data : Nat) : Channel :=
  let kind := bits data 31 30
  let c := c.modFrame fid fun f => { f with look := { f.look with route := some (len, data), routed := true } }
  let hop := fun (c : Channel) (i : Nat) =>
    match c.readNextHop i with
    | (0, e, c) => c.modFrame fid fun f => { f with look := { f.look with nextHop := e } }
    | (code, _, c) => c.dropFrame cx fid code false
  match c.frame fid with
  | none => c
  | some f =>
    if kind = 0 then hop c (bits data 15 0)
    else if kind = 1 then
      let c := c.modFrame fid fun f => { f with look := { f.look with resolves := f.look.resolves + 1 } }
      match c.resolve cx f (bits data 15 0) with
      | (.inl code, c) => c.dropIndirect cx fid code
      | (.inr e, c) =>
        let c := c.modFrame fid fun f => { f with look := { f.look with indirect := e } }
        if bits e 63 60 = 3 then hop c (bits e 15 0) else c
    else c

/-- Whether an older frame of the pipeline has its first round still to come: first rounds are made in arrival order (R251). -/
def Channel.roundWaits (c : Channel) (f : Frame) : Bool :=
  (c.frames.takeWhile fun g => g.id != f.id).any fun g =>
    g.pipe == f.pipe && (g.pos == .parse || (g.pos == .look && (!g.look.probed || (!g.look.routed && g.look.todo.isNone))))

/-- ROUTE_ROUND: one round of a frame's search (R248, R249). What it looks for stands from its first round on. -/
def Channel.routeRound (c : Channel) (cx : Ctx) (fid : Nat) : Channel :=
  match c.frame fid with
  | none => c
  | some f =>
    let first := f.look.todo.isNone
    if f.pos != .look || !f.look.probed || f.look.routed || (first && c.roundWaits f) then c
    else
      let km := f.look.kmap
      let v6 := if first then bits km 26 25 == 2 else f.look.v6
      let n := famSub v6
      let addr := if first then beNat ((f.slotBytes (bits km 24 20)).getD []) else f.look.addr
      let todo := f.look.todo.getD (c.lengthsFor v6 f.look.vrf addr)
      let region := if first then (c.vrfGroup v6 f.look.vrf, regionOf v6 addr) else f.look.region
      let c := if first then c.inc 0x4520 n else c.inc 0x4523 n
      let c := if f.look.rounds = 1 then
          let c := c.inc 0x4522 n
          let c := if c.bit 0x451F 1 0 then c else c.put 0x4500 2 (v6.toNat * 2 ^ 31 + region.1 * 2 ^ 20 + region.2)
          c.flag 0x451F 1 1
        else c
      let r := c.routeProbe v6 f.look.vrf addr (todo.take 8)
      let c := r.2.2.modFrame fid fun f => { f with
        look := { f.look with
          todo := some (todo.drop 8), rounds := f.look.rounds + 1, v6 := v6, addr := addr, region := region } }
      if r.1 then c.dropFrame cx fid 0x33 false
      else
        match r.2.1 with
        | some a =>
          let e := c.slot (famTable v6) a
          c.routeFound cx fid (bits e 215 208) (e % 2 ^ 64)
        | none =>
          if (todo.drop 8).isEmpty then
            (c.inc 0x4521 n).modFrame fid fun f => { f with look := { f.look with routed := true } }
          else c

/-- ROUTE_ROUND (R248). A pass that ends here has made its associative search too (R267). -/
def execRouteRound (ch : Ch) (fid : Nat) (s : State) : Host.Outcome State Fault Refusal :=
  onPipe s ch true fun cx c => (c.routeRound cx fid).searchLeft c fid

/-! ## Counts and the filter's rebuild -/

/-- Valid routes of a VRF in a family (R262). -/
def Channel.vrfRoutes (c : Channel) (v6 : Bool) (vrf : Nat) : Nat :=
  ((c.occupied (famTable v6)).filter fun a => c.slot (famTable v6) a / 2 ^ 216 == vrf).length

/-- CLEAN-FILTER rebuilds group `g`, with the routes `added` meanwhile, and swaps the copies in one step (R256). -/
def Channel.cleanFilter (c : Channel) (v6 : Bool) (g : Nat) (added : List (Nat × Nat)) : Channel :=
  let at_ := filterAt v6 g 0
  let n := 2 ^ (famBits v6).2
  let t := famTable v6
  let c := { c with win := tabClear c.win (winKey at_.1 at_.2) (winKey at_.1 (at_.2 + n - 1)) }
  let c := (c.occupied t).foldl (fun c a =>
    let e := c.slot t a
    if c.vrfGroup v6 (e / 2 ^ 216) = g then c.filterBits v6 g (bits e 215 208) (bits e 191 64) else c) c
  added.foldl (fun c r => c.filterBits v6 g r.1 r.2) c

end Sys2Proof.Machine
end

