-- ==== Sys2Proof/Machine/TableCmd.lean ====
section
/-! DEFINITION. The host commands of the bridge table, the subscriber map and the route stores (R217, R218, R223 to R229,
R256), and table deltas from the relay (R212, R499). -/

namespace Sys2Proof.Machine

/-- The key of a command slot, and the command slots of search and capture. -/
def cmdNo : Nat → Nat
  | 0x4410 => 0
  | 0x4420 => 1
  | 0x4510 => 2
  | 0x4620 => 3
  | _ => 4

/-- RESULT codes of R240. -/
def resOk : Nat := 0
/-- NOT_FOUND. -/
def resNotFound : Nat := 1
/-- EXISTS. -/
def resExists : Nat := 2
/-- TABLE_FULL. -/
def resFull : Nat := 3
/-- END. -/
def resEnd : Nat := 4
/-- BAD_ADDRESS. -/
def resBadAddress : Nat := 5
/-- PARITY. -/
def resParity : Nat := 6

/-- A command starts: BUSY, and the object values that its end publishes (R224). -/
def Channel.beginCmd (c : Channel) (idx : Nat) (puts : List (Nat × Nat)) : Channel :=
  { c.putBit idx 5 16 true with
    cmds := tabSet (fun _ => CmdSt.empty) c.cmds (cmdNo idx) { CmdSt.empty with puts := puts } }

/-- A command that walks a table starts at its first bucket (R226). -/
def Channel.beginWalk (c : Channel) (idx : Nat) : Channel :=
  { c.putBit idx 5 16 true with
    cmds := tabSet (fun _ => CmdSt.empty) c.cmds (cmdNo idx) { CmdSt.empty with walk := some (0, 0) } }

/-- A CLEAN-FILTER starts: routes inserted from now on go to the shadow copy too (R256). -/
def Channel.beginClean (c : Channel) (idx : Nat) : Channel :=
  { c.putBit idx 5 16 true with
    cmds := tabSet (fun _ => CmdSt.empty) c.cmds (cmdNo idx) { CmdSt.empty with puts := [(5, resOk)], added := some [] } }

/-- A command comes while a drill holds the engine of its table: it stays BUSY, and its effect is made afterwards (R516). -/
def Channel.beginLate (c : Channel) (idx : Nat) : Channel :=
  { c.putBit idx 5 16 true with
    cmds := tabSet (fun _ => CmdSt.empty) c.cmds (cmdNo idx) { CmdSt.empty with late := true } }

/-- A FLUSH-BY-PORT of a port sets its LEARNED to the entries that it still holds, and its REMAINING (R223). -/
def Channel.recount (c : Channel) (d : Nat) : Channel :=
  let p := bits d 6 0
  let fix := fun (w : Allow) =>
    let n := ((c.occupied .bridge).filter fun a => (chargesOf (c.slot .bridge a)).contains w).length
    c.setAllowance w n ((c.allowance w).2.1 - n)
  if bitOf d 43 || bitOf d 13 then c
  else if 1 ≤ p && p ≤ 48 then fix (.port p)
  else if 65 ≤ p && p ≤ 80 then fix (.drop (p - 64))
  else c

/-- A walk comes to its end: the rest of the table, the count, and the new filter of a CLEAN-FILTER (R225, R226, R256). -/
def Channel.endWork (c : Channel) (idx : Nat) : Channel :=
  let op := bits (c.reg idx 1) 3 0
  match c.walking (cmdNo idx) with
  | some (at_, count) =>
    let r := c.walkSlots idx ((c.listedSlots (c.walkOf idx).1).filter fun a => 4 * at_ ≤ a)
    let c := (r.2.put idx 6 (count + r.1)).put idx 5 (2 ^ 16 + resOk)
    if idx = 0x4410 && op = 7 then c.recount (c.reg idx 3) else c
  | none =>
    match (tabGet (fun _ => CmdSt.empty) c.cmds (cmdNo idx)).added with
    | some l => c.cleanFilter (bitOf (c.reg idx 1) 5) (c.reg idx 2 / 2 ^ 152) l
    | none => c

/-- A command ends: its work is done, its results stand, BUSY clears, the opcode reads 0 (R224, R227, R240). -/
def Channel.endCmd (c : Channel) (idx : Nat) : Channel :=
  if !c.bit idx 5 16 then c
  else
    let c := c.endWork idx
    let st := tabGet (fun _ => CmdSt.empty) c.cmds (cmdNo idx)
    let c := { c with cmds := tabErase c.cmds (cmdNo idx) }
    let c := st.puts.foldl (fun c p => c.put idx p.1 p.2) c
    (c.putBit idx 5 16 false).putBits idx 1 3 0 0

/-- The publication of an entry found at an address: Data, Key and Address (R225, R258). -/
def entryPuts (t : Hashed) (e a : Nat) (withKey : Bool) : List (Nat × Nat) :=
  let data := match t with
    | .bridge | .sub => e
    | _ => e % 2 ^ 64
  (3, data) :: (4, a) :: if withKey then [(2, slotKey t e)] else []

/-- The entry that a host INSERT or WRITE makes of a key and Data (R218, R238, R239, R258). -/
def Channel.hostEntry (c : Channel) (t : Hashed) (k d : Nat) : Nat :=
  match t with
  | .bridge => 2 ^ 127 + (k % 2 ^ 60) * 2 ^ 60 + c.ageClock * 2 ^ 44 + (d &&& (2 ^ 126 + 2 ^ 43 + 0xFFFF))
  | .sub => 2 ^ 63 + (k % 2 ^ 31) * 2 ^ 24 + d % 2 ^ 15
  | _ => k * 2 ^ 64 + 2 ^ 63 + (d &&& 0xC0FFFFFF)

/-- A command with its RESULT and its other results. MULTI of 0x4620 stays that of the last SEARCH or NEXT-MATCH (R288). -/
def Channel.result (c : Channel) (idx res : Nat) (puts : List (Nat × Nat)) : Channel :=
  c.beginCmd idx ((5, res + if idx = 0x4620 then c.reg idx 5 &&& 2 ^ 17 else 0) :: puts)

/-- READ (R225). -/
def Channel.cmdRead (c : Channel) (t : Hashed) (idx a : Nat) : Channel :=
  if sizeOf_ t ≤ a then c.result idx resBadAddress []
  else
    let e := c.slot t a
    let puts := match t with
      | .bridge | .sub => [(3, e)]
      | _ => [(3, e % 2 ^ 64)]
    if slotGood t e then c.result idx resOk puts else (c.invalidate t a).result idx resParity puts

/-- WRITE (R218, R225). -/
def Channel.cmdWrite (c : Channel) (t : Hashed) (idx k d : Nat) : Channel :=
  match c.findKey t k with
  | none => c.result idx resNotFound []
  | some a =>
    let e := c.hostEntry t k d
    let old := c.slot t a
    let c := if t = .bridge then c.creditEntry old else c
    ((c.rewrite t k fun _ => e).delta (.slot t k e)).result idx resOk []

/-- INSERT; of a route, first its filter bits (R210, R225, R246). -/
def Channel.cmdInsert (c : Channel) (t : Hashed) (idx k d : Nat) : Channel :=
  match c.findKey t k with
  | some _ => c.result idx resExists []
  | none =>
    let e := c.hostEntry t k d
    let c := match t with
      | .v4 => c.setFilter false (c.vrfGroup false (k / 2 ^ 152)) (bits k 151 144) (k % 2 ^ 128)
      | .v6 => c.setFilter true (c.vrfGroup true (k / 2 ^ 152)) (bits k 151 144) (k % 2 ^ 128)
      | _ => c
    match c.insertSlot t e with
    | (true, c) => (c.delta (.slot t k e)).result idx resOk []
    | (false, c) =>
      let c := match t with
        | .bridge => c.flag 0x4402 0 2
        | .sub => c.flag 0x4402 0 2
        | _ => c.flag 0x451F 1 2
      c.result idx resFull []

/-- DELETE (R225). -/
def Channel.cmdDelete (c : Channel) (t : Hashed) (idx k : Nat) : Channel :=
  match c.findKey t k with
  | none => c.result idx resNotFound []
  | some a => (c.deleteSlot t a).result idx resOk []

/-- SEARCH (R225). -/
def Channel.cmdSearch (c : Channel) (t : Hashed) (idx k : Nat) : Channel :=
  match c.probe t k with
  | (none, c) => c.result idx resNotFound []
  | (some a, c) => c.result idx resOk (entryPuts t (c.slot t a) a false)

/-- NEXT (R225): entries with a parity error on the way are invalidated. -/
def Channel.cmdNext (c : Channel) (t : Hashed) (idx a : Nat) : Channel :=
  let l := (c.listedSlots t).filter fun i => a ≤ i
  let passed := l.takeWhile fun i => !(slotValid t (c.slot t i) && slotGood t (c.slot t i))
  let c := c.checkSlots t passed
  match l.drop passed.length with
  | [] => c.result idx resEnd []
  | i :: _ => c.result idx resOk (entryPuts t (c.slot t i) i true)

/-- AGE-NOW; with AGE_TIME 0 it completes at once (R225). -/
def Channel.cmdAge (c : Channel) (idx : Nat) : Channel :=
  if bits (c.reg 0x4400 0) 30 16 = 0 then (c.result idx resOk [(6, 0)]).endCmd idx else c.beginWalk idx

/-- The rounds of an LPM-SEARCH over some lengths, to the first hit (R248). -/
def Channel.lpmRounds (c : Channel) (v6 : Bool) (vrf addr : Nat) : Nat → List Nat → Option Nat × Channel
  | 0, _ => (none, c)
  | n + 1, todo =>
    if todo.isEmpty then (none, c)
    else
      match c.routeProbe v6 vrf addr (todo.take 8) with
      | (_, some a, c) => (some a, c)
      | (_, none, c) => c.lpmRounds v6 vrf addr n (todo.drop 8)

/-- LPM-SEARCH (R256): at most 17 rounds (R249). -/
def Channel.cmdLpm (c : Channel) (v6 : Bool) (idx k : Nat) : Channel :=
  let vrf := k / 2 ^ 152
  let addr := k % 2 ^ (famBits v6).1
  match c.lpmRounds v6 vrf addr 17 (c.lengthsFor v6 vrf addr) with
  | (some a, c) => c.result idx resOk (entryPuts (famTable v6) (c.slot (famTable v6) a) a true)
  | (none, c) => c.result idx resNotFound []

/-- The table number of a command object's command: of 0x4510 by its FAMILY (R256, R474). -/
def Channel.commandTable (c : Channel) (idx : Nat) : Nat :=
  if idx = 0x4410 then 0 else if idx = 0x4420 then 1 else if idx = 0x4620 then 4 else if c.bit 0x4510 1 5 then 3 else 2

/-- The effect of a command of 0x4410, 0x4420 or 0x4510 (R225, R256). -/
def Channel.runCommand (c : Channel) (idx : Nat) : Channel :=
  let ctl := c.reg idx 1
  let v6 := bitOf ctl 5
  let t : Hashed := if idx = 0x4410 then .bridge else if idx = 0x4420 then .sub else famTable v6
  let k := c.reg idx 2
  let d := c.reg idx 3
  let a := c.reg idx 4
  let route := idx == 0x4510
  match bits ctl 3 0 with
  | 1 => c.cmdRead t idx a
  | 2 => c.cmdWrite t idx k d
  | 3 => c.cmdInsert t idx k d
  | 4 => c.cmdDelete t idx k
  | 5 => c.cmdSearch t idx k
  | 6 => c.cmdNext t idx a
  | 7 => c.beginWalk idx
  | 8 => if route then c.beginClean idx else c.cmdAge idx
  | 9 => c.cmdLpm v6 idx k
  | _ => c

/-- A command whose opcode has been written to sub-index 01 and accepted (R225, R256). -/
def Channel.tableCommand (c : Channel) (idx : Nat) : Channel :=
  if c.halted (c.commandTable idx) then c.beginLate idx else c.runCommand idx

/-- TABLE_COMMAND_DONE of 0x4410, 0x4420 or 0x4510 (R224); a drill that holds the engine keeps the command BUSY (R516). -/
def Channel.commandDone (c : Channel) (idx : Nat) : Channel :=
  if c.halted (c.commandTable idx) then c
  else if (tabGet (fun _ => CmdSt.empty) c.cmds (cmdNo idx)).late then (c.runCommand idx).endCmd idx
  else c.endCmd idx

/-- A table delta that the relay brings (R212, R499): the receiver's engine places it; 0 deletes the key. -/
def Channel.slotDelta (c : Channel) (t : Hashed) (k e : Nat) : Channel :=
  let old := c.findKey t k
  let credit := fun (c : Channel) => match old with
    | some a => if t = Hashed.bridge then c.creditEntry (c.slot t a) else c
    | none => c
  if e = 0 then
    match old with
    | none => c
    | some a => (credit c).writeSlot t a 0
  else
    let c := credit c
    let placed := match old with
      | some _ => (true, c.rewrite t k fun _ => e)
      | none =>
        let c := match t with
          | .v4 => c.setFilter false (c.vrfGroup false (k / 2 ^ 152)) (bits k 151 144) (k % 2 ^ 128)
          | .v6 => c.setFilter true (c.vrfGroup true (k / 2 ^ 152)) (bits k 151 144) (k % 2 ^ 128)
          | _ => c
        c.insertSlot t e
    if placed.1 && t = .bridge then placed.2.chargeEntry e else placed.2

/-- The command object that a BUSY belongs to. -/
def commandObject : Table → Nat
  | .bridge => 0x4410
  | .sub => 0x4420
  | .route => 0x4510
  | .search => 0x4620

end Sys2Proof.Machine
end

