-- ==== Sys2Proof/Machine/Search.lean ====
section
/-! DEFINITION. The associative search of a frame, updates, commands, integrity (R267 to R291). -/

namespace Sys2Proof.Machine

/-- ASSOCIATIVE_SEARCH of a frame; `waited` says that it waited a step or more for a slot (R267 to R276, assumption 96). -/
def Channel.searchFrame (c : Channel) (cx : Ctx) (fid : Nat) (waited : Bool) : Channel :=
  match c.frame fid with
  | none => c
  | some f =>
    let older := c.frames.takeWhile fun g => g.id != fid
    if !c.searchOwed f || !f.look.probed || older.any (fun g => g.pipe == f.pipe && c.searchOwed g) then c
    else
      let r := c.makeSearch f waited
      if r.2.1 then r.1.dropFrame cx fid 0x3E false
      else r.1.modFrame fid fun f => { f with
        look := { f.look with searchOn := true, searched := true, hit := r.2.2.1, multi := r.2.2.2 } }

/-- ASSOCIATIVE_SEARCH (R275). -/
def execAssociativeSearch (ch : Ch) (fid : Nat) (waited : Bool) (s : State) : Host.Outcome State Fault Refusal :=
  onPipe s ch true fun cx c => c.searchFrame cx fid waited

/-! ## Updates and commands (R277 to R282) -/

/-- Apply one update; of the host's it is sent over the relay with its index (R277, R282). -/
def Channel.applyUpdate (c : Channel) (cx : Ctx) (i e : Nat) (relayed : Bool) : Channel :=
  let c := (c.writeEntry i e).inc 0x4634 1
  let c := if (cx.st == .active || cx.st == .draining) && c.bit 0x4600 1 0 then c.flag 0x461F 1 8 else c
  if relayed then c else c.delta (.entry i e)

/-- SEARCH_UPDATE_APPLY: the next pending update, or the next entry of a CLEAR-ALL (R277, R279); a drill holds it (R516). -/
def Channel.nextUpdate (c : Channel) (cx : Ctx) : Channel :=
  if c.halted 4 then c else
  match c.search.updates with
  | (i, e, relayed) :: t => { c with search := { c.search with updates := t } }.applyUpdate cx i e relayed
  | [] =>
    if !c.search.clearing then c
    else
      match (listedIn c.win 0x4610).filter fun i => bitOf (c.wget 0x4610 i) 127 with
      | [] => { c with search := { c.search with clearing := false } }
      | i :: rest =>
        { c with search := { c.search with cleared := c.search.cleared + 1, clearing := !rest.isEmpty } }.applyUpdate cx i 0 false

/-- SEARCH_UPDATE_APPLY (R277). -/
def execSearchUpdateApply (ch : Ch) (s : State) : Host.Outcome State Fault Refusal :=
  onCh s ch true fun cx c => c.nextUpdate cx

/-- A host SEARCH or NEXT-MATCH (R279). -/
def Channel.cmdMatch (c : Channel) (lo miss : Nat) : Channel :=
  match c.matches_ (c.gmask (bits (c.reg 0x4620 1) 11 8)) (c.reg 0x4620 2) lo with
  | [] => c.result 0x4620 miss [(5, miss), (6, 0)]
  | i :: rest =>
    let e := c.wget 0x4610 i
    if !searchGood e then (c.invalidateEntry i).result 0x4620 resParity [(5, resParity), (6, 0)]
    else c.result 0x4620 resOk [(3, e), (4, i), (5, (!rest.isEmpty).toNat * 2 ^ 17), (6, 0)]

/-- The effect of a command of 0x4620 (R279). -/
def Channel.runSearch (c : Channel) : Channel :=
  let a := c.reg 0x4620 4 % 2 ^ 15
  let wait := fun (c : Channel) (e : Nat) =>
    { c with search := { c.search with updates := c.search.updates ++ [(a, e, false)] } }.result 0x4620 resOk [(6, 0)]
  match bits (c.reg 0x4620 1) 3 0 with
  | 1 =>
    let e := c.wget 0x4610 a
    if bitOf e 127 && !searchGood e then (c.invalidateEntry a).result 0x4620 resParity [(3, e), (6, 0)]
    else c.result 0x4620 resOk [(3, e), (6, 0)]
  | 2 => wait c (entryOf (c.reg 0x4620 3))
  | 3 => wait c 0
  | 4 => c.cmdMatch 0 resNotFound
  | 5 => c.cmdMatch a resEnd
  | 6 => { c with search := { c.search with clearing := true, cleared := 0 } }.result 0x4620 resOk []
  | _ => c

/-- A command whose opcode has been accepted (R279); it waits while a drill holds the table (R516). -/
def Channel.searchCommand (c : Channel) : Channel := if c.halted 4 then c.beginLate 0x4620 else c.runSearch

/-- TABLE_COMMAND_DONE of the search: a command whose updates wait is not done (R281). One that waited for a drill has its effect first
(R516). -/
def Channel.endSearch (c : Channel) : Channel :=
  let c := if !c.halted 4 && (tabGet (fun _ => CmdSt.empty) c.cmds 3).late then c.runSearch else c
  if c.halted 4 || c.search.clearing || c.search.updates.any (fun u => !u.2.2) then c
  else
    let all := bits (c.reg 0x4620 1) 3 0 == 6
    let c := if all && c.bit 0x4620 5 16 then c.put 0x4620 6 c.search.cleared else c
    c.endCmd 0x4620

/-- SEARCH_SCRUB: the scrubber reads one entry (R283). -/
def Channel.scrubEntry (c : Channel) : Channel :=
  if !c.bit 0x4600 1 1 then c
  else
    let i := c.search.scrub
    let e := c.wget 0x4610 i
    let c := { c with search := { c.search with scrub := (i + 1) % 32768 } }
    if bitOf e 127 && !searchGood e then c.invalidateEntry i else c

/-- SEARCH_SCRUB (R283). -/
def execSearchScrub (ch : Ch) (s : State) : Host.Outcome State Fault Refusal := onCh s ch true fun _ c => c.scrubEntry

/-- TABLE_COMMAND_DONE (R224, R279). -/
def execTableCommandDone (ch : Ch) (t : Table) (s : State) : Host.Outcome State Fault Refusal :=
  onCh s ch true fun _ c => if t = .search then c.endSearch else c.commandDone (commandObject t)

end Sys2Proof.Machine
end

