-- ==== Sys2Proof/Machine/Capture.lean ====
section
/-! DEFINITION. The capture engine: records, blocks, seals, the ring, freeze regions, its commands (R446 to R468). -/

namespace Sys2Proof.Machine

/-- Slots of the ring (R453). -/
def ringSlots (v : Variant) : Nat := if v = .A then 16777216 else 4096

/-- A 192-byte record (R447): metadata, number, frame bytes. -/
def recordBytes (info : List Byte) (seq : Nat) (frame : List Byte) : List Byte :=
  let body := frame.take 160
  info.take 24 ++ leBytes 4 seq ++ leBytes 4 0 ++ body ++ List.replicate (160 - body.length) 0

/-- Bytes 0 to 65,531 of a block (R449). `flags` are those of byte 65,486. -/
def blockBody (cx : Ctx) (b : BlockSt) (seq flags close lost prev slot : Nat) : List Byte :=
  let recs := b.records.flatten
  recs ++ List.replicate (65472 - recs.length) 0 ++ leBytes 8 seq ++ leBytes 4 b.first ++ leBytes 2 b.records.length ++
    leBytes 1 flags ++ leBytes 1 (cx.ch.num * 128 + cx.moduleId % 128) ++ beBytes 11 b.opened ++ leBytes 1 0 ++
    beBytes 11 close ++ leBytes 1 0 ++ leBytes 4 (min lost (2 ^ 32 - 1)) ++ leBytes 4 slot ++ leBytes 4 prev ++
    [0x4B, 0x43, 0x42, 0x31] ++ leBytes 4 0

/-- CHECK of a block (R450). -/
def blockCheck (seq : Nat) (body : List Byte) : Nat := crc32c 0xFFFFFFFF (leBytes 8 seq ++ body)

/-- A block's bytes with SLOT, PREV_CHECK and CHECK set anew (R456). -/
def resealed (b : Staged) (slot prev : Nat) : Staged :=
  let body := patch (patch (b.bytes.take 65532) 65516 (leBytes 4 slot)) 65520 (leBytes 4 prev)
  { b with slot := slot, bytes := body ++ leBytes 4 (blockCheck b.seq body) }

/-- CHECK that a staged block carries. -/
def Staged.check (b : Staged) : Nat := leNat (slice b.bytes 65532 4)

/-- Whether a block number lies in some freeze region (R454). -/
def CapSt.inRegion (k : CapSt) (seq : Nat) : Bool := k.regions.any fun r => Nat.ble r.2.1 seq && Nat.blt seq r.2.2

/-- Whether the writer skips a slot: retired, or holding a frozen block (R453). -/
def CapSt.skips (k : CapSt) (slot : Nat) : Bool :=
  k.retired.contains slot || (match tabGet (fun _ => 0) k.slotSeq slot with
    | 0 => false
    | q + 1 => k.inRegion q)

/-- The next slot that the writer may open, from `slot` on; it wraps (R453). -/
def CapSt.openSlot (k : CapSt) (slots : Nat) : Nat → Nat → Nat
  | 0, slot => slot
  | n + 1, slot => if k.skips slot then k.openSlot slots n ((slot + 1) % slots) else slot

/-- Take the next slot; the older block in it is destroyed (R453). -/
def Channel.takeSlot (c : Channel) (v : Variant) : Nat × Channel :=
  let k := c.cap
  let n := k.retired.length + k.slotSeq.length
  let slot := k.openSlot (ringSlots v) n (k.nextSlot % ringSlots v)
  (slot, { c with cap := { k with
    nextSlot := (slot + 1) % ringSlots v, slotSeq := tabErase k.slotSeq slot } })

/-- Flags of R449. -/
def flagPowerFail : Nat := 1
/-- AGED. -/
def flagAged : Nat := 2
/-- FLUSHED. -/
def flagFlushed : Nat := 4

/-- Close and seal the open block with a flag (R449 to R452); a stopped engine seals none (R80). -/
def Channel.closeBlock (c : Channel) (cx : Ctx) (flag : Nat) : Channel :=
  match (if c.capStopped then none else c.cap.openBlk) with
  | none => c
  | some b =>
    let k := c.cap
    let flags := flag + k.resumed.toNat * 8 + (if cx.variant = .A then 0 else 16)
    let body := blockBody cx b k.nextSeq flags c.time.stamp b.lost k.prevCheck b.slot
    let chk := blockCheck k.nextSeq body
    let c := { c with cap := { k with
      openBlk := none, resumed := false, nextSeq := (k.nextSeq + 1) % 2 ^ 64, prevCheck := chk, lastSlot := b.slot,
      staged := k.staged ++ [(⟨k.nextSeq, b.slot, b.records.length, body ++ leBytes 4 chk, 0⟩ : Staged)] } }
    (c.put 0x4C01 1 c.cap.nextSeq).put 0x4C01 2 b.slot

/-- Open a block with a record's number and the numbers lost since the last block (R449, R452). -/
def Channel.openBlock (c : Channel) (cx : Ctx) (seq : Nat) : Channel :=
  let r := c.takeSlot cx.variant
  { r.2 with cap := { r.2.cap with
    openBlk := some (⟨r.1, [], seq, c.time.stamp, r.2.cap.lostBlks⟩ : BlockSt), lostBlks := 0, ready := false } }

/-- The oldest capture copy becomes a record of the open block; a block that must be opened first takes 256 cells, and the 341st record
closes it with `flag` (R359, R448, R449, R452). -/
def Channel.recordNext (c : Channel) (cx : Ctx) (flag : Nat) : Channel :=
  match c.cap.intake with
  | [] => c
  | (fid, no, seq) :: rest =>
    if c.cap.hold || c.capStopped then c
    else
      let got := if c.cap.openBlk.isSome || c.cap.ready then (true, c) else c.request cx .capture
      if !got.1 then got.2
      else
        let c := got.2
        let lost := (seq + 2 ^ 32 - c.cap.recEnd) % 2 ^ 32
        let c := { c with cap := { c.cap with intake := rest, recEnd := (seq + 1) % 2 ^ 32 } }
        let c := if c.cap.openBlk.isSome then c else c.openBlock cx seq
        match c.cap.openBlk, c.copyOf (fid, no) with
        | some b, some (f, x) =>
          let bytes := match x.bytes with
            | some b => b
            | none => withTag f.bytes f.tag
          let b := { b with records := b.records ++ [recordBytes x.info seq bytes], lost := b.lost + lost }
          let c := { c with cap := { c.cap with openBlk := some b } }
          let c := c.endCopy cx (fid, no)
          if 341 ≤ b.records.length then c.closeBlock cx flag else c
        | _, _ => c

/-- CAPTURE_INTAKE (R448); no record is made in NIGHT (R458). -/
def Channel.captureIntake (c : Channel) (cx : Ctx) : Channel := if cx.night != .awake then c else c.recordNext cx 0

/-- An event that closes the open block (R452). A copy that waits to become the 341st record is taken to meet the event in its step: the
block closes with it and with the event's flag. -/
def Channel.closeOn (c : Channel) (cx : Ctx) (flag : Nat) : Channel :=
  if c.cap.openBlk.any (fun b => b.records.length == 340) && !c.cap.intake.isEmpty && !c.cap.hold then c.recordNext cx flag
  else c.closeBlock cx flag

/-- An event after which no record is made: the copies that wait become records while blocks can be had, then the open block closes
(R457, R458; assumption 114). -/
def Channel.closeAll (c : Channel) (cx : Ctx) (flag : Nat) : Channel :=
  ((List.range c.cap.intake.length).foldl (fun c _ =>
    c.recordNext cx (if c.cap.intake.length = 1 then flag else 0)) c).closeBlock cx flag

/-- CAPTURE_INTAKE (R448). -/
def execCaptureIntake (ch : Ch) (s : State) : Host.Outcome State Fault Refusal :=
  onCh s ch true fun cx c => c.captureIntake cx

/-- BLOCK_AGED (R452). -/
def execBlockAged (ch : Ch) (s : State) : Host.Outcome State Fault Refusal :=
  onCh s ch true fun cx c => c.closeOn cx flagAged

/-! ## Writing the ring -/

/-- A block's bytes in the ring, 64 to an entry (R459). -/
def Channel.writeRing (c : Channel) (slot : Nat) (bytes : List Byte) : Channel :=
  (List.range 1024).foldl (fun c u => c.wput 0x4C40 (1024 * slot + u) (leNat (slice bytes (64 * u) 64))) c

/-- Count a block written to the persistent store (R456). -/
def Channel.countWritten (c : Channel) : Channel :=
  let n := (c.reg 0x4C02 1 + 65536) % 2 ^ 64
  let used := n * 10000 / 2500000000000000000
  let c := ((c.put 0x4C02 1 n).put 0x4C02 3 (used % 2 ^ 32))
  if 10000 ≤ used && c.reg 0x4C02 1 - 65536 < 2500000000000000000 then c.flag 0x4C0F 1 16 else c

/-- Blocks that are staged behind a resealed one chain to its CHECK (R449, R456). -/
def rechain : Nat → List Staged → List Staged
  | _, [] => []
  | prev, b :: t => let b := resealed b b.slot prev; b :: rechain b.check t

/-- LOST of a staged block (R449). -/
def Staged.lost (b : Staged) : Nat := leNat (slice b.bytes 65512 4)

/-- A staged block that counts `n` more numbers in LOST; `rechain` seals it anew. -/
def Staged.losing (b : Staged) (n : Nat) : Staged :=
  { b with bytes := patch b.bytes 65512 (leBytes 4 (min (b.lost + n) (2 ^ 32 - 1))) }

/-- Staged block `b` is lost (R455, R456): its records, and the numbers that its own LOST counted, enter LOST of the block that follows it
(R449): the next one that is staged, or the open one, or the next to open. -/
def Channel.loseBlock (c : Channel) (cause : Nat) (b : Staged) (rest : List Staged) : Channel :=
  let c := c.loseRecords cause b.count
  let n := b.count + b.lost
  match rest, c.cap.openBlk with
  | y :: t, _ =>
    let l := rechain b.check (y.losing n :: t)
    { c with cap := { c.cap with staged := l, prevCheck := (l.getLast?.map Staged.check).getD c.cap.prevCheck } }
  | [], some o => { c with cap := { c.cap with staged := [], openBlk := some { o with lost := o.lost + n } } }
  | [], none => { c with cap := { c.cap with staged := [], lostBlks := c.cap.lostBlks + n } }

/-- BLOCK_WRITE_DONE of the oldest staged block (R456). The fallback ring reports no write errors; a stopped engine writes none
(R80). -/
def Channel.blockWritten (c : Channel) (cx : Ctx) (ok : Bool) : Channel :=
  match (if c.capStopped then [] else c.cap.staged) with
  | [] => c
  | b :: rest =>
    if ok || cx.variant ≠ .A then
      let c := (c.writeRing b.slot b.bytes).reqGive cx 1 .block
      let c := { c with cap := { c.cap with
        staged := rest, slotSeq := tabSet (fun _ => 0) c.cap.slotSeq b.slot (b.seq + 1) } }
      let c := (c.inc 0x4C51 1).add 0x4C50 1 b.count
      if cx.variant = .A then c.countWritten else c
    else
      let c := (c.inc 0x4C55 1).put 0x4C02 2 ((c.reg 0x4C02 2 + 1) % 2 ^ 32)
      let c := { c with cap := { c.cap with retired := c.cap.retired ++ [b.slot] } }
      if b.tries = 0 then
        let r := c.takeSlot cx.variant
        let b := { resealed b r.1 (leNat (slice b.bytes 65520 4)) with tries := 1 }
        let rest := rechain b.check rest
        let c := if rest.isEmpty then r.2.put 0x4C01 2 b.slot else r.2
        { c with cap := { c.cap with
          lastSlot := if rest.isEmpty then b.slot else c.cap.lastSlot,
          staged := b :: rest,
          prevCheck := (match rest.getLast? with
            | some z => z.check
            | none => b.check) } }
      else
        (((c.loseBlock 4 b rest).flag 0x4C0F 1 8).log 0x40 b.slot).reqGive cx 1 .block

/-- BLOCK_WRITE_DONE (R456). -/
def execBlockWriteDone (ch : Ch) (ok : Bool) (s : State) : Host.Outcome State Fault Refusal :=
  onCh s ch true fun cx c => c.blockWritten cx ok

/-- The records that wait for a block are lost (R361, R455): all that stand in the intake queue. -/
def Channel.dropIntake (c : Channel) (cx : Ctx) (cause : Nat) : Channel :=
  let l := c.cap.intake
  let c := ({ c with cap := { c.cap with intake := [] } } : Channel).unwait (· == Wait.capture)
  (l.foldl (fun c x => c.endCopy cx (x.1, x.2.1)) c).loseRecords cause l.length

/-! ## Freeze regions (R454, R466) -/

/-- Blocks from number `first` up to but not `stop` that the ring holds, as (number, slot). -/
def CapSt.heldIn (k : CapSt) (first stop : Nat) : List (Nat × Nat) :=
  k.slotSeq.filterMap fun p => if first + 1 ≤ p.2 && p.2 ≤ stop then some (p.2 - 1, p.1) else none

/-- The oldest of them. -/
def oldest (l : List (Nat × Nat)) : Option (Nat × Nat) :=
  l.foldl (fun (m : Option (Nat × Nat)) x => match m with
    | none => some x
    | some y => if x.1 < y.1 then some x else some y) none

/-- Entry `i` of 0x4C30 (R466). -/
def CapSt.regionEntry (k : CapSt) (i : Nat) : Nat :=
  match k.regions.find? fun r => r.1 == i with
  | none => 0
  | some r =>
    let held := k.heldIn r.2.1 r.2.2
    let o := (oldest held).getD (r.2.1, 0)
    o.1 * 2 ^ 192 + (r.2.2 + 2 ^ 64 - 1) % 2 ^ 64 * 2 ^ 128 + o.2 * 2 ^ 96 + held.length * 2 ^ 64 + (Nat.blt k.nextSeq r.2.2).toNat * 2 + 1

/-- The numbers that the ranges of a list cover, each once, taken in order of their starts; a range ends before its second number. -/
def covered : List (Nat × Nat) → Nat → Nat
  | [], _ => 0
  | (a, b) :: t, from_ => (b - max a from_) + covered t (max from_ b)

/-- Insert a range by its start. -/
def insertRange (r : Nat × Nat) : List (Nat × Nat) → List (Nat × Nat)
  | [] => [r]
  | x :: t => if r.1 ≤ x.1 then r :: x :: t else x :: insertRange r t

/-- The frozen total with a new region counted whole (R454): of the others, what is held or still to come. -/
def CapSt.frozenWith (k : CapSt) (first stop : Nat) : Nat :=
  let old := k.regions.map fun r =>
    (((oldest (k.heldIn r.2.1 r.2.2)).map (·.1)).getD (max r.2.1 (min k.nextSeq r.2.2)), r.2.2)
  covered (((first, stop) :: old).foldl (fun l r => insertRange r l) []) 0

/-- FREEZE (R454): RESULT and region number. -/
def Channel.freezeCommand (c : Channel) (cx : Ctx) (back ahead : Nat) : Nat × Nat × Channel :=
  let k := c.cap
  let n := k.nextSeq
  let first := n - back
  let stop := n + ahead
  let c := c.closeOn cx flagFlushed
  match (List.range 64).find? fun i => k.regions.all fun r => r.1 != i with
  | none => (7, 0, c)
  | some i =>
    if 3 * (ringSlots cx.variant - k.retired.length) < 4 * k.frozenWith first stop then (8, 0, c)
    else (0, i, { c with cap := { c.cap with regions := c.cap.regions ++ [(i, first, stop)] } })

/-- RELEASE: blocks freed are those that no other region holds (R461). -/
def Channel.releaseRegion (c : Channel) (i : Nat) : Nat × Nat × Channel :=
  match c.cap.regions.find? fun r => r.1 == i with
  | none => (1, 0, c)
  | some r =>
    let k := { c.cap with regions := c.cap.regions.filter fun x => x.1 != i }
    (0, ((k.heldIn r.2.1 r.2.2).filter fun b => !k.inRegion b.1).length, { c with cap := k })

/-- A capture command whose opcode has been accepted (R461). With no block open FLUSH names none: its number is free. Of an engine that
R80 or R562 has stopped, no block closes (assumption 115). -/
def Channel.captureCommand (c : Channel) (cx : Ctx) : Channel :=
  let arg := c.reg 0x4C20 2
  match bits (c.reg 0x4C20 1) 3 0 with
  | 1 =>
    let d := c.draw cx.free
    let seq := if c.cap.openBlk.isSome then c.cap.nextSeq else d.1
    (d.2.closeOn cx flagFlushed).result 0x4C20 0 [(6, seq % 2 ^ 32)]
  | 2 =>
    let r := c.freezeCommand cx (bits arg 31 0) (bits arg 63 32)
    r.2.2.result 0x4C20 r.1 (if r.1 = 0 then [(6, r.2.1)] else [])
  | 3 =>
    let r := c.releaseRegion (bits arg 5 0)
    r.2.2.result 0x4C20 r.1 (if r.1 = 0 then [(6, r.2.1)] else [])
  | 4 =>
    match c.cap.heldIn arg (arg + 1) with
    | [] => c.result 0x4C20 1 []
    | x :: _ => c.result 0x4C20 0 [(6, x.2)]
  | _ => c

/-- CAPTURE_COMMAND_DONE (R461). -/
def execCaptureCommandDone (ch : Ch) (s : State) : Host.Outcome State Fault Refusal :=
  onCh s ch true fun _ c => c.endCmd 0x4C20

/-! ## Power, modes and restarts (R451, R457, R458) -/

/-- The power-fail warning: intake stops; a channel with a persistent store writes out what it holds and closes its block (R457). Of the
copies that wait, those for which no block can be had are lost (assumption 114). -/
def Channel.captureWarn (c : Channel) (cx : Ctx) : Channel :=
  let holds := c.hwBit 0x4C00 1 0 || c.cap.openBlk.isSome || !c.cap.intake.isEmpty
  let c := if cx.variant = .A && holds then ((c.closeAll cx flagPowerFail).dropIntake cx 3).flag 0x4C0F 1 4 else c
  { c with cap := { c.cap with hold := true } }

/-- The warning clears: capture resumes (R457). -/
def Channel.captureBack (c : Channel) : Channel := { c with cap := { c.cap with hold := false } }

/-- The engine after a reset of its channel (R451, R458): in variant A the store, its regions and its health are kept and the
engine continues after the valid block with the highest number; elsewhere the ring is lost. -/
def CapSt.restart (k : CapSt) (v : Variant) (block : Nat → List Byte) : CapSt :=
  let z : CapSt := ⟨[], 0, 0, 0, 0, 0, false, 0, false, none, [], [], [], 0, [], [], k.hold, false⟩
  if v ≠ .A then z
  else
    let z := { z with slotSeq := k.slotSeq, retired := k.retired, regions := k.regions }
    let last := k.slotSeq.foldl (fun (m : Option (Nat × Nat)) p => match m with
      | none => some (p.2, p.1)
      | some y => if y.1 < p.2 then some (p.2, p.1) else some y) none
    match last with
    | none => z
    | some (q, slot) =>
      let b := block slot
      let n := leNat (slice b 65484 2)
      { z with
        nextSeq := q % 2 ^ 64, prevCheck := leNat (slice b 65532 4), resumed := true,
        nextSlot := (slot + 1) % ringSlots v, lastSlot := slot,
        nextRec := (leNat (slice b (192 * (n - 1) + 24) 4) + 1) % 2 ^ 32,
        recEnd := (leNat (slice b (192 * (n - 1) + 24) 4) + 1) % 2 ^ 32 }

/-- The 65,536 bytes of a ring slot (R459). -/
def Channel.ringBlock (c : Channel) (slot : Nat) : List Byte :=
  (List.range 1024).flatMap fun u => leBytes 64 (c.wget 0x4C40 (1024 * slot + u))

end Sys2Proof.Machine
end

