-- ==== Sys2Proof/Machine/Image.lean ====
section
/-! DEFINITION. The configuration image: its bytes (R573, R574, R685). -/

namespace Sys2Proof.Machine

/-- One record of an image (R685). -/
inductive Record where
  | obj (scope idx sub value : Nat)
  | run (scope idx first : Nat) (entries : List Nat)
  | region (scope : Nat) (words : List Nat) (crc : Nat)
deriving DecidableEq, Repr

/-- The bytes of a record (R685). -/
def Record.bytes (size : Nat → Nat → Nat) : Record → List Byte
  | .obj sc idx sub v => leBytes 1 sc ++ leBytes 1 0 ++ leBytes 2 idx ++ leBytes 1 sub ++ leBytes 3 0 ++
      carryObj idx sub (size idx sub) v
  | .run sc idx first es =>
    leBytes 1 sc ++ leBytes 1 1 ++ leBytes 2 idx ++ leBytes 4 first ++ leBytes 4 es.length ++ es.flatMap (carryEntry idx (size idx 0))
  | .region sc ws crc => leBytes 1 sc ++ leBytes 1 2 ++ leBytes 2 0x4710 ++ ws.flatMap wordBytes ++ leBytes 4 crc

/-- The size in bytes of an object, or of an entry of a window (R608). -/
def valueSize (idx sub : Nat) : Nat :=
  match objIn (if channelScope idx then channelObjs else moduleObjs) idx sub with
  | some o => (match o.ty with
    | .num n => n
    | .bool => 1
    | .window n _ => n)
  | none => 4

/-- The bits of an object or entry that an image stores: the writable ones; of an allowance, LIMIT only (R654). -/
def storedMask (o : Obj) : Nat :=
  if o.lo = 0x4407 then maskOf 41 21 else if o.lo = 0x4408 then maskOf 31 16 else o.mask

/-- Whether an image with or without RUNTIME stores an object of this line (R573). -/
def Obj.stored (o : Obj) (runtime : Bool) : Bool :=
  (o.keep == .P || (runtime && o.keep == .S)) && (o.acc == .rw || o.acc == .rws)

/-- The object records of a dictionary store that a predicate picks. -/
def objRecords (objs : List Obj) (scope : Nat) (pick : Obj → Nat → Bool) (runtime : Bool) (d : Nat → Nat) (t : Store) :
    List Record :=
  t.filterMap fun p =>
    let idx := p.1 / 256
    match objIn objs idx (p.1 % 256) with
    | some o =>
      let m := storedMask o
      if o.stored runtime && pick o idx && (p.2 &&& m) != (d p.1 &&& m) then some (.obj scope idx (p.1 % 256) (p.2 &&& m))
      else none
    | none => none

/-- Add one window entry to the runs, newest run first, its entries newest first. -/
def addRun (runs : List (Nat × Nat × List Nat)) (idx e v : Nat) : List (Nat × Nat × List Nat) :=
  match runs with
  | (i, first, es) :: t => if i = idx && first + es.length = e then (i, first, v :: es) :: t else (idx, e, [v]) :: runs
  | [] => [(idx, e, [v])]

/-- The window runs of a channel (R573, R685): runs of consecutive entries that differ from the default entry. -/
def windowRecords (runtime : Bool) (v : Variant) (t : Store) : List Record :=
  let runs := t.foldl (fun runs p =>
    let idx := p.1 / 2 ^ 40
    let e := p.1 % 2 ^ 40
    match objIn channelObjs idx 0 with
    | some o =>
      let m := storedMask o
      let d := if idx = 0x4801 then poolDefault v e else winDflt p.1
      if o.stored runtime && idx != 0x4710 && (p.2 &&& m) != (d &&& m) then addRun runs idx e (p.2 &&& m) else runs
    | none => runs) []
  runs.reverse.map fun r => .run 1 r.1 r.2.1 r.2.2.reverse

/-- The customer region of the service block copy (R571, R573). -/
def Channel.customerWords (c : Channel) : List Nat := (upFrom 0x3000 4096).map fun a => c.wget 0x4710 a

/-- The records of an image taken from the copy (R573). -/
def State.imageRecords (s : State) (runtime : Bool) : List Record :=
  let src := s.chan (s.arb.holder.getD .a)
  let all := fun (_ : Obj) (_ : Nat) => true
  let relayed := fun (o : Obj) idx => relayedObj o idx
  let own := fun (o : Obj) idx => !relayedObj o idx
  let keysOut := s.mdict.filter fun p => !(objKey 0x1400 0x10 ≤ p.1 && p.1 ≤ objKey 0x1400 0x13)
  objRecords moduleObjs 0 all runtime mDflt keysOut ++
  objRecords channelObjs 1 relayed runtime chDflt src.dict ++
  objRecords channelObjs 2 own runtime chDflt s.chA.dict ++
  (if s.present .b then objRecords channelObjs 3 own runtime chDflt s.chB.dict else []) ++
  windowRecords runtime s.unit.variant src.win ++
  [.region 1 src.customerWords (wordsCrc src.customerWords)]

/-- Code of a variant (R8). -/
def variantCode : Variant → Nat
  | .A => 0x41
  | .B => 0x42
  | .C => 0x43

/-- The bytes of an image (R685). -/
def State.encodeImage (s : State) (seq : Nat) (runtime : Bool) : List Byte :=
  let body := (s.imageRecords runtime).flatMap (Record.bytes valueSize)
  let head := [0x4B#8, 0x58#8, 0x43#8, 0x49#8] ++ leBytes 4 seq ++ leBytes 1 (variantCode s.unit.variant) ++ leBytes 1 runtime.toNat ++
    leBytes 2 0 ++ leBytes 4 (36 + body.length) ++ leBytes 16 0
  head ++ body ++ leBytes 4 (crc32c 0xFFFFFFFF (head ++ body))

/-- Whether a slot holds a valid image (R574): magic, CRC and variant. -/
def imageValid (v : Variant) (b : List Byte) : Bool :=
  let n := leNat (slice b 12 4)
  Nat.ble 36 n && Nat.ble n b.length && b.take 4 == [0x4B#8, 0x58#8, 0x43#8, 0x49#8] && leNat (slice b 8 1) == variantCode v &&
    crc32c 0xFFFFFFFF (b.take (n - 4)) == leNat (slice b (n - 4) 4)

/-- SEQUENCE, RUNTIME and LENGTH of an image (R685). -/
def imageSeq (b : List Byte) : Nat := leNat (slice b 4 4)
def imageRuntime (b : List Byte) : Bool := bitOf (leNat (slice b 9 1)) 0
def imageLength (b : List Byte) : Nat := leNat (slice b 12 4)

/-- Cut a list into pieces of `n`. -/
def pieces (n : Nat) : Nat → List Byte → List (List Byte)
  | 0, _ => []
  | k + 1, l => l.take n :: pieces n k (l.drop n)

/-- The records of an image's body; `fuel` bounds their number. -/
def parseRecords : Nat → List Byte → List Record
  | 0, _ => []
  | fuel + 1, b =>
    if b.length < 4 then []
    else
      let sc := leNat (slice b 0 1)
      let kind := leNat (slice b 1 1)
      let idx := leNat (slice b 2 2)
      let b := b.drop 4
      if kind = 0 then
        let sub := leNat (slice b 0 1)
        let n := valueSize idx sub
        .obj sc idx sub (objOf idx sub (slice b 4 n)) :: parseRecords fuel (b.drop (4 + n))
      else if kind = 1 then
        let n := valueSize idx 0
        let count := leNat (slice b 4 4)
        .run sc idx (leNat (slice b 0 4)) ((pieces n count (b.drop 8)).map (entryNat idx)) ::
          parseRecords fuel (b.drop (8 + n * count))
      else
        .region sc ((pieces 24 4096 b).map beNat) (leNat (slice b (24 * 4096) 4)) ::
          parseRecords fuel (b.drop (24 * 4096 + 4))

/-- The records of an image (R685). -/
def imageBody (b : List Byte) : List Record :=
  parseRecords b.length ((b.take (imageLength b - 4)).drop 32)

/-- Whether sequence `a` is newer than `b`, compared as EPOCH is in R153. -/
def newer (a b : Nat) : Bool := decide (a ≠ b) && decide ((a + 2 ^ 32 - b) % 2 ^ 32 < 2 ^ 31)

/-- The slot that stage 2 selects (R574): 1 A, 2 B, 3 factory default. -/
def State.selectImage (s : State) : Nat :=
  let a := imageValid s.unit.variant s.flash.imageA
  let b := imageValid s.unit.variant s.flash.imageB
  if a && b then (if newer (imageSeq s.flash.imageB) (imageSeq s.flash.imageA) then 2 else 1)
  else if a then 1 else if b then 2 else 3

/-- The header object of a slot (R588). -/
def State.slotHeader (s : State) (slotB : Bool) : Nat :=
  let b := if slotB then s.flash.imageB else s.flash.imageA
  if imageValid s.unit.variant b then
    imageSeq b * 2 ^ 32 + (imageLength b + 1023) / 1024 * 2 ^ 8 + (imageRuntime b).toNat * 4 +
      (if s.bring.image = (if slotB then 2 else 1) then 2 else 0) + 1
  else 0

end Sys2Proof.Machine
end

