-- ==== Sys2Proof/Machine/Operands.lean ====
section
/-! DEFINITION. The operands of the action sequencers: the control store word and its check code, registers, window,
metadata, action fields, trap frame (R296 to R305, R314, R319). -/

namespace Sys2Proof.Machine

/-! ## The control store (R296, R318, R319) -/

/-- A microword (R296). -/
structure MicroWord where
  seq    : Nat
  cond   : Nat
  target : Nat
  alu    : Nat
  dst    : Nat
  srcA   : Nat
  srcB   : Nat
  bImm   : Bool
  shift  : Nat
  side   : Nat
  sideReg : Nat
  sideArg : Nat
  imm    : Word64
  mask   : Word64
deriving DecidableEq, Repr

/-- The fields of the 192 data bits (R296). -/
def microWord (d : Nat) : MicroWord where
  seq := bits d 191 188
  cond := bits d 187 183
  target := bits d 182 169
  alu := bits d 168 163
  dst := bits d 162 159
  srcA := bits d 158 155
  srcB := bits d 154 151
  bImm := bitOf d 150
  shift := bits d 149 144
  side := bits d 143 139
  sideReg := bits d 138 135
  sideArg := bits d 134 128
  imm := BitVec.ofNat 64 (bits d 127 64)
  mask := BitVec.ofNat 64 (bits d 63 0)

/-- Bytes that a header load or store moves; 0 for every other side operation (R301). -/
def sideWidth (side : Nat) : Nat := [0, 1, 2, 4, 8, 1, 2, 4, 8].getD side 0

/-- A reserved encoding of R297, or an operand that R301 or R315 lets no word carry. -/
def MicroWord.reserved (m : MicroWord) : Bool :=
  Nat.ble 10 m.seq || m.cond == 14 || m.cond == 15 || Nat.ble 24 m.cond || Nat.ble 15 m.alu || Nat.ble 17 m.side ||
  (m.side == 9 && Nat.ble 18 m.sideArg) ||
  ((m.side == 10 || m.side == 11 || m.side == 12) && Nat.ble 11 m.sideArg) ||
  ((m.side == 15 || m.side == 16) && Nat.ble 18 m.sideArg) ||
  Nat.blt 128 (sideWidth m.side + if sideWidth m.side = 0 then 0 else m.sideArg)

/-- The codeword positions of the data bits: 1 to 200 but the powers of two (R319). -/
def dataPositions : List Nat := (upFrom 1 200).filter fun p => !([1, 2, 4, 8, 16, 32, 64, 128].contains p)

/-- CHECK[7:0]: the XOR of the positions of the data bits that are 1 (R319). -/
def hammingOf (d : Nat) : Nat :=
  (dataPositions.foldl (fun (a : Nat × Nat) p => (if a.2 % 2 = 1 then a.1 ^^^ p else a.1, a.2 / 2)) (0, d)).1

/-- CHECK of a word (R319). -/
def checkOf (d : Nat) : Nat :=
  let h := hammingOf d
  h + ((parityOf 192 d + parityOf 8 h) % 2) * 256

/-- What a read of a control store word gives (R319). -/
inductive WordRead where
  | clean (d : Nat)
  | corrected (d : Nat)
  | bad
deriving DecidableEq, Repr

/-- A read of the 208 bits of a word (R319): one bit in error is corrected; a double error or CHECK[15:9] not zero is not. -/
def readWord (w : Nat) : WordRead :=
  let d := bits w 191 0
  let k := bits w 207 192
  let syn := bits k 7 0 ^^^ hammingOf d
  let odd := (parityOf 192 d + parityOf 9 k) % 2 == 1
  if bits k 15 9 ≠ 0 then .bad
  else if !odd then (if syn = 0 then .clean d else .bad)
  else if syn = 0 || [1, 2, 4, 8, 16, 32, 64, 128].contains syn then .corrected d
  else
    match dataPositions.findIdx? (· == syn) with
    | some i => .corrected (d ^^^ 2 ^ i)
    | none => .bad

/-- The 208 bits of a word with its CHECK (R319). -/
def codeword (d : Nat) : Nat := checkOf (d % 2 ^ 192) * 2 ^ 192 + d % 2 ^ 192

/-- What stage 5 has written to word `addr` of every copy of the vendor region (R321, assumption 6); 0 in the customer region. -/
def Channel.imageWord (c : Channel) (addr : Nat) : Nat :=
  if 0x3000 ≤ addr then 0
  else
    match c.vendor with
    | none => 0
    | some img => codeword (Config.vendorWord img addr)

/-- The raw 208 bits of a word in a copy (R318): store 0x14710 holds the bits in which each copy differs from the image's word. -/
def Channel.storeWord (c : Channel) (copy addr : Nat) : Nat := c.imageWord addr ^^^ c.wget 0x14710 (copy * 16384 + addr)

/-- Write the data bits of a word to one copy with its CHECK (R319). -/
def Channel.writeCopy (c : Channel) (copy addr d : Nat) : Channel :=
  c.wput 0x14710 (copy * 16384 + addr) (codeword d ^^^ c.imageWord addr)

/-- A vendor image is written to all copies (R321). -/
def Channel.loadVendor (c : Channel) (img : Store) : Channel :=
  { c with vendor := some img,
           win := c.win.filter fun p => !(p.1 / 2 ^ 40 == 0x14710 && Nat.blt (p.1 % 2 ^ 40 % 16384) 0x3000) }

/-- The CRC-32C of the vendor region of one copy (R321). -/
def Channel.regionCrc (c : Channel) (copy : Nat) : Nat :=
  wordsCrc ((List.range 12288).map fun a => bits (c.storeWord copy a) 191 0)

/-- 0x4701:02 (R329): the check value of the loaded image's words, as they were written to the copies. -/
def Channel.vendorCheck (c : Channel) : Nat :=
  match c.vendor with
  | none => 0
  | some img => wordsCrc ((List.range 12288).map fun a => Config.vendorWord img a % 2 ^ 192)

/-- Write a word to all copies (R318). -/
def Channel.writeWord (c : Channel) (addr d : Nat) : Channel :=
  (List.range 8).foldl (fun c copy => c.writeCopy copy addr d) c

/-! ## A sequencer -/

/-- A sequencer that is free: all registers zero (R317). -/
def SeqSt.empty : SeqSt :=
  ⟨none, 0, false, 0, List.replicate 16 0, 0, [], [], [], [], [], List.replicate 18 0, 0, 0⟩

/-- Sequencer `n` (0 to 255). -/
def Channel.seq (c : Channel) (n : Nat) : SeqSt := tabGet (fun _ => SeqSt.empty) c.seqs n

/-- Replace it. -/
def Channel.setSeq (c : Channel) (n : Nat) (q : SeqSt) : Channel :=
  { c with seqs := tabSet (fun _ => SeqSt.empty) c.seqs n q }

/-- Whether it runs a routine. -/
def SeqSt.busy (q : SeqSt) : Bool := q.frame.isSome || q.cause != 0

/-- Register W`i`. -/
def SeqSt.w (q : SeqSt) (i : Nat) : Word64 := q.regs.getD i 0

/-- IN_TRAP (R303). -/
def SeqSt.inTrap (q : SeqSt) : Bool := bitOf q.flags 16

/-- Operand B' (R300). -/
def MicroWord.opB (m : MicroWord) (q : SeqSt) : Word64 := if m.bImm then m.imm else q.w m.srcB

/-! ## The action record (R305) -/

/-- The widths of the action fields (R305). -/
def actWidth (k : Nat) : Nat := [27, 18, 20, 20, 2, 16, 5, 7, 33, 62, 8].getD k 0

/-- The dispatch values (R305): all zero but COLOUR_IN. The twelfth element is the direction that an indirection entry
forces (R187); no word reaches it. -/
def dispatchAct (f : Frame) : List Nat :=
  let col := match f.tag with
    | some t => bits t 55 54
    | none => 0
  setAt (List.replicate 12 0) 4 col

/-- Field `k` set to a value cut to its width (R301). -/
def setAct (l : List Nat) (k v : Nat) : List Nat := setAt l k (v % 2 ^ actWidth k)

/-! ## Metadata (R304) -/

/-- The bits of a receive timestamp that items 1 and LAUNCH carry: 32 bits of seconds, nanoseconds (R304). -/
def stamp62 (t : Nat) : Nat := bits t 71 40 * 2 ^ 30 + bits t 37 8

/-- Item 3 or 4 of a bridge entry (R304). -/
def bridgeItem : Option Nat → Nat
  | none => 0
  | some e => 2 ^ 63 + (bitOf e 126).toNat * 2 ^ 62 + bits e 43 0

/-- Whether the destination address is a group address. -/
def Frame.group (f : Frame) : Bool := bitOf (byteAt f.bytes 0) 0

/-- The length of the pass (R304). -/
def Frame.len (f : Frame) : Nat := f.bytes.length

/-- Metadata item `k` of a frame (R304). -/
def Frame.item (f : Frame) (q : SeqSt) (k : Nat) : Nat :=
  let l := f.look
  match k with
  | 0 => f.group.toNat * 2 ^ 44 + bits ((dispatchAct f).getD 4 0) 1 0 * 2 ^ 42 + f.tag.isSome.toNat * 2 ^ 41 +
      l.profile % 128 * 2 ^ 34 + f.pass % 4 * 2 ^ 32 + f.inPort % 128 * 2 ^ 24 + f.port % 128 * 2 ^ 16 + f.len % 2 ^ 16
  | 1 => stamp62 f.rx
  | 2 => l.vrf % 256 * 2 ^ 24 + l.fid % 4096 * 2 ^ 12 + l.vid % 4096
  | 3 => bridgeItem l.dst
  | 4 => bridgeItem l.src
  | 5 => l.subHit.toNat * 2 ^ 63 + l.sub % 2 ^ 15
  | 6 =>
    let made := l.todo.isSome.toNat * 2 ^ 62
    match l.route with
    | none => made
    | some (len, d) => 2 ^ 63 + made + len % 256 * 2 ^ 32 + bits d 31 30 * 2 ^ 30 + bits d 23 16 * 2 ^ 16 + bits d 15 0
  | 7 => bits l.nextHop 127 64
  | 8 => bits l.nextHop 63 0
  | 9 => l.indirect
  | 10 =>
    l.searchOn.toNat * 2 ^ 63 + l.hit.isSome.toNat * 2 ^ 62 + l.multi.toNat * 2 ^ 61 + (match l.hit with
      | some h => h.1 % 2 ^ 15
      | none => 0)
  | 11 => (match l.hit with
      | some h => bits h.2 127 64
      | none => 0)
  | 12 => (match l.hit with
      | some h => bits h.2 63 0
      | none => 0)
  | 13 => bits (f.tag.getD 0) 111 64
  | 14 => bits (f.tag.getD 0) 63 0
  | 15 => q.res.getD 0 0
  | 16 => q.res.getD 1 0
  | 17 => q.item
  | _ => 0

/-- Metadata as a sequencer loads it: a frameless routine reads zero but for item 17 (R295). -/
def Channel.metadata (c : Channel) (q : SeqSt) (k : Nat) : Nat :=
  match q.frame with
  | none => if k = 17 then q.item else 0
  | some fid =>
    match c.frame fid with
    | none => 0
    | some f => f.item q k

/-- The header window: zero for a frameless routine (R295). -/
def SeqSt.load (q : SeqSt) (off n : Nat) : Nat := if q.frame.isSome then field q.window off n else 0

/-- STH: bytes at frame offsets L − 4 and above are not written (R301). -/
def SeqSt.store (q : SeqSt) (len off n v : Nat) : SeqSt :=
  if q.frame.isNone then q
  else
    let n' := min n (len - 4 - off)
    { q with
      window := patch q.window off ((beBytes n v).take n'),
      edits := (q.edits ++ upFrom off n').eraseDups }

/-- Word `k` of the trap frame (R315). -/
def SeqSt.trapWord (q : SeqSt) (k : Nat) : Word64 := q.trap.getD k 0

/-- The trap frame of a trap (R314, R315). -/
def SeqSt.saved (q : SeqSt) (resume : Nat) : List Word64 :=
  BitVec.ofNat 64 (resume % 2 ^ 14) :: BitVec.ofNat 64 q.flags :: q.regs

/-! ## The budget (R309) -/

/-- B(L) (R309). -/
def budget (len : Nat) : Nat := 28 + (len - 64) / 3

/-- The pass length that a sequencer's budget is taken from; 64 for a frameless routine (R295). -/
def Channel.seqLen (c : Channel) (q : SeqSt) : Nat :=
  match q.frame with
  | none => 64
  | some fid =>
    match c.frame fid with
    | none => 64
    | some f => f.len

end Sys2Proof.Machine
end

