-- ==== Sys2Proof/Machine/Flags.lean ====
section
/-! DEFINITION. The ALU of the action sequencers, its flags and the conditions (R299, R300, R303). -/

namespace Sys2Proof.Machine

/-- What the ALU of a word gives: the value for W[DST], if one is written, and the flags word (R300, R303). -/
structure AluOut where
  value : Option Word64
  flags : Nat
deriving DecidableEq, Repr

/-- The flags word with Z, N and C (R303). -/
def withFlags (flags : Nat) (z n c : Bool) : Nat := setBits flags 2 0 (z.toNat + n.toNat * 2 + c.toNat * 4)

/-- Z and N of a result (R300). -/
def resultFlags (flags : Nat) (r : Word64) (carry : Bool) : Nat := withFlags flags (r == 0) r.msb carry

/-- A logic or shift result: C becomes 0 (R300). -/
def logicOut (flags : Nat) (r : Word64) : AluOut := ⟨some r, resultFlags flags r false⟩

/-- The ALU (R300). -/
def aluRun (m : MicroWord) (a b : Word64) (flags : Nat) : AluOut :=
  match m.alu with
  | 1 => ⟨some b, flags⟩
  | 2 => ⟨some (a + b), resultFlags flags (a + b) (Nat.ble (2 ^ 64) (a.toNat + b.toNat))⟩
  | 3 => ⟨some (a - b), resultFlags flags (a - b) (Nat.blt a.toNat b.toNat)⟩
  | 4 => logicOut flags (a &&& b)
  | 5 => logicOut flags (a ||| b)
  | 6 => logicOut flags (a ^^^ b)
  | 7 => logicOut flags (a <<< m.shift)
  | 8 => logicOut flags (a >>> m.shift)
  | 9 => logicOut flags (((a >>> m.shift) &&& m.mask) ||| b)
  | 10 => logicOut flags ((a &&& ~~~m.mask) ||| ((b <<< m.shift) &&& m.mask))
  | 11 => ⟨none, resultFlags flags (a - b) (Nat.blt a.toNat b.toNat)⟩
  | 12 => ⟨none, withFlags flags ((a ^^^ b) &&& m.mask == 0) false false⟩
  | 13 => logicOut flags (if a.toNat ≤ b.toNat then a else b)
  | 14 => logicOut flags (if a.toNat ≤ b.toNat then b else a)
  | _ => ⟨none, flags⟩

/-- COND over the flags as R302 step 3 sees them (R299). Conditions on a frame are false for a frameless routine. -/
def Channel.condition (c : Channel) (q : SeqSt) (flags cond : Nat) : Bool :=
  let fr := match q.frame with
    | none => none
    | some fid => c.frame fid
  let ask := fun (p : Frame → Bool) => match fr with
    | none => false
    | some f => p f
  match cond with
  | 0 => true
  | 1 => bitOf flags 0
  | 2 => bitOf flags 1
  | 3 => bitOf flags 2
  | 4 => ask fun f => f.look.dst.isSome
  | 5 => ask fun f => f.look.src.isSome
  | 6 => ask fun f => f.look.subHit
  | 7 => ask fun f => f.look.route.isSome
  | 8 => ask fun f => f.look.hit.isSome
  | 9 => ask fun f => f.look.multi
  | 10 => ask fun f => f.tag.isSome
  | 11 => ask fun f => f.group
  | 12 => ask fun f => Nat.ble 2 f.pass
  | 13 => bitOf flags 16
  | _ => if 16 ≤ cond && cond ≤ 23 then bitOf flags (cond - 8) else false

end Sys2Proof.Machine
end

