-- ==== Sys2Proof/Machine/Vendor.lean ====
section
/-! DEFINITION. The standard vendor routine, by its rules: its words are Pervel's and the spec does not give them
(R254, R274, R326, R327; assumption 6). -/

namespace Sys2Proof.Machine

/-- The routine's work on a pass: the drop code once one is decided (0 while none is), the action record, the header
window and its edits, and whether an indirection entry has chosen the queue. -/
structure Verdict where
  code   : Nat
  act    : List Nat
  window : List Byte
  edits  : List Nat
  queued : Bool
deriving DecidableEq, Repr

/-- Set an action field of a verdict. -/
def Verdict.put (v : Verdict) (k x : Nat) : Verdict := { v with act := setAct v.act k x }

/-- Action field of a verdict. -/
def Verdict.get (v : Verdict) (k : Nat) : Nat := v.act.getD k 0

/-- Decide a drop. -/
def Verdict.drop (v : Verdict) (code : Nat) : Verdict := { v with code := code }

/-- Store bytes in the header window, within the frame's body (R301). -/
def Verdict.store (v : Verdict) (len off : Nat) (b : List Byte) : Verdict :=
  let n := min b.length (len - 4 - off)
  { v with window := patch v.window off (b.take n), edits := (v.edits ++ upFrom off n).eraseDups }

/-- DEST of TYPE PORT (R305); END drops one that names port 53 or 54 (R307). -/
def destPort (p : Nat) : Nat := 2 ^ 24 + p % 128

/-- DEST of a frame that arrives for local delivery: port 53 is a good DST_PORT (R145) and is the host path. -/
def destLocal (p : Nat) : Nat := if p = 53 then 4 * 2 ^ 24 else destPort p

/-- DEST of a fabric destination. -/
def destFabric (module port : Nat) : Nat := 2 * 2 ^ 24 + module % 128 * 2 ^ 16 + port % 128

/-- DEST of a group. -/
def destGroup (g : Nat) : Nat := 3 * 2 ^ 24 + g % 2 ^ 16

/-- Send to a queue (R197, R274): the queue ID never chooses the port, which stays as the destination has it (R380). -/
def Verdict.toQueue (v : Verdict) (q : Nat) : Verdict := { v.put 1 q with queued := true }

/-- The offset of the IP header, from the field that the profile gives as L3_DST, and the IP version (R176); none when
the frame has no route key. -/
def Frame.ipHeader (f : Frame) : Option (Nat × Nat) :=
  let km := f.look.kmap
  let k := bits km 24 20
  let ty := bits km 26 25
  if 24 ≤ k || ty = 0 then none
  else
    let off := bits (f.fieldDesc k) 6 0
    if ty = 1 then some (off - 16, 4) else some (off - 24, 6)

/-- VLAN tags at offset 12 of a window, at most 2. -/
def tagCount (w : List Byte) : Nat := (skipTags w 2 12 - 12) / 4

/-- PCP of the outer tag, if the frame has one. -/
def outerPcp (w : List Byte) : Option Nat := if tagCount w = 0 then none else some (byteAt w 14 / 32)

/-- TTL or hop limit of the header at `h`. -/
def ttlOffset (h : Nat × Nat) : Nat := if h.2 = 4 then h.1 + 8 else h.1 + 7

/-- Apply a next-hop entry (R254, R264, R326): TTL, addresses, tag, checksum, destination. A TTL or hop limit of 1 or 0 drops the
frame for every next hop that is used, PORT, FABRIC or HOST, whether DEC_TTL is set or not. -/
def Channel.applyNextHop (c : Channel) (f : Frame) (v : Verdict) (e : Nat) : Verdict :=
  let typ := bits e 127 124
  let h := f.ipHeader.getD (14, 4)
  let ttl := byteAt v.window (ttlOffset h)
  if typ = 0 || 4 ≤ typ then v.drop 0x35
  else if ttl ≤ 1 then v.drop 0x47
  else if typ = 3 then v.put 0 (4 * 2 ^ 24)
  else
    let dec := bitOf e 113
      let v := v.store f.len 0 (beBytes 6 (bits e 95 48) ++ beBytes 6 (c.reg 0x4503 (bits e 111 108 + 1)))
      let v := if dec then v.store f.len (ttlOffset h) (beBytes 1 (ttl - 1)) else v
      let pop := tagCount (windowOf f.bytes)
      let push := bitOf e 112
      let tci := (outerPcp (windowOf f.bytes)).getD 0 * 2 ^ 13 + bits e 107 96
      let v := if push then v.put 8 (2 ^ 32 + 0x8100 * 2 ^ 16 + tci) else v
      let v := if h.2 = 4 then v.put 7 (h.1 - 4 * pop + 4 * push.toNat) else v
      let v := v.put 6 (v.get 6 + pop * 8 + (if h.2 = 4 then 2 else 0))
      if typ = 1 then v.put 0 (destPort (bits e 6 0)) else v.put 0 (destFabric (bits e 22 16) (bits e 6 0))

/-- Apply an indirection result that is no next hop (R187, R197). -/
def Verdict.applyEntry (v : Verdict) (e : Nat) : Verdict :=
  match bits e 63 60 with
  | 1 => v.toQueue (bits e 25 24 * 2 ^ 16 + bits e 15 0)
  | 2 => v.put 0 (destPort (bits e 6 0))
  | _ =>
    let v := v.put 0 (destFabric (bits e 22 16) (bits e 6 0))
    { v with act := setAt v.act 11 (bits e 25 24) }

/-- Whether the destination address is a router MAC (R326). -/
def Channel.toRouter (c : Channel) (f : Frame) : Bool :=
  (upFrom 1 16).any fun i => c.reg 0x4503 i % 2 ^ 48 == field f.bytes 0 6

/-- The row of a routed frame (R254, R326). -/
def Channel.routedDest (c : Channel) (f : Frame) (v : Verdict) : Verdict :=
  match f.look.route with
  | none => v.drop 0x32
  | some (_, d) =>
    match bits d 31 30 with
    | 0 => c.applyNextHop f v f.look.nextHop
    | 1 => if bits f.look.indirect 63 60 = 3 then c.applyNextHop f v f.look.nextHop else v.applyEntry f.look.indirect
    | 2 => v.drop 0x35
    | _ => v.put 0 (4 * 2 ^ 24)

/-- The row of a destination hit (R326). A REMOTE entry of the own module is a fabric destination that R187 delivers here. -/
def Channel.bridgedDest (f : Frame) (v : Verdict) (e : Nat) (own : Nat) : Verdict :=
  let p := bits e 6 0
  if bitOf e 43 then v.put 0 (destGroup (bits e 15 0))
  else if p = f.inPort && (!bitOf e 13 || bits e 12 7 + 1 = own) then v.drop 0x48
  else if bitOf e 13 then v.put 0 (destFabric (bits e 12 7 + 1) p)
  else v.put 0 (destPort p)

/-- The destination of a frame, by the first row of R326 that applies. -/
def Channel.vendorDest (c : Channel) (cx : Ctx) (f : Frame) (v : Verdict) : Verdict :=
  let ctl := c.reg 0x4704 f.look.profile
  match f.tag with
  | some t =>
    let m := bits t 89 84 + 1
    (v.put 0 (if bitOf t 107 then destGroup (bits t 89 74) else if m = cx.moduleId then destLocal (bits t 83 77)
      else destFabric m (bits t 83 77))).put 1 (bits t 73 56)
  | none =>
    if bitOf ctl 3 && c.toRouter f && f.look.todo.isSome then c.routedDest f v
    else
      match f.look.dst with
      | some e => Channel.bridgedDest f v e cx.moduleId
      | none => if bits ctl 31 16 = 0 then v.drop 0x49 else v.put 0 (destGroup (bits ctl 31 16))

/-- The service class of a frame (R331). The DSCP is that of an IP header after at most two tags. -/
def Channel.serviceOf (c : Channel) (f : Frame) : Nat :=
  let ctl := c.reg 0x4704 f.look.profile
  let w := windowOf f.bytes
  let dflt := bits ctl 2 0
  match bits ctl 5 4 with
  | 0 => (match outerPcp w with
      | some p => bits (c.reg 0x4705 f.look.profile) (3 * p + 2) (3 * p)
      | none => dflt)
  | 1 =>
    let o := skipTags w 2 12
    if field w o 2 = 0x0800 then byteAt w (o + 3) / 32
    else if field w o 2 = 0x86DD then byteAt w (o + 2) % 16 / 2
    else dflt
  | _ => dflt

/-- The queue of local traffic, and the meters (R326). A queue that an indirection entry has chosen stands. -/
def Channel.vendorQueue (c : Channel) (f : Frame) (v : Verdict) : Verdict :=
  let sel := bits (c.reg 0x4704 f.look.profile) 9 8
  let v := if f.tag.isSome || v.queued then v else v.put 1 (f.look.sub * 8 + c.serviceOf f)
  let q := v.get 1
  let v := if bitOf sel 0 then v.put 2 (2 ^ 19 + 2 * q) else v
  if bitOf sel 1 then v.put 3 (2 ^ 19 + 2 * q + 1) else v

/-- The settings of a search hit but TRAP, DENY and REDIRECT (R274). -/
def applySearch (v : Verdict) (a : Nat) : Verdict :=
  let v := if bitOf a 88 then v.put 1 (v.get 1 / 8 * 8 + bits a 87 85) else v
  let v := if bitOf a 84 then v.put 4 (bits a 83 82) else v
  let v := if bitOf a 89 then v.put 6 (setBit (v.get 6) 0 true) else v
  v.put 5 (v.get 5 ||| bits a 111 96)

/-- A verdict without the edits of a destination that is replaced: header window, EDIT, L3_OFF, PUSH and forced direction are as at
dispatch (R274, R326). -/
def Verdict.unhopped (v : Verdict) (f : Frame) (window : List Byte) (edits : List Nat) : Verdict :=
  let d := dispatchAct f
  { v with
    act := [6, 7, 8, 11].foldl (fun a k => setAt a k (d.getD k 0)) v.act, window := window, edits := edits }

/-- The redirection of a search hit to an indirection group (R186, R274): a next hop replaces the one applied before; another entry
replaces the destination alone (assumption 66). -/
def Channel.redirect (c : Channel) (cx : Ctx) (f : Frame) (v : Verdict) (g : Nat) (window : List Byte) (edits : List Nat) :
    Verdict × Channel :=
  if 2 ≤ f.look.resolves then (v.drop 0x37, c)
  else
    let c := c.modFrame f.id fun f => { f with look := { f.look with resolves := f.look.resolves + 1 } }
    match c.resolve cx f g with
    | (.inl code, c) => (v.drop code, c)
    | (.inr e, c) =>
      if bits e 63 60 = 3 then
        match c.readNextHop (bits e 15 0) with
        | (0, nh, c) => (c.applyNextHop f (v.unhopped f window edits) nh, c)
        | (code, _, c) => (v.drop code, c)
      else (v.applyEntry e, c)

/-- An associative search hit under R274. -/
def Channel.vendorSearch (c : Channel) (cx : Ctx) (f : Frame) (v : Verdict) (window : List Byte) (edits : List Nat) :
    Verdict × Channel :=
  match f.look.hit with
  | none => (v, c)
  | some (_, a) =>
    if bitOf a 90 then (v.put 0 (4 * 2 ^ 24), c)
    else if bitOf a 91 then ((applySearch v a).drop 0x3F, c)
    else
      let r := if bits a 81 80 = 1 then c.redirect cx f v (bits a 73 62) window edits
        else if bits a 81 80 = 2 then (v.toQueue (bits a 79 62), c)
        else (v, c)
      if r.1.code ≠ 0 then r else (applySearch r.1 a, r.2)

/-- The standard vendor routine on a frame whose header window is `window` (R326). -/
def Channel.vendorRoutine (c : Channel) (cx : Ctx) (f : Frame) (window : List Byte) (edits : List Nat) : Verdict × Channel :=
  let v := c.vendorDest cx f ⟨0, dispatchAct f, window, edits, false⟩
  if v.code ≠ 0 then (v, c) else c.vendorSearch cx f (c.vendorQueue f v) window edits

end Sys2Proof.Machine
end

