-- ==== Sys2Proof/Machine/Seq.lean ====
section
/-! DEFINITION. The action sequencers: dispatch, microwords, traps, resets, repair of the control store (R292 to R340). -/

namespace Sys2Proof.Machine

/-! ## Ends -/

/-- A sequencer is free again. -/
def Channel.freeSeq (c : Channel) (n : Nat) : Channel := c.setSeq n SeqSt.empty

/-- Count a drop of the microcode (R339). -/
def Channel.countMicroDrop (c : Channel) (code : Nat) : Channel :=
  if 0x40 ≤ code && code ≤ 0x4C then c.inc 0x4724 (code - 0x3F) else c

/-- The end of a frameless routine: W0 is the result of causes 6 and 7, and the host command is done (R295, R333). -/
def Channel.endFrameless (c : Channel) (n : Nat) : Channel :=
  let q := c.seq n
  let c := if q.cause = 6 || q.cause = 7 then c.put 0x4707 3 (q.w 0).toNat else c
  (if q.cause = 6 then c.putBit 0x4707 1 8 false else c).freeSeq n


/-- Steps of a pass at its end (R311, R340). -/
def Channel.countSteps (c : Channel) (f : Frame) (steps : Nat) : Channel :=
  let c := if budget f.len < steps then (c.inc 0x4722 1).flag 0x471F 1 32 else c
  if c.reg 0x4725 f.look.profile < steps then c.put 0x4725 f.look.profile (steps % 2 ^ 32) else c

/-- A pass ends with a drop that its sequencer makes, after `steps` steps (R311). -/
def Channel.endPassDrop (c : Channel) (cx : Ctx) (fid steps code : Nat) : Channel :=
  let c := match c.frame fid with
    | none => c
    | some f => c.countSteps f steps
  ((c.countMicroDrop code).countIndirect code).dropFrame cx fid code false

/-- A routine is aborted after `steps` steps: its frame is dropped, a frameless one ends (R313). -/
def Channel.abortSeq (c : Channel) (cx : Ctx) (n steps code : Nat) : Channel :=
  match (c.seq n).frame with
  | none => c.endFrameless n
  | some fid => (c.freeSeq n).endPassDrop cx fid steps code

/-- A sequencer reset (R317): record, count, event; a frame it still holds is dropped with 0x4B. -/
def Channel.resetSeq (c : Channel) (cx : Ctx) (n cause pc detail : Nat) : Channel :=
  let q := c.seq n
  let c := c.put 0x4712 1 (cause * 2 ^ 56 + n * 2 ^ 48 + pc % 2 ^ 14 * 2 ^ 32 + detail % 2 ^ 32)
  let c := (c.inc 0x4723 1).flag 0x471F 1 8
  let c := if q.frame.isNone && q.cause = 6 then c.putBit 0x4707 1 8 false else c
  let c := c.setSeq n { SeqSt.empty with inReset := true }
  match q.frame with
  | none => c
  | some fid =>
    match c.frame fid with
    | none => c
    | some f => if f.pos == .run then (c.countMicroDrop 0x4B).dropFrame cx fid 0x4B false else c

/-- Drop the frame of a sequencer with a code, then reset it (R316); DETAIL is that of metadata item 17 (R337). -/
def Channel.dropAndReset (c : Channel) (cx : Ctx) (n code cause : Nat) : Channel :=
  let q := c.seq n
  let c := match q.frame with
    | none => c
    | some fid => c.endPassDrop cx fid q.steps code
  c.resetSeq cx n cause q.pc (q.item / 2 ^ 32)

/-- The checks of R307 on an action record: the drop code, or 0. -/
def actionCheck (v : Variant) (act : List Nat) : Nat :=
  let dest := act.getD 0 0
  let t := bits dest 26 24
  let m := bits dest 22 16
  let p := bits dest 6 0
  let meter := fun k => v == .C && Nat.ble 65536 (bits (act.getD k 0) 18 0)
  if 6 ≤ t || act.getD 4 0 = 3 || (t = 2 && (m = 0 || 64 < m)) || (v = .C && 32767 < act.getD 1 0) || meter 2 || meter 3 then 0x44
  else if ((t = 1 || t = 2) && !isPort p) || (t = 1 && (p = 53 || p = 54)) then 0x43
  else if t = 0 then 0x40
  else 0

/-- END of a frame's routine (R307), after the step count of its last word. The record of a frame that only passes through the module is
checked as any other, though where the frame goes is R157's decision and not its DEST (assumption 34). -/
def Channel.endFrame (c : Channel) (cx : Ctx) (n fid steps : Nat) (act : List Nat) (window : List Byte) (edits : List Nat) :
    Channel :=
  match c.frame fid with
  | none => c.freeSeq n
  | some f =>
    let c := (c.countSteps f steps).freeSeq n
    let c := c.modFrame fid fun f => { f with act := act, window := window, edits := edits }
    match actionCheck cx.variant act with
    | 0 => c.modFrame fid fun f => { f with pos := .done }
    | code => (c.countMicroDrop code).dropFrame cx fid code true

/-- DROP of a frame's routine (R308); a frame dropped with 0x3F counts in RULE_DENY (R291). -/
def Channel.dropWord (c : Channel) (cx : Ctx) (n fid steps code : Nat) (act : List Nat) : Channel :=
  match c.frame fid with
  | none => c.freeSeq n
  | some f =>
    let c := ((c.countSteps f steps).freeSeq n).countMicroDrop code
    let c := c.countIndirect code
    let c := if code = 0x3F then c.inc 0x4636 1 else c
    (c.modFrame fid fun f => { f with act := act }).dropFrame cx fid code true

/-! ## Traps -/

/-- Addresses that stand for the vendor's handlers of causes 3, 4 and 5 (R313): the spec gives no address (assumption 6). -/
def vendorHandler (cause : Nat) : Nat := 0x10000 + cause

/-- The vector of a cause (R313, R332). -/
def Channel.vectorOf (c : Channel) (cause : Nat) : Nat :=
  if cause ≤ 5 then vendorHandler cause
  else c.reg 0x4706 (cause - 5) % 2 ^ 14

/-- A trap of causes 4, 5 and 8 to 15 with the word to resume at (R314, R316). DETAIL is free where no rule gives it. -/
def Channel.raiseTrap (c : Channel) (cx : Ctx) (n cause resume : Nat) : Channel :=
  let q := c.seq n
  let d := c.draw cx.free
  let detail := d.1 % 2 ^ 32
  let c := d.2.inc 0x4720 cause
  if q.inTrap then c.dropAndReset cx n (if cause = 5 then 0x42 else 0x45) cause
  else if c.vectorOf cause = 0 then c.abortSeq cx n q.steps 0x46
  else c.setSeq n { q with
    trap := q.saved resume,
    flags := setBit q.flags 16 true,
    item := detail * 2 ^ 32 + q.pc % 2 ^ 14 * 2 ^ 8 + cause,
    pc := c.vectorOf cause,
    steps := q.steps + 1 }

/-- Count what a read of a word showed and note its repair (R319): 1 corrected, 2 uncorrectable. -/
def Channel.noteWord (c : Channel) (copy addr : Nat) (uncorrectable : Bool) : Channel :=
  let k := if uncorrectable then 2 else 1
  let c := ((c.inc 0x4720 k).inc 0x4721 k).flag 0x471F 1 (2 * k)
  { c with disp := { c.disp with repair := c.disp.repair ++ [(copy, addr, uncorrectable)] } }

/-! ## One word (R302) -/

/-- What the side operation of a word does to a sequencer's own state (R301); RESOLVE goes through `resolveWord`. The
value loaded is written by the caller. -/
def SeqSt.side (q : SeqSt) (m : MicroWord) (len : Nat) : SeqSt :=
  let v := (q.w m.sideReg).toNat
  let n := sideWidth m.side
  if 5 ≤ m.side && m.side ≤ 8 then q.store len m.sideArg n v
  else if m.side = 10 then (if q.frame.isNone then q else { q with act := setAct q.act m.sideArg v })
  else if m.side = 11 then (if q.frame.isNone then q else { q with act := setAct q.act m.sideArg m.imm.toNat })
  else if m.side = 14 then { q with flags := setBit q.flags (8 + m.sideArg % 8) (bitOf m.sideArg 3) }
  else if m.side = 16 then { q with trap := setAt q.trap m.sideArg (q.w m.sideReg) }
  else q

/-- The value that a side load gives W[SIDE_REG] (R301). -/
def Channel.sideLoad (c : Channel) (q : SeqSt) (m : MicroWord) : Option Word64 :=
  if 1 ≤ m.side && m.side ≤ 4 then some (BitVec.ofNat 64 (q.load m.sideArg (sideWidth m.side)))
  else if m.side = 9 then some (BitVec.ofNat 64 (c.metadata q m.sideArg))
  else if m.side = 12 then some (BitVec.ofNat 64 (q.act.getD m.sideArg 0))
  else if m.side = 15 then some (q.trapWord m.sideArg)
  else none

/-- A RESOLVE (R186, R301): the drop code, or 0 with the entry delivered. Without a frame it delivers nothing. -/
def Channel.resolveWord (c : Channel) (cx : Ctx) (q : SeqSt) (m : MicroWord) : Nat × Option Nat × Channel :=
  match q.frame with
  | none => (0, none, c)
  | some fid =>
    match c.frame fid with
    | none => (0, none, c)
    | some f =>
      if 2 ≤ f.look.resolves then (0x37, none, c)
      else
        let c := c.modFrame fid fun f => { f with look := { f.look with resolves := f.look.resolves + 1 } }
        match c.resolve cx f ((q.w m.sideReg).toNat % 4096) with
        | (.inl code, c) => (code, none, c)
        | (.inr e, c) => (0, some e, c)

/-- The sequencer after steps 1 to 4 of R302, and the condition. -/
def Channel.execute (c : Channel) (q : SeqSt) (m : MicroWord) (entry : Option Nat) : SeqSt × Bool :=
  let out := aluRun m (q.w m.srcA) (m.opB q) q.flags
  let cond := c.condition q out.flags m.cond
  let load := c.sideLoad q m
  let r := { q with flags := out.flags }.side m (c.seqLen q)
  let regs := match out.value with
    | some v => setAt r.regs m.dst v
    | none => r.regs
  let regs := match load with
    | some v => setAt regs m.sideReg v
    | none => regs
  let res := match entry with
    | some e => r.res ++ [e]
    | none => r.res
  ({ r with regs := regs, res := res, steps := q.steps + if m.side = 13 then 3 else 1 }, cond)

/-- RTT restores the context that the trap saved and clears IN_TRAP (R315). -/
def SeqSt.restored (q : SeqSt) : SeqSt :=
  { q with
    pc := (q.trapWord 0).toNat % 2 ^ 14,
    flags := (q.trapWord 1).toNat &&& 0xFF07,
    regs := q.trap.drop 2 }

/-- Step 5 of R302: SEQ. -/
def Channel.applySeq (c : Channel) (cx : Ctx) (n : Nat) (q : SeqSt) (m : MicroWord) (cond : Bool) : Channel :=
  let next := (q.pc + 1) % 2 ^ 14
  let go := fun pc => c.setSeq n { q with pc := pc }
  let stop := fun (f : Nat → Channel) => match q.frame with
    | none => (c.setSeq n q).endFrameless n
    | some fid => f fid
  match m.seq with
  | 0 => go next
  | 1 => go m.target
  | 2 => go (if cond then m.target else next)
  | 3 => go (if cond then next else m.target)
  | 4 => if 4 ≤ q.stack.length then c.abortSeq cx n q.steps 0x4C
         else c.setSeq n { q with pc := m.target, stack := next :: q.stack }
  | 5 => (match q.stack with
      | [] => c.abortSeq cx n q.steps 0x4C
      | pc :: t => c.setSeq n { q with pc := pc, stack := t })
  | 6 => stop fun fid => c.endFrame cx n fid q.steps q.act q.window q.edits
  | 7 =>
    let reason := m.target % 256
    let bad := Nat.ble 0x3000 q.pc && Nat.blt reason 0xC0
    stop fun fid => (if bad then c.flag 0x471F 1 1 else c).dropWord cx n fid q.steps (if bad then 0x4A else reason) q.act
  | 8 => (c.setSeq n q).raiseTrap cx n (8 + m.target % 8) next
  | _ => if q.inTrap then c.setSeq n q.restored else c.abortSeq cx n q.steps 0x4C

/-- The vendor routine at 0x0000, taken as one unit: it ends with END or DROP within 12 steps (R326, R327); how many it
takes is free (assumption 6). Where the count reaches 4 × B(L) before its last word, the watchdog takes it at a word of its own
(R312). -/
def Channel.vendorUnit (c : Channel) (cx : Ctx) (n row : Nat) : Channel :=
  let q := c.seq n
  match q.frame with
  | none => if row = 6 then c.endFrameless n else c
  | some fid =>
    match c.frame fid with
    | none => c
    | some f =>
      let r := c.vendorRoutine cx f q.window q.edits
      let d := r.2.draw cx.free
      let steps := q.steps + 1 + d.1 % 12
      if 4 * budget f.len < steps then
        let w := d.2.draw cx.free
        w.2.setSeq n { q with steps := 4 * budget f.len, pc := 1 + w.1 % 0x2FFF }
      else if r.1.code = 0 then
        (if row = 6 then d.2.endFrame cx n fid steps r.1.act r.1.window r.1.edits else c)
      else if row = 7 then d.2.dropWord cx n fid steps r.1.code r.1.act
      else c

/-- The vendor's handlers (R313, R332): causes 3, 6 and 7 END, cause 4 returns to the routine's entry, cause 5 drops. -/
def Channel.vendorTrap (c : Channel) (cx : Ctx) (n row : Nat) : Channel :=
  let q := c.seq n
  let q' := { q with steps := q.steps + 1 }
  if q.pc = vendorHandler 4 then (if row = 9 then c.setSeq n q'.restored else c)
  else if q.pc = vendorHandler 5 then
    (if row ≠ 7 then c
    else
      match q.frame with
      | none => c.endFrameless n
      | some fid => c.dropWord cx n fid q'.steps 0x42 q.act)
  else if row ≠ 6 then c
  else
    match q.frame with
    | none => c.endFrameless n
    | some fid => c.endFrame cx n fid q'.steps q.act q.window q.edits

/-- Whether a pass has reached the watchdog's count; the watchdog's own handler runs on (R312). -/
def Channel.expired (c : Channel) (q : SeqSt) : Bool :=
  Nat.ble (4 * budget (c.seqLen q)) q.steps && !(q.inTrap && q.item % 256 == 5)

/-- A microword row on sequencer `n`: the word at its micro-PC executes when its SEQ is `row` (R296 to R302). A word that
cannot be read, or holds a reserved value, aborts the routine whatever the row (R297, R319). Of the vendor's words at 0x0000, 0x0018 and
0x0019, which begin what the model takes as units, only the check is read (assumption 6). -/
def Channel.runWord (c : Channel) (cx : Ctx) (n row : Nat) : Channel :=
  let q := c.seq n
  if !q.busy || q.inReset || c.expired q then c
  else if 0x10000 ≤ q.pc then c.vendorTrap cx n row
  else
    let copy := n / 32
    let vendor := fun (c : Channel) => if q.pc = 0 then c.vendorUnit cx n row else c.vendorTrap cx n row
    let run := fun (c : Channel) (d extra : Nat) =>
      let m := microWord d
      if m.reserved then ((c.inc 0x4720 2).flag 0x471F 1 4).abortSeq cx n (q.steps + extra + 1) 0x41
      else
        let r := if m.side = 13 then c.resolveWord cx q m else (0, none, c)
        if r.1 ≠ 0 then r.2.2.abortSeq cx n (q.steps + extra + 3) r.1
        else
          let e := r.2.2.execute { q with steps := q.steps + extra } m r.2.1
          r.2.2.applySeq cx n e.1 m e.2
    let known := q.pc == 0 || q.pc == 0x18 || q.pc == 0x19
    match readWord (c.storeWord copy q.pc) with
    | .bad => (c.noteWord copy q.pc true).abortSeq cx n (q.steps + 1) 0x41
    | .clean d => if known then vendor c else if (microWord d).reserved || (microWord d).seq = row then run c d 0 else c
    | .corrected d =>
      if known then vendor ((c.noteWord copy q.pc false).setSeq n { q with steps := q.steps + 1 })
      else if (microWord d).reserved || (microWord d).seq = row then run (c.noteWord copy q.pc false) d 1 else c

/-- A microword row. -/
def execWord (ch : Ch) (n row : Nat) (s : State) : Host.Outcome State Fault Refusal :=
  onPipe s ch (Nat.blt n 256) fun cx c => c.runWord cx n row

/-- NEXT (R298). -/
def execNext (ch : Ch) (n : Nat) (s : State) : Host.Outcome State Fault Refusal := execWord ch n 0 s
/-- JUMP (R298). -/
def execJump (ch : Ch) (n : Nat) (s : State) : Host.Outcome State Fault Refusal := execWord ch n 1 s
/-- BRANCH_T (R298). -/
def execBranchT (ch : Ch) (n : Nat) (s : State) : Host.Outcome State Fault Refusal := execWord ch n 2 s
/-- BRANCH_F (R298). -/
def execBranchF (ch : Ch) (n : Nat) (s : State) : Host.Outcome State Fault Refusal := execWord ch n 3 s
/-- CALL (R298). -/
def execCall (ch : Ch) (n : Nat) (s : State) : Host.Outcome State Fault Refusal := execWord ch n 4 s
/-- RETURN (R298). -/
def execReturn (ch : Ch) (n : Nat) (s : State) : Host.Outcome State Fault Refusal := execWord ch n 5 s
/-- END (R307). -/
def execEnd (ch : Ch) (n : Nat) (s : State) : Host.Outcome State Fault Refusal := execWord ch n 6 s
/-- DROP (R308). -/
def execDrop (ch : Ch) (n : Nat) (s : State) : Host.Outcome State Fault Refusal := execWord ch n 7 s
/-- TRAP (R314). -/
def execTrap (ch : Ch) (n : Nat) (s : State) : Host.Outcome State Fault Refusal := execWord ch n 8 s
/-- RTT (R315). -/
def execRtt (ch : Ch) (n : Nat) (s : State) : Host.Outcome State Fault Refusal := execWord ch n 9 s

/-! ## Dispatch (R293 to R295) -/

/-- The lowest free sequencer in the first group after the last one served that has one (R293). -/
def Channel.freeSeqNo (c : Channel) : Option Nat :=
  ((List.range 8).flatMap fun j => upFrom ((c.disp.group + 1 + j) % 8 * 32) 32).find? fun n =>
    let q := c.seq n
    !q.busy && !q.inReset

/-- DISPATCH of a frame whose lookups are complete (R293). -/
def Channel.dispatchFrame (c : Channel) (cx : Ctx) (fid : Nat) : Channel :=
  match c.frame fid with
  | none => c
  | some f =>
    let older := c.frames.takeWhile fun g => g.id != fid
    let waits := older.any fun g => g.pipe == f.pipe && (g.pos == .parse || g.pos == .look)
    let held := (c.frames.filter fun g => g.pipe == f.pipe && (g.pos == .run || g.pos == .done)).length
    let found := f.look.probed && f.look.routed && (f.look.searched || !c.bit 0x4601 f.look.profile 8)
    if f.pos != .look || !found || waits || 64 ≤ held then c
    else
      match c.freeSeqNo with
      | none => c
      | some n =>
        let c := c.modFrame fid fun f => { f with pos := .run }
        let c := { c with disp := { c.disp with group := n / 32 } }
        let entry := c.reg 0x4703 f.look.profile % 2 ^ 14
        let c := c.setSeq n { SeqSt.empty with
          frame := some fid, pc := entry, window := f.window, act := dispatchAct f }
        if f.look.parity.isSome then c.raiseTrap cx n 4 entry else c

/-- DISPATCH (R293). -/
def execDispatch (ch : Ch) (fid : Nat) (s : State) : Host.Outcome State Fault Refusal :=
  onPipe s ch true fun cx c => c.dispatchFrame cx fid

/-- FRAMELESS_DISPATCH of the oldest waiting cause (R295, R314). The detail of causes 6 and 7, and the word a frameless
routine would resume at, are free. -/
def Channel.dispatchFrameless (c : Channel) (cx : Ctx) : Channel :=
  match c.disp.wait, c.freeSeqNo with
  | (cause, arg, detail) :: rest, some n =>
    let a := c.draw cx.free
    let b := a.2.draw cx.free
    let c := b.2.inc 0x4720 cause
    let detail := if cause = 3 then detail else a.1 % 2 ^ 32
    let c := { c with disp := { c.disp with wait := rest, group := n / 32 } }
    let q := { SeqSt.empty with
      cause := cause, regs := setAt SeqSt.empty.regs 0 (BitVec.ofNat 64 (if cause = 6 then arg else 0)) }
    c.setSeq n { q with
      trap := q.saved b.1, flags := 2 ^ 16, item := detail * 2 ^ 32 + cause, pc := c.vectorOf cause, steps := 1 }
  | _, _ => c

/-- FRAMELESS_DISPATCH (R295). -/
def execFramelessDispatch (ch : Ch) (s : State) : Host.Outcome State Fault Refusal :=
  onPipe s ch true fun cx c => c.dispatchFrameless cx

/-- STEP_WATCHDOG (R312). -/
def Channel.watchdog (c : Channel) (cx : Ctx) (n : Nat) : Channel :=
  let q := c.seq n
  if !q.busy || q.inReset || !c.expired q then c
  else (c.flag 0x471F 1 16).raiseTrap cx n 5 q.pc

/-- STEP_WATCHDOG (R312). -/
def execStepWatchdog (ch : Ch) (n : Nat) (s : State) : Host.Outcome State Fault Refusal :=
  onPipe s ch (Nat.blt n 256) fun cx c => c.watchdog cx n

/-- SEQUENCER_RESET_END (R317). -/
def execSequencerResetEnd (ch : Ch) (n : Nat) (s : State) : Host.Outcome State Fault Refusal :=
  onCh s ch (Nat.blt n 256) fun _ c => if (c.seq n).inReset then c.setSeq n SeqSt.empty else c

/-! ## Repair and scrub (R319, R320) -/

/-- The data of a word in the lowest-numbered copy, but `copy`, that reads clean. -/
def Channel.cleanCopy (c : Channel) (copy addr : Nat) : Option Nat :=
  ((List.range 8).filter (· ≠ copy)).findSome? fun k =>
    match readWord (c.storeWord k addr) with
    | .clean d => some d
    | _ => none

/-- WORD_REPAIR: the word is rewritten in its copy, corrected or from a clean copy (R319). -/
def Channel.repairWord (c : Channel) (copy addr : Nat) : Channel :=
  match c.disp.repair.find? fun r => r.1 == copy && r.2.1 == addr with
  | none => c
  | some r =>
    let c := { c with disp := { c.disp with repair := c.disp.repair.filter fun x => !(x.1 == copy && x.2.1 == addr) } }
    match readWord (c.storeWord copy addr), r.2.2 with
    | .clean _, _ => c
    | .corrected d, _ => c.writeCopy copy addr d
    | .bad, _ =>
      match c.cleanCopy copy addr with
      | some d => (c.writeCopy copy addr d).inc 0x4721 3
      | none => ((c.putBit 0x4701 1 2 true).flag 0x471F 1 64).log 0x31 addr

/-- WORD_REPAIR (R319). -/
def execWordRepair (ch : Ch) (copy addr : Nat) (s : State) : Host.Outcome State Fault Refusal :=
  onCh s ch (Nat.blt copy 8 && Nat.blt addr 16384) fun _ c => c.repairWord copy addr

/-- CONTROL_STORE_SCRUB: each copy reads one word (R320). -/
def Channel.scrubWord (c : Channel) : Channel :=
  if !c.bit 0x4700 1 1 then c
  else
    let a := c.disp.scrub
    let c := { c with disp := { c.disp with scrub := (a + 1) % 16384 } }
    (List.range 8).foldl (fun c copy => match readWord (c.storeWord copy a) with
      | .clean _ => c
      | .corrected _ => c.noteWord copy a false
      | .bad => c.noteWord copy a true) c

/-- CONTROL_STORE_SCRUB (R320). -/
def execControlStoreScrub (ch : Ch) (s : State) : Host.Outcome State Fault Refusal :=
  onCh s ch true fun _ c => c.scrubWord

/-- Whether some word that cannot be read in a copy has no clean copy (R319, R329). -/
def Channel.unrepairable (c : Channel) : Bool :=
  (listedIn c.win 0x14710).any fun e =>
    readWord (c.storeWord (e / 16384) (e % 16384)) == .bad && (List.range 8).all fun k =>
      match readWord (c.storeWord k (e % 16384)) with
      | .clean _ => false
      | _ => true

/-! ## Host command and time trigger (R333, R334) -/

/-- RAISE accepted: BUSY, and cause 6 waits with W0 = Argument (R333). -/
def Channel.raiseCommand (c : Channel) : Channel :=
  let c := c.putBit 0x4707 1 8 true
  { c with disp := { c.disp with wait := c.disp.wait ++ [(6, c.reg 0x4707 2, 0)] } }

/-- Whether a routine of cause 7 runs or waits (R334). -/
def Channel.triggerRuns (c : Channel) : Bool :=
  c.disp.wait.any (fun w => w.1 == 7) || c.seqs.any fun q => q.2.frame.isNone && q.2.cause == 7

/-- TIME of 0x4708:01 in nanoseconds of the 32-bit seconds. -/
def triggerTime (v : Nat) : Nat := bits v 61 30 * 1000000000 + bits v 29 0

/-- TIME_TRIGGER: the time base reaches TIME (R334). In NIGHT the trigger is skipped (R538, assumption 95). -/
def Channel.timeTrigger (c : Channel) (cx : Ctx) : Channel :=
  let v := c.reg 0x4708 1
  if !bitOf v 63 || 0 < c.time.ahead (triggerTime v) then c
  else
    let c := if c.triggerRuns || cx.night == .asleep then c.flag 0x471F 1 128
      else { c with disp := { c.disp with wait := c.disp.wait ++ [(7, 0, 0)] } }
    let per := c.reg 0x4708 2
    if per = 0 then c.putBit 0x4708 1 63 false
    else
      let t := triggerTime v + per * 1000
      c.put 0x4708 1 (2 ^ 63 + t / 1000000000 % 2 ^ 32 * 2 ^ 30 + t % 1000000000)

/-- TIME_TRIGGER (R334). -/
def execTimeTrigger (ch : Ch) (s : State) : Host.Outcome State Fault Refusal :=
  onCh s ch true fun cx c => c.timeTrigger cx

end Sys2Proof.Machine
end

