-- ==== Sys2Proof/Machine/Check.lean ====
section
/-! DEFINITION. Check-value units, the scan engine, and the grants of the internal requesters (R359 to R361, R469 to R486). -/

namespace Sys2Proof.Machine

/-! ## Parameters -/

/-- The parameters of unit `u` (R469, R483). -/
def Channel.crcOf (c : Channel) (u : Nat) : CrcParams :=
  let ctl := c.reg 0x4D01 u
  ⟨bits ctl 6 0, c.reg 0x4D02 u, bitOf ctl 8, bitOf ctl 9, c.reg 0x4D04 u⟩

/-- The fold bytes of unit `u` (R471). -/
def Channel.foldOf (c : Channel) (u : Nat) : List Byte :=
  match bits (c.reg 0x4D01 u) 13 12 with
  | 1 => leBytes 8 (c.reg 0x4D05 u)
  | 2 => leBytes 8 (c.reg 0x4D06 u)
  | _ => []

/-! ## Memory spaces (R473, R474) -/

/-- Window, entry size in bytes and number of entries of a table of R474. -/
def scanTable : Nat → Nat × Nat × Nat
  | 0 => (0x4411, 16, sizeOf_ .bridge)
  | 1 => (0x4421, 8, sizeOf_ .sub)
  | 2 => (0x4511, 28, sizeOf_ .v4)
  | 3 => (0x4512, 28, sizeOf_ .v6)
  | 4 => (0x4610, 96, 32768)
  | 5 => (0x4506, 16, 65536)
  | 6 => (0x4310, 8, 65536)
  | _ => (0x4311, 16, 4096)

/-- The canonical entry of a table's entry (R474). -/
def canonical (t e : Nat) : Nat :=
  match t with
  | 0 => setBits (setBits (setBit e 125 false) 123 120 0) 59 44 0
  | 1 => setBits e 59 56 0
  | 2 | 3 => setBits e 62 59 0
  | 4 => setBits e 123 112 0
  | 5 => setBits e 123 120 0
  | _ => e

/-- Whether a slot counts in a set digest (R476). -/
def digestValid (t e : Nat) : Bool :=
  match t with
  | 0 | 4 => bitOf e 127
  | 1 | 2 | 3 => bitOf e 63
  | 5 => canonical 5 e != 2 ^ 113
  | 6 => e != 0
  | _ => e != 0xFFFFFFFF * 2 ^ 96

/-- What a valid slot contributes (R476). -/
def digestBytes (t a e : Nat) : List Byte :=
  (if t ≤ 3 then [] else leBytes 4 a) ++ beBytes (scanTable t).2.1 (canonical t e)

/-- The sum of the values of the valid slots among some addresses (R476). -/
def Channel.digestSum (c : Channel) (p : CrcParams) (init t : Nat) (l : List Nat) : Nat :=
  (l.filter fun a => digestValid t (c.wget (scanTable t).1 a)).foldl
    (fun s a => (s + crcOut p (crcRun p init (digestBytes t a (c.wget (scanTable t).1 a)))) % 2 ^ p.width) 0

/-- Cells of a channel (R341). -/
def allCells (v : Variant) : Nat := if v = .C then 33554432 else 67108864

/-- Byte `a` of the cell area: of a stored frame or of the fallback ring; none where no rule says what it holds. -/
def Channel.bufferByte (c : Channel) (v : Variant) (a : Nat) : Option Byte :=
  let ring := (allCells v - 1048576) * 256
  if v ≠ .A && ring ≤ a then some (BitVec.ofNat 8 (c.wget 0x4C40 ((a - ring) / 64) >>> (8 * ((a - ring) % 64))))
  else
    (c.frames.findSome? fun f => match f.cells.findIdx? (· == a / 256) with
      | none => none
      | some i => some ((withTag f.bytes f.tag)[256 * i + a % 256]?)).join

/-- Entry `k` of the scanned table `t` as a chunk from byte `a` reads it: an entry that the chunk before ended within is read once
(R477). -/
def Channel.scanEntry (c : Channel) (u t a k : Nat) : Nat :=
  let z := (scanTable t).2.1
  if k = a / z && a % z ≠ 0 then (c.job u).carry else c.wget (scanTable t).1 k

/-- Bytes `a` to `a + n − 1` of a space, with how many free values they took (R473). -/
def Channel.spaceBytes (c : Channel) (cx : Ctx) (u a n : Nat) : List Byte × Nat :=
  let ctl := c.reg 0x4D01 u
  match bits ctl 21 20 with
  | 0 => ((List.range n).map fun i => (c.bufferByte cx.variant (a + i)).getD
      (BitVec.ofNat 8 (Config.freeNat (cx.free + c.box.drawn + i))), n)
  | 1 => ((List.range n).map fun i =>
      BitVec.ofNat 8 (c.wget 0x4C40 ((a + i) / 64) >>> (8 * ((a + i) % 64))), 0)
  | 2 =>
    let word := fun k => match readWord (c.storeWord (bits ctl 19 17) k) with
      | .clean d => d
      | .corrected d => d
      | .bad => 0
    ((((upFrom (a / 24) ((a + n + 23) / 24 - a / 24)).flatMap fun k => beBytes 24 (word k)).drop (a % 24)).take n, 0)
  | _ =>
    let t := bits ctl 27 24
    let z := (scanTable t).2.1
    ((((upFrom (a / z) ((a + n + z - 1) / z - a / z)).flatMap fun k =>
      beBytes z (canonical t (c.scanEntry u t a k))).drop (a % z)).take n, 0)

/-- The words of a control store span whose read needs a correction or fails (R319, R473). -/
def Channel.spanFaults (c : Channel) (u a n : Nat) : List (Nat × Bool) :=
  let ctl := c.reg 0x4D01 u
  if bits ctl 21 20 ≠ 2 || n = 0 then []
  else (upFrom (a / 24) ((a + n - 1) / 24 + 1 - a / 24)).filterMap fun k =>
    match readWord (c.storeWord (bits ctl 19 17) k) with
    | .clean _ => none
    | .corrected _ => some (k, false)
    | .bad => some (k, true)

/-! ## Jobs (R475 to R480) -/

/-- Replace it. -/
def Channel.setJob (c : Channel) (u : Nat) (j : JobSt) : Channel :=
  { c with jobs := tabSet (fun _ => JobSt.empty) c.jobs u j }

/-- Whether unit `u` runs a job. -/
def Channel.jobBusy (c : Channel) (u : Nat) : Bool := c.bit 0x4D09 u 16

/-- A job begins: BUSY is set, the results are cleared (R478). -/
def Channel.beginJob (c : Channel) (u reg : Nat) : Channel :=
  (((c.put 0x4D09 u (2 ^ 16)).put 0x4D0A u 0).put 0x4D0B u 0).setJob u ⟨0, reg, 0, false, 0⟩

/-- The items of a drill's digest phase but table digests: the customer region (R516). -/
def customerItem : Nat := 8

/-- The settings of a job of the module's own: control, polynomial, initial value, final XOR, START and LENGTH (R321, R516). -/
def OwnJob.settings : OwnJob → Nat × Nat × Nat × Nat × Nat × Nat
  | .region k => (2 * 2 ^ 20 + k * 2 ^ 17 + 0x320, 0x1EDC6F41, 0xFFFFFFFF, 0xFFFFFFFF, 0, 294912)
  | .digest i =>
    if i = customerItem then (2 * 2 ^ 20 + 0x340, 0x42F0E1EBA9EA3693, 2 ^ 64 - 1, 2 ^ 64 - 1, 294912, 98304)
    else (i * 2 ^ 24 + 3 * 2 ^ 20 + 2 ^ 16 + 0x340, 0x42F0E1EBA9EA3693, 2 ^ 64 - 1, 2 ^ 64 - 1, 0,
      (scanTable i).2.1 * (scanTable i).2.2)

/-- Whether a job is one of stage 5, which runs in NIGHT too (R540, assumption 117). -/
def OwnJob.bringup : OwnJob → Bool
  | .region _ => true
  | .digest _ => false

/-- The next of the module's own jobs starts as soon as unit 0 is free, with its settings in the unit's objects (R482). -/
def Channel.ownGo (c : Channel) (cx : Ctx) : Channel :=
  match c.own.todo with
  | [] => c
  | (j, _) :: _ =>
    if c.own.running || c.jobBusy 1 || (cx.night != .awake && !j.bringup) then c
    else
      let p := j.settings
      let c := (((c.put 0x4D01 1 p.1).put 0x4D02 1 p.2.1).put 0x4D03 1 p.2.2.1).put 0x4D04 1 p.2.2.2.1
      let c := (((c.put 0x4D06 1 p.2.2.2.2.1).put 0x4D07 1 p.2.2.2.2.2).put 0x4D08 1 0).beginJob 1 p.2.2.1
      { c with own := { c.own with running := true } }

/-- A job of unit 0 has ended, with a result that stands where it ended OK and unchanged: one of the module's own leaves it, or in a drill
is run once more (R516). -/
def Channel.ownEnded (c : Channel) (res : Option Nat) : Channel :=
  match c.own.running, c.own.todo with
  | true, (j, again) :: t =>
    if res.isNone && !again && !j.bringup then { c with own := { c.own with todo := (j, true) :: t, running := false } }
    else { c with own := { c.own with todo := t, running := false, got := c.own.got ++ [res] } }
  | _, _ => c

/-- A job ends (R480, R485, R486). -/
def Channel.endJob (c : Channel) (cx : Ctx) (u res value : Nat) : Channel :=
  let j := c.job u
  let k := c.reqPool 3
  let c := if j.granted then c.reqGive cx 3 (.unit u)
    else c.setPool k { c.pool k with waiting := (c.pool k).waiting.filter (· != .scan u) }
  let c := c.setJob u JobSt.empty
  let changed := c.bit 0x4D09 u 10
  let c := (c.putBit 0x4D09 u 16 false).putBits 0x4D09 u 7 0 res
  let c := (c.put 0x4D0A u value).inc 0x4D20 u
  let c := if 2 ≤ res then c.inc 0x4D21 u else c
  let c := if changed then c.flag 0x4D0F 1 4 else c
  let c := if res = 2 then c.flag 0x4D0F 1 1 else if res = 3 then c.flag 0x4D0F 1 2 else if res = 4 then c.flag 0x4D0F 1 8 else c
  if u = 1 then (c.ownEnded (if res = 0 && !changed then some value else none)).ownGo cx else c

/-- The result of a job whose bytes are consumed (R470, R476). -/
def Channel.jobValue (c : Channel) (u : Nat) : Nat :=
  if c.bit 0x4D01 u 16 then (c.job u).sum else crcOut (c.crcOf u) (c.job u).reg

/-- START has been accepted (R472, R478). -/
def Channel.startJob (c : Channel) (cx : Ctx) (u : Nat) : Channel :=
  let p := c.crcOf u
  let reg := crcRun p (c.reg 0x4D03 u) (c.foldOf u)
  let c := c.beginJob u reg
  if c.reg 0x4D07 u = 0 then (c.putBit 0x4D09 u 9 true).endJob cx u 0 (crcOut p reg) else c

/-- ABORT has been accepted: it loses against a job whose last chunk is consumed (R480). -/
def Channel.abortJob (c : Channel) (cx : Ctx) (u : Nat) : Channel :=
  if !c.jobBusy u then c
  else if c.reg 0x4D07 u ≤ (c.job u).pos then c.endJob cx u 0 (c.jobValue u)
  else c.endJob cx u 1 0

/-- The unit consumes its next chunk of at most `size` bytes, whose cells it holds (R479). A slot of a set digest counts with the chunk in
which it begins. -/
def Channel.consume (c : Channel) (cx : Ctx) (u size : Nat) : Channel :=
  let j := c.job u
  let len := c.reg 0x4D07 u
  let a := c.reg 0x4D06 u + j.pos
  let n := min size (len - j.pos)
  let faults := c.spanFaults u a n
  let c' := faults.foldl (fun c f => c.noteWord (bits (c.reg 0x4D01 u) 19 17) f.1 f.2) c
  let cells := bits (c.reg 0x4D01 u) 21 20 == 0 && c.damage.cells.any fun k => Nat.ble a (256 * k + 255) && Nat.blt (256 * k) (a + n)
  if cells || faults.any (·.2) then c'.endJob cx u 2 0
  else
    let p := c.crcOf u
    let t := bits (c.reg 0x4D01 u) 27 24
    let z := (scanTable t).2.1
    let got := c.spaceBytes cx u a n
    let next := if c.bit 0x4D01 u 16 then
        let whole := (listedIn c.win (scanTable t).1).filter fun i => Nat.ble a (z * i) && Nat.blt (z * i) (a + n)
        { j with sum := (j.sum + c.digestSum p (c.reg 0x4D03 u) t whole) % 2 ^ p.width }
      else { j with reg := crcRun p j.reg got.1 }
    let c := if c.bit 0x4D01 u 16 then c' else { c' with box := { c'.box with drawn := c'.box.drawn + got.2 } }
    let carry := if (a + n) % z = 0 then 0 else c.scanEntry u t a ((a + n) / z)
    let c := (c.reqGive cx 3 (.unit u)).setJob u { next with pos := j.pos + n, granted := false, carry := carry }
    (c.put 0x4D0B u (j.pos + n)).add 0x4D22 u n

/-- The unit whose chunk is next (R479): in rotating order after the one served last, one that has a chunk to come and does not wait for
its cells. -/
def Channel.chunkTurn (c : Channel) : Option Nat :=
  ((List.range 4).map fun i => 1 + (c.scan + i) % 4).find? fun u =>
    c.jobBusy u && Nat.blt (c.job u).pos (c.reg 0x4D07 u) &&
      ((c.job u).granted || !(c.pool (c.reqPool 3)).waiting.contains (.scan u))

/-- A unit takes the 16 cells of its next chunk, unless it holds them; whether it has them, or waits (R359, R479). -/
def Channel.takeChunk (c : Channel) (cx : Ctx) (u : Nat) : Bool × Channel :=
  if (c.job u).granted then (true, c)
  else
    let got := c.request cx (.scan u)
    (got.1, if got.1 then got.2.setJob u { c.job u with granted := true } else got.2)

/-- CHECK_CHUNK: the unit whose turn it is takes 16 cells, or waits for them, and consumes a chunk (R479). -/
def Channel.checkChunk (c : Channel) (cx : Ctx) (u : Nat) (readError : Bool) : Channel :=
  if c.chunkTurn ≠ some u then c
  else
    let got := { c with scan := u }.takeChunk cx u
    if !got.1 then got.2 else if readError then got.2.endJob cx u 2 0 else got.2.consume cx u 4096

/-- CHECK_CHUNK (R479). Unit numbers are 0 to 3; sub-indices one more. -/
def execCheckChunk (ch : Ch) (unit : Nat) (readError : Bool) (s : State) : Host.Outcome State Fault Refusal :=
  onCh s ch (Nat.blt unit 4) fun cx c => c.checkChunk cx (unit + 1) readError

/-- CHECK_JOB_END: a job whose bytes are consumed ends OK (R480). -/
def execCheckJobEnd (ch : Ch) (unit : Nat) (s : State) : Host.Outcome State Fault Refusal :=
  onCh s ch (Nat.blt unit 4) fun cx c =>
    let u := unit + 1
    if c.jobBusy u && Nat.ble (c.reg 0x4D07 u) (c.job u).pos then c.endJob cx u 0 (c.jobValue u) else c

/-- Every job of the channel ends with MODE (R480, R537); one of stage 5 goes on (R540, assumption 117). -/
def Channel.endJobs (c : Channel) (cx : Ctx) : Channel :=
  let keeps := fun u => u == 1 && c.own.running && c.own.todo.any fun j => j.1.bringup
  (upFrom 1 4).foldl (fun c u => if c.jobBusy u && !keeps u then c.endJob cx u 4 0 else c) c

/-! ## The module's own jobs (R321, R482, R516) -/

/-- The module's own jobs are ordered; the first starts as soon as unit 0 is free (R482). -/
def Channel.orderJobs (c : Channel) (cx : Ctx) (l : List OwnJob) : Channel :=
  { c with own := { c.own with todo := l.map fun j => (j, false), got := [] } }.ownGo cx

/-- The vendor-region check of the eight copies: a CRC-32C job each (R321, R482). -/
def Channel.regionJobs (c : Channel) (cx : Ctx) : Channel := c.orderJobs cx ((List.range 8).map OwnJob.region)

/-- The module gives its own jobs up: one that runs goes on as any other, and no table is held. -/
def Channel.dropJobs (c : Channel) : Channel := { c with own := Channel.fresh.own }

/-- The rest of the module's own jobs runs to its end, as far as cells can be had, for a row that reports that end: a digest's remaining
table in one piece, whose result is that of its chunks. -/
def Channel.ownRun (cx : Ctx) : Nat → Channel → Channel
  | 0, c => c
  | n + 1, c =>
    if !c.own.running then c
    else if c.reg 0x4D07 1 ≤ (c.job 1).pos then Channel.ownRun cx n (c.endJob cx 1 0 (c.jobValue 1))
    else
      let got := c.takeChunk cx 1
      if !got.1 then got.2
      else Channel.ownRun cx n (got.2.consume cx 1 (if bits (c.reg 0x4D01 1) 21 20 = 3 then c.reg 0x4D07 1 else 4096))

/-- The own jobs that are ordered run to their end: a region check takes 72 chunks, a digest two turns or 25. -/
def Channel.ownFinish (c : Channel) (cx : Ctx) : Channel := Channel.ownRun cx 1000 (c.ownGo cx)

/-! ## Grants and abandoned waits (R360, R361) -/

/-- A wait that has been granted goes on (R359). -/
def Channel.granted (c : Channel) : Wait → Channel
  | .capture => { c with cap := { c.cap with ready := true } }
  | .scan u => c.setJob u { c.job u with granted := true }
  | .recirc fid no => c.modCopy (fid, no) fun x => { x with req := true, pos := .edited }
  | .host fid no => c.modCopy (fid, no) fun x => { x with req := true, pos := .queued }

/-- REQUESTER_GRANT: the request at the head is granted when there is room (R360). -/
def Channel.grantWait (c : Channel) (cx : Ctx) (k : Nat) : Channel :=
  match (c.pool k).waiting with
  | [] => c
  | w :: rest =>
    let n := c.waitFor w
    if n.2 = 0 then c.setPool k { c.pool k with waiting := rest }
    else
      match c.serve cx w with
      | none => c
      | some c => (c.setPool k { c.pool k with waiting := rest }).granted w

/-- REQUESTER_GRANT (R360). -/
def execRequesterGrant (ch : Ch) (pool : Nat) (s : State) : Host.Outcome State Fault Refusal :=
  onCh s ch (Nat.blt pool 15) fun cx c => c.grantWait cx pool

/-- REQUESTER_WAIT_TIMEOUT: the request at the head is abandoned (R361). -/
def Channel.abandonWait (c : Channel) (cx : Ctx) (k : Nat) : Channel :=
  match (c.pool k).waiting with
  | [] => c
  | w :: rest =>
    let c := c.setPool k { c.pool k with waiting := rest }
    let c := (c.flag 0x4804 (k + 1) 16).inc 0x4824 (c.waitFor w).1
    match w with
    | .capture => c.dropIntake cx 2
    | .scan u => if c.jobBusy u then c.endJob cx u 3 0 else c
    | .recirc fid no => (c.inc 0x4820 12).discard cx (fid, no) 0x7B
    | .host fid no => (c.inc 0x4820 12).discard cx (fid, no) 0x7B

/-- REQUESTER_WAIT_TIMEOUT (R361). -/
def execRequesterWaitTimeout (ch : Ch) (pool : Nat) (s : State) : Host.Outcome State Fault Refusal :=
  onCh s ch (Nat.blt pool 15) fun cx c => c.abandonWait cx pool

end Sys2Proof.Machine
end

