-- ==== Sys2Proof/Machine/Lacp.lean ====
section
/-! DEFINITION. Received MAC control frames, the link of a front port, LACP and Marker (R86, R95, R100 to R109). -/

namespace Sys2Proof.Machine

/-! ## Holding by PAUSE and PFC (R100, R101) -/

/-- The service classes that PFC holds at a port (R101). -/
def Channel.heldClasses (c : Channel) (p : Nat) : Nat :=
  (List.range 8).foldl (fun m cls => if c.heldClass p cls then m + 2 ^ cls else m) 0

/-- Show what holds a port in its status object (R88, R165). -/
def Channel.showHold (c : Channel) (p : Nat) : Channel :=
  let x := c.port p
  if p ≤ 48 then (c.putBit 0x4102 p 23 x.paused).putBits 0x4102 p 31 24 (c.heldClasses p)
  else c.putBit 0x4251 (p - 48) 16 (x.paused || c.heldClasses p != 0)

/-! ## LACP (R104 to R109) -/

/-- The actor state octet of IEEE 802.1AX (assumption 20): activity, timeout, aggregation, synchronization, collecting,
distributing, defaulted, expired (R106). -/
def Channel.actorOctet (c : Channel) (cx : Ctx) (p : Nat) : Nat :=
  let x := c.port p
  bits (c.hw 0x4108 p) 49 49 + 2 * bits (c.hw 0x4108 p) 48 48 + 4 +
    (if cx.forwards && cx.night != .asleep && x.partner && x.sync then (if cx.released then 0x28 else 0x38) else 0) + (if x.partner then 0 else 0x40) +
    (if x.expired then 0x80 else 0)

/-- The information field of an LACPDU's actor or partner, without its type and length (assumption 20). -/
def lacpField (sys key prio port state : Nat) : List Byte :=
  beBytes 8 sys ++ beBytes 2 key ++ beBytes 2 prio ++ beBytes 2 port ++ beBytes 1 state ++ beBytes 3 0

/-- The 128 bytes of the LACPDU that port `p` sends (R104; the layout is IEEE 802.1AX's, assumption 20). -/
def Channel.lacpdu (c : Channel) (cx : Ctx) (p : Nat) : List Byte :=
  let own := c.hw 0x4108 p
  let far := c.reg 0x4109 p
  let body := beBytes 6 0x0180C2000002 ++ beBytes 6 (c.hw 0x410A p) ++ beBytes 2 0x8809 ++ beBytes 2 0x0101 ++
    beBytes 2 0x0114 ++ lacpField (c.reg 0x410C 1) (bits own 31 16) (bits own 15 0) (p + 0x100 * cx.ch.num) (c.actorOctet cx p) ++
    beBytes 2 0x0214 ++ lacpField (c.reg 0x410B p) (bits far 63 48) (c.port p).farPrio (bits far 47 32) (bits far 7 0) ++
    beBytes 2 0x0310 ++ beBytes 14 0 ++ beBytes 52 0
  body ++ fcsBytes body

/-- Whether a front port runs the LACP machines (R104): with LACP_EN set and a source address. A relayed 0x4100 may bring LACP_EN and
ENABLE to a port whose own 0x410A is zero; its machines then rest (assumption 109). -/
def Channel.runsLacp (c : Channel) (p : Nat) : Bool := c.hwBit 0x4100 p 26 && c.hw 0x410A p != 0

/-- Send an LACPDU (R104). One that PAUSE or the limit of R107 holds waits for the end of the PAUSE or of the fast periodic time,
which is a second of the service block's clock (assumption 78). `role` marks the one kept for a change of role. -/
def Channel.sendLacpdu (c : Channel) (cx : Ctx) (p : Nat) (role : Bool) : Channel :=
  let x := c.port p
  if !c.linkUp p || !c.runsLacp p then c
  else
    let now := cx.sbTime / 100000
    let n := if x.pduTime = now then x.sentPdu else 0
    if x.paused || (if role then 3 else 2) ≤ n then c.setPort p { x with owed := true, forRole := x.forRole || role }
    else
      let c := c.setPort p { x with sentPdu := n + 1, pduTime := now, owed := false, forRole := false }
      c.sendGuarded p (.lacpdu cx.ch p (c.lacpdu cx p))

/-- Send the LACPDU that waits at a port, if one does (R100, R107). -/
def Channel.sendOwed (c : Channel) (cx : Ctx) (p : Nat) : Channel :=
  if (c.port p).owed then c.sendLacpdu cx p (c.port p).forRole else c

/-- Bring a member's actor state up to the role of its channel and the partner (R106): DISTRIBUTING and 0x4109. -/
def Channel.updateActor (c : Channel) (cx : Ctx) (p : Nat) : Channel :=
  let o := c.actorOctet cx p
  let on := c.linkUp p && c.hwBit 0x4100 p 26
  let c := c.putBit 0x4102 p 20 (on && bitOf o 5)
  if (c.port p).partner then c.putBits 0x4109 p 15 8 o else c

/-- Update a member, and send an LACPDU when its synchronization has changed. -/
def Channel.refreshMember (c : Channel) (cx : Ctx) (p : Nat) : Channel :=
  let before := c.bit 0x4102 p 20
  let c := c.updateActor cx p
  if c.bit 0x4102 p 20 != before then c.sendLacpdu cx p false else c

/-- The member has no partner: DEFAULTED (R106, R109). -/
def Channel.dropPartner (c : Channel) (p : Nat) : Channel :=
  ((c.setPort p { c.port p with partner := false, sync := false, farPrio := 0, expired := false }).put 0x4109 p 0).put 0x410B p 0

/-- The partner's information runs out (R106, R107): the receive machine of IEEE 802.1AX goes from CURRENT to EXPIRED, which keeps
the information out of synchronization, and from EXPIRED to DEFAULTED. -/
def Channel.expirePartner (c : Channel) (cx : Ctx) (p : Nat) : Channel :=
  let x := c.port p
  if x.expired then (c.dropPartner p).refreshMember cx p
  else if x.partner then ((c.setPort p { x with expired := true, sync := false }).flag 0x410D p 32).refreshMember cx p
  else c

/-- An LACPDU is consumed by the machines (R95, R104). -/
def Channel.takeLacpdu (c : Channel) (cx : Ctx) (p : Nat) (i : LacpInfo) : Channel :=
  let c := c.inc 0x411C p
  if !c.runsLacp p then c
  else
    let c := c.setPort p { c.port p with partner := true, sync := bitOf i.state 3, farPrio := i.prio, expired := false }
    let c := c.put 0x410B p ((i.sysPrio % 2 ^ 16) * 2 ^ 48 + i.sysMac % 2 ^ 48)
    let c := c.put 0x4109 p ((i.key % 2 ^ 16) * 2 ^ 48 + (i.port % 2 ^ 16) * 2 ^ 32 + i.state % 256)
    c.refreshMember cx p

/-- A Marker PDU is answered by a Marker Response, which no PAUSE holds (R95, R100); on a silent plain port of R108 too (assumption
111). -/
def Channel.answerMarker (c : Channel) (cx : Ctx) (p : Nat) : Channel := (c.inc 0x411D p).sendGuarded p (.marker cx.ch p)

/-! ## MAC control frames (R95, R100) -/

/-- A PAUSE or PFC hold ends (R100): `none` is PAUSE, `some i` priority `i`. An LACPDU that PAUSE held goes out. -/
def Channel.endHold (c : Channel) (cx : Ctx) (p : Nat) (prio : Option Nat) : Channel :=
  let x := c.port p
  match prio with
  | none => ((c.setPort p { x with paused := false }).showHold p).sendOwed cx p
  | some i => (c.setPort p { x with pfc := setBit x.pfc i false }).showHold p

/-- What a PAUSE or PFC frame does to a port; another opcode is dropped with 0x08 (R93). The answer says whether it was
dropped. A PFC frame that is dropped because FLOW_MODE is not PFC counts in RX_PFC and as unsupported (R95, R168). -/
def Channel.takeControl (c : Channel) (cx : Ctx) (p : Nat) : MacControl → Bool × Channel
  | .pause q =>
    let c := if p ≤ 48 then c.inc 0x411A p else c.inc 0x4271 (p - 48)
    (false, if c.flowMode p ≠ 1 then c
      else if q = 0 then c.endHold cx p none
      else (c.setPort p { c.port p with paused := true }).showHold p)
  | .pfc en qs =>
    let c := if p ≤ 48 then c.inc 0x411B p else c.inc 0x4272 (p - 48)
    if c.flowMode p ≠ 2 then (true, if p ≤ 48 then c.inc 0x411E p else c)
    else
      let on := bits (c.flowCtl p) 23 16
      let held := (List.range 8).foldl (fun m i =>
        if bitOf en i && bitOf on i then setBit m i (qs.getD i 0 != 0) else m) (c.port p).pfc
      (false, (c.setPort p { c.port p with pfc := held }).showHold p)
  | .other _ => (true, if p ≤ 48 then c.inc 0x411E p else c)

/-- The MAC control frame in some bytes (R95; the layout is IEEE 802.3's, assumption 21). -/
def controlOf (b : List Byte) : MacControl :=
  let op := field b 14 2
  if op = 1 then .pause (field b 16 2)
  else if op = 0x0101 then .pfc (field b 16 2 % 256) ((List.range 8).map fun i => field b (18 + 2 * i) 2)
  else .other op

/-- The actor's information in an LACPDU (the layout is IEEE 802.1AX's, assumption 20). -/
def lacpOf (b : List Byte) : LacpInfo :=
  ⟨field b 18 2, field b 20 6, field b 26 2, field b 28 2, field b 30 2, byteAt b 32⟩

/-- An LACPDU as a partner sends it, with its FCS (assumption 20): its source `src` and what follows the actor's information, `rest`, are
free. -/
def lacpduBytes (i : LacpInfo) (src rest : Nat) : List Byte :=
  let body := beBytes 6 0x0180C2000002 ++ beBytes 6 src ++ beBytes 2 0x8809 ++ beBytes 2 0x0101 ++ beBytes 2 0x0114 ++
    lacpField ((i.sysPrio % 2 ^ 16) * 2 ^ 48 + i.sysMac % 2 ^ 48) i.key i.prio i.port i.state ++ beBytes 88 rest
  body ++ fcsBytes body

/-- A Marker PDU with its FCS (IEEE 802.1AX, assumption 20): its source and its information are free. -/
def markerBytes (src rest : Nat) : List Byte :=
  let body := beBytes 6 0x0180C2000002 ++ beBytes 6 src ++ beBytes 2 0x8809 ++ beBytes 1 2 ++ beBytes 109 rest
  body ++ fcsBytes body

/-- A MAC control frame with its FCS (assumption 21): its source `src` and, of an unsupported opcode, its parameters `rest` are
free. -/
def controlBytes (m : MacControl) (src rest : Nat) : List Byte :=
  let op := match m with
    | .pause q => beBytes 2 1 ++ beBytes 2 q ++ beBytes 42 0
    | .pfc en qs => beBytes 2 0x0101 ++ beBytes 2 (en % 256) ++ ((List.range 8).flatMap fun i => beBytes 2 (qs.getD i 0)) ++
        beBytes 26 0
    | .other op => beBytes 2 op ++ beBytes 44 rest
  let body := beBytes 6 0x0180C2000001 ++ beBytes 6 src ++ beBytes 2 0x8808 ++ op
  body ++ fcsBytes body

/-! ## The link of a front port or fabric link -/

/-- A port whose islands are locked (R80). -/
def Channel.portLocked (c : Channel) (p : Nat) : Bool :=
  if p ≤ 48 then c.bit 0x4000 0x20 ((p - 1) / 4) && c.bit 0x4000 0x20 (12 + (p - 1) / 4)
  else c.bit 0x4000 0x20 (24 + (p - 49) / 2)

/-- Whether a channel's role and the mode allow the port its link (R80, R106, R108, R113, R161, R494). -/
def Channel.linkAllowed (c : Channel) (cx : Ctx) (p : Nat) : Bool :=
  (cx.st == .starting || cx.st == .standby || cx.st == .active || cx.st == .draining) && !cx.fence && c.portLocked p &&
  (if p ≤ 48 then
    c.hwBit 0x4100 p 0 && (cx.night != .asleep || c.hwBit 0x4100 p 22) &&
      (c.hwBit 0x4100 p 26 || cx.forwards || c.hwBit 0x4100 p 27)
  else c.hwBit 0x4250 (p - 48) 0 && cx.night != .asleep)

/-- Link down is reported on a front port (R86): a frame on the line is cut, the port's frames go with its tier, the
partner is gone. -/
def Channel.frontDown' (c : Channel) (cx : Ctx) (p : Nat) : Channel :=
  let x := c.port p
  let c := c.setPort p { x with holding := false, locked := false }
  if !c.linkUp p then c
  else
    let c := (c.cutLine cx p).put 0x4102 p 0
    let c := (c.flag 0x410D p 1).inc 0x4128 p
    let c := (c.tierDown cx p).put 0x4805 p 0
    let c := c.dropPartner p
    c.setPort p x.dropped

/-- The ability common to both ends with the highest priority of IEEE 802.3 clause 73, coded as SPEED (R83, R85;
assumption 22). -/
def resolveAn (medium own far : Nat) : Option Nat :=
  let both := own &&& far
  let any := own ||| far
  if bitOf both 6 || bitOf both 5 then some 10
  else if bitOf both 3 || bitOf both 2 then some (if bitOf any 7 then 8 else 7)
  else if bitOf both 4 then some (if bitOf any 8 then 6 else if bitOf any 7 then 5 else 4)
  else if bitOf both 1 then some (if bitOf any 7 then 3 else 2)
  else if bitOf both 0 && medium = 0 then some 1
  else none

/-- AN_COMPLETE: clause 73 resolves (R85); without a common ability it never completes. -/
def Channel.completeAn (c : Channel) (p far : Nat) : Channel :=
  let ctl := c.hw 0x4100 p
  if !bitOf ctl 0 || bits ctl 15 12 ≠ 0 || c.linkUp p then c
  else
    let own := c.hw 0x4101 p
    match resolveAn (bits ctl 11 10) own far with
    | none => c
    | some op => (c.putBit 0x4102 p 11 true).setPort p
        { c.port p with anOp := op, eee := bitOf own 11 && bitOf far 11 }

/-- LINK_UP of a front port against a partner that runs operation `op` (R83, R86): a port within its hold only regains its lock,
from the operation that it runs; the receive machine of a member starts in EXPIRED. -/
def Channel.frontUp (c : Channel) (cx : Ctx) (p op : Nat) : Channel :=
  let x := c.port p
  let speed := bits (c.hw 0x4100 p) 15 12
  let match_ := if speed = 0 then c.bit 0x4102 p 11 && x.anOp == op else speed == op
  if c.linkUp p then
    if x.holding && bits (c.reg 0x4102 p) 15 12 == op then
      c.setPort p { x with holding := false, locked := true, tail := false } else c
  else if !c.linkAllowed cx p || !match_ || op = 0 then c
  else
    let c := ((c.putBit 0x4102 p 0 true).putBits 0x4102 p 15 12 op).setPort p
      { x with locked := true, holding := false, tail := false, expired := c.hwBit 0x4100 p 26 }
    let c := ((c.flag 0x410D p 2).tierUp p).backPressure cx p
    c.updateActor cx p

/-- A change of its channel's role at every front port (R106, R107, R108): links that the role does not allow go down,
members take their state, and `announce` sends the LACPDU of a change of role on every pair. -/
def Channel.frontRole (c : Channel) (cx : Ctx) (announce : Bool) : Channel :=
  (upFrom 1 48).foldl (fun c p =>
    let c := if c.linkAllowed cx p then c else c.frontDown' cx p
    if c.linkUp p && c.hwBit 0x4100 p 26 then
      let c := c.updateActor cx p
      if announce then c.sendLacpdu cx p true else c
    else c) c

end Sys2Proof.Machine
end

