-- ==== Sys2Proof/Machine/Receive.lean ====
section
/-! DEFINITION. The receive MACs of front and multidrop ports: size and FCS, wake patterns, the drops of R93, storage
(R65, R66, R90 to R95, R111 to R113, R122 to R127). -/

namespace Sys2Proof.Machine

/-- Whether a frame's last four bytes are its FCS. -/
def fcsGood (b : List Byte) : Bool :=
  decide (4 ≤ b.length) && b.drop (b.length - 4) == fcsBytes (b.take (b.length - 4))

/-- The outcome of the receive checks (R90, R91, R124): the drop code, 0 where the frame is accepted, and OVERSIZE. -/
structure RxResult where
  code     : Nat
  oversize : Bool
deriving DecidableEq, Repr

/-- R90 and the line errors of R93 and R124: a frame counts in one row only. -/
def rxCheck (maxLen : Nat) (b : List Byte) (err : LineErr) : RxResult :=
  let n := b.length
  if 65536 ≤ n then ⟨5, true⟩
  else
    match err with
    | .pcs => ⟨6, false⟩
    | .noEnd => ⟨6, false⟩
    | .symbol => ⟨0x10, false⟩
    | .fec _ => ⟨7, false⟩
    | .none =>
      if n < 64 then ⟨if fcsGood b then 2 else 3, false⟩
      else if n ≤ maxLen then ⟨if fcsGood b then 0 else 1, false⟩
      else ⟨4, true⟩

/-- The FEC codewords of a frame that could not be corrected (R114, R168). -/
def lostWords : LineErr → Nat
  | .fec words => words
  | _ => 0

/-- Count a received frame of `n` bytes in the counters from `base` on, which run OK, BYTES, FCS, UNDERSIZE, FRAGMENT,
OVERSIZE, JABBER, line error (R114, R138); `words` codewords were beyond correction. -/
def Channel.countRx (c : Channel) (base k code n words : Nat) : Channel :=
  if code = 0 then (c.inc base k).add (base + 1) k n
  else if code = 7 then c.add 0x4119 k words
  else if code = 0x10 || code = 6 then c.inc (base + 7) k
  else c.inc (base + 1 + code) k

/-- Whether pool 15 can take a frame's first cell: the writer reserves the configured maximum (R66). -/
def Channel.rampRoom (c : Channel) (p : Nat) : Bool :=
  Nat.ble ((c.pool 15).shared + cellsOf (c.maxLen p + if 49 ≤ p && p ≤ 52 then 16 else 0)) 131072

/-- The buffer writer drops a frame without a cell: code 0x1E (R66), or the MAC's own code. -/
def Channel.rampDrop (c : Channel) (cx : Ctx) (f : Frame) (code : Nat) : Channel :=
  if code ≠ 0 then
    let c := c.dropCode code
    let c := { c with frames := c.frames ++ [{ f with id := c.nextId, drop := code }], nextId := c.nextId + 1 }
    (c.mirror cx (c.nextId - 1) ⟨true, code, false, none, none, f.inPort, 0, f.rx, none⟩).endPass cx (c.nextId - 1)
  else
    let c := ((c.dropCode 0x1E).inc 0x4000 0x1F).flag 0x4000 0x21 8
    let c := { c with frames := c.frames ++ [{ f with id := c.nextId, drop := 0x1E }], nextId := c.nextId + 1 }
    (c.mirror cx (c.nextId - 1) ⟨true, 0x1E, false, none, none, f.inPort, 0, f.rx, none⟩).endPass cx (c.nextId - 1)

/-- Store a received frame and drop it with a code, or leave it to the parser (R65, R94). -/
def Channel.storeRx (c : Channel) (cx : Ctx) (f : Frame) (code : Nat) : Channel :=
  if !c.rampRoom f.inPort then c.rampDrop cx f code
  else
    let id := c.nextId
    let c := c.store cx f
    if code = 0 then c else c.dropFrame cx id code false

/-- A frame that was in progress when lock was lost or link down was reported ends: within the hold of R86 it is a PCS error,
after it PORT DISABLED (R93). There is one such frame at most (assumption 76); `none`: this frame is not it. -/
def Channel.tailCode (c : Channel) (p : Nat) : Option Nat :=
  let x := c.port p
  if c.linkUp p && !x.holding then none else some (if x.tail then (if x.holding then 6 else 9) else 0)

/-- That frame has come. -/
def Channel.takeTail (c : Channel) (p : Nat) : Channel := c.setPort p { c.port p with tail := false }

/-! ## Wake patterns (R111 to R113) -/

/-- Offsets that a pattern's mask selects. -/
def maskOffsets (mask : Nat) : List Nat := (List.range 128).filter (octBit 16 mask)

/-- Whether pattern `k` matches a frame received on front port `p` (R112). An armed pattern whose mask has since been written
all zero selects no byte and matches nothing (assumption 77). -/
def Channel.wakeMatch (c : Channel) (p k : Nat) (b : List Byte) : Bool :=
  let ctl := c.reg 0x4231 k
  let off := maskOffsets (c.reg 0x4230 k)
  bitOf ctl 24 && (bits ctl 23 16 == 0 || bits ctl 23 16 == p) && !off.isEmpty && off.all (fun o => o < b.length) &&
    crc16 (off.map fun o => b.getD o 0) == bits ctl 15 0

/-- Evaluate the patterns at the end of a frame with a good FCS: status, counts, and the wake (R113). -/
def Channel.wakePatterns (c : Channel) (p : Nat) (b : List Byte) : Channel :=
  let hits := (List.range 32).filter fun k => c.wakeMatch p k b
  if hits.isEmpty then c
  else
    let c := hits.foldl (fun c k => (c.flag 0x4232 0 (2 ^ k)).inc 0x4233 k) c
    let c := c.flag 0x410D p 16
    { c with box := { c.box with wake := some (p, hits) } }

/-- Whether a pattern is enabled for front port `p` (R111). -/
def Channel.armed (c : Channel) (p : Nat) : Bool :=
  Nat.ble p 48 && (List.range 32).any fun k => bitOf (c.reg 0x4231 k) 24 && (bits (c.reg 0x4231 k) 23 16 == 0 || bits (c.reg 0x4231 k) 23 16 == p)

/-- A frame received on port `p` whose command gives its fields alone: the patterns that are armed look at its bytes, in which what the
command does not give is free (R112). -/
def Channel.wakeFree (c : Channel) (cx : Ctx) (p : Nat) (bytes : Nat → Nat → List Byte) : Channel :=
  if !c.armed p then c
  else
    let a := c.draw cx.free
    let b := a.2.draw cx.free
    b.2.wakePatterns p (bytes a.1 b.1)

/-! ## Front ports -/

/-- Whether a front port takes part in data forwarding now (R106, R108): its channel forwards and a member distributes. -/
def Channel.collects (c : Channel) (cx : Ctx) (p : Nat) : Bool :=
  cx.forwards && (!c.hwBit 0x4100 p 26 || c.bit 0x4102 p 20)

/-- The stored form of a received frame: truncated at the maximum where OVERSIZE (R90). -/
def Channel.rxFrame (c : Channel) (p : Nat) (b : List Byte) (r : RxResult) : Frame :=
  { Frame.fresh 0 (if r.oversize then b.take (c.maxLen p) else b) p (c.rxStamp p) c.time.stepSum with
    oversize := r.oversize, fcsBad := !fcsGood b }

/-- A frame received whole on front port `p` (R86, R90 to R95, R106, R113). -/
def Channel.receiveFront (c : Channel) (cx : Ctx) (p : Nat) (b : List Byte) (err : LineErr) (fec : Nat) : Channel :=
  let b := if 65536 ≤ b.length then b.take 65536 else b
  let r := rxCheck (c.maxLen p) b err
  let r := if r.code = 0x10 then { r with code := 6 } else r
  match c.tailCode p with
  | some 0 => c
  | some 9 => (c.takeTail p).storeRx cx (c.rxFrame p b r) 9
  | some code => (((c.takeTail p).hear p b.length).countRx 0x4110 p code b.length 0).storeRx cx (c.rxFrame p b ⟨code, r.oversize⟩) code
  | none =>
    let c := (c.add 0x4118 p fec).hear p b.length
    let c := c.countRx 0x4110 p r.code b.length (lostWords err)
    let c := if r.code = 5 then c.flag 0x410D p 8 else c
    let c := if err == .none && fcsGood b then c.wakePatterns p b else c
    let f := c.rxFrame p b r
    if r.code ≠ 0 then c.storeRx cx f r.code
    else if field b 12 2 = 0x8808 then
      let t := c.takeControl cx p (controlOf b)
      if t.1 then t.2.storeRx cx f 8 else t.2
    else if field b 12 2 = 0x8809 && byteAt b 14 = 1 then c.takeLacpdu cx p (lacpOf b)
    else if field b 12 2 = 0x8809 && byteAt b 14 = 2 then c.answerMarker cx p
    else if cx.night != .awake then (c.inc 0x411F p).storeRx cx f 0x0D
    else if !c.collects cx p then (c.inc 0x411F p).storeRx cx f 0x0C
    else c.storeRx cx f 0

/-! ## Multidrop ports -/

/-- One more opportunity of the PLCA cycle has ended (R115). -/
def DropSt.passed (d : DropSt) : DropSt := { d with turn := false, cycle := d.cycle.map (· + 1) }

/-- A frame received whole on multidrop port `k` (R122, R124 to R127). It uses one opportunity of the PLCA cycle (R115): the
port takes every frame of another node for the only one of its opportunity (assumption 82). -/
def Channel.receiveDrop (c : Channel) (cx : Ctx) (k : Nat) (b : List Byte) (err : LineErr) : Channel :=
  if !c.bit 0x4202 k 0 then c
  else
    let p := 64 + k
    let b := if 65536 ≤ b.length then b.take 65536 else b
    let r := rxCheck (c.maxLen p) b err
    let r := if r.code = 6 || r.code = 7 then { r with code := 0x10 } else r
    let c := (c.countRx 0x4210 k r.code b.length 0).hear p b.length
    let c := if (c.mdrop k).turn then c else c.setMdrop k (c.mdrop k).passed
    let f := c.rxFrame p b r
    if r.code ≠ 0 then c.storeRx cx f r.code
    else if field b 12 2 = 0x8808 then (c.inc 0x4219 k).storeRx cx f 8
    else if cx.night != .awake then (c.inc 0x4219 k).storeRx cx f 0x0D
    else if !c.token cx k then (c.inc 0x4219 k).storeRx cx f 0x0C
    else c.storeRx cx f 0

end Sys2Proof.Machine
end

