-- ==== Sys2Proof/Machine/Multidrop.lean ====
section
/-! DEFINITION. Multidrop ports: PLCA, CSMA/CD, collisions, the segment token (R115 to R128). -/

namespace Sys2Proof.Machine

/-- Show what runs on port `k` in 0x4202 (R136); TOKEN is computed when it is read. A PHY that is in service goes on listening
when its channel is fenced, FAILED or ISOLATED (R126, R138, R494). Where PLCA does not run, or the port only listens in NIGHT (R125), no
cycle and no opportunity of its own goes on. -/
def Channel.showDrop (c : Channel) (cx : Ctx) (k : Nat) : Channel :=
  let ctl := c.hw 0x4200 k
  let d := c.mdrop k
  let ready := bitOf ctl 0 && (cx.st != .off || cx.back) && (if cx.fence then c.bit 0x4202 k 0 else cx.st != .failed && cx.st != .isolated)
  let plca := ready && bitOf ctl 2 && !d.lost && !d.dup
  let c := if plca && cx.night != .asleep then c
    else c.setMdrop k { d with turn := false, burst := 0, cycle := none, had := false }
  c.put 0x4202 k (plca.toNat * 2 ^ 14 + (ready && !plca).toNat * 2 ^ 13 + d.dup.toNat * 2 ^ 12 + ready.toNat)

/-- The port goes down when its ENABLE is cleared: the line is cut, its tier flushed (R400). -/
def Channel.dropDown (c : Channel) (cx : Ctx) (k : Nat) : Channel :=
  (((c.cutLine cx (64 + k)).tierDown cx (64 + k)).setMdrop k DropSt.empty).showDrop cx k

/-- The port comes into service. -/
def Channel.dropUp (c : Channel) (cx : Ctx) (k : Nat) : Channel :=
  if c.hwBit 0x4200 k 0 then (c.tierUp (64 + k)).showDrop cx k else c.showDrop cx k

/-- Whether port `k` is its segment's coordinator (R115). -/
def Channel.coordinator (c : Channel) (k : Nat) : Bool := bits (c.hw 0x4201 k) 7 0 == 0

/-- Whether a frame waits at port `k`. -/
def Channel.dropWaits (c : Channel) (k : Nat) : Bool :=
  !(c.tier (64 + k)).picked.isEmpty || !(c.queuedAt (64 + k)).isEmpty

/-- A BEACON passes and a cycle begins (R115, R117): the tenth in a row with a frame waiting and no opportunity sets TO_STARVED. -/
def Channel.beaconPassed (c : Channel) (k : Nat) : Channel :=
  let d := c.mdrop k
  let c := c.setMdrop k { d with
    turn := false, cycle := some 0, had := false, starved := if c.dropWaits k then d.starved + 1 else 0 }
  if c.dropWaits k && 9 ≤ d.starved then (c.flag 0x4206 k 16).setMdrop k { c.mdrop k with starved := 0 } else c

/-- A duplicate ID is recognised (R121). -/
def Channel.duplicateId (c : Channel) (cx : Ctx) (k : Nat) : Channel :=
  let c := (c.inc 0x4220 k).flag 0x4206 k 8
  if bits (c.hw 0x4200 k) 5 4 = 1 then (c.setMdrop k { c.mdrop k with dup := true }).showDrop cx k else c

/-- Whether the coordinator's cycle is over: NODE_COUNT opportunities have ended, or none has begun yet (R115). -/
def Channel.cycleOver (c : Channel) (k : Nat) : Bool :=
  match (c.mdrop k).cycle with
  | none => true
  | some n => Nat.ble (bits (c.hw 0x4201 k) 39 32) n

/-- PLCA_BEACON: the coordinator starts a cycle once NODE_COUNT opportunities have passed (R115); in NIGHT it only listens
(R125). -/
def Channel.sendPlcaBeacon (c : Channel) (cx : Ctx) (k : Nat) : Channel :=
  let d := c.mdrop k
  if !c.bit 0x4202 k 14 || !c.coordinator k || cx.night == .asleep || !c.token cx k || d.line.isSome || d.turn ||
    !c.cycleOver k then c
  else (c.emit (.plcaBeacon cx.ch k)).beaconPassed k

/-- TRANSMIT_OPPORTUNITY: the cycle reaches the port's ID, once in a cycle; the coordinator's is the first (R115). -/
def Channel.opportunity (c : Channel) (cx : Ctx) (k : Nat) : Channel :=
  let d := c.mdrop k
  let reached := !d.had && (if c.coordinator k then d.cycle == some 0 else d.cycle.isSome)
  if !c.bit 0x4202 k 14 || cx.night == .asleep || !c.token cx k || !reached then c
  else c.setMdrop k { d with turn := true, burst := 0, had := true, starved := 0 }

/-- TO_TIMER_EXPIRE: an opportunity of the cycle that is not used ends, the port's own or another node's (R115). -/
def Channel.opportunityEnd (c : Channel) (k : Nat) : Channel :=
  if (c.mdrop k).line.isSome then c else c.setMdrop k (c.mdrop k).passed

/-- PLCA_BEACON_RECEIVE: a follower returns to PLCA (R116), and where it runs PLCA a cycle begins; a coordinator has met its double (R121). -/
def Channel.hearBeacon (c : Channel) (cx : Ctx) (k : Nat) : Channel :=
  if !c.bit 0x4202 k 0 || !c.hwBit 0x4200 k 2 then c
  else if c.coordinator k then (if (c.mdrop k).dup then c else c.duplicateId cx k)
  else
    let c := (c.setMdrop k { c.mdrop k with lost := false }).showDrop cx k
    if c.bit 0x4202 k 14 then c.beaconPassed k else c

/-- PLCA_BEACON_LOSS: a follower has seen no BEACON for 4,000 bit times (R116). -/
def Channel.loseBeacon (c : Channel) (cx : Ctx) (k : Nat) : Channel :=
  if !c.bit 0x4202 k 14 || c.coordinator k then c
  else (((c.setMdrop k { c.mdrop k with lost := true, turn := false, cycle := none }).inc 0x421F k).flag 0x4206 k 4).showDrop cx k

/-- The frame in hand is given up after a collision (R119, R120). -/
def Channel.giveUp (c : Channel) (cx : Ctx) (k code : Nat) (r : Nat × Nat) : Channel :=
  let c := (c.macDrop cx r (64 + k) code).flag 0x4206 k 1
  c.setMdrop k { c.mdrop k with attempts := 0, hand := none, backoff := none }

/-- A collision during the port's own transmit opportunity is a duplicate ID (R121); the opportunity ends. -/
def Channel.collided (c : Channel) (cx : Ctx) (k : Nat) : Channel :=
  let d := c.mdrop k
  let own := c.bit 0x4202 k 14 && d.turn
  let c := ((c.cutLine cx (64 + k)).inc 0x421D k).setMdrop k { (if d.turn then d.passed else d) with line := none }
  if own then c.duplicateId cx k else c

/-- COLLISION before 512 bit times (R119): the backoff is a random number of slot times (assumption 5). A frame that collides once the
module is in NIGHT, where no retry leaves, is flushed with the others (R125, R537). -/
def Channel.collide (c : Channel) (cx : Ctx) (k : Nat) : Channel :=
  match (c.mdrop k).line with
  | none => c
  | some r =>
    let n := (c.mdrop k).attempts + 1
    let c := c.collided cx k
    if 16 ≤ n then c.giveUp cx k 0x94 r
    else if cx.night == .asleep then ((c.inc 0x4922 (64 + k)).flag 0x490F 1 1).discard cx r 0x80
    else
      let d := c.draw cx.free
      let c := d.2.modCopy r fun x => { x with
        pos := .edited, bytes := x.bytes.map fun b => b.take (b.length - 4) }
      c.setMdrop k { c.mdrop k with attempts := n, hand := some r, backoff := some (d.1 % 2 ^ min n 10) }

/-- LATE_COLLISION: the MAC stops, sends the jam and gives the frame up (R120). -/
def Channel.lateCollide (c : Channel) (cx : Ctx) (k : Nat) : Channel :=
  match (c.mdrop k).line with
  | none => c
  | some r => (((c.collided cx k).emit (.jam cx.ch (64 + k))).inc 0x421E k).giveUp cx k 0x95 r

/-! ## The rows -/

/-- A multidrop port (R30). -/
def isDrop (k : Nat) : Bool := Nat.ble 1 k && Nat.ble k 16

/-- PLCA_BEACON (R115). -/
def execPlcaBeacon (ch : Ch) (k : Nat) (s : State) : Host.Outcome State Fault Refusal :=
  onCh s ch (isDrop k) fun cx c => c.sendPlcaBeacon cx k

/-- TRANSMIT_OPPORTUNITY (R115). -/
def execTransmitOpportunity (ch : Ch) (k : Nat) (s : State) : Host.Outcome State Fault Refusal :=
  onCh s ch (isDrop k) fun cx c => c.opportunity cx k

/-- TO_TIMER_EXPIRE (R115). -/
def execToTimerExpire (ch : Ch) (k : Nat) (s : State) : Host.Outcome State Fault Refusal :=
  onCh s ch (isDrop k) fun _ c => c.opportunityEnd k

/-- PLCA_BEACON_RECEIVE (R116, R121). -/
def execPlcaBeaconReceive (ch : Ch) (k : Nat) (s : State) : Host.Outcome State Fault Refusal :=
  onCh s ch (isDrop k) fun cx c => c.hearBeacon cx k

/-- PLCA_BEACON_LOSS (R116). -/
def execPlcaBeaconLoss (ch : Ch) (k : Nat) (s : State) : Host.Outcome State Fault Refusal :=
  onCh s ch (isDrop k) fun cx c => c.loseBeacon cx k

/-- COLLISION (R119). -/
def execCollision (ch : Ch) (k : Nat) (s : State) : Host.Outcome State Fault Refusal :=
  onCh s ch (isDrop k) fun cx c => c.collide cx k

/-- LATE_COLLISION (R120). -/
def execLateCollision (ch : Ch) (k : Nat) (s : State) : Host.Outcome State Fault Refusal :=
  onCh s ch (isDrop k) fun cx c => c.lateCollide cx k

/-- COLLISION_BACKOFF_END (R119). -/
def execCollisionBackoffEnd (ch : Ch) (k : Nat) (s : State) : Host.Outcome State Fault Refusal :=
  onCh s ch (isDrop k) fun _ c => c.setMdrop k { c.mdrop k with backoff := none }

/-- FALSE_CARRIER (R124). -/
def execFalseCarrier (ch : Ch) (k : Nat) (s : State) : Host.Outcome State Fault Refusal :=
  onCh s ch (isDrop k) fun _ c => if c.bit 0x4202 k 0 then c.inc 0x4218 k else c

/-- TOKEN_HANDOVER: at an instant when both ports see the medium idle, the token of a dual-attached segment passes to the lease
holder. In a swap drill the old active keeps it through the dual-forwarding period, and in DRAINING while it has frames for the
port (R127). -/
def State.handToken (s : State) (k : Nat) : State :=
  let dual := s.present .b && s.chA.hwBit 0x4200 k 3 && s.chB.hwBit 0x4200 k 3
  let idle := (s.chA.mdrop k).line.isNone && (s.chB.mdrop k).line.isNone
  match s.arb.holder with
  | none => s
  | some h =>
    let o := h.other
    let keeps := (s.arb.drainer == some o && (s.role o).st == .active) ||
      ((s.role o).st == .draining && (s.chan o).dropWaits k)
    if !dual || !idle || keeps then s
    else { s with arb := { s.arb with tokens := tabSet (fun _ => Ch.a) s.arb.tokens k h } }

/-- TOKEN_HANDOVER (R127). -/
def execTokenHandover (k : Nat) (s : State) : Host.Outcome State Fault Refusal :=
  if !isDrop k then .fault .noSuchPart else .next (s.handToken k)

end Sys2Proof.Machine
end

