-- ==== Sys2Proof/Machine/Fabric.lean ====
section
/-! DEFINITION. Fabric links: the receive checks, routing, beacons and link selection, cut-through (R139 to R168). -/

namespace Sys2Proof.Machine

/-! ## Selection (R154) -/

/-- EPOCH `e1` is newer than `e2` (R153). -/
def newerEpoch (e1 e2 : Nat) : Bool :=
  let d := (e1 + 2 ^ 32 - e2 % 2 ^ 32) % 2 ^ 32
  Nat.ble 1 d && Nat.blt d (2 ^ 31)

/-- Whether link `l` can be selected (R154). -/
def Channel.qualifiesLink (c : Channel) (l : Nat) : Bool :=
  let x := c.link l
  c.linkUp (48 + l) && x.wired && x.fresh && x.state == 3

/-- The link to select in a direction whose links are `l` and `l + 1`; the odd one goes to channel A. -/
def Channel.pickLink (c : Channel) (l : Nat) : Option Nat :=
  if c.qualifiesLink l && c.qualifiesLink (l + 1) then
    some (if newerEpoch (c.link (l + 1)).epoch (c.link l).epoch then l + 1 else l)
  else if c.qualifiesLink l then some l
  else if c.qualifiesLink (l + 1) then some (l + 1)
  else none

/-- Choose the selected link of a direction anew (R154); its tier is up again once it has one. -/
def Channel.reselect (c : Channel) (e : Nat) : Channel :=
  let l := if e = 49 then 1 else 3
  let pick := c.pickLink l
  let set := fun (c : Channel) (i : Nat) =>
    (c.setLink i { c.link i with sel := pick == some i }).putBit 0x4251 i 18 (pick == some i)
  let c := set (set c l) (l + 1)
  if pick.isSome && (c.tier e).down then c.tierUp e else c

/-- The direction tier of a link. -/
def dirOf (l : Nat) : Nat := if l ≤ 2 then 49 else 51

/-- The direction opposite the arrival link (R157). -/
def awayFrom (l : Nat) : Nat := if l ≤ 2 then 51 else 49

/-! ## Link up and down -/

/-- The bytes `b` of a cut-through frame as they leave: its tag rewritten (R144). -/
def CutSt.leaving (x : CutSt) (b : List Byte) : List Byte := b.take 12 ++ tagBytes x.tag ++ b.drop 28

/-- How the transmission of a cut-through frame has ended: its link's port, the drop code or 0, what was sent, and what the frame kept
from its start on. -/
structure CutEnd where
  port  : Nat
  code  : Nat
  bytes : List Byte
  cut   : CutSt
deriving DecidableEq, Repr

/-- The moment at which the sessions of the transmit point see the copy that was cut through (R441). -/
def CutEnd.moment (e : CutEnd) (q : Nat) : Moment := ⟨false, e.code, false, none, some e.port, e.port, q, e.cut.tx, some e.bytes⟩

/-- Sessions see the copy of stored frame `f` that was cut through, and its drop where it was dropped (R441). -/
def Channel.seeCut (c : Channel) (cx : Ctx) (id : Nat) (f : Frame) : Option CutEnd → Channel
  | none => c
  | some e =>
    let q := bits (f.tag.getD 0) 73 56
    let c := c.mirror cx id (e.moment q)
    if e.code = 0 then c else c.mirror cx id ⟨false, e.code, false, none, none, e.port, q, f.rx, none⟩

/-- A stored frame keeps the cells and the receive timestamp of the cut-through that it began as (R65, R425). -/
def Frame.fromCut (f : Frame) : Option CutEnd → Frame
  | none => f
  | some e => { f with cells := e.cut.cells, rx := e.cut.rx, rxSum := e.cut.sum }

/-- The cells of a cut-through frame that is not stored are free again, but for quarantined ones. -/
def Channel.dropCutCells (c : Channel) (cx : Ctx) (x : CutSt) : Channel :=
  let ok := x.cells.filter fun k => c.cellRec k < 256
  (c.markCells ok 0).ramp cx ((c.pool 15).shared - ok.length)

/-- The transmission of a cut-through frame finishes with the bytes `b` of its ingress, without their FCS: with the values of PTP (R427)
and the FCS of what was sent, or that FCS stomped where it has turned out bad or a cell of it cannot be read (R147), and is counted
(R168). -/
def Channel.finishCut (c : Channel) (cx : Ctx) (x : CutSt) (b : List Byte) (bad : Bool) : CutEnd × Channel :=
  let p := 48 + x.egress
  let bad := bad || x.cells.any c.damage.cells.contains
  let o := c.timePtp p (x.leaving b) x.tx x.rx x.sum
  let out := o.1 ++ (if bad then (fcsBytes o.1).map (fun y => ~~~y) else fcsBytes o.1)
  let c := if o.2.2 then c.inc 0x4B26 p else c
  let c := { c with cuts := c.cuts.filter fun y => y.ingress != x.ingress }
  let c := ((c.countOut p out.length).inc 0x4275 x.egress).emit (.frame cx.ch p out (!bad))
  let c := if bitOf x.tag 104 then c.inc 0x4278 x.egress else c
  let c := if bad then (c.inc 0x4276 x.egress).dropCode 0x96 else c
  (⟨p, if bad then 0x96 else 0, out, x⟩, c.sendDue p)

/-- Change the frame that is cut through from link `l`. -/
def Channel.modCut (c : Channel) (l : Nat) (f : CutSt → CutSt) : Channel :=
  { c with cuts := c.cuts.map fun y => if y.ingress = l then f y else y }

/-- The transmission of a cut-through frame is cut short with its egress link (R97, R98): the rest of the frame is received and
goes nowhere. -/
def Channel.cutShort (c : Channel) (cx : Ctx) (x : CutSt) : Channel :=
  let c := c.modCut x.ingress fun y => { y with fate := 0x91 }
  ((c.inc 0x427B x.egress).dropCode 0x91).emit (.frame cx.ch (48 + x.egress) (x.leaving x.head) false)

/-- Every frame in progress is cut short without an end (R98, R494, R578). -/
def Channel.cutAll (c : Channel) (cx : Ctx) : Channel :=
  let c := (upFrom 1 80).foldl (fun c p => if isLine p then c.cutLine cx p else c) c
  let c := c.cuts.foldl (fun c x =>
    let c := if x.fate = 0 then c.emit (.frame cx.ch (48 + x.egress) (x.leaving x.head) false) else c
    c.dropCutCells cx x) c
  { c with cuts := [] }

/-! ## Receive (R141, R145, R148, R157) -/

/-- Whether a frame's FCS is the stomp value of its bytes (R147). -/
def stompGood (b : List Byte) : Bool :=
  decide (4 ≤ b.length) && b.drop (b.length - 4) == (fcsBytes (b.take (b.length - 4))).map (fun x => ~~~x)

/-- The stored form of a frame from a link, at most `most` bytes of it: its tag apart from its bytes. -/
def Channel.fabricFrame (c : Channel) (l most : Nat) (b : List Byte) (r : RxResult) : Frame :=
  let b := if r.oversize then b.take most else b
  let tagged := field b 12 2 == 0x88B5 && Nat.ble 32 b.length
  let t := field b 14 14
  { Frame.fresh 0 (if tagged then b.take 12 ++ b.drop 28 else b) (48 + l) (c.rxStamp (48 + l)) c.time.stepSum with
    tag := if tagged then some t else none, oversize := r.oversize, fcsBad := r.code == 1 || r.code == 4 && !fcsGood b,
    stomp := r.code == 0x14, colour := if tagged then bits t 55 54 else 0 }

/-- Store a received frame and drop it, or leave it to the parser; sessions also see how a cut-through copy of it ended. A frame that
was cut through holds its cells already (R65, R66). -/
def Channel.storeCut (c : Channel) (cx : Ctx) (f : Frame) (code : Nat) (e : Option CutEnd) : Channel :=
  match e with
  | none => c.storeRx cx f code
  | some e =>
    let id := c.nextId
    let f := f.fromCut (some e)
    let c := ((c.store cx f).dropCode code).modFrame id fun f => { f with drop := code }
    let c := c.mirror cx id ⟨true, code, false, none, none, f.inPort, 0, f.rx, none⟩
    (c.seeCut cx id f (some e)).endPass cx id

/-- The frames that link `l` was sending or receiving when it went down: its own are cut short; one that it was receiving is
stomped where it is cut through to (R147), and dropped with 0x09 (R93). What had arrived of it is taken to be its head. -/
def Channel.linkLost (c : Channel) (cx : Ctx) (l : Nat) : Channel :=
  let c := (c.cuts.filter fun x => x.egress == l && x.fate == 0).foldl (fun c x => c.cutShort cx x) (c.cutLine cx (48 + l))
  match c.cuts.find? fun x => x.ingress == l with
  | none => c
  | some x =>
    let e : CutEnd × Channel := if x.fate = 0 then c.finishCut cx x x.head true
      else (⟨48 + x.egress, x.fate, x.leaving x.head, x⟩, { c with cuts := c.cuts.filter fun y => y.ingress != l })
    (e.2.setPort (48 + l) { c.port (48 + l) with holding := true }).storeCut cx (e.2.fabricFrame l x.rxMax x.head ⟨9, false⟩) 9
      (some e.1)

/-- Link down of fabric link `l`, at once (R139). -/
def Channel.fabricDown' (c : Channel) (cx : Ctx) (l : Nat) : Channel :=
  if !c.linkUp (48 + l) then c
  else
    let p := 48 + l
    let c := c.linkLost cx l
    let gone := (c.tier (dirOf l)).picked.filter fun r => match c.copyOf r with
      | some (_, x) => x.port == p
      | none => false
    let c := gone.foldl (fun c r => c.macDrop cx r p 0x91) c
    let c := ((c.put 0x4251 l 0).put 0x4256 l 0).setLink l LinkSt.empty
    let c := (c.flag 0x425D l 1).put 0x4805 p 0
    (c.setPort p (c.port p).dropped).reselect (dirOf l)

/-- LINK_UP of fabric link `l` (R139, R161). -/
def Channel.fabricUp (c : Channel) (cx : Ctx) (l : Nat) : Channel :=
  if c.linkUp (48 + l) || !c.linkAllowed cx (48 + l) then c
  else ((c.put 0x4251 l 1).flag 0x425D l 2).backPressure cx (48 + l)

/-! ## Beacons (R150 to R153) -/

/-- The 64 bytes of the beacon that link `l` sends. -/
def Channel.beacon (c : Channel) (cx : Ctx) (l : Nat) : List Byte :=
  let tag := 2 ^ 108 + (c.hwBit 0x4250 l 1).toNat * 2 ^ 106 + 2 ^ 105 + ((cx.moduleId - 1) % 64) * 2 ^ 98
    + (48 + l) * 2 ^ 91 + cx.ch.num * 2 ^ 90
  let body := beBytes 6 0x03004B000001 ++ beBytes 6 (0x020000000000 + cx.moduleId * 256 + 16 * cx.ch.num + l) ++
    tagBytes tag ++ beBytes 1 cx.st.code ++ beBytes 1 l ++ beBytes 1 cx.mode ++ beBytes 1 c.topology ++
    beBytes 1 c.modules ++ beBytes 1 cx.otherSt ++ beBytes 2 (bits (c.hw 0x4252 1) 9 0) ++ beBytes 4 cx.epoch ++ beBytes 20 0
  body ++ fcsBytes body

/-- BEACON_SEND: after the frame in progress, held by no PAUSE (R151). -/
def Channel.sendBeacon (c : Channel) (cx : Ctx) (l : Nat) : Channel :=
  if !c.linkUp (48 + l) || !(1 ≤ cx.st.code && cx.st.code ≤ 4) then c
  else c.sendControl (48 + l) (.beacon cx.ch l (c.beacon cx l))

/-- The neighbour expected on link `l` (R152). -/
def Channel.neighbour (c : Channel) (cx : Ctx) (l : Nat) : Nat :=
  let n := c.modules
  let s := cx.moduleId
  if l ≤ 2 then (if c.topology = 2 && s = 1 then n else s - 1)
  else if c.topology = 2 && s = n then 1 else s + 1

/-- A good beacon arrives on link `l` (R152, R153). -/
def Channel.takeBeacon (c : Channel) (cx : Ctx) (l : Nat) (b : List Byte) : Channel :=
  let tag := field b 14 14
  let mod := bits tag 103 98 + 1
  let ch := bits tag 90 90
  let link := byteAt b 29
  let ok := mod == c.neighbour cx l && ch == (l + 1) % 2 && link == (if l ≤ 2 then 3 else 1) + cx.ch.num
  let epoch := field b 36 4
  let c := (c.inc 0x426F l).setLink l { c.link l with
    epoch := epoch, state := byteAt b 28, chan := ch, fresh := true, wired := ok }
  let c := c.put 0x4256 l (epoch * 2 ^ 32 + mod * 2 ^ 16 + ch * 2 ^ 12 + (byteAt b 28 % 16) * 2 ^ 8
    + (byteAt b 30 % 16) * 2 ^ 4 + link % 16)
  let c := ((c.putBit 0x4251 l 17 true).putBit 0x4251 l 19 ok).reselect (dirOf l)
  if ok then c else c.flag 0x425D l 32

/-- BEACON_EXPIRE: the link's fresh beacon grows old (R153). -/
def Channel.expireBeacon (c : Channel) (l : Nat) : Channel :=
  if !(c.link l).fresh then c
  else
    let c := (c.setLink l { c.link l with fresh := false }).put 0x4256 l 0
    ((c.putBit 0x4251 l 17 false).flag 0x425D l 16).reselect (dirOf l)

/-! ## Routing (R145, R148, R157) -/

/-- A tag error of R145. -/
def tagBad (b : List Byte) : Bool :=
  let t := field b 14 14
  let kinds := bits t 107 107 + bits t 105 105 + bits t 104 104
  field b 12 2 != 0x88B5 || bits t 111 108 != 1 || bits t 55 54 == 3 || Nat.blt 1 kinds ||
    (bits t 105 104 == 0 && Nat.blt b.length 80)

/-- What R157 does with a data or relay frame on link `l`. -/
structure Route where
  code  : Nat
  loc : Bool
  onward : Option (Nat × Nat)
deriving DecidableEq, Repr

/-- R157, and the destination check of R145. -/
def Channel.route (c : Channel) (cx : Ctx) (l tag : Nat) : Route :=
  let hops := bits tag 51 46
  let away := awayFrom l
  if hops = 0 then ⟨0x16, false, none⟩
  else if bitOf tag 107 then
    let m := c.wget 0x4257 (bits tag 89 74)
    ⟨0, bitOf m 2, if 1 < hops && bitOf m (if away = 49 then 0 else 1) then some (away, hops - 1) else none⟩
  else if bits tag 89 84 + 1 = cx.moduleId then
    let port := bits tag 83 77
    if port = 54 || !isPort port then ⟨0x18, false, none⟩ else ⟨0, true, none⟩
  else if hops = 1 then ⟨0x16, false, none⟩
  else if (c.selected away).isNone then ⟨0x3D, false, none⟩
  else ⟨0, false, some (away, hops - 1)⟩

/-- Why a frame that passed R90 is dropped on a link, in the order of R145; 0 where it is not. -/
def Channel.fabricCheck (c : Channel) (cx : Ctx) (l : Nat) (b : List Byte) : Nat :=
  if tagBad b then 0x15
  else if !(c.link l).wired || c.domainBad cx then 0x17
  else if cx.night != .awake then 0x0D
  else if !cx.forwards then 0x0C
  else (c.route cx l (field b 14 14)).code

/-- Count a fabric drop (R168). -/
def Channel.countFabric (c : Channel) (l code : Nat) : Channel :=
  if code = 0x15 then (c.inc 0x4264 l).flag 0x425D l 4
  else if code = 0x16 then c.inc 0x4265 l
  else if code = 0x17 || code = 0x18 then c.inc 0x4266 l
  else if code = 0x0C then c.inc 0x4267 l
  else if code = 0x14 then (c.inc 0x4263 l).flag 0x425D l 8
  else if code = 1 then c.inc 0x4262 l
  else if code = 6 then c.inc 0x426C l
  else if 2 ≤ code && code ≤ 5 then c.inc (0x4266 + code) l
  else c

/-- The receive check of a link whose maximum, with the tag, is `most` (R141, R148). -/
def fabricRx (most : Nat) (b : List Byte) (err : LineErr) : RxResult :=
  let r := rxCheck most b err
  if r.code = 0x10 then { r with code := 6 }
  else if r.code = 1 && field b 12 2 == 0x88B5 && bitOf (byteAt b 14) 2 && stompGood b then { r with code := 0x14 }
  else r

/-- Take a stored frame where R157 sends it. A data frame goes to the parser, local or not (R171), and its onward copy is made when
its pass is over; a group frame that R157 neither delivers nor passes on has no copy. A relay frame, which is never parsed, goes on at
once. `cut` is the copy that was cut through already. -/
def Channel.forwardFabric (c : Channel) (cx : Ctx) (f : Frame) (r : Route) (cut : Option CutEnd) : Channel :=
  if cut.isNone && !c.rampRoom f.inPort then c.rampDrop cx f 0
  else
    let id := c.nextId
    let f := f.fromCut cut
    let tag := f.tag.getD 0
    let q := bits tag 73 56
    if !bitOf tag 104 then
      let away := r.onward.getD (0, 0)
      let transit := if r.loc && r.onward.isNone && cut.isNone then none
        else some (⟨away.1, away.2, r.loc, cut.isSome⟩ : Transit)
      (c.store cx { f with transit := transit }).seeCut cx id f cut
    else
      let c := (c.store cx f).seeCut cx id f cut
      let c := match cut, r.onward with
        | none, some (tier, hops) => c.placeCopy id .onward tier q (some (onwardTag tag hops)) none
        | _, _ => c
      (c.mirror cx id ⟨true, 0, false, none, none, 0, q, f.rx, none⟩).endPass cx id

/-- A relay frame for this module goes to the service block (R162). -/
def Channel.relayHere (c : Channel) (cx : Ctx) (b : List Byte) : Channel :=
  { c with box := { c.box with up := c.box.up ++
      [⟨cx.ch, bits (field b 14 14) 103 98 + 1, (b.drop 28).take (b.length - 32)⟩] } }

/-- A frame received whole on fabric link `l`, whose maximum with the tag is `most`; `cut`: how its cut-through copy ended. A
frame that was in progress when the link went down is dropped with 0x09. -/
def Channel.receiveFabric (c : Channel) (cx : Ctx) (l most : Nat) (b : List Byte) (err : LineErr) (fec : Nat)
    (cut : Option CutEnd) : Channel :=
  let b := if 65536 ≤ b.length then b.take 65536 else b
  let r := fabricRx most b err
  let f := c.fabricFrame l most b r
  match c.tailCode (48 + l) with
  | some 9 => (c.takeTail (48 + l)).storeRx cx f 9
  | some _ => c
  | none =>
    let c := ((c.add 0x426D l fec).add 0x426E l (lostWords err)).hear (48 + l) b.length
    if r.code ≠ 0 then (c.countFabric l r.code).storeCut cx f r.code cut
    else
      let c := (c.inc 0x4260 l).add 0x4261 l b.length
      if field b 12 2 = 0x8808 then
        let t := c.takeControl cx (48 + l) (controlOf b)
        if t.1 then t.2.storeRx cx f 8 else t.2
      else if field b 12 2 = 0x88B5 && bitOf (byteAt b 14) 1 then
        if tagBad b then c.inc 0x4264 l else c.takeBeacon cx l b
      else
        let relay := bitOf (field b 14 14) 104
        let c := if relay && !tagBad b then c.inc 0x4270 l else c
        let code := c.fabricCheck cx l b
        if code ≠ 0 then (c.countFabric l code).storeCut cx f code cut
        else
          let way := c.route cx l (field b 14 14)
          if relay && way.loc then
            let c := c.relayHere cx b
            match cut with
            | none => c
            | some e => c.dropCutCells cx e.cut
          else c.forwardFabric cx f way cut

/-! ## Cut-through (R146 to R149) -/

/-- The link that a frame with this head would be cut through to, with its tag (R146): 512 bytes of it have arrived, or all of it, and
pool 15 has room for it (R66).
The decision on its first 128 bytes is that of R157 on its tag (assumption 34). Not held by PFC is said of the class of the
frame's own QUEUE_ID (assumption 83). -/
def Channel.cutTarget (c : Channel) (cx : Ctx) (l : Nat) (head : List Byte) : Option (Nat × Nat) :=
  let tag := field head 14 14
  if head.length < 64 || !(512 ≤ head.length || fcsGood head) || !c.linkUp (48 + l) || field head 12 2 = 0x8808 || bitOf tag 105 ||
      c.fabricCheck cx l head ≠ 0 || c.cuts.any (fun x => x.ingress == l) then none
  else
    match (c.route cx l tag).onward with
    | none => none
    | some (e, hops) =>
      match c.selected e with
      | none => none
      | some out =>
        let p := 48 + out
        let x := c.port p
        let own := (c.tier e).picked.any fun r => match c.copyOf r with
          | some (_, y) => y.port == p
          | none => false
        if c.hwBit 0x4250 l 1 && c.hwBit 0x4250 out 1 && (c.queuedAt e).isEmpty && !own && c.rampRoom (48 + l) &&
            !c.inProgress p && !x.paused && !c.heldClass p (bits tag 73 56 % 8) && head.length ≤ c.maxLen p + 16 && out != l
        then some (out, setBit (onwardTag tag hops) 106 true) else none

/-- CUT_THROUGH_START (R146): the frame takes its cells (R65) and its timestamps (R425), and one that is recognised as a PTP event
message has its transmit timestamp queued (R427). -/
def Channel.startCut (c : Channel) (cx : Ctx) (l : Nat) (head : List Byte) : Channel :=
  match c.cutTarget cx l head with
  | none => c
  | some (out, tag) =>
    let p := 48 + out
    let got := c.takeCells cx (cellsOf head.length)
    let x : CutSt := ⟨l, out, tag, head, c.maxLen (48 + l) + 16, c.maxLen p + 16, 0, got.1, c.rxStamp (48 + l), c.txStamp p,
      c.time.stepSum⟩
    let c := { got.2 with cuts := c.cuts ++ [x] }
    c.noteStamp p x.tx (c.timePtp p (x.leaving head) x.tx x.rx x.sum).2.1

/-- CUT_THROUGH_END: the frame's end has come, with what the line did to it, or its ingress link is lost (no `err`, R147). A frame that turns out longer than either link's
maximum when it began (R92, R141) leaves truncated at it (assumption 84). The received frame is then counted and checked as every
other. -/
def Channel.endCut (c : Channel) (cx : Ctx) (l : Nat) (tail : List Byte) (err : Option LineErr) (fec : Nat) : Channel :=
  match c.cuts.find? fun x => x.ingress == l with
  | none => c
  | some x =>
    let b := x.head ++ tail
    match err with
    | none => (c.modCut l fun y => { y with head := b }).fabricDown' cx l
    | some err =>
      let whole := b.take (min x.rxMax x.txMax)
      let bad := (fabricRx x.rxMax b err).code != 0 || Nat.blt whole.length b.length
      let e : CutEnd × Channel := if x.fate = 0 then c.finishCut cx x (whole.take (whole.length - 4)) bad
        else (⟨48 + x.egress, x.fate, x.leaving x.head, x⟩, { c with cuts := c.cuts.filter fun y => y.ingress != l })
      e.2.receiveFabric cx l x.rxMax b err fec (some e.1)

/-- DIRECTION_FLUSH: a direction has had no selected link for 1 ms (R155). -/
def Channel.flushDirection (c : Channel) (cx : Ctx) (e : Nat) : Channel :=
  if (c.selected e).isSome then c else c.tierDown cx e

/-! ## The rows -/

/-- A fabric link (R139). -/
def isLink (l : Nat) : Bool := Nat.ble 1 l && Nat.ble l 4

/-- FABRIC_FRAME_RECEIVE (R145). -/
def execFabricFrameReceive (ch : Ch) (l : Nat) (bytes : List Byte) (err : LineErr) (fec : Nat) (s : State) :
    Host.Outcome State Fault Refusal :=
  onCh s ch (isLink l) fun cx c => c.receiveFabric cx l (c.maxLen (48 + l) + 16) bytes err fec none

/-- BEACON_RECEIVE (R152). -/
def execBeaconReceive (ch : Ch) (l : Nat) (bytes : List Byte) (s : State) : Host.Outcome State Fault Refusal :=
  onCh s ch (isLink l) fun cx c => c.receiveFabric cx l (c.maxLen (48 + l) + 16) bytes .none 0 none

/-- BEACON_SEND (R151). -/
def execBeaconSend (ch : Ch) (l : Nat) (s : State) : Host.Outcome State Fault Refusal :=
  onCh s ch (isLink l) fun cx c => c.sendBeacon cx l

/-- BEACON_EXPIRE (R153). -/
def execBeaconExpire (ch : Ch) (l : Nat) (s : State) : Host.Outcome State Fault Refusal :=
  onCh s ch (isLink l) fun _ c => c.expireBeacon l

/-- DIRECTION_FLUSH (R155). -/
def execDirectionFlush (ch : Ch) (right : Bool) (s : State) : Host.Outcome State Fault Refusal :=
  onCh s ch true fun cx c => c.flushDirection cx (if right then 51 else 49)

/-- CUT_THROUGH_START (R146). -/
def execCutThroughStart (ch : Ch) (l : Nat) (head : List Byte) (s : State) : Host.Outcome State Fault Refusal :=
  onCh s ch (isLink l) fun cx c => c.startCut cx l head

/-- CUT_THROUGH_END (R147). -/
def execCutThroughEnd (ch : Ch) (l : Nat) (tail : List Byte) (err : Option LineErr) (fecCorrected : Nat) (s : State) :
    Host.Outcome State Fault Refusal :=
  onCh s ch (isLink l) fun cx c => c.endCut cx l tail err fecCorrected

end Sys2Proof.Machine
end

