-- ==== Sys2Proof/Machine/Ports.lean ====
section
/-! DEFINITION. What an applied write, a reset or a change of role brings about at the ports of a channel (R82 to R168,
R494, R580). -/

namespace Sys2Proof.Machine

/-- Link down of a port is reported at once. -/
def Channel.portDown (c : Channel) (cx : Ctx) (p : Nat) : Channel :=
  if p ≤ 48 then c.frontDown' cx p else if p ≤ 52 then c.fabricDown' cx (p - 48) else c.dropDown cx (p - 64)

/-- A port reset (R580): the link goes down at once and the port's tier with it, the status objects and the timestamp queue return to
reset, the link restarts; a multidrop port in service is back with it. The scheduling state of the port's tier is cleared (R581): that of a
direction only where its other link does not carry it (assumption 126). -/
def Channel.resetPort (c : Channel) (cx : Ctx) (p : Nat) : Channel :=
  let c := c.portDown cx p
  let c := if p ≤ 48 then c.tierDown cx p else c
  let c := if 49 ≤ p && p ≤ 52 && (c.selected (tierOf p)).isSome then c else c.clearTier (tierOf p)
  if p ≤ 48 then (((c.put 0x4102 p 0).put 0x4109 p 0).put 0x410B p 0).setPort p { PortSt.empty with tail := (c.port p).tail }
  else if p ≤ 52 then (((c.put 0x4251 (p - 48) 0).put 0x4256 (p - 48) 0).setLink (p - 48) LinkSt.empty).setPort p
    { PortSt.empty with tail := (c.port p).tail }
  else (c.dropUp cx (p - 64))

/-- A new FLOW_MODE of port `p` (1 to 52) is in force: the holds of the old mode end, since no rule gives them an effect under the
new one (assumption 80), and the assertions follow the new mode at once (R102, R357). -/
def Channel.flowApplied (c : Channel) (cx : Ctx) (p old : Nat) : Channel :=
  if c.flowMode p = bits old 25 24 then c
  else (((c.setPort p { c.port p with paused := false, pfc := 0 }).showHold p).sendOwed cx p).backPressure cx p

/-- An applied write to the control of front port `p`, from `old` (R87, R89): ENABLE cleared takes the link and the tier down at
once (R400), and a change of SPEED, MEDIUM or ENABLE restarts the link and its negotiation. -/
def Channel.frontApplied (c : Channel) (cx : Ctx) (p old : Nat) : Channel :=
  let new := c.hw 0x4100 p
  let restart := bits old 15 10 != bits new 15 10 || bitOf old 0 != bitOf new 0
  let c := if restart then
      let c := (c.frontDown' cx p).putBit 0x4102 p 11 false
      c.setPort p { c.port p with eee := false, anOp := 0 }
    else c
  let c := if c.linkAllowed cx p then c else c.frontDown' cx p
  let c := if bitOf old 0 && !bitOf new 0 then c.tierDown cx p else c
  let c := if c.linkUp p && !bitOf new 26 then c.dropPartner p else c
  (c.refreshMember cx p).flowApplied cx p old

/-- An applied write to the control of fabric link `l`, from `old` (R140, R142). -/
def Channel.fabricApplied (c : Channel) (cx : Ctx) (l old : Nat) : Channel :=
  if c.linkAllowed cx (48 + l) then c.flowApplied cx (48 + l) old else c.fabricDown' cx l

/-- An applied write to the control of multidrop port `k` (R121, R134, R400): a write of PLCA_EN returns it to PLCA. -/
def Channel.dropApplied (c : Channel) (cx : Ctx) (k old : Nat) : Channel :=
  let new := c.hw 0x4200 k
  let c := c.setMdrop k { c.mdrop k with dup := false }
  if bitOf new 0 && !bitOf old 0 then c.dropUp cx k
  else if !bitOf new 0 && bitOf old 0 then c.dropDown cx k
  else c.showDrop cx k

/-- DOMAIN_CONFIG is set while the domain's settings do not fit (R156, R166). -/
def Channel.judgeDomain (c : Channel) (cx : Ctx) : Channel := if c.domainBad cx then c.flag 0x425D 1 64 else c

/-- An applied write to the PLCA configuration of port `k` (R115, R116): a new coordinator starts its first cycle with its next
BEACON, and has lost none. -/
def Channel.nodeApplied (c : Channel) (cx : Ctx) (k : Nat) : Channel :=
  let d := c.mdrop k
  (c.setMdrop k { d with lost := d.lost && !c.coordinator k, cycle := none, turn := false }).showDrop cx k

/-- A change of role, fence or mode at every port (R106, R108, R125, R161, R494): links that are no longer allowed go down,
members take their state, and `announce` sends the LACPDU of a change of role. -/
def Channel.roleChanged (c : Channel) (cx : Ctx) (announce : Bool) : Channel :=
  let c := (if cx.st == .off then c else c.judgeDomain cx).frontRole cx announce
  let c := (upFrom 1 4).foldl (fun c l => if c.linkAllowed cx (48 + l) then c else c.fabricDown' cx l) c
  (upFrom 1 16).foldl (fun c k =>
    if c.hwBit 0x4200 k 0 then c.showDrop cx k else c) c

end Sys2Proof.Machine
end

