-- ==== Sys2Proof/Machine/Time.lean ====
section
/-! DEFINITION. The time base, its steps and copies, the 1PPS pins, the transmit timestamps (R415 to R424, R438). -/

namespace Sys2Proof.Machine

/-- One tick: the increment in force is added to nanoseconds and fraction, and the seconds carry (R415). -/
def TimeSt.tick (t : TimeSt) (inc : Nat) : TimeSt :=
  let sum := t.ns * 2 ^ 32 + t.frac + inc
  let ns := sum / 2 ^ 32
  if 1000000000 ≤ ns then { t with sec := (t.sec + 1) % 2 ^ 48, ns := ns - 1000000000, frac := sum % 2 ^ 32 }
  else { t with ns := ns, frac := sum % 2 ^ 32 }

/-- Whether the instant of the 1PPS pulse falls in the tick from `t` to `new`, and what is then left until a delayed one: the carry
of the seconds, shifted by `off` nanoseconds (R422). A step between a carry and its delayed pulse changes nothing of the pulse. -/
def TimeSt.pulse (t new : TimeSt) (inc : Nat) (off : Int) : Bool × Option Nat :=
  let unit := 2 ^ 32
  let carry := new.sec != t.sec
  let past := new.ns * unit + new.frac
  if off < 0 then
    let early := (1000000000 - off.natAbs) * unit
    let old := t.ns * unit + t.frac
    (old < early && early ≤ old + inc, none)
  else if carry then (if off.natAbs * unit ≤ past then (true, none) else (false, some (off.natAbs * unit - past)))
  else
    match t.ppsWait with
    | none => (false, none)
    | some w => if w ≤ inc then (true, none) else (false, some (w - inc))

/-- TIME_TICK: the time advances (R415), and the 1PPS output rises at the carry of the seconds, shifted by OFFSET_NS (R422). A channel
in OFF has no running time base, but for one that returns without a reset (R511). -/
def Channel.tick (c : Channel) (cx : Ctx) : Channel :=
  if cx.st == .off && !cx.back then c
  else
    let inc := bits (c.hw 0x4B03 0) 39 0
    let t := c.time.tick inc
    let p := c.time.pulse t inc (signedOf 32 (bits (c.hw 0x4B05 0) 63 32))
    { c with time := { t with pps := t.pps || (c.hwBit 0x4B00 1 0 && t.valid && p.1), ppsWait := p.2 } }

/-- TIME_TICK (R415). -/
def execTimeTick (ch : Ch) (s : State) : Host.Outcome State Fault Refusal := onCh s ch true fun cx c => c.tick cx

/-- PPS_OUT_FALL (R422). -/
def execPpsOutFall (ch : Ch) (s : State) : Host.Outcome State Fault Refusal :=
  onCh s ch true fun _ c => { c with time := { c.time with pps := false } }

/-- PPS_IN_EDGE: the edge is stored, flagged and counted (R423). -/
def Channel.ppsEdge (c : Channel) : Channel :=
  if !c.hwBit 0x4B00 1 4 then c
  else ((c.put 0x4B06 0 c.time.stamp).flag 0x4B0F 1 2).inc 0x4B28 1

/-- PPS_IN_EDGE (R423). -/
def execPpsInEdge (ch : Ch) (s : State) : Host.Outcome State Fault Refusal := onCh s ch true fun _ c => c.ppsEdge

/-- Seconds and nanoseconds of a time in nanoseconds that a step reaches (R417). -/
def TimeSt.moved (t : TimeSt) (off : Int) : TimeSt :=
  let n := ((t.now : Int) + off).toNat
  { t with sec := n / 1000000000 % 2 ^ 48, ns := n % 1000000000, stepSum := t.stepSum + off, valid := true, copied := false }

/-- A time set: seconds and nanoseconds replaced, the fraction cleared (R417, R418). -/
def TimeSt.settled (t : TimeSt) (sec ns : Nat) : TimeSt :=
  { t with
    sec := sec, ns := ns, frac := 0, valid := true, copied := false,
    stepSum := t.stepSum + (((sec * 1000000000 + ns : Nat) : Int) - (t.now : Int)) }

/-- Whether the writes of R417 are refused: the result would lie below 1 s or above 2^48 − 1 s. -/
def outOfTime (n : Int) : Bool := decide (n < 1000000000) || decide ((((2 ^ 48 - 1) * 1000000000 : Nat) : Int) < n)

/-- The value of 0x4B04 or 0x4B02 takes effect at its tick (R417, R431). -/
def Channel.applyTime (c : Channel) (idx v : Nat) : Channel :=
  if idx = 0x4B04 then ({ c with time := c.time.moved (signedOf 64 v) }).flag 0x4B0F 1 1
  else if idx = 0x4B02 then ({ c with time := c.time.settled (bits v 79 32) (bits v 29 0) }).flag 0x4B0F 1 1
  else c

/-- Change the value in force of an object; one that is accepted and not yet applied stays and comes into force later (R617). -/
def Channel.force (c : Channel) (idx sub v : Nat) : Channel :=
  let mine := fun (p : Posted) => !p.win && p.key == objKey idx sub
  if c.posted.any mine then { c with posted := c.posted.map fun p => if mine p then { p with old := v } else p }
  else c.put idx sub v

/-- COPY_PARTNER has been carried out, or given up: the field reads 0 (R609). -/
def Channel.copyDone (c : Channel) : Channel :=
  ({ c with time := { c.time with copyDue := false } }).force 0x4B00 1 (setBit (c.hw 0x4B00 1) 8 false)

/-- Copy the other channel's time and increment (R418, R420). -/
def Channel.copyTime (c : Channel) (o : TimeSt) (inc : Nat) : Channel :=
  let t := c.time
  let c := { c with time := { t with
    sec := o.sec, ns := o.ns, frac := o.frac, valid := true, copied := true,
    stepSum := t.stepSum + ((o.now : Int) - (t.now : Int)) } }
  (c.copyDone.force 0x4B03 0 inc).flag 0x4B0F 1 1

/-- PARTNER_TIME_COPY: the copy, or COPY_FAILED (R420). -/
def State.partnerCopy (s : State) (ch : Ch) : State :=
  let o := s.chan ch.other
  let ok := s.present ch.other && o.time.valid
  s.onChan ch fun _ c =>
    if !c.time.copyDue then c
    else if ok then c.copyTime o.time (o.hw 0x4B03 0)
    else c.copyDone.flag 0x4B0F 1 32

/-- PARTNER_TIME_COPY (R420). -/
def execPartnerTimeCopy (ch : Ch) (s : State) : Host.Outcome State Fault Refusal :=
  if !s.present ch then .fault .noSuchChannel else .next (s.orderLog (s.partnerCopy ch))

/-- Remove the oldest transmit timestamp of a port (R438). -/
def Channel.popStamp (c : Channel) (p : Nat) : Channel :=
  let x := c.port p
  c.setPort p { x with stamps := x.stamps.drop 1 }

end Sys2Proof.Machine
end

