-- ==== Sys2Proof/Machine/Accept.lean ====
section
/-! DEFINITION. What an accepted write of a channel object or window entry brings about, at once or, in a posted domain, when
it is applied (R131, R188, R394, R443, R452, R617, R655). -/

namespace Sys2Proof.Machine

/-- Hardware keeps REMAINING at or below LIMIT − LEARNED (R131). -/
def Channel.clamp (c : Channel) (w : Allow) : Channel :=
  let a := c.allowance w
  c.setAllowance w a.1 (min a.2.2 (a.2.1 - a.1))

/-- Keep the value that a shaper or meter works by until its next refill (R394). -/
def Channel.keepOld (c : Channel) (key old : Nat) : Channel :=
  if c.pend.any (fun p => p.1 == key) then c else { c with pend := c.pend ++ [(key, old)] }

/-- The effect of a value that comes into force on an object, in place of `old`. -/
def Channel.applied (c : Channel) (cx : Ctx) (idx sub old : Nat) : Channel :=
  if idx = 0x4100 then c.frontApplied cx sub old
  else if idx = 0x4104 || idx = 0x4105 then (c.backPressure cx sub).showHold sub
  else if idx = 0x4108 then c.refreshMember cx sub
  else if idx = 0x4200 then c.dropApplied cx sub old
  else if idx = 0x4201 then c.nodeApplied cx sub
  else if idx = 0x4204 || idx = 0x4205 then c.clamp (.drop sub)
  else if idx = 0x4250 then c.fabricApplied cx sub old
  else if idx = 0x4252 then c.judgeDomain cx
  else if idx = 0x4254 || idx = 0x4255 then (c.backPressure cx (48 + sub)).showHold (48 + sub)
  else if idx = 0x4405 || idx = 0x4406 then c.clamp (.port sub)
  else if idx = 0x4407 then c.clamp .remote
  else if idx = 0x4902 then c.keepOld (objKey idx sub) old
  else if idx = 0x4B00 then
    let c := if bitOf (c.reg idx sub) 0 then c else { c with time := { c.time with pps := false } }
    if c.bit idx sub 8 then { c with time := { c.time with copyDue := true } } else c
  else if idx = 0x4B02 || idx = 0x4B04 then (c.applyTime idx (c.reg idx sub)).put idx sub 0
  else if idx = 0x4C00 then (if c.bit idx sub 0 then c else c.closeOn cx flagFlushed)
  else if idx = 0x4C10 then { c with cap := { c.cap with samples := tabErase c.cap.samples (sub - 1) } }
  else c

/-- The effect of an entry that comes into force in a window, in place of `old`. -/
def Channel.appliedWin (c : Channel) (cx : Ctx) (idx e old : Nat) : Channel :=
  if idx = 0x4310 then c.noteTable 6
  else if idx = 0x4311 then c.noteTable 7
  else if idx = 0x4506 then (c.wput idx e (nextHopParity (c.wget idx e))).noteTable 5
  else if idx = 0x4408 then c.clamp (.sub e)
  else if idx = 0x4710 then c.writeWord e (c.wget idx e)
  else if idx = 0x4801 then c.account cx e (c.pool e)
  else if idx = 0x4904 || idx = 0x4905 || idx = 0x4A10 then c.keepOld (winKey idx e) old
  else c

/-- The domains of a posted object; 0x4252 lies in both fabric domains (R167). -/
def domainsOf (idx sub : Nat) : List Domain :=
  match postedDomain idx sub with
  | none => []
  | some d => if idx = 0x4252 then [.fabricMacro 1, .fabricMacro 2] else [d]

/-- Set or clear the busy object of a domain. -/
def Channel.setBusy (c : Channel) (d : Domain) (b : Bool) : Channel :=
  { c with dict := tabSet chDflt c.dict (busyKey d) (setBit (tabGet chDflt c.dict (busyKey d)) 0 b) }

/-- Whether a write of this object meets a busy domain (R655). -/
def Channel.domainBusy (c : Channel) (idx sub : Nat) : Bool :=
  (domainsOf idx sub).any fun d => bitOf (tabGet chDflt c.dict (busyKey d)) 0

/-- Note a posted write: the value in force stays until it is applied (R617). -/
def Channel.post (c : Channel) (ds : List Domain) (win : Bool) (key old : Nat) : Channel :=
  match ds with
  | [] => c
  | d :: _ =>
    let c := if c.posted.any (fun p => p.win == win && p.key == key) then c
      else { c with posted := c.posted ++ [⟨d, win, key, old⟩] }
    ds.foldl (fun c d => c.setBusy d true) c

/-- Accept a value for an object (R609, R617). -/
def Channel.accept (c : Channel) (cx : Ctx) (idx sub v : Nat) : Channel :=
  let old := c.reg idx sub
  let c := c.mend (objKey idx sub)
  let ds := domainsOf idx sub
  if ds.isEmpty then (c.put idx sub v).applied cx idx sub old
  else (c.put idx sub v).post ds false (objKey idx sub) old

/-- Accept a value for a window entry. -/
def Channel.acceptWin (c : Channel) (cx : Ctx) (idx e v : Nat) : Channel :=
  let old := c.wget idx e
  let c := c.mend (winKey idx e)
  let ds := domainsOf idx 0
  if ds.isEmpty then (c.wput idx e v).appliedWin cx idx e old
  else (c.wput idx e v).post ds true (winKey idx e) old

/-- Whether a posted write is applied with a domain; that of 0x4252 with either fabric domain (R167). -/
def Posted.of (d : Domain) (p : Posted) : Bool :=
  p.dom == d || (d == .fabricMacro 2 && !p.win && p.key / 256 == 0x4252)

/-- POSTED_WRITE_APPLY: the accepted writes of a domain come into force and its busy object clears (R617). -/
def Channel.applyDomain (c : Channel) (cx : Ctx) (d : Domain) : Channel :=
  let mine := c.posted.filter (Posted.of d)
  let fabric := fun (p : Posted) => p.key / 256 == 0x4252 && !p.win
  let c := { c with posted := c.posted.filter fun p => !(Posted.of d p) }
  let c := c.setBusy d false
  let c := if mine.any fabric then (c.setBusy (.fabricMacro 1) false).setBusy (.fabricMacro 2) false else c
  let c := mine.foldl (fun c p =>
    if p.win then c.appliedWin cx (p.key / 2 ^ 40) (p.key % 2 ^ 40) p.old
    else c.applied cx (p.key / 256) (p.key % 256) p.old) c
  if d = .controlStore then c.putBit 0x4701 1 2 c.unrepairable else c

/-- The objects that both channels must hold alike are compared when they change (R105, R128, R156). -/
def State.crossCheck (s : State) (idx : Nat) : State :=
  let both := fun (s : State) (i sub mask : Nat) =>
    (s.onChan .a fun _ c => c.flag i sub mask).onChan .b fun _ c => c.flag i sub mask
  if !s.present .b then s
  else if idx = 0x410C || idx = 0x410D then (if s.chA.hw 0x410C 1 = s.chB.hw 0x410C 1 then s else both s 0x410D 1 (2 ^ 7))
  else if idx = 0x4200 || idx = 0x4206 then
    (upFrom 1 16).foldl (fun s k => if s.chA.hwBit 0x4200 k 3 = s.chB.hwBit 0x4200 k 3 then s else both s 0x4206 k (2 ^ 5)) s
  else if idx = 0x4252 || idx = 0x425D then (if s.chA.hw 0x4252 1 = s.chB.hw 0x4252 1 then s else both s 0x425D 1 (2 ^ 7))
  else s

/-- The objects of a domain that both channels must hold alike. -/
def crossObject : Domain → Nat
  | .multidrop => 0x4200
  | .fabricMacro _ => 0x4252
  | _ => 0

/-- Whether the macro of a domain exists (R30). -/
def domainExists : Domain → Bool
  | .portMacro m => Nat.ble 1 m && Nat.ble m 12
  | .fabricMacro m => Nat.ble 1 m && Nat.ble m 2
  | _ => true

/-- POSTED_WRITE_APPLY (R655). -/
def execPostedWriteApply (ch : Ch) (d : Domain) (s : State) : Host.Outcome State Fault Refusal :=
  if !s.present ch then .fault .noSuchChannel
  else if !domainExists d then .fault .noSuchPart
  else .next (s.orderLog ((s.onChan ch fun cx c => c.applyDomain cx d).crossCheck (crossObject d)))

end Sys2Proof.Machine
end

