-- ==== Sys2Proof/Machine/Life.lean ====
section
/-! DEFINITION. The life of a channel as the service block and the arbiter drive it: fences, flushes, grants, NIGHT, resets,
digests, deltas, islands (R401, R494 to R502, R516, R535 to R544, R579 to R581). -/

namespace Sys2Proof.Machine

/-! ## Fences, flushes, roles -/

/-- The fields of 0x4000:11 that follow the set point (R75). The regulator is taken to slew upwards while the measured voltage lies
below the set point (assumption 88). -/
def Channel.showSetPoint (c : Channel) : Channel :=
  let v := c.core.setMv
  let c := c.putBits 0x4000 0x11 9 0 v
  let c := c.putBit 0x4000 0x11 15 (bits (c.reg 0x4000 0x11) 25 16 < v)
  (c.putBit 0x4000 0x11 14 (v == 550)).putBit 0x4000 0x11 13 (v == 850)

/-- Every copy that waits in a queue or is selected. -/
def Channel.everyQueued (c : Channel) : List (Nat × Nat) :=
  (c.queues.flatMap fun q => q.2.items) ++ c.tiers.flatMap fun t => t.2.picked

/-- A copy is lost with the queues of a failed channel: uncounted (R401), but by the sessions whose copy of it that would have left its
port can no longer be taken (R444, assumption 113). -/
def Channel.loseCopy (c : Channel) (cx : Ctx) (r : Nat × Nat) : Channel :=
  match c.copyOf r with
  | none => c
  | some (_, x) =>
    let c := match x.kind, x.seen with
      | .mirror _, _ | _, true => c
      | _, false => c.mirror cx r.1 ⟨false, 0, false, none, some x.port, x.port, x.q, c.time.stamp, some []⟩
    c.leave cx r

/-- Pending learns are lost with a takeover (R506); what they were charged is given back (R131). -/
def Channel.loseLearns (c : Channel) : Channel :=
  let c := c.bridge.learns.foldl (fun c r => r.charges.foldl (fun c w => c.creditOne w) c) c
  { c with bridge := { c.bridge with learns := [] } }

/-- The fence is asserted (R494): frames on the line are cut short, links go down; `lost`: the queues of a channel declared
failed are lost uncounted (R401), and its pending learns (R506). Else a multidrop MAC drops the frame that was cut short, as those of links that go down do (R97). -/
def Channel.fenced (c : Channel) (cx : Ctx) (lost : Bool) : Channel :=
  let cut := (upFrom 65 16).filterMap fun p => (c.onLine p).map fun r => (p, r)
  let c := c.cutAll cx
  let c := if lost then c.everyQueued.eraseDups.foldl (fun c r => c.loseCopy cx r) c.loseLearns
    else cut.foldl (fun c l => c.macDrop cx l.2 l.1 0x91) c
  c.roleChanged { cx with fence := true } false

/-- Whether a copy has begun to leave. -/
def Channel.leaving (c : Channel) (r : Nat × Nat) : Bool :=
  match c.copyOf r with
  | some (_, x) => x.pos == .line
  | none => true

/-- The copies that a flush takes: those that have not begun to leave. -/
def Channel.flushable (c : Channel) : List (Nat × Nat) := c.everyQueued.eraseDups.filter fun r => !c.leaving r

/-- All frames that have not begun to leave are flushed with 0x80 (R401, R537). -/
def Channel.flushAll (c : Channel) (cx : Ctx) : Channel :=
  let l := c.flushable
  let c := l.foldl (fun c r => match c.copyOf r with
    | some (_, x) => (c.inc 0x4922 x.tier).discard cx r 0x80
    | none => c) c
  if l.isEmpty then c else c.flag 0x490F 1 1

/-- A channel becomes ACTIVE (R503, R505): no entry ages until AGE_TIME ticks have passed, its members distribute and an
LACPDU goes out on every pair. -/
def Channel.newActive (c : Channel) (cx : Ctx) : Channel :=
  ({ c with bridge := { c.bridge with clock := 0 } }).roleChanged cx true

/-- Whether nothing is left for a flush to take (R537): a frame on the line is completed (R98). -/
def Channel.queuesEmpty (c : Channel) : Bool := c.flushable.isEmpty

/-- The release point of a drill (R517). -/
def Channel.releasePoint (c : Channel) (cx : Ctx) : Channel := c.roleChanged { cx with released := true } true

/-! ## NIGHT -/

/-- Step b of R537: what waits is recorded and the open block is closed with FLUSHED, and every job ends with MODE. -/
def Channel.nightEnter (c : Channel) (cx : Ctx) : Channel := (c.closeAll cx flagFlushed).endJobs cx

/-- Step e of R537: links go down but those with NIGHT_LINK; multidrop ports only listen. -/
def Channel.nightDown (c : Channel) (cx : Ctx) : Channel := c.roleChanged { cx with night := .asleep } false

/-- NIGHT ends (R542): the core goes to DAY voltage, multidrop ports and members take their state again. -/
def Channel.nightLeave (c : Channel) (cx : Ctx) : Channel :=
  let c := { c with core := { c.core with setMv := max 750 c.core.setMv, exitPend := true } }
  c.showSetPoint.roleChanged cx true

/-! ## Reset (R581) -/

/-- The classes that a channel reset keeps by the service block copy. -/
def Obj.inCopy (o : Obj) : Bool := o.keep == .P || o.keep == .S

/-- Objects that the copy holds; the health of a persistent store is kept too (R463). -/
def keptKey (v : Variant) (key : Nat) : Bool :=
  match objIn channelObjs (key / 256) (key % 256) with
  | some o => o.inCopy || (v == .A && key / 256 == 0x4C02)
  | none => false

/-- Window entries that the copy holds, and the persistent ring (R458). -/
def keptEntry (v : Variant) (key : Nat) : Bool :=
  let idx := key / 2 ^ 40
  match objIn channelObjs idx 0 with
  | some o => o.inCopy || (v == .A && idx == 0x4C40)
  | none => false

/-- No entry is learned: LEARNED reads 0 and REMAINING equals LIMIT (R654). -/
def Channel.freshAllowances (c : Channel) : Channel :=
  let c := { c with dict := c.dict.filter fun p => p.1 / 256 != 0x4205 && p.1 / 256 != 0x4406 }
  let renew := fun (c : Channel) (w : Allow) => c.setAllowance w 0 (c.allowance w).2.1
  let c := (listedSubs c.dict 0x4204).foldl (fun c k => renew c (.drop k)) c
  let c := (listedSubs c.dict 0x4405).foldl (fun c p => renew c (.port p)) c
  (listedIn c.win 0x4408).foldl (fun c s => renew c (.sub s)) (renew c .remote)

/-- Every bucket is full (R395, R399). -/
def Channel.freshBuckets (c : Channel) : Channel :=
  let c := (listedSubs c.dict 0x4902).foldl (fun c p => c.put 0x4907 p (credit (bits (c.reg 0x4902 p) 55 32))) c
  let c := (listedIn c.win 0x4904).foldl (fun c i => c.wput 0x4908 i (credit (bits (c.wget 0x4904 i) 55 32))) c
  let c := (listedIn c.win 0x4905).foldl (fun c i => c.wput 0x4909 i (credit (bits (c.wget 0x4905 i) 55 32))) c
  (listedIn c.win 0x4A10).foldl (fun c i =>
    let m := c.wget 0x4A10 i
    if bits m 127 126 = 0 then c else c.wput 0x4A11 i (credit (bits m 95 72) * 2 ^ 64 + credit (bits m 119 96))) c

/-- A channel after its reset (R581): the service block copy and a persistent store are kept, and a 1PPS pulse in progress is
finished (R422). -/
def Channel.reset (c : Channel) (v : Variant) : Channel :=
  let z := { Channel.fresh with
    dict := c.dict.filter fun p => keptKey v p.1
    win := c.win.filter fun p => keptEntry v p.1
    box := c.box
    time := { Channel.fresh.time with pps := c.time.pps }
    cap := c.cap.restart v c.ringBlock }
  let z := z.freshAllowances.freshBuckets
  ((z.put 0x4C01 1 z.cap.nextSeq).put 0x4C01 2 z.cap.lastSlot).put 0x4C01 3 z.cap.nextRec

/-! ## Tables, digests, deltas -/

/-- The windows of tables 0 to 5 of R474, and the length filters. -/
def tableWindows : List Nat := [0x4411, 0x4421, 0x4511, 0x4512, 0x4504, 0x4505, 0x4610]

/-- The receiver of a resync clears its tables (R502); its learn allowances follow its entries (R499). A job that scans a table of them
sees it changed (R477). -/
def Channel.clearTables (c : Channel) : Channel :=
  let c := (List.range 5).foldl (fun c t => if (listedIn c.win (scanTable t).1).isEmpty then c else c.noteTable t) c
  { c with
    win := c.win.filter fun p => !(tableWindows.contains (p.1 / 2 ^ 40))
    bridge := { c.bridge with learns := [], ages := [] }
    search := { c.search with updates := [] } }.freshAllowances

/-- Whether unit 0 is free for a drill's jobs (R515). -/
def Channel.unit0Free (c : Channel) : Bool := !c.jobBusy 1

/-- Whether the quarantined cells have reached their threshold (R364, R488). -/
def Channel.quarantineReached (c : Channel) : Bool :=
  0 < c.quarantineTotal && Nat.ble (bits (c.reg 0x4800 3) 31 0) c.quarantineTotal

/-- Whether a queue has reached RAMP_QUEUE (R535). -/
def Channel.rampTrigger (c : Channel) (cx : Ctx) : Bool :=
  c.queues.any fun q => Nat.ble (cx.rampQueue * 256) q.2.cells

/-- Occupancy of pool 15 in cells (R79). -/
def Channel.poolUse15 (c : Channel) : Nat := (c.pool 15).shared

/-- Whether the relay repeats writes of an object key. -/
def relayedKey (key : Nat) : Bool :=
  match objIn channelObjs (key / 256) (key % 256) with
  | some o => relayedObj o (key / 256) && (o.acc == .rw || o.acc == .rws)
  | none => false

/-- Whether the relay repeats writes of a window entry's key. -/
def relayedEntry (key : Nat) : Bool :=
  match objIn channelObjs (key / 2 ^ 40) 0 with
  | some o => relayedObj o (key / 2 ^ 40) && o.acc == .rw
  | none => false

/-- The entries of a hashed table as deltas. -/
def Channel.slotDeltas (c : Channel) (t : Hashed) : List Delta :=
  (c.occupied t).map fun a => .slot t (slotKey t (c.slot t a)) (c.slot t a)

/-- What a resync sends to a receiver (R502): the holder's configuration where either channel has other than defaults, then
every valid entry of its tables. -/
def Channel.copyDeltas (c : Channel) (receiver : Channel) : List Delta :=
  let objs := ((c.dict ++ receiver.dict).map (·.1)).eraseDups.filter relayedKey
  let wins := ((c.win ++ receiver.win).map (·.1)).eraseDups.filter relayedEntry
  objs.map (fun k => .obj k (tabGet chDflt c.dict k)) ++ wins.map (fun k => .win k (tabGet winDflt c.win k)) ++
    c.slotDeltas .bridge ++ c.slotDeltas .sub ++ c.slotDeltas .v4 ++ c.slotDeltas .v6 ++
    (listedIn c.win 0x4610).map fun i => .entry i (c.wget 0x4610 i)

/-- The customer region, vectors and triggers that leave NOON with the lease holder (R544). -/
def Channel.customerDeltas (c : Channel) : List Delta :=
  let objs := (upFrom 1 64).flatMap fun p => [objKey 0x4703 p, objKey 0x4704 p, objKey 0x4705 p]
  let vecs := (upFrom 1 10).map (objKey 0x4706) ++ [objKey 0x4708 1, objKey 0x4708 2]
  let all := (objs ++ vecs).filter relayedKey
  all.map (fun k => .obj k (tabGet chDflt c.dict k)) ++
    (upFrom 0x3000 4096).map fun a => .win (winKey 0x4710 a) (c.wget 0x4710 a)

/-- What a relayed value of an allowance sets on the receiver: LIMIT. LEARNED stays its own count, which follows the relayed charges, and
REMAINING is what LIMIT leaves (R499, R654, assumption 128). -/
def relayedValue (idx old v : Nat) : Nat :=
  if idx = 0x4407 then setBits (setBits v 62 42 (bits old 62 42)) 20 0 (bits v 41 21 - bits old 62 42)
  else if idx = 0x4408 then setBits (setBits v 47 32 (bits old 47 32)) 15 0 (bits v 31 16 - bits old 47 32)
  else v

/-- Apply a delta (R501): a configuration write, a table entry by the receiver's own engine, a search entry at its index. -/
def Channel.applyDelta (c : Channel) (cx : Ctx) : Delta → Channel
  | .obj key v => c.accept cx (key / 256) (key % 256) (relayedValue (key / 256) (c.reg (key / 256) (key % 256)) v)
  | .win key v =>
    c.acceptWin cx (key / 2 ^ 40) (key % 2 ^ 40) (relayedValue (key / 2 ^ 40) (c.wget (key / 2 ^ 40) (key % 2 ^ 40)) v)
  | .slot t k e => c.slotDelta t k e
  | .entry i e => { c with search := { c.search with updates := c.search.updates ++ [(i, e, true)] } }

/-! ## Power-fail warning and islands -/

/-- The power-fail warning reaches a channel (R457). -/
def Channel.powerWarn (c : Channel) (cx : Ctx) : Channel := c.captureWarn cx

/-- The warning clears (R457). -/
def Channel.powerBack (c : Channel) (_ : Ctx) : Channel := c.captureBack

/-- The links that island `i` carries (R80), by port number. -/
def islandPorts (i : Nat) : List Nat :=
  if i < 12 then upFrom (4 * i + 1) 4 else if i < 24 then upFrom (4 * (i - 12) + 1) 4
  else if i = 24 then [49, 50] else if i = 25 then [51, 52] else []

/-- An island has lost lock (R80): its ports go down. -/
def Channel.islandDown (c : Channel) (cx : Ctx) (i : Nat) : Channel :=
  (islandPorts i).foldl (fun c p => c.portDown cx p) c

end Sys2Proof.Machine
end

