-- ==== Sys2Proof/Machine/Mode.lean ====
section
/-! DEFINITION. Modes: what a change of mode brings about, NIGHT entry, waking, the contacts (R48 to R52, R531 to R544, R674). -/

namespace Sys2Proof.Machine

/-- The triggers of a mode change in the event log (R649). -/
inductive Trigger where
  | host
  | load
  | channelState
  | wake
  | bringup
deriving DecidableEq, Repr

/-- Their codes (R649). -/
def Trigger.code : Trigger → Nat
  | .host => 1
  | .load => 2
  | .channelState => 3
  | .wake => 4
  | .bringup => 5

/-- An input state that carries the load (R546); RETURNING is used only while the warning is in force (R548). -/
def InputSt.used (i : InputSt) (warn : Bool) : Bool :=
  match i.st with
  | .ac | .dc | .low => true
  | .returning => warn
  | _ => false

/-- An input whose state the FAULT contact accepts (R674). -/
def InputSt.good (i : InputSt) : Bool := i.st == .ac || i.st == .dc

/-- The condition of the FAULT relay (R674). -/
def State.faultCond (s : State) : Bool :=
  let m := s.modeCode
  s.power.powered && !s.power.resetLow && (m == 2 || m == 3 || m == 4 || m == 6) && !s.bring.strapError &&
    !s.bring.unconf && s.power.inA.good && s.power.inB.good

/-- A contact follows its condition unless its 100 ms hold runs (R674). -/
def ContactSt.follow (c : ContactSt) (cond : Bool) : ContactSt :=
  if c.held || c.on == cond then c else ⟨cond, true⟩

/-- The condition of the ROLE relay; while the arbiter is lost it keeps its position (R674). An arbiter that bring-up has not started yet is
not lost: LEASE_HOLDER reads 0. -/
def State.roleCond (s : State) : Bool :=
  if s.arb.ok || s.bring.stage < 2 then s.arb.holder == some .a else s.power.role.on

/-- Both contacts follow; without power both drop out (R674). -/
def State.followContacts (s : State) : State :=
  if s.power.powered then
    { s with power := { s.power with fault := s.power.fault.follow s.faultCond, role := s.power.role.follow s.roleCond } }
  else { s with power := { s.power with fault := ⟨false, false⟩, role := ⟨false, false⟩ } }

/-- Send the lease holder's customer region, vectors and triggers to the other channel when NOON is left (R544). -/
def State.leaveNoon (s : State) : State :=
  match s.arb.holder with
  | none => s
  | some h => (s.chan h).customerDeltas.foldl (fun s d => s.relayDelta h d) s

/-- The trigger of a change of mode (R531): bring-up to and from DAWN, a wake source from NIGHT, the host's 4 to NIGHT, a channel state to
and from TWILIGHT, the load to and from DUSK, the host to and from NOON. -/
def modeTrigger (old new : Nat) : Trigger :=
  if old = 1 || new = 1 then .bringup
  else if old = 4 then .wake
  else if new = 4 then .host
  else if old = 5 || new = 5 then .channelState
  else if old = 6 || new = 6 then .host
  else .load

/-- Every present channel does its part. -/
def State.eachChan (s : State) (f : Ctx → Channel → Channel) : State :=
  s.channels.foldl (fun s ch => s.onChan ch f) s

/-- DUSK ends (R535): dusk_exit_pending is set, the flag follows. -/
def State.leaveDusk (s : State) : State :=
  let s := ({ s with mode := { s.mode with dusk := false } }).mflag 0x1106 0 4
  s.eachChan fun _ c => { c with core := { c.core with exitPend := true, quietRun := 0 } }

/-- DUSK is left with the step that takes 0x1100 from it: no transition of R531 leads back to it but from DAY (assumption 124). -/
def State.endDusk (s : State) : State := if s.mode.dusk && s.modeCode != 3 then s.leaveDusk else s

/-- A change of the mode that 0x1100 reports sets MODE_CHANGE and is logged (R533). -/
def State.noteMode (s : State) : State :=
  let new := s.modeCode
  let old := s.mode.last
  if new = old then s
  else
    let s := { s with mode := { s.mode with last := new } }
    let s := if old = 6 && new != 5 then s.leaveNoon else s
    (s.mflag 0x1106 0 1).logEvent 0 1 (old * 256 + new + (modeTrigger old new).code * 65536)

/-- What the ports of a channel follow: its state, its right to forward, its fence, the release of a drill, NIGHT. -/
def State.portView (s : State) (ch : Ch) : ChState × Bool × Bool × Bool × Night :=
  let cx := s.ctx ch
  (cx.st, cx.forwards, cx.fence, cx.released, cx.night)

/-- Every channel whose role, fence or mode has changed brings its ports up to date (R106, R161, R494). A new active has sent its LACPDUs
with its grant (R505). -/
def State.followRoles (before s : State) : State :=
  s.channels.foldl (fun s ch =>
    if before.portView ch = s.portView ch then s
    else [0x410C, 0x4200, 0x4252].foldl State.crossCheck
      (s.onChan ch fun cx c => c.roleChanged cx false)) s

/-- Code of a wake cause (R541). -/
def WakeCause.code : WakeCause → Nat
  | .host => 1
  | .pattern _ _ _ => 2
  | .time => 3
  | .fault => 4

/-- The value of 0x1107 for a cause (R554). -/
def WakeCause.record : WakeCause → Nat
  | .pattern ch port pat => 2 + pat * 2 ^ 8 + ch.num * 2 ^ 16 + port * 2 ^ 17
  | c => c.code

/-- The flag of 0x1106 for a cause (R553). -/
def WakeCause.flag : WakeCause → Nat
  | .host => 2 ^ 4
  | .pattern _ _ _ => 2 ^ 3
  | .time => 2 ^ 5
  | .fault => 2 ^ 7

/-- Whether a wake pulls WAKE low: by DRIVE_PIN, TIME_WAKE_PIN, or always after a fault (R113, R541). -/
def State.drivesWake (s : State) : WakeCause → Bool
  | .host => false
  | .pattern ch _ k => bitOf ((s.chan ch).reg 0x4231 k) 25
  | .time => bitOf (s.mreg 0x1104 0) 3
  | .fault => true

/-- A channel begins stage 8: its fence is lifted, its enabled multidrop ports come into service (R494, R563). -/
def State.beginStage8 (s : State) (ch : Ch) : State :=
  (s.modRole ch fun r => { r with
    stage := 8, attempt := 1, waitNight := false, fence := false, fenceDone := false, fenceLate := false }).onChan ch
      fun cx c => (upFrom 1 16).foldl (fun c k => c.dropUp cx k) c

/-- 4 written to 0x1101: ingress stops, blocks close, jobs end and the queues drain (R537). -/
def State.enterNight (s : State) : State :=
  if s.mode.night != .awake then s
  else
    let s := { s with mode := { s.mode with night := .entering, wake := none, pins := [] } }
    (s.minc 0x1108 2).eachChan fun cx c => c.nightEnter cx

/-- The module leaves NIGHT: cause, flags, counter and WAKE; the mode follows 0x1101 (R541, R542). `all` are the sources that have
arisen, each of which sets its flag and pulls WAKE low as its own settings say (R113). A 4 written after the host's wake begins the next entry (R532). -/
def State.wakeNow (s : State) (cause : WakeCause) (all : List WakeCause) : State :=
  let s := { s with mode := { s.mode with night := .awake, wake := none, pins := [] } }
  let s := if cause == .host then s else s.mput 0x1101 0 (bits (s.mreg 0x1104 0) 7 4)
  let s := (all.foldl (fun s w => s.mflag 0x1106 0 w.flag) ((s.mput 0x1107 0 cause.record).mflag 0x1106 0 cause.flag)).minc 0x1108 3
  let s := { s with power := { s.power with wakeBy := (s.power.wakeBy ++ all.filter s.drivesWake).eraseDups } }
  let s := s.channels.foldl (fun s ch => if (s.role ch).waitNight then s.beginStage8 ch else s) s
  let s : State := s.eachChan fun cx c => c.nightLeave cx
  if s.mreg 0x1101 0 = 4 then s.enterNight else s

/-- The cause that 0x1107 records when several coincide: the lowest (R541). -/
def WakeCause.lower (a : Option WakeCause) (b : WakeCause) : WakeCause :=
  match a with
  | none => b
  | some a => if a.code ≤ b.code then a else b

/-- Wake sources of one kind that arise in one step, the first of them recorded: they wake a sleeping module once, and one that is
entering NIGHT after step f (R113, R541). -/
def State.wakeByAll (s : State) : List WakeCause → State
  | [] => s
  | cause :: more =>
    match s.mode.night with
    | .awake => s
    | .entering => { s with mode := { s.mode with
        wake := some (WakeCause.lower s.mode.wake cause), pins := s.mode.pins ++ cause :: more } }
    | .asleep => s.wakeNow cause (cause :: more)

/-- A wake source (R541). -/
def State.wakeBy (s : State) (cause : WakeCause) : State := s.wakeByAll [cause]

/-- DAWN ends when a channel has completed stage 9; the mode then follows 0x1101 (R50, R531). -/
def State.leaveDawn (s : State) : State :=
  if s.mode.dawn && s.channels.any fun ch => (s.role ch).stage == 15 then
    let s := { s with mode := { s.mode with dawn := false } }
    if s.mreg 0x1101 0 = 4 then s.enterNight else s
  else s

/-- The end of every command of the module: ports, log order, mode, contacts (R648, R533, R674). -/
def State.finish (before s : State) : State :=
  before.orderLog (((State.followRoles before s.leaveDawn).endDusk.noteMode).followContacts)

/-- Steps d to f of R537: what remains is flushed, links go down, NIGHT power is reached. A wake source that arose
meanwhile then wakes the module (R541). -/
def State.sleep (s : State) : State :=
  if s.mode.night != .entering then s
  else
    let left := s.channels.any fun ch => !(s.chan ch).queuesEmpty
    let s := if left then s.mflag 0x1106 0 (2 ^ 6) else s
    let s := s.eachChan fun cx c => (c.flushAll cx).nightDown cx
    let s := { s with mode := { s.mode with night := .asleep } }
    match s.mode.wake with
    | some w => s.wakeNow w s.mode.pins
    | none => s

/-- A value stored in 0x1101 (R531, R532): 4 starts NIGHT entry, 2 or 6 wakes a module in NIGHT. -/
def State.requestMode (s : State) (m : Nat) : State :=
  let s := s.mput 0x1101 0 m
  if s.mode.dawn then s
  else if m = 4 then s.enterNight
  else s.wakeBy .host

end Sys2Proof.Machine
end

