-- ==== Sys2Proof/Machine/Arbiter.lean ====
section
/-! DEFINITION. The role arbiter: health, fences, grants, declarations, holds, resets of a channel, drills
(R487 to R530, R564, R579). -/

namespace Sys2Proof.Machine

/-! ## Health -/

/-- Front ports with ENABLE set and LINK_UP clear (R488). -/
def Channel.frontDown (c : Channel) : Nat :=
  ((upFrom 1 48).filter fun p => c.hwBit 0x4100 p 0 && !c.bit 0x4102 p 0).length

/-- Fabric links with ENABLE set and LINK_UP clear (R488). -/
def Channel.fabricDown (c : Channel) : Nat :=
  ((upFrom 1 4).filter fun l => c.hwBit 0x4250 l 0 && !c.bit 0x4251 l 0).length

/-- Bits 6, 4, 3 and 2 of the health word: junction, islands, microcode, regulator (R488). -/
def Channel.unfitBits (c : Channel) : Nat :=
  (if 920 ≤ signedOf 16 (c.reg 0x4000 0x1C) then 2 ^ 6 else 0) +
  (if c.bit 0x4000 0x20 26 && c.bit 0x4000 0x20 27 then 0 else 2 ^ 4) +
  (if c.bit 0x4701 1 0 && !c.bit 0x4701 1 2 then 0 else 2 ^ 3) +
  (if c.core.regFault then 2 ^ 2 else 0)

/-- SCORE (R489). -/
def healthScore (front fabric : Nat) (reduced unfit : Bool) : Nat :=
  if unfit then 0 else 255 - (4 * front + 16 * fabric + 64 * reduced.toNat)

/-- The health word that the channel's core computes (R488). -/
def State.coreHealth (s : State) (ch : Ch) : Nat :=
  let c := s.chan ch
  let r := s.role ch
  let u := c.unfitBits
  let unfit := u != 0 || !r.ready
  let red := c.quarantineReached
  healthScore c.frontDown c.fabricDown red unfit * 2 ^ 24 + c.frontDown * 2 ^ 18 + c.fabricDown * 2 ^ 15 +
    r.stale.toNat * 2 ^ 8 + unfit.toNat * 2 ^ 7 + u + red.toNat * 2 ^ 5 + r.ready.toNat

/-- The word sent in NIGHT by the time base island: the core's last one, with what the island watches itself (R538). -/
def State.nightHealth (s : State) (ch : Ch) : Nat :=
  let w := (s.role ch).health
  let u := (s.chan ch).unfitBits
  let u := (u &&& 0x54) ||| (w &&& 0x08)
  let unfit := u != 0 || !bitOf w 0
  let w := setBits w 6 6 (bits u 6 6)
  let w := setBits w 4 4 (bits u 4 4)
  let w := setBits w 2 2 (bits u 2 2)
  let w := setBit w 7 unfit
  if unfit then setBits w 31 24 0 else w

/-- The health word of the next heartbeat. -/
def State.healthWord (s : State) (ch : Ch) : Nat :=
  if s.mode.night == .asleep then s.nightHealth ch else s.coreHealth ch

/-- FAIL_THRESHOLD of 0x1300:01. -/
def State.failThreshold (s : State) : Nat := bits (s.mreg 0x1300 1) 23 16

/-- A health word with UNFIT clear, READY set. -/
def wordGood (w : Nat) : Bool := !bitOf w 7 && bitOf w 0

/-- Fit (R490), by the last word received. -/
def State.fit (s : State) (ch : Ch) : Bool :=
  let r := s.role ch
  s.present ch && r.st == .standby && wordGood r.health && Nat.ble s.failThreshold (bits r.health 31 24) && !r.stale

/-- Healthy (R490): the last three heartbeats in consecutive slots, fit and high enough. -/
def State.healthy (s : State) (ch : Ch) : Bool := Nat.ble 3 (s.role ch).goodRun

/-! ## Fence, reset, grant -/

/-- Assert a channel's fence (R494). `lost`: the queues of a channel declared failed are lost uncounted (R401). -/
def State.fence (s : State) (ch : Ch) (lost : Bool) : State :=
  let r := s.role ch
  let s := if r.fence then s else s.setRole ch { r with fence := true, fenceDone := false, fenceLate := false }
  s.onChan ch fun cx c => c.fenced cx lost

/-- Codes of R586. -/
def ResetCause.code : ResetCause → Nat
  | .none => 0
  | .host => 1
  | .arbiter => 2
  | .hold => 3
  | .release => 4
  | .trip => 5
  | .bringup => 6
  | .module => 7

/-- A channel reset begins (R579): fence, output off, OFF; its contents go as R581 says. The restart follows as
CHANNEL_RESTART. Relay traffic for it is void. -/
def State.beginReset (s : State) (ch : Ch) (cause : ResetCause) : State :=
  let s := s.fence ch true
  let r := s.role ch
  let s := s.setRole ch { r with
    st := .off, stage := 14, attempt := 0, backoffEnd := none, waitNight := false, waitArb := false,
    resetCause := cause, outputOn := false, restartDue := true, resetAt := s.sbTime, ready := false,
    hbSeen := false, misses := 0, goodRun := 0, lowRun := 0, orphan := false, silent := false, stale := false,
    deferred := false }
  let s := s.mput 0x110A (2 + ch.num) cause.code
  let s := s.setChan ch ((s.chan ch).reset s.unit.variant)
  let a := s.arb
  let s := { s with arb := { a with
    holder := if a.holder == some ch then none else a.holder,
    drainer := if a.drainer == some ch then none else a.drainer,
    pending := a.pending.filter fun g => g.dest != ch
    back := a.back.filter fun b => b.chan != ch } }
  if a.holder == some ch.other || a.drainer == some ch || r.deferred || s.relay.resync == some ch then
    { s with relay := { s.relay with
        deltas := [], hold := [], copyLeft := 0, resync := if s.relay.resync == some ch then none else s.relay.resync } }
  else s

/-- Codes of CAUSE in 0x1300:0B (R529). -/
def DeclCause.code : DeclCause → Nat
  | .heartbeat => 1
  | .unfit => 2
  | .score => 3
  | .isolate => 4
  | .reinstatement => 5
  | .drillFault => 6
  | .trip => 7

/-- A channel that waits in stage 9 for the arbiter (R564). -/
def State.waitsRole (s : State) (ch : Ch) : Bool :=
  let r := s.role ch
  r.st == .starting && r.stage == 9 && r.waitArb

/-- Stage 9 with a role assigned completes a channel's bring-up (R561, R567). -/
def State.completeStandby (s : State) (ch : Ch) : State :=
  s.modRole ch fun r => { r with st := .standby, stage := 15, attempt := 0, restarts := 0, waitArb := false }

/-- The state changes of a grant (R45, R496): the lease, the epoch, ACTIVE, the record of 0x1300:0B and the counts. A channel that waited
in stage 9 completes it (R567). What is still in flight to the new holder is lost (R501); a planned exchange waits until nothing is
(assumption 121). TAKEOVER_US counts from the declaration: the slots that passed, and a free value for the rest (R529). The very first
grant, before which no channel held the lease, raises the epoch too (assumption 98). -/
def State.leaseTo (s : State) (g : Grant) : State :=
  let a := s.arb
  let epoch := if a.last == some g.dest then a.epoch else (a.epoch + 1) % 2 ^ 32
  let s := { s with arb := { a with
    holder := some g.dest, last := some g.dest, epoch := epoch, leaseAt := s.sbTime, grantAt := s.sbTime,
    pending := none }, relay := { s.relay with deltas := [], copyLeft := 0, resync := none } }
  let s := s.modRole g.dest fun r => { r with
    st := .active, stage := 15, attempt := 0, restarts := 0, waitArb := false, orphan := false, silent := false, stale := false,
    epoch := epoch }
  let us := s.draw
  let s := if g.record then
      us.2.mput 0x1300 0xB (epoch * 2 ^ 32 + g.cause.code * 2 ^ 16 + g.declared.num * 2 ^ 8 + min 255 (10 * (s.sbTime - g.since) + us.1))
    else s
  let s := if g.counted then (s.minc 0x1310 1).mflag 0x1300 0xA 1 else s
  let s := if g.cause == .reinstatement then s.minc 0x1310 2 else s
  let o := g.dest.other
  let s := if s.waitsRole o then s.completeStandby o else s
  s.onChan g.dest fun cx c => c.newActive cx

/-- A grant takes place (R46): only a channel in STANDBY or STARTING takes the lease. -/
def State.grantNow (s : State) (g : Grant) : State :=
  let st := (s.role g.dest).st
  if st == .standby || st == .starting then s.leaseTo g else { s with arb := { s.arb with pending := none } }

/-- The conditions of R495 on the other channel. A reinstatement waits for the confirmed fence (R511). -/
def State.mayGrant (s : State) (g : Grant) : Bool :=
  let o := g.dest.other
  let r := s.role o
  !s.present o || (r.fence && r.fenceDone) || s.arb.drainer == some o ||
    ((r.st == .standby || r.st == .starting || r.st == .off) && s.arb.holder != some o && g.cause != .reinstatement)

/-- Grant, or wait for the fence (R495) or for the arbiter's return (R497). Where FENCE_FAULT has been taken already, the wait is that of
the lease record (R495). -/
def State.grant (s : State) (g : Grant) : State :=
  if s.arb.ok && s.mayGrant g then s.grantNow g
  else
    let o := s.role g.dest.other
    { s with arb := { s.arb with pending := some { g with faulted := o.fence && o.fenceLate && !o.fenceDone } } }

/-! ## Drills -/

/-- Frames a channel has dropped with 0x0C, 0x93 or 0x80 (R519). -/
def Channel.lossCount (c : Channel) : Nat := c.dropped 0x0C + c.dropped 0x93 + c.dropped 0x80

/-- The jobs of a drill are given up and its table engines run on (R516). -/
def State.dropJobs (s : State) : State := s.eachChan fun _ c => c.dropJobs

/-- A drill ends: 0x1300:07, the counters, the flag, the log entry (R518, R520, R527, R528). -/
def State.endDrill (s : State) (result table : Nat) : State :=
  match s.arb.drill with
  | none => s
  | some d =>
    let ms := min (2 ^ 20 - 1) ((s.sbTime - d.began) / 100)
    let s := ({ s with arb := { s.arb with drill := none } }).dropJobs
    let s := s.mput 0x1300 7 (result * 2 ^ 24 + table * 2 ^ 20 + ms)
    let s := if result = 1 then s.minc 0x1310 4 else if result = 2 then s.minc 0x1310 5 else s.minc 0x1310 6
    let s := if result = 2 || result = 4 || result = 5 then s.mflag 0x1300 0xA 8 else s
    let s := if result = 4 then s.mflag 0x1300 0xA 4 else s
    let s := if result = 1 || result = 2 then
        { s with arb := { s.arb with drillBase := (match s.arb.holder with
          | some h => (s.chan h).time.sec
          | none => 0) } }
      else s
    s.logEvent 0 0x23 (result + table * 2 ^ 8)

/-- An attempt that does not start is recorded as SKIPPED (R514, R518). -/
def State.skipDrill (s : State) : State :=
  let s := (s.mput 0x1300 7 (3 * 2 ^ 24)).minc 0x1310 6
  let now := match s.arb.holder with
    | some h => (s.chan h).time.sec
    | none => 0
  { s with arb := { s.arb with retryAt := now + 600 } }.logEvent 0 0x23 3

/-- The preconditions of R515 but DRILLS_SUSPENDED and that unit 0 of each channel is free in time. -/
def State.drillReady (s : State) : Bool :=
  let m := s.modeCode
  s.present .b && (m == 2 || m == 3 || m == 6) && s.arb.ok && s.relay.up && s.relay.resync.isNone &&
    s.arb.window.isNone && s.arb.hold.isNone && s.arb.drill.isNone && s.arb.pending.isNone &&
    match s.arb.holder with
    | some h => s.fit h.other
    | none => false

/-- Whether unit 0 of each channel is free within 100 ms (R515): where a host job runs there, R481 bounds its time and leaves the time
itself open, so the answer is a free value (assumption 116). -/
def State.unitsFree (s : State) : Bool × State :=
  if (s.chan .a).unit0Free && (s.chan .b).unit0Free then (true, s)
  else
    let d := s.draw
    (d.1 % 2 == 1, d.2)

/-! ## Deltas (R499, R501) -/

/-- Whether a delta must wait on channel `r` for the busy object of a posted domain (R499, R655). -/
def State.deltaWaits (s : State) (r : Ch) : Delta → Bool
  | .obj key _ => (s.chan r).domainBusy (key / 256) (key % 256)
  | .win key _ => (s.chan r).domainBusy (key / 2 ^ 40) 0
  | _ => false

/-- Apply a delta on channel `r`, whole (R501). -/
def State.applyTo (s : State) (r : Ch) (d : Delta) : State :=
  let s := (s.minc 0x1310 0xA).onChan r fun cx c => c.applyDelta cx d
  match d with
  | .obj key _ => s.crossCheck (key / 256)
  | _ => s

/-- The channel that a delta of the present holder goes to. -/
def State.receiver (s : State) : Option Ch := s.arb.holder.map Ch.other

/-- Apply the oldest delta on the receiver, in order (R501). A write to a posted domain waits for its busy object (R499). -/
def State.applyOne (s : State) : State :=
  match s.relay.deltas, s.receiver with
  | d :: rest, some r =>
    if s.deltaWaits r d then s
    else { s with relay := { s.relay with deltas := rest, copyLeft := s.relay.copyLeft - 1 } }.applyTo r d
  | _, _ => s

/-- Apply the first `n` held deltas on channel `r`, in order, as far as busy objects allow (R498, R511). -/
def State.applyHeld : Nat → Ch → State → State
  | 0, _, s => s
  | n + 1, r, s =>
    match s.relay.hold with
    | [] => s
    | d :: rest => if s.deltaWaits r d then s else State.applyHeld n r ({ s with relay := { s.relay with hold := rest } }.applyTo r d)

/-! ## The digest phase (R516) -/

/-- The item of the digest phase that a delta belongs to. -/
def Delta.item : Delta → Option Nat
  | .slot t _ _ => some (tableNo t)
  | .entry _ _ => some 4
  | .win key _ => [(0x4506, 5), (0x4310, 6), (0x4311, 7), (0x4710, customerItem)].lookup (key / 2 ^ 40)
  | .obj _ _ => none

/-- An item of the digest phase: the holder's engine of the table stops, the relay delivers what is pending for it, and both jobs are
ordered, each to start as soon as its unit 0 is free (R482, R516). -/
def State.beginItem (s : State) : State :=
  match s.arb.drill with
  | none => s
  | some d =>
    if d.phase != 1 then s
    else
      let s := s.onChan d.old fun _ c => { c with own := { c.own with halt := some d.item } }
      let s := (List.range s.relay.deltas.length).foldl (fun s _ => s.applyOne) s
      let order := fun (cx : Ctx) (c : Channel) =>
        if c.own.todo.isEmpty && c.own.got.isEmpty then c.orderJobs cx [.digest d.item] else c
      if s.relay.deltas.any fun x => x.item == some d.item then s else (s.onChan d.old order).onChan d.new order

/-- The digest phase begins (R516); the drill remembers whether it began in NOON (R544). -/
def State.startDrill (s : State) : State :=
  match s.arb.holder with
  | none => s
  | some h =>
    { s with arb := { s.arb with drill := some ⟨1, h, h.other, 0, s.modeCode == 6, s.sbTime, 0, 0, false⟩ } }.beginItem

/-! ## Declarations -/

/-- A TWILIGHT-hold begins (R512): the channel whose last reset began earlier takes the first turn, the other waits in
OFF, fenced. In NIGHT it wakes the module (R540). Variant C has no hold (introduction of Roles, arbitration and fail-over). -/
def State.enterHold (s : State) : State :=
  if !s.present .b then s else
  let r := if s.roleB.st != .isolated &&
      (s.roleA.st == .isolated || s.roleB.resetAt < s.roleA.resetAt) then Ch.b else .a
  let w := r.other
  let s := { s with arb := { s.arb with holder := none, hold := some r, pending := none, back := none } }
  let s := ((s.minc 0x1310 3).mflag 0x1300 0xA (2 ^ 4)).logEvent 0 0x22 0
  let s := if s.present w && (s.role w).st != .isolated && (s.role w).st != .off then s.beginReset w .hold else s
  let s := if (s.role r).st == .isolated then s else s.beginReset r .hold
  s.wakeBy .fault

/-- Open the recovery window (R508). -/
def State.openWindow (s : State) (first new : Ch) (cause : DeclCause) : State :=
  { s with arb := { s.arb with window := some ⟨first, new, cause⟩, stable := false } }

/-- A channel whose reset was deferred returns to service without a reset (R511): the first step, FAILED to OFF, lifts its fence. -/
def State.reinstate (s : State) (f declared : Ch) : State :=
  let s := { s with arb := { s.arb with back := some ⟨f, declared, false, s.sbTime⟩ } }
  s.modRole f fun r => { r with st := .off, fence := false, fenceDone := false, fenceLate := false, deferred := false }

/-- The next step of a reinstatement (R45, R511): OFF to STARTING, in stage 9, with the held deltas applied; then the grant, once none
waits for a busy object (R499). -/
def State.comeBack (s : State) : State :=
  match s.arb.back with
  | none => s
  | some b =>
    let held := fun (s : State) => State.applyHeld s.relay.hold.length b.chan s
    if b.starting then
      let s := held s
      if s.relay.hold.isEmpty then
        ({ s with arb := { s.arb with back := none } }).grant ⟨b.chan, b.declared, .reinstatement, true, true, false, b.since⟩
      else s
    else held
      { s.modRole b.chan fun r => { r with st := .starting, stage := 9, waitArb := true } with
        arb := { s.arb with back := some { b with starting := true } } }

/-- The drain permission ends early (R509, R520): a DRAINING channel's queues are flushed; the channel is in STANDBY. The grant that
follows obeys R495: the confirmation of the other fence comes within 2 µs, inside the 10 µs step (R45, R487). -/
def State.endDrainNow (s : State) (o : Ch) : State :=
  let s := if (s.role o).st == .draining then s.onChan o fun cx c => c.flushAll cx else s
  let s := { s with arb := { s.arb with drainer := none }, relay := { s.relay with hold := [], deltas := [], copyLeft := 0 } }
  s.modRole o fun r => { r with st := .standby }

/-- The lease moves if it can, the reset is deferred after a heartbeat loss, the window opens; else the hold. A move that a fault of the
new active in a drill brings about is recorded as one by drill fault (R520, R529, assumption 102). -/
def State.decideMove (s : State) (c o : Ch) (cause : DeclCause) (rc : ResetCause) : State :=
  let g : Grant := ⟨o, c, cause, true, true, false, s.sbTime⟩
  let after := fun (s : State) =>
    let s := { s with arb := { s.arb with suspended := true } }
    let s := if cause == .heartbeat then s.modRole c fun r => { r with deferred := true } else s.beginReset c rc
    s.openWindow c o cause
  if s.arb.drainer == some o && s.healthy o then after ((s.endDrainNow o).grant { g with cause := .drillFault })
  else if s.fit o then after (s.grant g)
  else (s.beginReset c rc).enterHold

/-- The arbiter decides a declaration (R509). -/
def State.declare (s : State) (c : Ch) (cause : DeclCause) : State :=
  let r := s.role c
  if r.st == .off || r.st == .isolated then s
  else
    let s := s.fence c true
    let s := s.modRole c fun r => { r with st := .failed, stage := 14 }
    let s := s.logEvent 0 0x20 (c.num + cause.code * 2 ^ 8 + s.arb.epoch * 2 ^ 32)
    let s := s.endDrill 5 0
    let rc := if cause == .trip then ResetCause.trip else .arbiter
    if s.arb.holder != some c then
      let s := if s.arb.drainer == some c then { s with arb := { s.arb with drainer := none } } else s
      s.beginReset c rc
    else
      let s := { s with arb := { s.arb with holder := none } }
      let o := c.other
      match s.arb.window with
      | some w =>
        if w.new == c then
          let f := w.first
          let s := (s.beginReset c rc).mflag 0x1300 0xA (2 ^ 5)
          if w.cause == .heartbeat && (s.role f).st == .failed && (s.role f).deferred && s.healthy f then
            (s.reinstate f c).openWindow c f cause
          else s.enterHold
        else s.decideMove c o cause rc
      | none => s.decideMove c o cause rc

end Sys2Proof.Machine
end

