-- ==== Sys2Proof/Machine/Roles.lean ====
section
/-! DEFINITION. The rows of the arbiter and the state relay: heartbeats, leases, fences, windows, drills, deltas,
and the role commands (R487 to R521). -/

namespace Sys2Proof.Machine

/-! ## The state relay -/

/-- A resync of channel `rcv` starts (R502): its tables clear, and the holder's entries and configuration are queued
behind what is already in flight. -/
def State.startResync (s : State) (rcv : Ch) : State :=
  let s := (s.onChan rcv fun _ c => c.clearTables).minc 0x1310 9
  let copies := (s.chan rcv.other).copyDeltas (s.chan rcv)
  let deltas := s.relay.deltas ++ copies
  { s with relay := { s.relay with deltas := deltas, copyLeft := deltas.length, resync := some rcv } }

/-- DELTA_APPLY (R501). -/
def execDeltaApply (s : State) : Host.Outcome State Fault Refusal := .next (s.finish s.applyOne)

/-- Whether a channel's tables follow those of a holder: the receiver of the present one, or, while no channel holds the lease, one that
deltas would reach (R498). -/
def State.follows (s : State) (ch : Ch) : Bool :=
  match s.receiver with
  | some r => r == ch
  | none =>
    let r := s.role ch
    r.st == .standby || r.st == .draining || (r.st == .starting && 7 ≤ r.stage)

/-- The relay goes down (R502): deltas in flight are lost and the receiver becomes stale. A resync of stage 7 leaves empty tables
(R570). -/
def State.relayLost (s : State) : State :=
  let cut := s.relay.resync
  let s := { s with relay := ⟨false, [], s.relay.hold, none, 0⟩ }
  let s := match cut with
    | some r => if (s.role r).st == ChState.starting then s.onChan r fun _ c => c.clearTables else s
    | none => s
  s.channels.foldl (fun s ch => if s.follows ch then s.modRole ch fun x => { x with stale := true } else s) s

/-- RELAY_DOWN (R502). -/
def execRelayDown (s : State) : Host.Outcome State Fault Refusal := .next (s.finish s.relayLost)

/-- The cases in which RESYNC is refused but for the relay being down (R502). -/
def State.resyncRefused (s : State) : Bool :=
  match s.receiver with
  | none => true
  | some r =>
    let st := (s.role r).st
    !s.present r || st == .isolated || st == .off || st == .failed

/-- RESYNC of 0x1300:04 (R502, R525). -/
def State.resyncCommand (s : State) : Nat × State :=
  match s.receiver with
  | none => (0x0601, s)
  | some r => if s.resyncRefused || !s.relay.up then (0x0601, s) else (0, s.startResync r)

/-- A stale receiver with the relay up again is resynced by the module itself (R502). -/
def State.autoResync (s : State) : State :=
  let s := { s with relay := { s.relay with up := true } }
  match s.receiver with
  | none => s
  | some r => if s.resyncRefused || !(s.role r).stale || s.relay.resync.isSome then s else s.startResync r

/-- RESYNC_COMPLETE (R502): once every copied entry has been applied, MIRROR_STALE clears. -/
def execResyncComplete (s : State) : Host.Outcome State Fault Refusal :=
  match s.relay.resync with
  | none => .next s
  | some r =>
    if s.relay.copyLeft = 0 then
      .next (s.finish 
        ({ s with relay := { s.relay with resync := none } }.modRole r fun x => { x with stale := false }))
    else .next s

/-! ## Heartbeats, leases, fences -/

/-- Whether a channel must deliver heartbeats (R487). -/
def ChanRole.beats (r : ChanRole) : Bool :=
  match r.st with
  | .standby | .active | .draining => true
  | .starting => r.stage == 9
  | _ => false

/-- While the arbiter is lost, an orphan that is unfit stops forwarding and turns its transmitters off (R493). -/
def State.orphanUnfit (s : State) (ch : Ch) : State :=
  let r := s.role ch
  if s.arb.ok || !r.orphan || r.silent || !bitOf (s.healthWord ch) 7 then s
  else (s.modRole ch fun r => { r with silent := true }).onChan ch fun cx c => c.fenced cx false

/-- A heartbeat arrives (R491, R492): the word is taken, the runs counted, the lease renewed or a failure declared. -/
def State.heartbeat (s : State) (ch : Ch) : State :=
  let w := s.healthWord ch
  let th := s.failThreshold
  let score := bits w 31 24
  let good := !bitOf w 7 && Nat.ble th score
  let low := !bitOf w 7 && !Nat.ble th score
  let s := s.modRole ch fun r => { r with
    health := w, misses := 0, goodRun := if good then (if r.hbSeen then r.goodRun else r.goodRun + 1) else 0,
    lowRun := if low then r.lowRun + 1 else 0, hbSeen := true }
  let s := s.mput 0x1300 (8 + ch.num) w
  let r := s.role ch
  if !s.arb.ok then s.orphanUnfit ch
  else if !r.beats then s
  else if bitOf w 7 then s.declare ch .unfit
  else
    let holder := s.arb.holder == some ch
    if 3 ≤ r.lowRun && !(holder && !s.fit ch.other) then s.declare ch .score
    else
      let s := if 3 ≤ r.lowRun then s.mflag 0x1300 0xA (2 ^ 6) else s
      if holder then { s with arb := { s.arb with leaseAt := s.sbTime } } else s

/-- HEARTBEAT_ARRIVAL (R491). -/
def execHeartbeatArrival (ch : Ch) (s : State) : Host.Outcome State Fault Refusal :=
  if !s.present ch then .fault .noSuchChannel else .next (s.finish (s.heartbeat ch))

/-- One channel at the end of a slot: a slot without its heartbeat ends the run of good ones (R490) and, of a channel that must
deliver one, is a miss, the third in a row a failure (R487). -/
def State.slotOf (s : State) (ch : Ch) : State :=
  let r := s.role ch
  if r.hbSeen then s.setRole ch { r with hbSeen := false }
  else if !r.beats then s.setRole ch { r with goodRun := 0 }
  else
    let s := (s.setRole ch { r with misses := r.misses + 1, goodRun := 0 }).minc 0x1310 (7 + ch.num)
    if 3 ≤ r.misses + 1 then s.declare ch .heartbeat else s

/-- The mode counters of R555 at the end of every millisecond. -/
def State.modeTick (s : State) : State :=
  if s.sbTime % 100 != 0 then s
  else if s.modeCode = 3 then s.minc 0x1108 4
  else if s.modeCode = 4 then s.minc 0x1108 5
  else if s.modeCode = 5 then s.minc 0x1108 6
  else s

/-- A new fast periodic time of LACP begins (R107): the LACPDUs that waited for it go out. -/
def State.lacpTick (s : State) : State :=
  if s.sbTime % 100000 != 0 then s else s.eachChan fun cx c => (upFrom 1 48).foldl (fun c p => c.sendOwed cx p) c

/-- A 10 µs slot of the arbiter timer ends (R487): the next step of a reinstatement (R511); a grant after FENCE_FAULT waits for the lease record and 100 µs (R495). -/
def State.slot (s : State) : State :=
  let s := ({ s with sbTime := s.sbTime + 1 }).lacpTick.modeTick
  if !s.arb.ok then s
  else
    let s := s.channels.foldl State.slotOf s.comeBack
    match s.arb.pending with
    | some g => if g.faulted && s.arb.leaseAt + 110 ≤ s.sbTime then s.grantNow g else s
    | none => s

/-- HEARTBEAT_SLOT (R487). -/
def execHeartbeatSlot (s : State) : Host.Outcome State Fault Refusal := .next (s.finish s.slot)

/-- A channel finds itself unfit between heartbeats (R491). While the arbiter is lost an orphan that becomes unfit
stops forwarding and turns its transmitters off (R493). -/
def State.selfDeclare (s : State) (ch : Ch) (coreFault : Bool) : State :=
  let c := s.chan ch
  let s := if coreFault then s.setChan ch { c with core := { c.core with regFault := true } } else s
  let w := s.healthWord ch
  if !(s.role ch).beats || !bitOf w 7 then s
  else if s.arb.ok then (s.modRole ch fun r => { r with health := w }).mput 0x1300 (8 + ch.num) w |>.declare ch .unfit
  else s.orphanUnfit ch

/-- SELF_DECLARE (R491). -/
def execSelfDeclare (ch : Ch) (coreFault : Bool) (s : State) : Host.Outcome State Fault Refusal :=
  if !s.present ch then .fault .noSuchChannel else .next (s.finish (s.selfDeclare ch coreFault))

/-- The holder's lease lapses (R493): with alive messages it is revoked and the holder declares itself failed; without,
it goes on as an orphan while it is fit. -/
def State.leaseLapse (s : State) : State :=
  match s.arb.holder with
  | none => s
  | some h =>
    if s.arb.ok then s.declare h .unfit
    else if (s.role h).st == .active then (s.modRole h fun r => { r with orphan := true }).orphanUnfit h
    else s

/-- LEASE_LAPSE (R493). -/
def execLeaseLapse (s : State) : Host.Outcome State Fault Refusal := .next (s.finish s.leaseLapse)

/-- Every island of a fenced channel has confirmed (R495): a grant that waited for it proceeds, unless FENCE_FAULT was
taken. -/
def State.fenceConfirm (s : State) (ch : Ch) : State :=
  let r := s.role ch
  if !r.fence then s
  else
    let s := s.setRole ch { r with fenceDone := true }
    match s.arb.pending with
    | some g => if g.dest == ch.other && !g.faulted && s.arb.ok then s.grantNow g else s
    | none => s

/-- FENCE_CONFIRM (R495). -/
def execFenceConfirm (ch : Ch) (s : State) : Host.Outcome State Fault Refusal :=
  if !s.present ch then .fault .noSuchChannel else .next (s.finish (s.fenceConfirm ch))

/-- Confirmation is not complete 2 µs after the fence (R495). -/
def State.fenceFault (s : State) (ch : Ch) : State :=
  let r := s.role ch
  if !r.fence || r.fenceDone || r.fenceLate then s
  else
    let s := (s.setRole ch { r with fenceLate := true }).mflag 0x1300 0xA (2 ^ 7)
    match s.arb.pending with
    | some g => if g.dest == ch.other then { s with arb := { s.arb with pending := some { g with faulted := true } } } else s
    | none => s

/-- FENCE_FAULT (R495). -/
def execFenceFault (ch : Ch) (s : State) : Host.Outcome State Fault Refusal :=
  if !s.present ch then .fault .noSuchChannel else .next (s.finish (s.fenceFault ch))

/-- Resets that were deferred begin (R508, R510). -/
def State.beginDeferred (s : State) : State :=
  s.channels.foldl (fun s ch => if (s.role ch).deferred then s.beginReset ch .arbiter else s) s

/-- The recovery window ends (R508); while the arbiter is lost a deferred reset waits (R497). -/
def State.windowEnd (s : State) : State :=
  match s.arb.window with
  | none => s
  | some w =>
    let s := { s with arb := { s.arb with window := none, stable := s.healthy w.new } }
    if s.arb.ok then s.beginDeferred else s

/-- RECOVERY_WINDOW_END (R508). -/
def execRecoveryWindowEnd (s : State) : Host.Outcome State Fault Refusal := .next (s.finish s.windowEnd)

/-! ## The arbiter lost and back -/

/-- The arbiter is lost (R497). -/
def State.loseArbiter (s : State) : State :=
  if !s.arb.ok then s
  else (({ s with arb := { s.arb with ok := false } }).mflag 0x1300 0xA 2).logEvent 0 0x21 0

/-- ARBITER_LOST (R497): loss of lock, failed self-check and a 100 µs stall have the same effect. -/
def execArbiterLost (_ : ArbCause) (s : State) : Host.Outcome State Fault Refusal :=
  .next (s.finish s.loseArbiter)

/-- A channel that waits in stage 9 with READY set and UNFIT clear (R497, R564). -/
def State.candidate (s : State) (ch : Ch) : Bool :=
  let r := s.role ch
  s.present ch && (s.fit ch || (r.st == .starting && r.stage == 9 && r.ready && !bitOf (s.healthWord ch) 7))

/-- The hold ends with a grant (R512): the channel takes the lease, the waiting one is reset at once unless it is ISOLATED. -/
def State.endHold (s : State) (ch : Ch) : State :=
  let s := { s with arb := { s.arb with hold := none } }
  let s := (s.modRole ch fun r => { r with restarts := 0 }).grant ⟨ch, ch, .unfit, false, false, false, s.sbTime⟩
  let w := ch.other
  if s.present w && (s.role w).st != .isolated then s.beginReset w .hold else s

/-- The arbiter assigns a role to a channel in stage 9 (R564): STANDBY beside a holder; the lease when there is none and
no hold; in a hold, the turn's channel qualifies (R512). -/
def State.assignRole (s : State) (ch : Ch) : State :=
  let fresh : Grant := ⟨ch, ch, .unfit, false, false, false, s.sbTime⟩
  match s.arb.hold with
  | some r => if r == ch && !bitOf (s.healthWord ch) 7 then s.endHold ch else s
  | none =>
    match s.arb.holder with
    | some _ => s.completeStandby ch
    | none => if s.arb.pending.isSome || s.arb.back.isSome then s else (s.modRole ch fun r => { r with restarts := 0 }).grant fresh

/-- A channel in service, or in bring-up after stage 3, whose output has tripped (R549). -/
def State.tripped (s : State) (ch : Ch) : Bool :=
  let r := s.role ch
  s.present ch && !r.outputOn && match r.st with
    | .standby | .active | .draining => true
    | .starting => r.stage != 3
    | _ => false

/-- The restarted arbiter decides (R497). A channel whose output tripped meanwhile reports nothing and is declared failed
first (R549); the grant or the hold to which that leads stands. -/
def State.returnArbiter (s : State) : State :=
  if s.arb.ok || !s.power.sbOut then s
  else
    let s := ({ s with arb := { s.arb with ok := true, pending := none, back := none } }).minc 0x1310 0xB
    let before := s.arb.hold
    let s := s.channels.foldl (fun s ch => if s.tripped ch then s.declare ch .trip else s) s
    let active := fun ch => s.present ch && (s.role ch).st == .active
    let keep := match s.arb.holder with
      | some h => if active h then some h else if active .a then some .a else if active .b then some .b else none
      | none => if active .a then some .a else if active .b then some .b else none
    let s := match keep with
      | some h =>
        ({ s with arb := { s.arb with
            holder := some h, leaseAt := s.sbTime, drainer := s.arb.drainer.filter fun d => d != h } }).modRole h fun r => { r with orphan := false }
      | none =>
        let give := fun (s : State) (ch : Ch) =>
          if s.arb.hold.isSome then s.endHold ch else s.grant ⟨ch, ch, .unfit, false, false, false, s.sbTime⟩
        if s.arb.pending.isSome || s.arb.hold != before then s
        else if s.candidate .a then give s .a else if s.candidate .b then give s .b else s.enterHold
    let s := if s.arb.window.isNone then s.beginDeferred else s
    s.channels.foldl (fun s ch => if s.waitsRole ch then s.assignRole ch else s) s

/-- ARBITER_RETURN (R497). -/
def execArbiterReturn (s : State) : Host.Outcome State Fault Refusal := .next (s.finish s.returnArbiter)

/-- A turn of the hold ends without qualifying (R512): fenced and off; the other takes its turn. -/
def State.turnExpire (s : State) : State :=
  match s.arb.hold with
  | none => s
  | some r =>
    if !s.arb.ok then s else
    let o := if s.present r.other && (s.role r.other).st != .isolated then r.other else r
    let s := if (s.role r).st == .isolated || (s.role r).st == .off then s else s.beginReset r .hold
    let s := s.modRole r fun x => { x with restartDue := false }
    let s := { s with arb := { s.arb with hold := some o } }
    if (s.role o).st == .isolated then s else s.beginReset o .hold

/-- HOLD_TURN_EXPIRE (R512). -/
def execHoldTurnExpire (s : State) : Host.Outcome State Fault Refusal := .next (s.finish s.turnExpire)

/-! ## Drills -/

/-- The holder's time-base second. -/
def State.holderSecond (s : State) : Nat :=
  match s.arb.holder with
  | some h => (s.chan h).time.sec
  | none => 0

/-- Whether a drill is due and inside its window (R514); variant C has none (R527). -/
def State.drillDue (s : State) : Bool :=
  match s.arb.holder with
  | none => false
  | some h =>
    let t := (s.chan h).time
    let sch := s.mreg 0x1300 5
    let localMin := (((t.sec / 60 : Nat) : Int) + signedOf 16 (bits sch 15 0)) % 1440
    let since := (localMin - (bits sch 47 32 : Nat)) % 1440
    s.present .b && t.valid && bitOf (s.mreg 0x1300 1) 0 && Nat.ble (s.arb.drillBase + bits sch 63 48 * 3600) t.sec &&
      decide (since < (bits sch 31 16 : Nat)) && Nat.ble s.arb.retryAt t.sec && s.modeCode != 6

/-- DRILL_DUE (R514): the drill starts, or the attempt is recorded as SKIPPED. -/
def execDrillDue (s : State) : Host.Outcome State Fault Refusal :=
  .next (s.finish (if !s.drillDue then s
    else if s.drillReady && !s.arb.suspended then
      let free := s.unitsFree
      if free.1 then free.2.startDrill else free.2.skipDrill
    else s.skipDrill))

/-- The last item of the digest phase (R516): after tables 0 to 7 the customer region, which a drill that began in NOON leaves out
(R544). -/
def Drill.lastItem (d : Drill) : Nat := if d.noon then 7 else customerItem

/-- The roles are exchanged in one arbiter step (R517). -/
def State.swapGrant (s : State) (d : Drill) : State :=
  let s := { s with arb := { s.arb with
    drainer := some d.old,
    drill := some { d with phase := 2, lossOld := (s.chan d.old).lossCount, lossNew := (s.chan d.new).lossCount } } }
  s.grantNow ⟨d.new, d.old, .unfit, false, false, false, s.sbTime⟩

/-- The results of an item's jobs, once both have ended (R516); none within stands for a job that did not end well though it was repeated. -/
def State.itemResults (s : State) (d : Drill) : Option (Option Nat × Option Nat) :=
  match (s.chan d.old).own.got, (s.chan d.new).own.got with
  | [x], [y] => some (x, y)
  | _, _ => none

/-- Both digest jobs of an item end (R516): the next item, the exchange, or an abort with DIGEST_MISMATCH that leaves the standby stale.
The exchange waits until the relay has delivered what is in flight (assumption 121); a job that was repeated and did not end well is
unequal to any (assumption 127). -/
def State.digestItem (s : State) : State :=
  match s.arb.drill with
  | none => s
  | some d =>
    if d.phase != 1 || !s.arb.ok || s.arb.holder != some d.old || d.new != d.old.other || (s.role d.new).st != .standby then s
    else
      let s := s.beginItem
      let s := (s.onChan d.old fun cx c => c.ownFinish cx).onChan d.new fun cx c => c.ownFinish cx
      match s.itemResults d with
      | none => s
      | some (x, y) =>
        if x.isNone || x != y then
          (s.modRole d.new fun r => { r with stale := true }).endDrill 4 (if d.item = customerItem then 15 else d.item)
        else if d.item = d.lastItem then (if s.relay.deltas.isEmpty then s.dropJobs.swapGrant d else s)
        else ({ s.dropJobs with arb := { s.arb with drill := some { d with item := d.item + 1 } } }).beginItem

/-- DIGEST_ITEM_DONE (R516). -/
def execDigestItemDone (s : State) : Host.Outcome State Fault Refusal := .next (s.finish s.digestItem)

/-- The release point (R517): the old active's members advertise Collecting 0 and send one LACPDU. -/
def State.releasePoint (s : State) : State :=
  match s.arb.drill with
  | none => s
  | some d =>
    if d.phase != 2 || d.released then s
    else
      ({ s with arb := { s.arb with drill := some { d with released := true } } }).onChan d.old
        fun cx c => c.releasePoint cx

/-- RELEASE_POINT (R517). -/
def execReleasePoint (s : State) : Host.Outcome State Fault Refusal := .next (s.finish s.releasePoint)

/-- drain_end (R517): the old active enters DRAINING; its held deltas are delivered ahead of later ones (R498). -/
def State.drainEnd (s : State) : State :=
  match s.arb.drainer with
  | none => s
  | some a =>
    if (s.role a).st != .active then s
    else
      let s := s.modRole a fun r => { r with st := .draining }
      { s with
        arb := { s.arb with drill := s.arb.drill.map fun d => { d with phase := 3 } },
        relay := { s.relay with deltas := s.relay.hold ++ s.relay.deltas, hold := [] } }

/-- DRAIN_END (R517). -/
def execDrainEnd (s : State) : Host.Outcome State Fault Refusal := .next (s.finish s.drainEnd)

/-- The drain ends (R517, R519): what remains is flushed, the channel is in STANDBY, the drill ends OK or LOSSY. -/
def State.drainComplete (s : State) : State :=
  match s.arb.drainer with
  | none => s
  | some a =>
    if (s.role a).st != .draining then s
    else
      let s := s.onChan a fun cx c => c.flushAll cx
      let s := s.modRole a fun r => { r with st := .standby }
      let s := { s with arb := { s.arb with drainer := none } }
      match s.arb.drill with
      | none => s
      | some d =>
        let lossy := (s.chan d.old).lossCount != d.lossOld || (s.chan d.new).lossCount != d.lossNew
        s.endDrill (if lossy then 2 else 1) 0

/-- DRAIN_COMPLETE (R517). -/
def execDrainComplete (s : State) : Host.Outcome State Fault Refusal := .next (s.finish s.drainComplete)

/-! ## Role commands of 0x1300:04 (R520, R521, R525). Each answers a status and the state. -/

/-- SWITCH (R520). -/
def State.switchCommand (s : State) : Nat × State :=
  if !s.drillReady then (0x0601, s)
  else
    let free := s.unitsFree
    if free.1 then (0, free.2.startDrill) else (0x0601, free.2)

/-- REARM (R507). -/
def State.rearmCommand (s : State) : Nat × State := (0, { s with arb := { s.arb with suspended := false } })

/-- A planned move of the lease away from `ch` (R521, R579). -/
def State.moveLease (s : State) (ch : Ch) (record : Bool) : State :=
  let s := { s with arb := { s.arb with holder := none } }
  s.grant ⟨ch.other, ch, .isolate, record, false, false, s.sbTime⟩

/-- ISOLATE (R521). What the relay carries or holds for the channel is void (R498, R501). -/
def State.isolateCommand (s : State) (ch : Ch) : Nat × State :=
  let holder := s.arb.holder == some ch
  if s.arb.drill.isSome || (holder && !s.fit ch.other) then (0x0601, s)
  else
    let s := s.fence ch false
    let s := s.modRole ch fun r => { r with
      st := .isolated, stage := 14, attempt := 0, backoffEnd := none, restartDue := false, deferred := false,
      waitNight := false, waitArb := false, orphan := false }
    let s := { s with
      arb := { s.arb with
        pending := s.arb.pending.filter fun g => g.dest != ch
        back := s.arb.back.filter fun b => b.chan != ch
        drainer := s.arb.drainer.filter fun d => d != ch }
      relay := { s.relay with hold := [], deltas := [], copyLeft := 0, resync := none } }
    (0, if holder then s.moveLease ch true else s)

/-- RELEASE (R521): OFF, then a channel reset and restart. -/
def State.releaseCommand (s : State) (ch : Ch) : Nat × State :=
  if (s.role ch).st != .isolated then (0x0601, s) else (0, s.beginReset ch .release)

/-- CHANNEL of 0x1109 (R579). A drill in progress ends with FAULT. -/
def State.channelResetCommand (s : State) (ch : Ch) : Nat × State :=
  let holder := s.arb.holder == some ch
  if (s.role ch).st == .isolated then (0x0601, s)
  else if holder && s.present ch.other && !s.fit ch.other then (0x0601, s)
  else
    let s := s.endDrill 5 0
    if holder && s.present ch.other then (0, ((s.fence ch false).moveLease ch false).beginReset ch .host)
    else (0, s.beginReset ch .host)

end Sys2Proof.Machine
end

