-- ==== Sys2Proof/Machine/Supply.lean ====
section
/-! DEFINITION. The supply: inputs, the power-fail warning, outputs, measurements, the mating loop (R28, R545 to R560,
R670, R674). -/

namespace Sys2Proof.Machine

/-- The state that a measurement calls for, if any (R546). Voltages are in 0.1 V, frequencies in 0.1 Hz. -/
def inputTarget (m : InputMeas) : Option InputState :=
  if m.dc then
    if m.volt < 800 then (if 5000 ≤ m.heldUs then some .lost else none)
    else if 4400 < m.volt then (if 1000 ≤ m.heldUs then some .overvoltage else none)
    else if m.volt < 1000 then some .low
    else some .dc
  else
    if (m.inst < 600 && 5000 ≤ m.heldUs) || (m.volt < 700 && 100000 ≤ m.heldUs) then some .lost
    else if 4600 < m.inst || (3200 < m.volt && 10000000 ≤ m.heldUs * m.freq) then some .overvoltage
    else if (m.freq < 430 || 4600 < m.freq) then (if 100000 ≤ m.heldUs then some .frequency else none)
    else if m.volt < 700 || 3200 < m.volt then none
    else if m.volt < 850 then some .low
    else some .ac

/-- States in which an input is out of use and from which it returns through RETURNING (R546). -/
def InputState.gone : InputState → Bool
  | .lost | .overvoltage | .frequency => true
  | _ => false

/-- The next state of an input (R546). -/
def InputSt.step (i : InputSt) (t : InputState) : InputSt :=
  if t.gone then ⟨t, t⟩
  else if i.st.gone || i.st == .returning then ⟨.returning, t⟩
  else ⟨t, t⟩

/-- Codes of R546. -/
def InputState.code : InputState → Nat
  | .lost => 0
  | .ac => 1
  | .dc => 2
  | .low => 3
  | .overvoltage => 4
  | .frequency => 5
  | .returning => 6

/-- The state of an input. -/
def State.input (s : State) : Inlet → InputSt
  | .a => s.power.inA
  | .b => s.power.inB

/-- Replace it. -/
def State.setInput (s : State) (i : Inlet) (x : InputSt) : State :=
  match i with
  | .a => { s with power := { s.power with inA := x } }
  | .b => { s with power := { s.power with inB := x } }

/-- Whether some input carries the load. -/
def State.fed (s : State) : Bool := s.power.inA.used s.power.warn || s.power.inB.used s.power.warn

/-- DETAIL of the power-fail entries (R649). -/
def State.inputsDetail (s : State) : Nat := s.power.inA.st.code + s.power.inB.st.code * 2 ^ 8

/-- The power-fail warning goes to both channels and the service block (R547, R457). -/
def State.warnPower (s : State) : State :=
  let s := ({ s with power := { s.power with warn := true, warnWritten := false } }).mflag 0x1200 6 8
  (s.logEvent 0 2 s.inputsDetail).eachChan fun cx c => c.powerWarn cx

/-- An input takes a new state (R546, R547): leaving use sets its flag and is logged; the second one to leave issues the
warning, unless one is in force. -/
def State.moveInput (s : State) (i : Inlet) (x : InputSt) : State :=
  let old := s.input i
  if x.st == old.st then s.setInput i x
  else
    let fedBefore := s.fed
    let s := s.setInput i x
    let n := match i with
      | .a => 0
      | .b => 1
    let s := if x.st.gone then (s.mflag 0x1200 6 (2 ^ (1 + n))).logEvent 0 4 (n + x.st.code * 2 ^ 8) else s
    if s.power.powered && fedBefore && !s.fed && !s.power.warn then s.warnPower else s

/-- INPUT_CHANGE (R546). While the mating loop is open both inputs stay LOST (R670). -/
def execInputChange (i : Inlet) (m : InputMeas) (s : State) : Host.Outcome State Fault Refusal :=
  .next (s.finish (match inputTarget m with
    | none => s
    | some t => if s.power.looped then s.moveInput i ((s.input i).step t) else s))

/-- An input leaves RETURNING for a used state, 200 ms later; a warning in force clears and capture resumes (R546, R548). -/
def State.returned (s : State) (i : Inlet) : State :=
  let x := s.input i
  if x.st != .returning then s
  else
    let s := s.setInput i ⟨x.next, x.next⟩
    if !s.power.warn then s
    else
      let s := { s with power := { s.power with warn := false, warnWritten := false } }
      (s.logEvent 0 3 s.inputsDetail).eachChan fun cx c => c.powerBack cx

/-- RETURNING_COMPLETE (R546). -/
def execReturningComplete (i : Inlet) (s : State) : Host.Outcome State Fault Refusal :=
  .next (s.finish (s.returned i))

/-- MATE_LOOP_OPEN (R670): both inputs are treated as LOST. -/
def execMateLoopOpen (s : State) : Host.Outcome State Fault Refusal :=
  let s1 := { s with power := { s.power with looped := false } }
  .next (s.finish ((s1.moveInput .a ⟨.lost, .lost⟩).moveInput .b ⟨.lost, .lost⟩))

/-- MATE_LOOP_CLOSE (R670): the inputs are judged by R546 again, from LOST. -/
def execMateLoopClose (s : State) : Host.Outcome State Fault Refusal :=
  .next (s.finish { s with power := { s.power with looped := true } })

/-- The supply controller is lost (R28): set points freeze, or are raised to DAY voltage. FAULT_HOLD is computed where 0x4000:11 is
read. -/
def State.loseController (s : State) : State :=
  let s := ({ s with power := { s.power with ctrlOk := false } }).mflag 0x1200 6 1
  s.eachChan fun _ c =>
    let v := max 750 c.core.setMv
    ({ c with core := { c.core with setMv := v } }).showSetPoint

/-- SUPPLY_CONTROLLER_FAULT (R28). -/
def execSupplyControllerFault (s : State) : Host.Outcome State Fault Refusal :=
  .next (s.finish (if s.power.ctrlOk then s.loseController else s))

/-- The service block output trips (R549): its functions are lost with the consequences of R28. -/
def State.tripSb (s : State) : State :=
  if !s.power.sbOut then s
  else
    let s := ({ s with power := { s.power with sbOut := false } }).logEvent 0 5 0
    let s := s.loseArbiter.relayLost
    if s.power.ctrlOk then s.loseController else s

/-- A channel output trips (R549): flag, log, and the declaration with cause unfit; while the arbiter is lost the
channel, without power, is silent. -/
def State.tripChan (s : State) (ch : Ch) : State :=
  let r := s.role ch
  if !r.outputOn then s
  else
    let s := s.setRole ch { r with outputOn := false, ready := false }
    let s := (s.mflag 0x1200 6 (2 ^ (4 + ch.num))).logEvent 0 5 (1 + ch.num)
    if s.arb.ok then s.declare ch .trip
    else (s.modRole ch fun r => { r with silent := true }).onChan ch fun cx c => c.fenced cx true

/-- A tripped service block output is tried again (R549); the relay and the controller are back, the arbiter under R497. -/
def State.retrySb (s : State) (holds : Bool) : State :=
  if s.power.sbOut || !holds then s
  else
    let s := { s with power := { s.power with sbOut := true, ctrlOk := true } }
    s.autoResync

/-- SB_OUTPUT_RETRY (R549). -/
def execSbOutputRetry (holds : Bool) (s : State) : Host.Outcome State Fault Refusal :=
  .next (s.finish (s.retrySb holds))

/-- POWER_ALARM is set while TOTAL_W exceeds POWER_ALARM_W, whatever was written to either or to the flag (R559). -/
def State.judgePower (s : State) : State :=
  if bits (s.mreg 0x1200 7) 15 0 < bits (s.mreg 0x1200 4) 63 48 then s.mflag 0x1200 6 (2 ^ 6) else s

/-- The measurements of the 10 ms grid (R557 to R559). -/
def State.measure (s : State) (m : SupplyMeas) : State :=
  let total := m.chAW + m.chBW + m.sbW
  let s := (s.mput 0x1200 2 (m.inA % 2 ^ 64)).mput 0x1200 3 (m.inB % 2 ^ 64)
  let s := s.mput 0x1200 4 (total % 2 ^ 16 * 2 ^ 48 + m.chAW % 2 ^ 16 * 2 ^ 32 + m.chBW % 2 ^ 16 * 2 ^ 16 + m.sbW % 2 ^ 16)
  let s := s.mput 0x1200 5 (m.tempS % 2 ^ 16)
  let s := s.judgePower
  if 800 ≤ signedOf 16 m.tempS then s.mflag 0x1200 6 (2 ^ 7) else s

/-- SUPPLY_MEASURE (R557). -/
def execSupplyMeasure (m : SupplyMeas) (s : State) : Host.Outcome State Fault Refusal :=
  .next (s.finish (s.measure m))

/-- CONTACT_HOLD_END (R674): the 100 ms hold ends and a condition that reversed meanwhile is shown. -/
def execContactHoldEnd (c : Contact) (s : State) : Host.Outcome State Fault Refusal :=
  .next (s.finish (match c with
    | .fault => { s with power := { s.power with fault := { s.power.fault with held := false } } }
    | .role => { s with power := { s.power with role := { s.power.role with held := false } } }))

end Sys2Proof.Machine
end

