-- ==== Sys2Proof/Machine/CoreLoop.lean ====
section
/-! DEFINITION. The clockless core: the rate-tracking loop, DUSK, the junction, the islands (R53 to R81, R534 to R536). -/

namespace Sys2Proof.Machine

/-- The periods that the monitors of the eight groups report; 0xFFFF where one reported nothing (R76). -/
def monitorReadings (periods silent : List Nat) : List Nat :=
  (List.range 8).map fun g => if silent.contains g then 0xFFFF else periods.getD g 0xFFFF

/-- Whether a group's monitor reports a fault (R64); 0xFFFF is a monitor that reported nothing (R76). -/
def monitorBad (p : Nat) : Bool := p < 400 || 4000 < p

/-- The monitor fault over one update (R64). -/
def Channel.monitors (c : Channel) (periods : List Nat) : Channel :=
  if periods.any monitorBad then
    let c := c.flag 0x4000 0x21 1
    { c with core := { c.core with monFault := true, validRun := 0 } }
  else if c.bit 0x4000 0x21 0 then { c with core := { c.core with validRun := 0 } }
  else
    let run := c.core.validRun + 1
    { c with core := { c.core with validRun := run, monFault := c.core.monFault && run < 1000 } }

/-- The set point that the loop aims at (R63): voltages in mV, periods in ps, the load in bits of 5.6 Tb/s × 1 µs (R60). -/
def loopTarget (track : Nat) (full dusk exitPend : Bool) (p load v : Nat) : Nat :=
  if track = 2 || full then 850
  else if track = 1 then 750
  else if dusk && !exitPend then 550
  else
    let x := 108 * load * p
    let t :=
      if 604800000000 < x && v < 750 then 750
      else if 560000000000 < x then v + 5 * ((x - 560000000000 + 8399999999) / 8400000000)
      else if x < 543200000000 then v - 5
      else v
    if exitPend then max t 750 else t

/-- Line occupancy of the window on all ports, and of the pipeline that received most, in bits (R60). -/
def CoreSt.load (k : CoreSt) : Nat × Nat := (k.heard.foldl (· + ·) 0, k.heard.foldl max 0)

/-- The larger fraction of R60, as bits of 5.6 Tb/s × 1 µs: a pipeline's 800 Gb/s are a seventh of it. -/
def CoreSt.offered (k : CoreSt) : Nat := max k.load.1 (7 * k.load.2)

/-- The observations of a window: periods, load, measured voltage (R75 to R77). A fraction is cut to whole units of 0.1 %
(assumption 87). -/
def Channel.observe (c : Channel) (periods : List Nat) (measMv : Nat) : Channel :=
  let pipeMax := c.core.load.2 / 800
  let channelLoad := c.core.load.1 / 5600
  let c := (upFrom 0 8).foldl (fun c g => c.put 0x4000 (0x13 + g) (periods.getD g 0xFFFF % 2 ^ 16)) c
  let c := c.put 0x4000 0x12 (if periods.any (· = 0xFFFF) then 0xFFFF else periods.foldl max 0 % 2 ^ 16)
  let c := c.put 0x4000 0x1B (pipeMax % 2 ^ 16 * 2 ^ 16 + channelLoad % 2 ^ 16)
  c.putBits 0x4000 0x11 25 16 measMv

/-- The junction temperature, in 0.125 °C (R73): at +105 °C OVERTEMP is set and an event logged. It is reported at every update of
the loop and when a threshold is reached (assumption 108). -/
def Channel.junction (c : Channel) (tj : Nat) : Channel :=
  let before := signedOf 16 (c.reg 0x4000 0x1C)
  let c := c.put 0x4000 0x1C (tj % 2 ^ 16)
  if 840 ≤ signedOf 16 tj then
    let c := c.flag 0x4000 0x21 2
    if before < 840 then c.log 0x33 (tj % 2 ^ 16) else c
  else c

/-- CLR_HIGH_WATER of 0x4000:10 (R74). -/
def Channel.clrHighWater (c : Channel) : Channel := c.put 0x4000 0x1E c.poolUse15

/-- A window ends (R60, R74, R76): the next one begins, and a CLR_HIGH_WATER written in it takes effect. -/
def Channel.nextWindow (c : Channel) : Channel :=
  let c := if c.core.markDue then c.clrHighWater else c
  { c with core := { c.core with heard := List.replicate 8 0, markDue := false } }

/-- One update of the loop (R63), with the standby's floor (R536), the ramp events (R79) and the run of quiet windows
that DUSK entry needs (R534). In NIGHT the loop does not run and holds 550 mV (R538). An update in which the reserve trigger stands
together with another cause of 850 mV counts as a ramp event (assumption 89). -/
def Channel.update (c : Channel) (cx : Ctx) (periods : List Nat) (measMv : Nat) (duskOk : Bool) : Channel :=
  let load := c.core.offered
  let c := ((c.observe periods measMv).monitors periods).nextWindow
  let used := c.poolUse15
  let drain := if 4096 < used then true else if used < 1024 then false else c.core.drain
  let c := if 4096 < used then c.flag 0x4000 0x21 4 else c
  let track := bits (c.reg 0x4000 0x10) 5 4
  let quiet := duskOk && track == 0 && (!cx.forwards || load < 1680000)
  let c := { c with core := { c.core with drain := drain, quietRun := if quiet then c.core.quietRun + 1 else 0 } }
  if cx.night == .asleep then
    ({ c with core := { c.core with setMv := 550, exitPend := false } }).showSetPoint
  else
    let v := c.core.setMv
    let p := periods.foldl max 0
    let t := loopTarget track (c.core.monFault || drain) (cx.mode == 3) c.core.exitPend p load v
    let t := min 850 (max 550 t)
    let t := if cx.st == .standby && cx.mode != 3 then max 750 t else t
    let ramp := v < 750 && v < t && (drain || (track == 0 && !c.core.monFault && 604800000000 < 108 * load * p))
    let c := if ramp then c.inc 0x4000 0x1D else c
    ({ c with core := { c.core with setMv := t, exitPend := false } }).showSetPoint

/-- DUSK_EN, 0x1101 and TRACK_MODE as DUSK needs them (R534, R535). -/
def State.duskAllowed (s : State) : Bool :=
  bitOf (s.mreg 0x1104 0) 0 && s.mreg 0x1101 0 == 2 && !s.twilight &&
    s.channels.all fun ch => bits ((s.chan ch).reg 0x4000 0x10) 5 4 == 0

/-- A DUSK exit trigger on channel `ch` at an update (R535): CHANNEL or PIPE_MAX, in whole units of 0.1 % (assumption 87), is 351 or
more. -/
def State.duskTrigger (s : State) (ch : Ch) : Bool :=
  let c := s.chan ch
  !s.duskAllowed || 4096 < c.poolUse15 ||
    (s.forwards ch && (Nat.ble 1965600 c.core.offered || c.rampTrigger (s.ctx ch)))

/-- One update of channel `ch`'s loop. A lost supply controller makes none: the window is still observed and the set point stands
(R28, R75 to R77); its windows count for no DUSK (assumption 125). -/
def State.updateLoop (s : State) (ch : Ch) (periods : List Nat) (measMv : Nat) : State :=
  if !s.power.ctrlOk then
    s.onChan ch fun _ c => { (c.observe periods measMv).showSetPoint with core := { c.core with heard := List.replicate 8 0, quietRun := 0 } }
  else
    let trig := s.duskTrigger ch
    let s := if s.mode.dusk && trig then s.leaveDusk else s
    let ok := s.modeCode == 2 && s.duskAllowed && !trig
    s.onChan ch fun cx c => c.update cx periods measMv ok

/-- SET_POINT_UPDATE (R63, R73). -/
def execSetPointUpdate (ch : Ch) (periods silent : List Nat) (measMv tj : Nat) (s : State) : Host.Outcome State Fault Refusal :=
  if !s.present ch then .fault .noSuchChannel
  else
    let s1 := s.onChan ch fun _ c => c.junction tj
    .next (s.finish (s1.updateLoop ch (monitorReadings periods silent) measMv))

/-- The entry conditions of R534: DAY, and 10,000 quiet windows on every present channel. With the supply controller lost DUSK is not
entered (assumption 125). -/
def State.duskReady (s : State) : Bool :=
  s.modeCode == 2 && s.power.ctrlOk && s.duskAllowed && s.channels.all fun ch => Nat.ble 10000 (s.chan ch).core.quietRun

/-- DUSK_ENTRY (R534). -/
def execDuskEntry (s : State) : Host.Outcome State Fault Refusal :=
  .next (s.finish (if !s.duskReady then s
    else ((({ s with mode := { s.mode with dusk := true } }).mflag 0x1106 0 2).minc 0x1108 1)))

/-- JUNCTION_OVERTEMP (R73). -/
def execJunctionOvertemp (ch : Ch) (tj : Nat) (s : State) : Host.Outcome State Fault Refusal :=
  onCh s ch true fun _ c => c.junction tj

/-- An island loses lock (R80): bit, flag, log; its ports go down, or capture stops, or the health word shows it. -/
def Channel.lockLost (c : Channel) (cx : Ctx) (i : Nat) : Channel :=
  let before := c.reg 0x4000 0x20
  if !bitOf before i then c
  else
    let c := (c.putBit 0x4000 0x20 i false).flag 0x4000 0x21 (2 ^ 4)
    (c.log 0x34 before).islandDown cx i

/-- ISLAND_LOCK_LOSS (R80). -/
def execIslandLockLoss (ch : Ch) (island : Nat) (s : State) : Host.Outcome State Fault Refusal :=
  onCh s ch (Nat.ble island 28) fun cx c => c.lockLost cx island

/-- ISLAND_RELOCK (R80). -/
def execIslandRelock (ch : Ch) (island : Nat) (s : State) : Host.Outcome State Fault Refusal :=
  onCh s ch (Nat.ble island 28) fun _ c => c.putBit 0x4000 0x20 island true

end Sys2Proof.Machine
end

