-- ==== Sys2Proof/Machine/Port.lean ====
section
/-! DEFINITION. The rows of the front ports (R82 to R114). -/

namespace Sys2Proof.Machine

/-! ## The rows -/

/-- A front port (R82). -/
def isFront (p : Nat) : Bool := Nat.ble 1 p && Nat.ble p 48

/-- A port with a link that a PAUSE can hold (R100, R142). -/
def isPaused (p : Nat) : Bool := Nat.ble 1 p && Nat.ble p 52

/-- Receive on a front or multidrop port. -/
def Channel.receivePort (c : Channel) (cx : Ctx) (p : Nat) (b : List Byte) (err : LineErr) (fec : Nat) : Channel :=
  if p ≤ 48 then c.receiveFront cx p b err fec else c.receiveDrop cx (p - 64) b err

/-- The service block compares what the pair's partners say (R109). -/
def State.compareSplit (s : State) (p : Nat) : State :=
  let split := s.present .b && (s.chA.port p).partner && (s.chB.port p).partner &&
    (s.chA.reg 0x410B p != s.chB.reg 0x410B p || bits (s.chA.reg 0x4109 p) 63 48 != bits (s.chB.reg 0x4109 p) 63 48)
  if split then (s.onChan .a fun _ c => c.flag 0x410D p 64).onChan .b fun _ c => c.flag 0x410D p 64 else s

/-- A command that brings a frame to a channel, whose units do `f` with it and the service block `g`; `part` says that the port is one for
it. A pattern that the frame matches wakes the module from NIGHT (R112, R113). -/
def bringsFrame (s : State) (ch : Ch) (part : Bool) (g : State → State) (f : Ctx → Channel → Channel) :
    Host.Outcome State Fault Refusal :=
  if !s.present ch then .fault .noSuchChannel
  else if !part then .fault .noSuchPart
  else
    let t := g (s.onChan ch f)
    match (if s.mode.night == .awake then none else (f (s.ctx ch) (s.chan ch)).box.wake) with
    | none => .next (s.orderLog t)
    | some (port, hits) => .next (s.finish (t.wakeByAll (hits.map fun k => .pattern ch port k)))

/-- FRAME_RECEIVE (R90). -/
def execFrameReceive (ch : Ch) (port : Nat) (bytes : List Byte) (err : LineErr) (fec : Nat) (s : State) :
    Host.Outcome State Fault Refusal :=
  bringsFrame s ch (isFront port || (65 ≤ port && port ≤ 80)) (fun t => t.compareSplit port) fun cx c => c.receivePort cx port bytes err fec

/-- PAUSE_RECEIVE (R100): one that is dropped is stored for the sessions like every frame (R94), and the wake patterns look at each
(R112). -/
def Channel.receivePause (c : Channel) (cx : Ctx) (p : Nat) (m : MacControl) : Channel :=
  if !c.linkUp p || (c.port p).holding then c
  else
    let c := c.hear p 64
    let c := if p ≤ 48 then (c.inc 0x4110 p).add 0x4111 p 64 else (c.inc 0x4260 (p - 48)).add 0x4261 (p - 48) 64
    let t := c.takeControl cx p m
    if !t.1 && !c.armed p then t.2
    else
      let a := t.2.draw cx.free
      let b := a.2.draw cx.free
      let bytes := controlBytes m a.1 b.1
      let c := if p ≤ 48 then b.2.wakePatterns p bytes else b.2
      if t.1 then c.storeRx cx (c.rxFrame p bytes ⟨8, false⟩) 8 else c

/-- PAUSE_RECEIVE (R100). -/
def execPauseReceive (ch : Ch) (port : Nat) (m : MacControl) (s : State) : Host.Outcome State Fault Refusal :=
  bringsFrame s ch (isPaused port) id fun cx c => c.receivePause cx port m

/-- PAUSE_EXPIRE (R100). -/
def execPauseExpire (ch : Ch) (port : Nat) (prio : Option Nat) (s : State) : Host.Outcome State Fault Refusal :=
  onCh s ch (isPaused port) fun cx c => c.endHold cx port prio

/-- PAUSE_REFRESH: what is asserted is sent again with PAUSE_QUANTA (R102). -/
def Channel.refreshPause (c : Channel) (cx : Ctx) (p : Nat) : Channel :=
  let a := c.reg 0x4805 p
  let q := bits (c.flowCtl p) 15 0
  let c := if bitOf a 0 then c.sendPause cx p false 0 q else c
  if bits a 15 8 ≠ 0 then c.sendPause cx p true (bits a 15 8) q else c

/-- PAUSE_REFRESH (R102). -/
def execPauseRefresh (ch : Ch) (port : Nat) (s : State) : Host.Outcome State Fault Refusal :=
  onCh s ch (isPaused port) fun cx c => c.refreshPause cx port

/-- LACPDU_RECEIVE (R104). -/
def Channel.receiveLacpdu (c : Channel) (cx : Ctx) (p : Nat) (i : LacpInfo) : Channel :=
  if !c.linkUp p || (c.port p).holding then c
  else ((((c.inc 0x4110 p).add 0x4111 p 128).hear p 128).wakeFree cx p (lacpduBytes i)).takeLacpdu cx p i

/-- LACPDU_RECEIVE (R104, R109). -/
def execLacpduReceive (ch : Ch) (port : Nat) (info : LacpInfo) (s : State) : Host.Outcome State Fault Refusal :=
  bringsFrame s ch (isFront port) (fun t => t.compareSplit port) fun cx c => c.receiveLacpdu cx port info

/-- A Marker PDU arrives (R95). -/
def Channel.receiveMarker (c : Channel) (cx : Ctx) (p : Nat) : Channel :=
  if !c.linkUp p || (c.port p).holding then c
  else ((((c.inc 0x4110 p).add 0x4111 p 128).hear p 128).wakeFree cx p markerBytes).answerMarker cx p

/-- MARKER_RESPONSE (R95). -/
def execMarkerResponse (ch : Ch) (port : Nat) (s : State) : Host.Outcome State Fault Refusal :=
  bringsFrame s ch (isFront port) id fun cx c => c.receiveMarker cx port

/-- LACP_PERIODIC: a periodic LACPDU goes out, where either end is active (R107). -/
def Channel.periodic (c : Channel) (cx : Ctx) (p : Nat) : Channel :=
  if c.hwBit 0x4108 p 49 || bitOf (c.reg 0x4109 p) 0 then c.sendLacpdu cx p false else c

/-- LACP_PERIODIC (R107). -/
def execLacpPeriodic (ch : Ch) (port : Nat) (s : State) : Host.Outcome State Fault Refusal :=
  onCh s ch (isFront port) fun cx c => c.periodic cx port

/-- PARTNER_EXPIRE (R106, R107). -/
def execPartnerExpire (ch : Ch) (port : Nat) (s : State) : Host.Outcome State Fault Refusal :=
  onCh s ch (isFront port) fun cx c => c.expirePartner cx port

/-- The receive side loses lock: the hold of R86 starts, or ends at once at 0; a fabric link takes none (R139). -/
def Channel.loseLock (c : Channel) (cx : Ctx) (p : Nat) : Channel :=
  if !c.linkUp p then c
  else if 48 < p || bits (c.hw 0x4107 p) 15 0 = 0 then c.portDown cx p
  else if (c.port p).holding then c
  else c.setPort p { c.port p with locked := false, holding := true, tail := true }

/-- LOCK_LOSS (R86). -/
def execLockLoss (ch : Ch) (port : Nat) (s : State) : Host.Outcome State Fault Refusal :=
  onCh s ch (isPaused port) fun cx c => c.loseLock cx port

/-- LINK_DOWN_HOLD_EXPIRE (R86). -/
def execLinkDownHoldExpire (ch : Ch) (port : Nat) (s : State) : Host.Outcome State Fault Refusal :=
  onCh s ch (isFront port) fun cx c => if (c.port port).holding then c.portDown cx port else c

/-- LINK_UP (R83, R139). -/
def execLinkUp (ch : Ch) (port partnerOp : Nat) (s : State) : Host.Outcome State Fault Refusal :=
  onCh s ch (isPaused port) fun cx c =>
    if port ≤ 48 then c.frontUp cx port partnerOp else c.fabricUp cx (port - 48)

/-- AN_TIMEOUT: negotiation has not completed in 3 s and starts again (R85). -/
def execAnTimeout (ch : Ch) (port : Nat) (s : State) : Host.Outcome State Fault Refusal :=
  onCh s ch (isFront port) fun _ c =>
    let ctl := c.hw 0x4100 port
    if bitOf ctl 0 && bits ctl 15 12 == 0 && !c.bit 0x4102 port 11 then c.flag 0x410D port 4 else c

/-- AN_COMPLETE (R85). -/
def execAnComplete (ch : Ch) (port partnerAdv : Nat) (s : State) : Host.Outcome State Fault Refusal :=
  onCh s ch (isFront port) fun _ c => c.completeAn port partnerAdv

/-- FLUSH_FINISHED: FLUSHING of the tier clears (R400). -/
def execFlushFinished (ch : Ch) (tier : Nat) (s : State) : Host.Outcome State Fault Refusal :=
  onCh s ch (isTier tier) fun _ c => c.setTier tier { c.tier tier with flushing := false }

/-- RECEIVE_LOW_POWER_IDLE (R88, R99). -/
def execReceiveLowPowerIdle (ch : Ch) (port : Nat) (entered : Bool) (s : State) : Host.Outcome State Fault Refusal :=
  onCh s ch (isFront port) fun _ c =>
    if !c.linkUp port then c
    else
      let was := c.bit 0x4102 port 21
      let c := c.putBit 0x4102 port 21 entered
      if entered && !was then c.inc 0x4127 port else c

end Sys2Proof.Machine
end

