-- ==== Sys2Proof/Machine/Views.lean ====
section
/-! DEFINITION. What READ and READ-BLOCK see: the status objects that are computed from other state. -/

namespace Sys2Proof.Machine

/-! ## Channel objects -/

/-- Set bit `i` of a status word under a condition. -/
def at_ (i : Nat) (b : Bool) : Nat := if b then 2 ^ i else 0

/-- Used slots of a stash (R203). -/
def Channel.stashUsed (c : Channel) (t : Hashed) : Nat := ((c.occupied t).filter fun a => stashOf t ≤ a).length

/-- 0x4401 (R231). -/
def Channel.bridgeStatus (c : Channel) : Nat :=
  c.ageClock * 2 ^ 48 + (c.occupied .bridge).length % 2 ^ 21 * 2 ^ 27 + c.stashUsed .bridge * 2 ^ 20 +
    c.stashUsed .sub * 2 ^ 13 + min 4096 c.bridge.learns.length

/-- 0x4500:01 (R260). -/
def Channel.routeStatus (c : Channel) : Nat :=
  (c.occupied .v4).length * 2 ^ 44 + (c.occupied .v6).length * 2 ^ 25 + c.stashUsed .v4 * 2 ^ 18 + c.stashUsed .v6 * 2 ^ 11

/-- 0x4700:02 (R328). -/
def Channel.sequencerStatus (c : Channel) : Nat :=
  let rst := (c.seqs.filter fun q => q.2.inReset).length
  let busy := (c.seqs.filter fun q => q.2.inReset || q.2.busy).length
  rst * 2 ^ 16 + (256 - busy)

/-- 0x4800:01 (R366, R660). -/
def bufferGeometry (v : Variant) : Nat := poolArea v * 2 ^ 32 + if v = .A then 0 else 1048576

/-- 0x4800:02: free cells of the pool area and pool 15 (R366). -/
def Channel.freeCells (c : Channel) (v : Variant) : Nat :=
  managedCells v - (c.cells.filter fun p => p.1 < managedCells v).length

/-- 0x4900:01 (R403). -/
def Channel.queueManager (c : Channel) (v : Variant) : Nat :=
  (c.queues.foldl (fun n q => n + q.2.items.length) 0) * 2 ^ 32 + if v = .C then 32768 else 262144

/-- An entry of 0x4910 or 0x4911 (R409). -/
def Channel.queueStatus (c : Channel) (k : Nat) : Nat := (c.queue k).items.length * 2 ^ 32 + (c.queue k).cells

/-- 0x4912 of a tier (R410). -/
def Channel.tierStatus (c : Channel) (e : Nat) : Nat :=
  let t := c.tier e
  let port := c.carrier e
  let shaped := match port with
    | some p => p ≤ 54 && decide (signedOf 64 (c.reg 0x4907 p) < 0)
    | none => false
  let paused := match port with
    | some p => p ≤ 52 && (c.port p).paused
    | none => false
  at_ 7 t.down + at_ 6 t.flushing + at_ 5 shaped + at_ 4 paused + min 3 t.picked.length

/-- An entry of 0x4802 (R368). -/
def Channel.poolStatus (c : Channel) (k : Nat) : Nat :=
  let p := c.pool k
  p.shared % 2 ^ 32 * 2 ^ 96 + p.reserved % 2 ^ 32 * 2 ^ 64 + p.quarantined % 2 ^ 32 * 2 ^ 32 + p.level % 4 * 16 +
    at_ 3 p.atHard + at_ 2 (!p.waiting.isEmpty)

/-- 0x4B00:02 (R432); the output pulses while it is enabled and the time is valid (R422). -/
def Channel.timeStatus (c : Channel) : Nat :=
  at_ 2 (c.hwBit 0x4B00 1 0 && c.time.valid) + at_ 1 c.time.copied + at_ 0 c.time.valid

/-- 0x4C00:02 (R462). -/
def Channel.captureStatus (c : Channel) (cx : Ctx) : Nat :=
  ringSlots cx.variant * 2 ^ 32 + at_ 3 c.cap.hold + at_ 2 (cx.variant != .A) + at_ 1 (cx.variant == .A) +
    at_ 0 (c.hwBit 0x4C00 1 0 && !c.capStopped && !c.cap.hold && cx.night == .awake)

/-- What a channel object reads. -/
def Channel.view (c : Channel) (cx : Ctx) (idx sub : Nat) : Nat :=
  if idx = 0x4000 && sub = 1 then cx.st.code
  else if idx = 0x4000 && sub = 0x11 then setBit (c.reg idx sub) 12 (!cx.ctrlOk)
  else if idx = 0x4202 then setBit (c.reg idx sub) 15 (c.token cx sub)
  else if idx = 0x4401 then c.bridgeStatus
  else if idx = 0x4500 && sub = 1 then c.routeStatus
  else if idx = 0x4600 && sub = 2 then
    at_ 16 (!c.search.updates.isEmpty || c.search.clearing) + (listedIn c.win 0x4610).length
  else if idx = 0x4700 && sub = 2 then c.sequencerStatus
  else if idx = 0x4701 && sub = 2 then c.vendorCheck
  else if idx = 0x4800 && sub = 1 then bufferGeometry cx.variant
  else if idx = 0x4800 && sub = 2 then c.freeCells cx.variant
  else if idx = 0x4800 && sub = 3 then c.quarantineTotal * 2 ^ 32 + bits (c.reg idx sub) 31 0
  else if idx = 0x4900 then c.queueManager cx.variant
  else if idx = 0x4912 then c.tierStatus sub
  else if idx = 0x4B00 && sub = 2 then c.timeStatus
  else if idx = 0x4901 && 65 ≤ sub then c.reg idx sub &&& 0x0F000000
  else if idx = 0x4B01 then c.time.sec * 2 ^ 32 + c.time.ns
  else if idx = 0x4B10 then (c.port sub).stamps.headD 0
  else if idx = 0x4C00 && sub = 2 then c.captureStatus cx
  else c.reg idx sub

/-- The word of a control store copy that 0x4710 returns: raw; a posted word as accepted (R336, R617). -/
def Channel.wordView (c : Channel) (addr : Nat) : Nat :=
  let copy := bits (c.reg 0x4700 1) 6 4
  if c.posted.any (fun p => p.win && p.key == winKey 0x4710 addr) then
    let d := c.wget 0x4710 addr
    checkOf d * 2 ^ 192 + d
  else c.storeWord copy addr

/-- Whether an entry of 0x4810 belongs to a port that has classes (R373); the others read 0. -/
def classEntry (e : Nat) : Bool := isPort (e / 8)

/-- Reserved entries of windows (R10): those of 0x4810 without a port (R373) and pool 15's of 0x4801 (R343). -/
def reservedEntry (idx e : Nat) : Bool :=
  (idx == 0x4810 && Nat.blt e 1024 && !classEntry e) || (idx == 0x4801 && e == 15) ||
    (idx == 0x4911 && Nat.blt e 1024 && (!classEntry e || e / 8 == 50 || e / 8 == 52))

/-- What a channel window entry reads. -/
def Channel.entryView (c : Channel) (idx e : Nat) : Nat :=
  if idx = 0x4502 then setBits (setBits (c.wget idx e) 39 20 (c.vrfRoutes false e)) 19 0 (c.vrfRoutes true e)
  else if idx = 0x4710 then c.wordView e
  else if idx = 0x4802 then c.poolStatus e
  else if idx = 0x4910 then c.queueStatus e
  else if idx = 0x4911 then c.queueStatus (portQueue (e / 8) (e % 8))
  else if idx = 0x4C30 then c.cap.regionEntry e
  else if reservedEntry idx e then 0
  else c.wget idx e

/-! ## Module objects -/

/-- Own node (R592): the module ID, or 127 under STRAP_ERROR. -/
def State.node (s : State) : Nat := if s.bring.strapError then 127 else s.bring.moduleId

/-- 0x1005 (R6). -/
def capabilities : Variant → Nat
  | .A => 0x7F
  | .B => 0x79
  | .C => 0x60

/-- 0x1102:01 (R582). -/
def State.moduleBringUp (s : State) : Nat :=
  let b := s.bring
  at_ 13 b.fallback + at_ 12 b.strapError + b.image % 4 * 2 ^ 10 + at_ 9 b.unconf + at_ 8 b.backoffEnd.isSome + b.stage % 16

/-- Whole seconds that remain until a time of the service block timer. -/
def State.secondsTo (s : State) : Option Nat → Nat
  | none => 0
  | some t => min 64 ((t - s.sbTime) / 100000)

/-- 0x1102:02 and 03 (R583). -/
def State.channelBringUp (s : State) (ch : Ch) : Nat :=
  let r := s.role ch
  r.failCause % 256 * 2 ^ 24 + r.failStage % 16 * 2 ^ 20 + at_ 17 r.waitNight + at_ 16 r.waitArb + at_ 15 r.backoffEnd.isSome +
    s.secondsTo r.backoffEnd * 2 ^ 8 + r.stage % 16

/-- 0x1200:01 (R556). -/
def State.supplyStatus (s : State) : Nat :=
  at_ 15 s.power.warn + at_ 11 s.power.sbOut + at_ 10 (s.present .b && s.roleB.outputOn) + at_ 9 s.roleA.outputOn +
    at_ 8 s.power.ctrlOk + s.power.inB.st.code * 16 + s.power.inA.st.code

/-- 0 none, 1 A, 2 B. -/
def chCode : Option Ch → Nat
  | none => 0
  | some ch => ch.num + 1

/-- 0x1300:02 (R523). -/
def State.redundancy (s : State) : Nat :=
  let phase := match s.arb.drill with
    | none => 0
    | some d => d.phase
  let orphan := match s.arb.holder with
    | some h => (s.role h).orphan
    | none => false
  phase * 2 ^ 24 + at_ 23 s.arb.hold.isSome + at_ 22 s.arb.window.isSome + at_ 21 s.arb.suspended + at_ 20 s.arb.ok +
    at_ 19 orphan + at_ 18 s.relay.up + at_ 17 (s.present .b && s.roleB.fence) + at_ 16 s.roleA.fence + at_ 11 (s.fit .b) +
    at_ 10 (s.fit .a) + chCode s.arb.drainer * 2 ^ 8 + chCode s.arb.holder * 2 ^ 4 + at_ 1 (s.present .b && s.roleB.stale) +
    at_ 0 s.roleA.stale

/-- 0x1300:06 (R527): the second at which the next drill falls due. -/
def State.nextDrill (s : State) : Nat :=
  match s.arb.holder with
  | none => 0
  | some h =>
    if s.present .b && bitOf (s.mreg 0x1300 1) 0 && (s.chan h).time.valid then
      (s.arb.drillBase + bits (s.mreg 0x1300 5) 63 48 * 3600) % 2 ^ 48
    else 0

/-- Codes of R627. -/
def CanState.code : CanState → Nat
  | .off => 0
  | .active => 1
  | .passive => 2
  | .busOff => 3

/-- Functions that a host may ask for (R594). -/
def isRequest (func : Nat) : Bool := Nat.ble 1 func && Nat.ble func 11 && func != 8 && func != 10

/-- FRAME-FROM-HOST is not carried on CAN (R594). -/
def canOnly (bus : Bus) (func : Nat) : Bool := func == 11 && (bus == .canA || bus == .canB)

/-- The request that a write with a row of its own stands for, without its bytes. -/
def askOf (h : AuthHdr) : Request := ⟨h.bus, h.prio, h.dest, h.src, h.tag, []⟩

/-- FUNCTION and identifier of a command that is a host message. -/
def hostAsk : Instr → Option (Nat × Request)
  | .read q => some (1, q)
  | .write q => some (2, q)
  | .readBlock q => some (3, q)
  | .writeBlock q => some (4, q)
  | .snapshot q => some (5, q)
  | .sessionOpen q => some (6, q)
  | .sessionProve q => some (7, q)
  | .heartbeatRequest q => some (9, q)
  | .frameFromHost q => some (11, q)
  | .relayRequest func q => some (func, q)
  | .moduleReset h _ | .channelReset h _ | .portReset h _ _ | .save h _ | .invalidate h _ | .erase h | .commit h
  | .switch h | .rearm h | .isolate h _ | .release h _ | .resync (some h) | .requestNight h | .requestNoon h
  | .requestDay h | .clrHighWater h _ | .raise h _ | .tableRead h _ _ | .tableWrite h _ _ | .tableInsert h _ _
  | .tableDelete h _ _ | .tableSearch h _ _ | .tableNext h _ _ | .flushByPort h _ _ _ | .ageNow h _ | .flushVrf h _ _
  | .cleanFilter h _ _ | .lpmSearch h _ _ | .searchEntryRead h _ | .searchEntryWrite h _ | .searchEntryClear h _
  | .searchCommandSearch h _ _ | .nextMatch h _ _ | .clearAll h _ | .flush h _ | .freeze h _ | .captureRelease h _
  | .locate h _ | .checkStart h _ _ | .abort h _ _ | .incrementWrite h _ _ | .offsetStep h _ _ | .timeSet h _ _
  | .copyPartner h _ | .timestampPop h _ _ => some (2, askOf h)
  | _ => none

/-- Whether a message is a request that this module executes (R592, R594), a relayed one too (R615). -/
def State.executes (s : State) (q : Request) (func : Nat) : Bool :=
  Nat.ble 65 q.src && Nat.ble q.src 126 && !canOnly q.bus func && isRequest func && q.dest == s.node

/-- The number of requests for this module that wait in the command queue (R615). -/
def State.requests (s : State) : Nat :=
  (s.pending.filter fun i => match hostAsk i with
    | some (func, q) => s.executes q func
    | none => false).length

/-- Requests that the host port holds: those waiting that did not find it full (R615). -/
def State.queued (s : State) : Nat := min 16 (s.requests - s.host.refuse.length)

/-- 0x1400:03 (R627). -/
def State.hostStatus (s : State) : Nat :=
  (if s.bring.stage < 2 then 0 else s.node) * 2 ^ 24 + at_ 23 s.host.ethLink +
    (s.host.sessions.filter (·.proven)).length * 2 ^ 19 + s.queued * 2 ^ 14 + s.host.canB.code * 4 + s.host.canA.code

/-- An entry of 0x1410 (R629). -/
def State.sessionEntry (s : State) (e : Nat) : Nat :=
  match s.host.sessions.find? fun x => x.num == e + 1 && x.proven with
  | none => 0
  | some x => x.counter * 2 ^ 96 + (s.sbTime - x.since) / 100000 % 2 ^ 32 * 2 ^ 64 + 2 ^ 15 + x.node % 128 * 2 ^ 8 + x.slot % 4

/-- A vendor image slot (R589). -/
def State.vendorSlot (s : State) (k : Nat) : VendorSlot := if k = 0 then s.flash.vendor0 else s.flash.vendor1

/-- A slot with a valid signature and a SEQUENCE (R589, R590); the delivered image is a signed one (assumption 4). -/
def VendorSlot.valid (v : VendorSlot) : Bool := v.seq.isSome && (v.delivered || Config.signatureValid v.data)

/-- Whether the jobs over the vendor region of every copy have ended with the check value that the image carries (R321); that of the
delivered image is the check value of its words (assumption 4). -/
def VendorSlot.matches (v : VendorSlot) (c : Channel) : Bool :=
  c.own.got == List.replicate 8 (some (if v.delivered then c.vendorCheck else Config.imageCrc v.data))

/-- 0x1500:06 (R591): RESULT and OTHER_SLOT are stored. -/
def State.microStatus (s : State) : Nat :=
  let k := s.flash.selected.getD 0
  let seq := if s.flash.selected.isSome then (s.vendorSlot k).seq.getD 0 else 0
  seq % 2 ^ 32 * 2 ^ 32 + bits (s.mreg 0x1500 6) 31 24 * 2 ^ 24 + at_ 16 s.flash.microJob.isSome +
    at_ 10 (bitOf (s.mreg 0x1500 6) 10) + at_ 9 s.flash.vendor1.valid + at_ 8 s.flash.vendor0.valid + k % 2

/-- What a module object reads. -/
def State.mview (s : State) (idx sub : Nat) : Nat :=
  if idx = 0x1002 then variantCode s.unit.variant
  else if idx = 0x1003 then s.unit.hwRev
  else if idx = 0x1004 then s.unit.serial
  else if idx = 0x1005 then capabilities s.unit.variant
  else if idx = 0x1006 then
    (match s.flash.selected with
      | some k => Config.imageVersion (s.vendorSlot k).data
      | none => 0)
  else if idx = 0x1100 then s.modeCode
  else if idx = 0x1102 then
    (if sub = 1 then s.moduleBringUp
    else if sub = 3 && !s.present .b then 0
    else s.channelBringUp (if sub = 3 then .b else .a))
  else if idx = 0x1103 then
    (if sub = 1 then min 65535 s.bring.restarts * 2 ^ 16 + s.bring.attempt
    else
      let r := s.role (if sub = 3 then .b else .a)
      if sub = 3 && !s.present .b then 0 else min 65535 r.restarts * 2 ^ 16 + r.attempt)
  else if idx = 0x1200 && sub = 1 then s.supplyStatus
  else if idx = 0x1300 && sub = 2 then s.redundancy
  else if idx = 0x1300 && sub = 3 then s.arb.epoch
  else if idx = 0x1300 && sub = 6 then s.nextDrill
  else if idx = 0x1400 && sub = 3 then s.hostStatus
  else if idx = 0x1400 && sub = 4 then s.unit.mac
  else if idx = 0x1500 && sub = 2 then setBit (s.mreg idx sub) 16 s.flash.imageJob.isSome
  else if idx = 0x1500 && sub = 6 then s.microStatus
  else if idx = 0x1600 && sub = 1 then s.log.next % 2 ^ 32 * 2 ^ 32 + s.log.held % 2 ^ 19
  else s.mreg idx sub

/-- The vendor image slot that is not selected: the staging slot (R590). -/
def State.staging (s : State) : Nat := if s.flash.selected = some 0 then 1 else 0

/-- What a module window entry reads (R590, R629, R646). -/
def State.mentry (s : State) (idx e : Nat) : Nat :=
  if idx = 0x1410 then s.sessionEntry e
  else if idx = 0x1510 then tabGet (fun _ => 2 ^ 512 - 1) (s.vendorSlot s.staging).data e
  else tabGet mwinDflt s.mwin (winKey idx e)

end Sys2Proof.Machine
end

