-- ==== Sys2Proof/Machine/Checks.lean ====
section
/-! DEFINITION. What a WRITE or WRITE-BLOCK to a channel object is checked against (R31, R609 to R612), and the value that it
leaves. -/

namespace Sys2Proof.Machine

/-! ## The value that a write leaves (R609) -/

/-- The command objects of R658 and R461. -/
def isCommand (idx : Nat) : Bool := idx == 0x4410 || idx == 0x4420 || idx == 0x4510 || idx == 0x4620 || idx == 0x4C20

/-- The bits of a holding object or opcode object that a write reaches (R238 to R240, R258, R259, R273, R288). -/
def commandMask (idx sub : Nat) : Nat :=
  if sub = 1 then (if idx = 0x4510 then 0x2F else if idx = 0x4620 then 0xF0F else if idx = 0x4C20 then 0xF else 0x8F)
  else if idx = 0x4410 then
    (if sub = 2 then 2 ^ 60 - 1 else if sub = 3 then 2 ^ 126 + maskOf 119 60 + 2 ^ 43 + 0xFFFF else 0x1FFFFF)
  else if idx = 0x4420 then
    (if sub = 2 then 2 ^ 31 - 1 else if sub = 3 then maskOf 54 24 + 0x7FFF else 0x1FFFFF)
  else if idx = 0x4510 then
    (if sub = 2 then maskOf 159 144 + maskOf 127 0 else if sub = 3 then 0xC0FFFFFF else 0xFFFFF)
  else if idx = 0x4620 then
    (if sub = 2 then 2 ^ 320 - 1
      else if sub = 3 then maskOf 767 128 + maskOf 111 96 + maskOf 91 62 + maskOf 39 0
      else 0x7FFF)
  else 2 ^ 64 - 1

/-- The bits of an object that a write reaches, where they depend on the sub-index (R234, R404, R483). -/
def fieldMask (o : Obj) (idx sub : Nat) : Nat :=
  if isCommand idx then commandMask idx sub
  else if idx = 0x4404 && 49 ≤ sub then 0x47FFFFFF
  else if idx = 0x4901 && 65 ≤ sub then 0x0F000000
  else if idx = 0x4B00 && sub = 1 then 0x111
  else if idx = 0x4D06 then 2 ^ 40 - 1
  else if idx = 0x4D07 then 2 ^ 41 - 1
  else o.mask

/-- The value of an object after a write of `raw` over `old`, field by field. Bits of an indirection entry that its TYPE does not use are
zero (R197), as are those of a Data that is no group (R238). -/
def written (o : Obj) (idx sub old raw : Nat) : Nat :=
  match o.acc with
  | .w1c => old - (old &&& (raw &&& o.mask))
  | .counter => 0
  | _ =>
    let v := maskWrite (fieldMask o idx sub) old raw
    if idx = 0x4310 then
      let v := if bits v 63 60 = 4 then v else setBits v 22 16 0
      if bits v 63 60 = 1 || bits v 63 60 = 4 then v else setBits v 25 24 0
    else if idx = 0x4410 && sub = 3 && !bitOf v 43 then
      let v := setBits v 15 14 0
      if bitOf v 13 then v else setBits v 12 7 0
    else v

/-! ## Ports and fabric (R83 to R168) -/

/-- Whether `v` is a port of a list of ranges. -/
def isMirrorPort (p : Nat) : Bool := isPort p && p != 54

/-- Whether `v` has only bits that name ports that `ok` allows, of an OCT(16). -/
def portsOnly (ok : Nat → Bool) (v : Nat) : Bool := (List.range 128).all fun p => !octBit 16 v p || ok p

/-- Refused values of the front port objects (R83 to R112). -/
def Channel.badFront (c : Channel) (idx sub v : Nat) : Bool :=
  if idx = 0x4100 then
    Nat.blt 10 (bits v 15 12) || bits v 11 10 == 3 || (bits v 15 12 == 0 && bits v 11 10 == 2) || bits v 25 24 == 3 ||
      (bitOf v 0 && bitOf v 26 && c.reg 0x410A sub == 0)
  else if idx = 0x4103 then Nat.blt v 64 || Nat.blt 16128 v
  else if idx = 0x4104 then bits v 15 0 == 0
  else if idx = 0x4106 then v == 0
  else if idx = 0x4107 then Nat.blt 1000 v
  else if idx = 0x410A then v == 0 && c.bit 0x4100 sub 0 && c.bit 0x4100 sub 26
  else if idx = 0x4231 then Nat.blt 48 (bits v 23 16) || (bitOf v 24 && c.reg 0x4230 sub == 0)
  else false

/-- Refused values of the multidrop objects (R134 to R136, R15). -/
def badDrop (cx : Ctx) (idx v : Nat) : Bool :=
  if idx = 0x4200 then Nat.ble 2 (bits v 5 4) || (cx.variant == .C && bitOf v 3)
  else if idx = 0x4201 then
    Nat.blt 31 (bits v 7 0) || bits v 39 32 == 0 || Nat.blt 32 (bits v 39 32) || bits v 15 8 == 0 ||
      (bits v 31 24 == 0 && bits v 23 16 != 0)
  else if idx = 0x4203 then bits v 5 4 == 3
  else if idx = 0x4207 then Nat.blt v 64 || Nat.blt 16128 v
  else false

/-- Refused values of the fabric objects (R140 to R142, R156, R684). `raw` is what was written. -/
def badFabric (idx v raw : Nat) : Bool :=
  if idx = 0x4250 then bits v 25 24 == 3
  else if idx = 0x4252 then
    bits v 22 16 == 0 || Nat.blt 64 (bits v 22 16) || bits v 15 14 == 3 || Nat.blt (bits v 9 0) 10 ||
      Nat.blt 1000 (bits v 9 0) || Nat.blt 64 (bits v 29 23)
  else if idx = 0x4253 then Nat.blt v 64 || Nat.blt 16128 v
  else if idx = 0x4254 then bits v 15 0 == 0
  else if idx = 0x4259 then !portsOnly (fun p => (1 ≤ p && p ≤ 48) || p == 53 || (65 ≤ p && p ≤ 80)) raw
  else false

/-! ## Parser (R174 to R198) -/

/-- Whether field `k` of a profile is enabled and, where `w` is not 0, `w` bytes wide. -/
def fieldOk (desc : Nat → Nat) (k w : Nat) : Bool :=
  k < 24 && bitOf (desc k) 11 && (w == 0 || bits (desc k) 10 7 + 1 == w)

/-- A key map keeps R176 and R195. -/
def keyMapOk (desc : Nat → Nat) (m : Nat) : Bool :=
  let slot := fun lo w => bits m (lo + 4) lo == 31 || fieldOk desc (bits m (lo + 4) lo) w
  slot 0 6 && slot 5 6 && slot 10 2 && slot 15 2 &&
    match bits m 26 25 with
    | 0 => bits m 24 20 == 31
    | 1 => slot 20 4
    | 2 => slot 20 16
    | _ => false

/-- The fields of a list of R195: up to the first 31. -/
def listFields (l : Nat) : List Nat := ((List.range 12).map fun j => bits l (5 * j + 4) (5 * j)).takeWhile fun k => k != 31

/-- The bytes of some fields. -/
def fieldsLen (desc : Nat → Nat) (l : List Nat) : Nat := l.foldl (fun n k => n + bits (desc k) 10 7 + 1) 0

/-- An associative list keeps R177 and R195. -/
def keyListOk (desc : Nat → Nat) (l : Nat) : Bool :=
  (listFields l).all (fun k => fieldOk desc k 0) && Nat.ble (fieldsLen desc (listFields l)) 38

/-- The fields of a mask. -/
def maskFields (m : Nat) : List Nat := (List.range 24).filter fun k => bitOf m k

/-- A hash mask keeps R181 and R196. -/
def hashMaskOk (desc : Nat → Nat) (m : Nat) : Bool :=
  (maskFields m).all (fun k => fieldOk desc k 0) && Nat.ble (fieldsLen desc (maskFields m)) 64

/-- The descriptors of an entry of 0x4304, whose bytes 2k and 2k + 1 hold that of field k (R194). -/
def descIn (e k : Nat) : Nat := leNat (slice (beBytes 48 e) (2 * k) 2) % 4096

/-- Refused values of the parser objects (R191 to R198); `sub` is the entry of a window. -/
def Channel.badParser (c : Channel) (cx : Ctx) (idx sub v : Nat) : Bool :=
  let desc := c.fieldDesc sub
  if idx = 0x4301 then bits v 14 8 == 0 || Nat.blt 64 (bits v 14 8)
  else if idx = 0x4302 then bitOf v 57 && (bits v 56 50 == 0 || Nat.blt 64 (bits v 56 50))
  else if idx = 0x4303 then !(maskFields v).all fun k => bitOf (desc k) 11
  else if idx = 0x4304 then
    let d := descIn v
    let p := sub + 1
    !((List.range 24).all (fun k => Nat.ble (bits (d k) 6 0 + bits (d k) 10 7 + 1) 128) &&
      (maskFields (c.reg 0x4303 p)).all (fun k => bitOf (d k) 11) && keyMapOk d (c.reg 0x4305 p) &&
      keyListOk d (c.reg 0x4306 p) && hashMaskOk d (c.reg 0x4307 p))
  else if idx = 0x4305 then !keyMapOk desc v
  else if idx = 0x4306 then !keyListOk desc v
  else if idx = 0x4307 then !hashMaskOk desc v
  else if idx = 0x4310 then
    match bits v 63 60 with
    | 0 | 3 => false
    | 1 => cx.variant == .C && Nat.ble 32768 (bits v 25 24 * 65536 + bits v 15 0)
    | 2 => !isLine (bits v 6 0)
    | 4 => bits v 22 16 == 0 || Nat.blt 64 (bits v 22 16) || bits v 25 24 == 3 || !isPort (bits v 6 0)
    | _ => true
  else if idx = 0x4311 then
    let size := bits v 44 32
    (1 ≤ size && size ≤ 15) || Nat.blt 4096 size || Nat.blt 65536 (bits v 15 0 + size)
  else false

/-! ## Tables (R225 to R237, R256 to R264, R279, R280) -/

/-- A Key of 0x4510:02 that R256 refuses for an opcode. -/
def badRouteKey (v6 : Bool) (op k : Nat) : Bool :=
  let len := bits k 151 144
  let w := (famBits v6).1
  let addr := k % 2 ^ 128
  Nat.blt w len || (op != 9 && addr != maskTo v6 len (addr % 2 ^ w)) || (op == 8 && Nat.blt (if v6 then 1 else 3) (bits k 159 152))

/-- Refused values of the table objects. -/
def Channel.badTable (c : Channel) (cx : Ctx) (idx sub v : Nat) : Bool :=
  let small := cx.variant == .C
  if idx = 0x4400 then bits v 15 0 == 0
  else if idx = 0x4404 then bits v 28 27 == 3 || (small && Nat.ble 4096 (bits v 26 12))
  else if idx = 0x4407 then Nat.blt 1048576 (bits v 41 21)
  else if idx = 0x4408 then small && Nat.ble 4096 sub
  else if idx = 0x4410 then
    if sub = 1 then Nat.blt 8 (bits v 3 0) else if sub = 3 then !bitOf v 43 && !isPort (bits v 6 0) else false
  else if idx = 0x4420 then
    if sub = 1 then Nat.blt 7 (bits v 3 0) 
    else if sub = 3 then !isPort (bits v 54 48) || (small && Nat.ble 4096 (bits v 14 0)) else false
  else if idx = 0x4510 then
    if sub = 1 then
      bits v 3 0 == 0 || Nat.blt 9 (bits v 3 0) || badRouteKey (bitOf v 5) (bits v 3 0) (c.reg 0x4510 2)
    else if sub = 3 then bits v 31 30 == 1 && Nat.blt 4095 (bits v 15 0) else false
  else if idx = 0x4506 then
    match bits v 127 124 with
    | 0 | 3 | 4 => false
    | 1 => !isLine (bits v 6 0)
    | 2 => bits v 22 16 == 0 || Nat.blt 64 (bits v 22 16) || !isPort (bits v 6 0)
    | _ => true
  else if idx = 0x4620 then
    if sub = 1 then Nat.blt 6 (bits v 3 0)
    else if sub = 3 then
      bits v 83 82 == 3 || bits v 81 80 == 3 || (bits v 81 80 == 1 && Nat.blt 4095 (bits v 79 62)) ||
        (bits v 81 80 == 2 && small && Nat.ble 32768 (bits v 79 62))
    else false
  else false

/-! ## Microcode (R322, R330 to R332) -/

/-- A word that R322 refuses at an address. -/
def badWord (addr d : Nat) : Bool :=
  let m := microWord d
  Nat.blt addr 0x3000 || m.reserved || ((m.seq == 1 || m.seq == 2 || m.seq == 3 || m.seq == 4) && m.target != 0 &&
    Nat.blt m.target 0x3000)

/-- Refused values of the microcode objects. -/
def badCode (idx sub v : Nat) : Bool :=
  if idx = 0x4703 then v != 0 && Nat.blt v 0x3000
  else if idx = 0x4704 then bits v 5 4 == 3
  else if idx = 0x4706 then Nat.ble 3 sub && v != 0 && Nat.blt v 0x3000
  else if idx = 0x4708 && sub = 1 then Nat.blt 999999999 (bits v 29 0)
  else if idx = 0x4710 then badWord sub v
  else false

/-! ## Buffer memory (R345, R369, R373 to R375) -/

/-- The requesters' minima of pool `k`, as accepted. -/
def Channel.requesterMin (c : Channel) (k : Nat) : Nat :=
  (upFrom 1 4).foldl (fun n r => if bits (c.reg 0x4803 r) 35 32 = k then n + bits (c.reg 0x4803 r) 31 0 else n) 0

/-- The sum of PORT_MIN over the ports of 0x4811, as accepted. -/
def Channel.portMin (c : Channel) : Nat :=
  ((upFrom 1 54) ++ upFrom 65 16).foldl (fun n p => n + bits (c.reg 0x4811 p) 31 8) 0

/-- Whether 0x4803 or an entry of 0x4810 names pool `k`. -/
def Channel.poolNamed (c : Channel) (k : Nat) : Bool :=
  ((upFrom 1 4).any fun r => bits (c.reg 0x4803 r) 35 32 == k) ||
    (List.range 1024).any fun e => classEntry e && bits (c.wget 0x4810 e) 39 36 == k

/-- The cases of R345 that answer 0x0202, against every write accepted. -/
def Channel.badPool (c : Channel) (v : Variant) (k e : Nat) : Bool :=
  let size := bits e 255 224
  let hard := bits e 223 192
  let w := warnOf e
  let stride := bits e 1 0
  let total := (List.range 15).foldl (fun n j => n + if j = k then size else bits (c.wget 0x4801 j) 255 224) 0
  (size != 0 && !(Nat.ble 1 (w 1) && Nat.ble (w 1) (w 2) && Nat.ble (w 2) (w 3) && Nat.ble (w 3) hard && Nat.ble hard size)) ||
    Nat.ble (w 1) (bits e 95 64) || Nat.blt (poolArea v) total ||
    (stride == 0 && Nat.blt size (hard + c.portMin + c.requesterMin k)) ||
    (stride != 0 && (size % strideCells stride != 0 || Nat.blt size (hard + c.requesterMin k))) ||
    stride == 3 || (stride != bits (c.wget 0x4801 k) 1 0 && c.poolNamed k)

/-- The case of R345 that answers 0x0601: a strided range at or above it holds a cell. -/
def Channel.poolMoves (c : Channel) (k e : Nat) : Bool :=
  let old := c.wget 0x4801 k
  (bits old 1 0 != 0 || bits e 1 0 != 0) && (bits old 1 0 != bits e 1 0 || bits old 255 224 != bits e 255 224) &&
    (List.range 15).any fun j => Nat.ble k j && bits (c.wget 0x4801 j) 1 0 != 0 &&
      (c.pool j).shared + (c.pool j).reserved + (c.pool j).quarantined != 0

/-- Refused values of the buffer objects. -/
def Channel.badBuffer (c : Channel) (cx : Ctx) (idx sub v : Nat) : Bool :=
  if idx = 0x4801 then c.badPool cx.variant sub v
  else if idx = 0x4803 then
    let unit := if sub = 1 then 2 else if sub = 3 then 1 else 0
    let k := bits v 35 32
    k == 15 || bits (c.wget 0x4801 k) 1 0 != unit || bits v 31 0 % strideCells unit != 0
  else if idx = 0x4810 then bits v 39 36 == 15 || bits (c.wget 0x4801 (bits v 39 36)) 1 0 != 0
  else if idx = 0x4811 then Nat.ble 2 (bits v 1 0) || (cx.variant == .C && bits v 1 0 == 1)
  else if idx = 0x4A40 then
    [224, 160, 96].any fun lo =>
      let lim := bits v (lo - 1) (lo - 32)
      lim != 0 && Nat.ble lim (bits v (lo + 31) lo)
  else false

/-! ## Queues and meters (R388, R393, R394, R396, R399, R405, R413) -/

/-- The least DEPTH that a shaper with SHAPE_EN may have (R393). -/
def Channel.leastDepth (c : Channel) (p : Nat) : Nat :=
  if p ≤ 48 then c.reg 0x4103 p else if p ≤ 52 then c.reg 0x4253 (p - 48) else 16128

/-- The least DEPTH of the shapers of subscriber `s`. -/
def Channel.leastSubDepth (c : Channel) (s : Nat) : Nat :=
  let home := bits (c.wget 0x4903 s) 62 56
  if home = 0 then 64 else c.leastDepth home

/-- A shaper value that R393 refuses. -/
def badShaper (v least : Nat) : Bool := bitOf v 63 && Nat.blt (bits v 55 32) least

/-- A level that R394 refuses under a shaper value. -/
def badLevel (cfg v : Nat) : Bool :=
  decide (((bits cfg 55 32 * 31250 : Nat) : Int) < signedOf 64 v) || decide (signedOf 64 v < -(16132 * 31250))

/-- Refused values of the queue and meter objects. -/
def Channel.badQueue (c : Channel) (cx : Ctx) (idx sub v : Nat) : Bool :=
  let small := cx.variant == .C
  if idx = 0x4901 then sub ≤ 54 && bits v 23 0 == 0
  else if idx = 0x4902 then badShaper v (c.leastDepth sub)
  else if idx = 0x4903 then
    let home := bits v 62 56
    (small && Nat.ble 4096 sub) || Nat.blt 54 home || bits v 23 0 == 0
  else if idx = 0x4904 then (small && Nat.ble 4096 sub) || badShaper v (c.leastSubDepth sub)
  else if idx = 0x4905 then (small && Nat.ble 32768 sub) || badShaper v (c.leastSubDepth (sub / 8))
  else if idx = 0x4907 then badLevel (c.reg 0x4902 sub) v
  else if idx = 0x4908 then (small && Nat.ble 4096 sub) || badLevel (c.wget 0x4904 sub) v
  else if idx = 0x4909 then (small && Nat.ble 32768 sub) || badLevel (c.wget 0x4905 sub) v
  else if idx = 0x4A10 then
    let m := bits v 127 126
    (small && Nat.ble 65536 sub) || m == 3 || ((m == 1 || m == 2) && Nat.blt (bits v 95 72) 64) ||
      (m == 2 && (Nat.blt (bits v 119 96) 64 || Nat.blt (bits v 63 32) (bits v 31 0)))
  else if idx = 0x4A11 then
    let m := c.wget 0x4A10 sub
    (small && Nat.ble 65536 sub) || Nat.blt (bits m 95 72 * 31250) (bits v 127 64) ||
      Nat.blt (bits m 119 96 * 31250) (bits v 63 0)
  else false

/-! ## Time, capture, check units (R416, R417, R435, R437, R460 to R465, R475) -/

/-- Refused values of the time objects; `raw` is what was written. -/
def Channel.badTime (c : Channel) (idx v raw : Nat) : Bool :=
  if idx = 0x4B02 then
    bits raw 31 30 != 0 || Nat.blt 999999999 (bits v 29 0) ||
      outOfTime ((bits v 79 32 * 1000000000 + bits v 29 0 : Nat) : Int)
  else if idx = 0x4B03 then Nat.blt (2 * bits v 39 0) (7 * 2 ^ 32) || Nat.blt (9 * 2 ^ 32) (2 * bits v 39 0)
  else if idx = 0x4B04 then outOfTime ((c.time.now : Int) + signedOf 64 v)
  else if idx = 0x4B05 then
    decide (signedOf 32 (bits v 63 32) < -1000000) || decide (1000000 < signedOf 32 (bits v 63 32)) || bits v 23 0 == 0 ||
      Nat.blt 500000 (bits v 23 0)
  else if idx = 0x4B08 then bits v 5 4 == 3
  else if idx = 0x4B09 then
    Nat.blt (bits v 19 0) 500 || Nat.blt 1000000 (bits v 19 0) || bits v 45 32 == 0 || Nat.blt 16000 (bits v 45 32)
  else false

/-- Refused values of the capture objects; `raw` is what was written. -/
def Channel.badCapture (c : Channel) (cx : Ctx) (idx sub v raw : Nat) : Bool :=
  let small := cx.variant == .C
  if idx = 0x4C00 then bits v 31 16 == 0 || Nat.blt 10000 (bits v 31 16)
  else if idx = 0x4C10 then
    let t := bits v 58 56
    let p := bits v 55 49
    let m := bits v 48 42
    Nat.ble 6 (bits v 63 60) || Nat.ble 5 t || (t == 1 && cx.variant != .A) || (t == 2 && cx.variant == .A) ||
      (t == 3 && !isMirrorPort p) || (t == 4 && (m == 0 || Nat.blt 64 m || !isPort p)) ||
      (small && Nat.ble 32768 (bits v 41 24))
  else if idx = 0x4C11 then !portsOnly isMirrorPort raw
  else if idx = 0x4C12 then octBit 32 raw 0
  else if idx = 0x4C13 then
    Nat.blt (bits v 17 0) (bits v 49 32) || (small && (Nat.ble 32768 (bits v 17 0) || Nat.ble 32768 (bits v 49 32)))
  else if idx = 0x4C20 && sub = 1 then Nat.blt 4 (bits v 3 0) || (bits v 3 0 == 2 && c.reg 0x4C20 2 == 0)
  else false

/-- The limit of START + LENGTH (R473). -/
def spaceLimit (v : Variant) (ctl : Nat) : Nat :=
  match bits ctl 21 20 with
  | 0 => if v = .C then 2 ^ 33 else 2 ^ 34
  | 1 => ringSlots v * 65536
  | 2 => 393216
  | _ => (scanTable (bits ctl 27 24)).2.1 * (scanTable (bits ctl 27 24)).2.2

/-- The checks of R475 that answer 0x0202. -/
def Channel.badStart (c : Channel) (v : Variant) (u : Nat) : Bool :=
  let ctl := c.reg 0x4D01 u
  let w := bits ctl 6 0
  let wide := fun x => Nat.ble (2 ^ w) x
  Nat.blt w 8 || Nat.blt 64 w || wide (c.reg 0x4D02 u) || wide (c.reg 0x4D03 u) || wide (c.reg 0x4D04 u) ||
    bits ctl 13 12 == 3 || Nat.ble 8 (bits ctl 27 24) ||
    Nat.blt (spaceLimit v ctl) (c.reg 0x4D06 u + c.reg 0x4D07 u) ||
    (bitOf ctl 16 && (bits ctl 21 20 != 3 || bits ctl 13 12 != 0))

/-- The check of R475 that answers 0x0203; a TABLE that does not exist has no entry size. -/
def Channel.misStart (c : Channel) (u : Nat) : Bool :=
  let ctl := c.reg 0x4D01 u
  let z := (scanTable (bits ctl 27 24)).2.1
  bits ctl 21 20 == 3 && Nat.blt (bits ctl 27 24) 8 && (c.reg 0x4D06 u % z != 0 || c.reg 0x4D07 u % z != 0)

/-- Refused values of the check-unit objects. -/
def Channel.badCheck (c : Channel) (cx : Ctx) (idx sub v raw : Nat) : Bool :=
  if idx = 0x4D06 then cx.variant == .C && bits (c.reg 0x4D01 sub) 21 20 == 0 && Nat.ble (2 ^ 33) v
  else if idx = 0x4D07 then Nat.blt (2 ^ 40) v
  else if idx = 0x4D08 then bitOf raw 0 && c.badStart cx.variant sub
  else false

/-! ## The checks of R612 -/

/-- Row 5.6: a value or range that is refused with 0x0202; `sub` is the entry of a window, `v` the value that the write would
leave, `raw` what was written. -/
def Channel.badValue (c : Channel) (cx : Ctx) (idx sub v raw : Nat) : Bool :=
  if idx = 0x4000 then bits v 5 4 == 3
  else if idx ≤ 0x41FF || (0x4230 ≤ idx && idx ≤ 0x4233) then c.badFront idx sub v
  else if idx ≤ 0x422F then badDrop cx idx v
  else if idx ≤ 0x42FF then badFabric idx v raw
  else if idx ≤ 0x43FF then c.badParser cx idx sub v
  else if idx ≤ 0x46FF then c.badTable cx idx sub v
  else if idx ≤ 0x47FF then badCode idx sub v
  else if idx ≤ 0x48FF || idx = 0x4A40 then c.badBuffer cx idx sub v
  else if idx ≤ 0x4AFF then c.badQueue cx idx sub v
  else if idx ≤ 0x4BFF then c.badTime idx v raw
  else if idx ≤ 0x4CFF then c.badCapture cx idx sub v raw
  else c.badCheck cx idx sub v raw

/-- Row 5.7: refused by the unit with 0x0601 (R262, R345, R388, R420). `other`: the other channel is present and its time
is VALID. -/
def Channel.unitRefuses (c : Channel) (other : Bool) (idx sub v : Nat) : Bool :=
  if idx = 0x4502 then
    (bits v 41 40 != bits (c.wget 0x4502 sub) 41 40 && c.vrfRoutes false sub != 0) ||
      (bits v 42 42 != bits (c.wget 0x4502 sub) 42 42 && c.vrfRoutes true sub != 0)
  else if idx = 0x4801 then c.poolMoves sub v
  else if idx = 0x4903 then
    bits v 62 56 != bits (c.wget 0x4903 sub) 62 56 && (upFrom (8 * sub) 8).any fun q => !(c.queue q).items.isEmpty
  else if idx = 0x4B00 then bitOf v 8 && !other
  else false

/-- A write that only clears flags or counters. -/
def Obj.clears (o : Obj) : Bool := o.acc == .w1c || o.acc == .counter

/-- Whether a channel state holds writes back (R569). -/
def ChState.holdsWrites : ChState → Bool
  | .off | .starting | .failed | .isolated => true
  | _ => false

/-- Row 5.4: refused with 0x0403 in the mode or channel state (R323, R458, R475, R539, R569). -/
def Channel.notNow (c : Channel) (cx : Ctx) (o : Obj) (idx sub raw : Nat) : Bool :=
  (!o.clears && cx.st.holdsWrites) ||
  (cx.night != .awake && !o.clears && !((0x4230 ≤ idx && idx ≤ 0x4233) || (0x4B00 ≤ idx && idx ≤ 0x4B0F))) ||
  (idx == 0x4710 && (cx.st == .active || cx.st == .draining) && !c.bit 0x4700 1 2) ||
  (idx == 0x4C20 && sub == 1 && c.cap.hold && (bits raw 3 0 == 1 || bits raw 3 0 == 2))

/-- Row 5.5: refused with 0x0401 (R89, R224, R333, R461, R478, R655). -/
def Channel.busyNow (c : Channel) (idx sub raw : Nat) : Bool :=
  c.domainBusy idx sub || (isCommand idx && sub ≤ 4 && c.bit idx 5 16) ||
  (idx == 0x4707 && sub == 1 && bitOf raw 0 && c.bit 0x4707 1 8) ||
  (0x4D01 ≤ idx && idx ≤ 0x4D08 && c.jobBusy sub && !(idx == 0x4D08 && bitOf raw 1 && !bitOf raw 0))

/-- The answer of rows 5.3 to 5.7 to a WRITE of a channel object. -/
def Channel.objStatus (c : Channel) (cx : Ctx) (other : Bool) (o : Obj) (idx sub raw : Nat) : Nat :=
  let v := written o idx sub (c.reg idx sub) raw
  if idx = 0x4D08 && bitOf raw 0 && c.misStart sub then 0x0203
  else if c.notNow cx o idx sub raw then 0x0403
  else if c.busyNow idx sub raw then 0x0401
  else if o.acc = .counter then (if raw = 0 then 0 else 0x0202)
  else if o.acc = .w1c then 0
  else if o.ty = .bool && 1 < raw then 0x0202
  else if c.badValue cx idx sub v raw then 0x0202
  else if c.unitRefuses other idx sub v then 0x0601
  else 0

/-- The answer of rows 5.6 and 5.7 to the entries of a WRITE-BLOCK, in order, each against the entries before it (R611). -/
def Channel.entriesStatus (c : Channel) (cx : Ctx) (o : Obj) (idx : Nat) : List (Nat × Nat) → Nat
  | [] => 0
  | (e, raw) :: t =>
    if cx.variant = .C && ((idx == 0x4920 && Nat.ble 32768 e) || (idx == 0x4A20 && Nat.ble 65536 e)) then 0x0202
    else if o.acc = .counter then (if raw = 0 then c.entriesStatus cx o idx t else 0x0202)
    else if reservedEntry idx e then c.entriesStatus cx o idx t
    else
      let v := written o idx e (c.wget idx e) raw
      if c.badValue cx idx e v raw then 0x0202
      else if c.unitRefuses false idx e v then 0x0601
      else (c.wput idx e v).entriesStatus cx o idx t

end Sys2Proof.Machine
end

