-- ==== Sys2Proof/Machine/Write.lean ====
section
/-! DEFINITION. READ, WRITE, READ-BLOCK and WRITE-BLOCK on the dictionary: rows 1, 2, 4 and 5 of R14, and what an accepted write
does (R10 to R15, R569, R609 to R612, R619, R620). -/

namespace Sys2Proof.Machine

/-! ## Addresses (R10 to R13) -/

/-- What an index and sub-index name: nothing (the answer of R13), a reserved or absent object with the entry size and
read size of R11 and R12, a module object, or a channel object by its channel A index. -/
inductive Place where
  | unknown (status : Nat)
  | empty (entry size : Nat)
  | module (o : Obj)
  | chan (ch : Ch) (idx : Nat) (o : Obj)
deriving DecidableEq, Repr

/-- The size of a window's entries; 4 bytes where the object is no window (R12). -/
def Ty.entrySize : Ty → Nat
  | .window n _ => n
  | _ => 4

/-- Objects of a persistent store, absent where it is absent (R460, R652). -/
def storeOnly (idx : Nat) : Bool := idx == 0x4C02 || idx == 0x4C55

/-- The module objects that belong to channel B, absent where it is (R10, R530, R583, R584, R586). -/
def channelBOnly (idx sub : Nat) : Bool :=
  ((idx == 0x1102 || idx == 0x1103 || idx == 0x110A) && sub == 3) || (idx == 0x1300 && sub == 9) || (idx == 0x1310 && sub == 8)

/-- What an index and sub-index name. A channel that is FAILED, ISOLATED or OFF is not absent: its objects are served as
ever, and 0x4000:01 and the status objects report the fault (R9). -/
def State.place (s : State) (idx sub : Nat) : Place :=
  if !documented idx then .unknown 0x0101
  else
    let a := chanOf idx
    let wide := channelScope idx
    let objs := if wide then channelObjs else moduleObjs
    let i := if wide then a.2 else idx
    match highestSub objs i with
    | none => .empty 4 4
    | some h =>
      if h < sub then .unknown 0x0102
      else match objIn objs i sub with
        | none => .empty 4 4
        | some o =>
          if !wide then
            if !s.present .b && channelBOnly i sub then .empty o.ty.entrySize o.ty.readSize else .module o
          else if !s.present a.1 || (s.unit.variant != .A && storeOnly i) then .empty o.ty.entrySize o.ty.readSize
          else .chan a.1 i o

/-- Row 2 of R14. -/
def State.inDawn (s : State) (idx : Nat) : Bool := s.mode.dawn && !(Nat.ble 0x1000 idx && Nat.ble idx 0x11FF)

/-- The answer of rows 1 and 2, 0 where they let a request pass. -/
def State.rows12 (s : State) (idx sub : Nat) : Nat :=
  match s.place idx sub with
  | .unknown st => st
  | _ => if s.inDawn idx then 0x0402 else 0

/-- Entries of a window; those of 0x4C40 follow the ring (R662). -/
def windowEntries (v : Variant) (idx : Nat) (o : Obj) : Nat :=
  match o.ty with
  | .window _ n => if idx = 0x4C40 then (if v = .A then 17179869184 else 4194304) else n
  | _ => 0

/-- Entries of a window that READ-BLOCK and WRITE-BLOCK reach: reserved entry 15 of 0x4801 lies beyond its 15 entries (R343, R367). -/
def entryReach (v : Variant) (idx : Nat) (o : Obj) : Nat := windowEntries v idx o + if idx = 0x4801 then 1 else 0

/-- Whether an object is a window. -/
def Ty.isWindow : Ty → Bool
  | .window _ _ => true
  | _ => false

/-! ## Holdings (R619, R620) -/

/-- Ports by the sub-indices of the port counters: 1 to 54 directly, multidrop k at 64 + k, links at 48 + l. -/
def counterScope (idx sub entry : Nat) : Option (Nat × Nat) :=
  if 0x4110 ≤ idx && idx ≤ 0x4128 then some (1, sub)
  else if 0x4210 ≤ idx && idx ≤ 0x4223 then some (1, 64 + sub)
  else if 0x4260 ≤ idx && idx ≤ 0x427C then some (1, 48 + sub)
  else if idx = 0x4922 || (0x4B20 ≤ idx && idx ≤ 0x4B27) then some (1, sub)
  else if idx = 0x4921 then some (1, entry / 8)
  else if idx = 0x4920 then some (2, entry / 1024)
  else if idx = 0x4A20 then some (2, entry / 2048)
  else if (0x4320 ≤ idx && idx ≤ 0x4324) || (0x4430 ≤ idx && idx ≤ 0x443B) || (0x4520 ≤ idx && idx ≤ 0x4525) ||
      (0x4630 ≤ idx && idx ≤ 0x4636) || (0x4720 ≤ idx && idx ≤ 0x4724) || (0x4820 ≤ idx && idx ≤ 0x4825) ||
      idx = 0x4923 || idx = 0x4924 || idx = 0x4A30 || idx = 0x4B28 || (0x4C50 ≤ idx && idx ≤ 0x4C55) ||
      (0x4D20 ≤ idx && idx ≤ 0x4D22) then some (3, 0)
  else none

/-- The holding of a scope kind. -/
def Channel.holding (c : Channel) (kind : Nat) : Option Holding := c.held.find? fun h => h.kind == kind

/-- The holding that has the counters of an object or entry, if it is the last one of its kind. -/
def Channel.holdingOf (c : Channel) (o : Obj) (idx sub entry : Nat) : Option Holding :=
  if o.acc != .counter then none
  else
    match counterScope idx sub entry with
    | none => none
    | some (k, sel) => (c.holding k).filter fun h => h.selector == sel

/-- SNAPSHOT of an existing scope: the counters of one selector are copied at one tick (R619). -/
def Channel.takeSnapshot (c : Channel) (kind sel : Nat) : Channel :=
  let isCounter := fun (idx sub : Nat) => match objIn channelObjs idx sub with
    | some o => o.acc == .counter
    | none => false
  let d := c.dict.filter fun p =>
    isCounter (p.1 / 256) (p.1 % 256) && counterScope (p.1 / 256) (p.1 % 256) 0 == some (kind, sel)
  let w := c.win.filter fun p =>
    isCounter (p.1 / 2 ^ 40) 0 && counterScope (p.1 / 2 ^ 40) 0 (p.1 % 2 ^ 40) == some (kind, sel)
  let c := { c with held := ⟨kind, sel, d, w⟩ :: c.held.filter fun h => h.kind != kind }
  c.put 0x4E00 kind (c.time.stamp * 2 ^ 40 + 2 ^ 31 + sel)

/-- A selector of R619. -/
def selectorOk (v : Variant) (scope sel : Nat) : Bool :=
  if scope = 1 then (Nat.ble 1 sel && Nat.ble sel 54) || (Nat.ble 65 sel && Nat.ble sel 80)
  else if scope = 2 then Nat.blt sel (if v = .C then 32 else 256)
  else scope == 3 && sel == 0

/-! ## READ -/

/-- What a READ of a window returns: ENTRY_SIZE, then ENTRIES (R608). -/
def State.windowRead (s : State) (idx : Nat) (o : Obj) : List Byte :=
  leBytes 4 o.ty.entrySize ++ leBytes 8 (windowEntries s.unit.variant idx o)

/-- READ past rows 1 to 3 of R14: status and data (R608 to R610, R620). `full`: the request found 16 waiting (R615). -/
def State.readObject (s : State) (idx sub : Nat) (holding full : Bool) : Nat × List Byte :=
  match s.place idx sub with
  | .unknown st => (st, [])
  | .empty _ n => (0, leBytes n 0)
  | .module o =>
    if o.acc = .wo then (0x0302, [])
    else if full then (0x0401, [])
    else if holding then (0x0601, [])
    else if o.ty.isWindow then (0, s.windowRead idx o)
    else (0, carryObj idx sub o.ty.readSize (s.mview idx sub))
  | .chan ch i o =>
    let c := s.chan ch
    if o.acc = .wo then (0x0302, [])
    else if full then (0x0401, [])
    else if holding then
      (match c.holdingOf o i sub 0 with
      | none => (0x0601, [])
      | some h => if o.ty.isWindow then (0x0601, []) else (0, leBytes o.ty.readSize (tabGet chDflt h.dict (objKey i sub))))
    else if o.ty.isWindow then (0, s.windowRead i o)
    else (0, carryObj i sub o.ty.readSize (c.view (s.ctx ch) i sub))

/-- The checks of R611 on OFFSET and LENGTH but the range: entries of `n` bytes. -/
def misaligned (n offset length : Nat) : Bool := offset % n != 0 || length % n != 0

/-- READ-BLOCK past rows 1 to 3 of R14 (R12, R611, R620). -/
def State.readEntries (s : State) (idx sub offset length : Nat) (holding full : Bool) : Nat × List Byte :=
  let far := fun (i : Nat) (o : Obj) =>
    length != 0 && (Nat.blt (o.ty.entrySize * entryReach s.unit.variant i o) (offset + length) || Nat.blt 65536 length)
  let entries := fun (n : Nat) => upFrom (offset / n) (length / n)
  match s.place idx sub with
  | .unknown st => (st, [])
  | .empty n _ =>
    if misaligned n offset length then (0x0203, [])
    else if 65536 < length then (0x0202, [])
    else (0, List.replicate length 0)
  | .module o =>
    let n := o.ty.entrySize
    if o.acc = .wo then (0x0302, [])
    else if !o.ty.isWindow || misaligned n offset length then (0x0203, [])
    else if full then (0x0401, [])
    else if far idx o then (0x0202, [])
    else if holding then (0x0601, [])
    else (0, (entries n).flatMap fun e => carryEntry idx n (s.mentry idx e))
  | .chan ch i o =>
    let c := s.chan ch
    let n := o.ty.entrySize
    let es := entries n
    if o.acc = .wo then (0x0302, [])
    else if !o.ty.isWindow || misaligned n offset length then (0x0203, [])
    else if full then (0x0401, [])
    else if far i o then (0x0202, [])
    else if holding then
      (if es.all fun e => (c.holdingOf o i 0 e).isSome then
        (0, es.flatMap fun e => match c.holdingOf o i 0 e with
          | some h => carryEntry i n (tabGet winDflt h.win (winKey i e))
          | none => [])
      else (0x0601, []))
    else (0, es.flatMap fun e => carryEntry i n (c.entryView i e))

/-! ## Module objects -/

/-- Whether a watch value names a U32 of W1C flags (R626). -/
def State.namesEvents (s : State) (v : Nat) : Bool :=
  match s.place (bits v 31 16) (bits v 15 8) with
  | .module o => o.acc == .w1c && o.ty == .num 4
  | .chan _ _ o => o.acc == .w1c && o.ty == .num 4
  | _ => false

/-- Row 5.4 for a module object (R532, R575, R590). -/
def State.mNotNow (s : State) (idx sub raw : Nat) : Bool :=
  if idx = 0x1101 then
    (raw == 6 && s.unit.variant == .C) ||
      (raw == 4 && (s.arb.window.isSome || s.arb.hold.isSome || s.arb.drill.isSome))
  else if idx = 0x1500 && sub = 1 then bits raw 3 0 == 1 && s.power.warn
  else if idx = 0x1500 && sub = 5 then (bits raw 3 0 == 1 || bits raw 3 0 == 2) && s.power.warn
  else false

/-- Row 5.5 for a module object (R585, R587, R590). -/
def State.mBusy (s : State) (idx sub : Nat) : Bool :=
  if idx = 0x1109 then bitOf (s.mreg 0x1109 0) 15
  else if idx = 0x1500 && sub = 1 then s.flash.imageJob.isSome
  else if idx = 0x1500 && sub = 5 then s.flash.microJob.isSome
  else false

/-- A port that takes a reset (R580). -/
def resetPort? (p : Nat) : Bool := (Nat.ble 1 p && Nat.ble p 52) || (Nat.ble 65 p && Nat.ble p 80)

/-- Row 5.6 for a module object (R49, R525, R526, R551, R552, R560, R585, R587, R591, R625, R626); `v` is the value that
the write would leave. -/
def State.mBad (s : State) (idx sub v raw : Nat) : Bool :=
  let op := bits raw 3 0
  let noB := s.unit.variant == .C
  if idx = 0x1101 then !(raw == 2 || raw == 4 || raw == 6)
  else if idx = 0x1104 then
    bits v 63 48 == 0 || Nat.blt 10000 (bits v 63 48) || bits v 47 40 == 0 || !(bits v 7 4 == 2 || bits v 7 4 == 6) ||
      (noB && bits v 7 4 == 6)
  else if idx = 0x1105 then Nat.blt 999999999 (bits v 29 0)
  else if idx = 0x1109 then
    op == 0 || Nat.blt 3 op || (op == 1 && bits raw 31 16 != 0xA5A5) || (op != 1 && noB && bitOf raw 4) ||
      (op == 3 && !resetPort? (bits raw 14 8))
  else if idx = 0x1200 then bits v 15 0 == 0 || Nat.blt 520 (bits v 15 0)
  else if idx = 0x1300 && sub = 4 then op == 0 || Nat.blt 5 op || (noB && bitOf raw 8 && (op == 3 || op == 4))
  else if idx = 0x1300 && sub = 5 then
    bits v 63 48 == 0 || Nat.blt 720 (bits v 63 48) || Nat.blt 1439 (bits v 47 32) || bits v 31 16 == 0 ||
      Nat.blt 1440 (bits v 31 16) || decide (840 < (signedOf 16 (bits v 15 0)).natAbs)
  else if idx = 0x1400 && sub = 1 then
    Nat.ble 2 (bits v 9 8) || bits v 13 12 == 3 || (Nat.ble 1 (bits v 31 16) && Nat.ble (bits v 31 16) 99) ||
      Nat.blt 10000 (bits v 31 16) || bits v 3 1 == 0
  else if idx = 0x1400 && sub = 2 then Nat.blt (bits v 15 0) 10 || Nat.blt 3600 (bits v 15 0)
  else if idx = 0x1400 && sub = 5 then
    bits v 62 56 != 0 && !(Nat.ble 65 (bits v 62 56) && Nat.ble (bits v 62 56) 126)
  else if idx = 0x1420 then bitOf v 0 && !s.namesEvents v
  else if idx = 0x1500 then op == 0 || Nat.blt 2 op
  else false

/-- Rows 5.4 to 5.6 for a WRITE of a module object. -/
def State.mStatus (s : State) (o : Obj) (idx sub raw : Nat) : Nat :=
  let v := written o idx sub (s.mreg idx sub) raw
  if s.mNotNow idx sub raw then 0x0403
  else if s.mBusy idx sub then 0x0401
  else if o.acc = .counter then (if raw = 0 then 0 else 0x0202)
  else if o.acc = .w1c then 0
  else if s.mBad idx sub v raw then 0x0202
  else 0

/-- A WAKE cause is released by clearing its flag (R113, R541). -/
def State.releaseWake (s : State) (gone : WakeCause → Bool) : State :=
  { s with power := { s.power with wakeBy := s.power.wakeBy.filter fun w => !gone w } }

/-- A controller is on while its bus is enabled (R625, R627). -/
def CanState.enable (x : CanState) (en : Bool) : CanState := if !en then .off else if x == .off then .active else x

/-- SAVE is accepted: the copy as it stands goes to the slot that does not hold the newest valid image (R575). -/
def State.startSave (s : State) (runtime : Bool) : State :=
  let toB := s.selectImage == 1
  let seq := match s.selectImage with
    | 1 => imageSeq s.flash.imageA + 1
    | 2 => imageSeq s.flash.imageB + 1
    | _ => 1
  let job := FlashJob.save toB (s.encodeImage (seq % 2 ^ 32) runtime)
  let f := if toB then { s.flash with imageB := [] } else { s.flash with imageA := [] }
  ({ s with flash := { f with imageJob := some job } }).mputBits 0x1500 2 15 8 0

/-- An accepted write of the reset command (R579, R580, R585). -/
def State.resetCommand (s : State) (raw : Nat) : Nat × State :=
  let ch := if bitOf raw 4 then Ch.b else .a
  if bits raw 3 0 = 1 then (0, { s with bring := { s.bring with resetDue := true } })
  else if bits raw 3 0 = 2 then s.channelResetCommand ch
  else
    let s := s.mput 0x1109 0 (setBit (s.mreg 0x1109 0) 15 true)
    (0, s.onChan ch fun cx c => c.resetPort cx (bits raw 14 8))

/-- An accepted role command (R502, R507, R520, R521). -/
def State.roleCommand (s : State) (raw : Nat) : Nat × State :=
  let ch := if bitOf raw 8 then Ch.b else .a
  match bits raw 3 0 with
  | 1 => s.switchCommand
  | 2 => s.rearmCommand
  | 3 => s.isolateCommand ch
  | 4 => s.releaseCommand ch
  | _ => s.resyncCommand

/-- The effect of a WRITE to a module object that rows 5.1 to 5.6 let pass: the status, with the unit's own refusals, and the
state. -/
def State.mStore (s : State) (o : Obj) (idx sub raw : Nat) : Nat × State :=
  let old := s.mreg idx sub
  let v := written o idx sub old raw
  let stored := s.mput idx sub v
  if idx = 0x1101 then (0, s.requestMode raw)
  else if idx = 0x1106 then
    (0, stored.releaseWake fun w => (w == .time && bitOf old 5 && bitOf raw 5) || (w == .fault && bitOf old 7 && bitOf raw 7))
  else if idx = 0x1200 then (0, stored.judgePower)
  else if idx = 0x1109 then
    (let r := stored.resetCommand raw
    if r.1 = 0 then r else (r.1, s))
  else if idx = 0x1300 && sub = 4 then
    (let r := stored.roleCommand raw
    if r.1 = 0 then r else (r.1, { s with free := r.2.free }))
  else if idx = 0x1400 && sub = 1 then
    (0, { stored with host := { stored.host with
      canA := stored.host.canA.enable (bitOf v 1), canB := stored.host.canB.enable (bitOf v 2) } })
  else if idx = 0x1400 && 0x10 ≤ sub then
    (0, { s with host := { s.host with keys := tabSet (fun _ => 0) s.host.keys (sub - 0x10) raw } })
  else if idx = 0x1420 then
    (0, { stored with host := { stored.host with watchNew := tabErase stored.host.watchNew sub } })
  else if idx = 0x1500 && sub = 1 then
    (0, if bits raw 3 0 = 1 then stored.startSave (bitOf raw 4)
      else { stored with flash := { stored.flash with imageJob := some (.invalidate (bitOf raw 8)) } })
  else if idx = 0x1500 && sub = 5 then
    (0, { s with flash := { s.flash with microJob := some (if bits raw 3 0 = 1 then .erase else .commit) } })
  else (0, stored)

/-! ## Channel objects -/

/-- What an accepted WRITE of a channel object does (R609). -/
def Channel.storeObj (c : Channel) (cx : Ctx) (o : Obj) (idx sub raw : Nat) : Channel :=
  let old := c.reg idx sub
  let v := written o idx sub old raw
  match o.acc with
  | .counter => c.put idx sub 0
  | .w1c =>
    let c := c.put idx sub v
    if idx = 0x451F && bitOf old 0 && bitOf raw 0 then c.put 0x4500 2 0
    else if idx = 0x425D then c.judgeDomain cx
    else c
  | _ =>
    if isCommand idx then
      let c := c.put idx sub v
      if sub != 1 || bits v 3 0 == 0 then c
      else if idx = 0x4620 then c.searchCommand
      else if idx = 0x4C20 then c.captureCommand cx
      else c.tableCommand idx
    else if idx = 0x4707 && sub = 1 then (if bitOf raw 0 then c.raiseCommand else c)
    else if idx = 0x4D08 then
      (if bitOf raw 0 then c.startJob cx sub else if bitOf raw 1 then c.abortJob cx sub else c)
    else if idx = 0x4B11 then (if raw = 1 then c.popStamp sub else c)
    else
      let c := if relayedObj o idx then c.delta (.obj (objKey idx sub) v) else c
      if idx = 0x4000 && sub = 0x10 then
        let c := c.put idx sub (setBit v 8 false)
        if bitOf raw 8 then { c with core := { c.core with markDue := true } } else c
      else c.accept cx idx sub v

/-- What an accepted WRITE-BLOCK does to one entry. -/
def Channel.storeEntry (c : Channel) (cx : Ctx) (o : Obj) (idx e raw : Nat) : Channel :=
  if o.acc = .counter then c.wput idx e 0
  else if reservedEntry idx e then c
  else
    let v := written o idx e (c.wget idx e) raw
    let c := if relayedObj o idx then c.delta (.win (winKey idx e) v) else c
    c.acceptWin cx idx e v

/-- A WRITE to a channel object that all checks let pass. -/
def State.chStore (s : State) (ch : Ch) (o : Obj) (idx sub raw : Nat) : State :=
  let old := (s.chan ch).reg idx sub
  let s := (s.onChan ch fun cx c => c.storeObj cx o idx sub raw).crossCheck idx
  if idx = 0x4232 then
    s.releaseWake fun w => match w with
      | .pattern c _ k => c == ch && bitOf old k && bitOf raw k
      | _ => false
  else s

/-- Whether the other channel is present and its time is VALID (R420). -/
def State.partnerTime (s : State) (ch : Ch) : Bool := s.present ch.other && (s.chan ch.other).time.valid

/-! ## WRITE and WRITE-BLOCK past row 3 -/

/-- WRITE past rows 1 to 3 of R14: rows 4 and 5, and the effect (R609, R610, R612). -/
def State.writeObject (s : State) (idx sub : Nat) (data : List Byte) (full : Bool) : Nat × State :=
  match s.place idx sub with
  | .unknown st => (st, s)
  | .empty _ _ => (1, s)
  | .module o =>
    let raw := objOf idx sub data
    if o.ty.isWindow || o.acc = .ro || o.acc = .roh then (0x0301, s)
    else if data.length ≠ o.ty.readSize then (0x0201, s)
    else if full && !s.mNotNow idx sub raw then (0x0401, s)
    else
      let st := s.mStatus o idx sub raw
      if st = 0 then s.mStore o idx sub raw else (st, s)
  | .chan ch i o =>
    let raw := objOf i sub data
    let c := s.chan ch
    let cx := s.ctx ch
    if o.ty.isWindow || o.acc = .ro || o.acc = .roh then (0x0301, s)
    else if data.length ≠ o.ty.readSize then (0x0201, s)
    else
      let st := c.objStatus cx (s.partnerTime ch) o i sub raw
      if full && st ≠ 0x0203 && st ≠ 0x0403 then (0x0401, s)
      else if st = 0 then (0, s.chStore ch o i sub raw)
      else (st, s)

/-- Cut DATA into the values of consecutive entries of `n` bytes. -/
def entryValues (idx n first : Nat) (data : List Byte) : List (Nat × Nat) :=
  (List.range (data.length / n)).map fun k => (first + k, entryNat idx (slice data (n * k) n))

/-- WRITE-BLOCK of the staging window (R590). -/
def State.stageEntries (s : State) (es : List (Nat × Nat)) : Nat × State :=
  let k := s.staging
  let v := s.vendorSlot k
  if es.any fun p => v.written.contains p.1 then (0x0601, s)
  else
    let v := { v with
      data := es.foldl (fun d p => tabSet (fun _ => 2 ^ 512 - 1) d p.1 p.2) v.data
      written := v.written ++ es.map (·.1), delivered := v.delivered && es.isEmpty }
    (0, { s with flash := if k = 0 then { s.flash with vendor0 := v } else { s.flash with vendor1 := v } })

/-- WRITE-BLOCK past rows 1 to 3 of R14: the whole write is checked, then its entries are applied in increasing order
(R12, R611, R612). From step b of R547 no flash write starts, and one of 0x1510 is refused as ERASE and COMMIT are (assumption 129). -/
def State.writeEntries (s : State) (idx sub offset : Nat) (data : List Byte) (full : Bool) : Nat × State :=
  let length := data.length
  match s.place idx sub with
  | .unknown st => (st, s)
  | .empty n _ =>
    if misaligned n offset length then (0x0203, s)
    else if 65536 < length then (0x0202, s)
    else (1, s)
  | .module o =>
    let n := o.ty.entrySize
    if o.acc = .ro || o.acc = .roh then (0x0301, s)
    else if !o.ty.isWindow || misaligned n offset length then (0x0203, s)
    else if s.power.warn && s.power.warnWritten then (0x0403, s)
    else if full || s.flash.microJob.isSome then (0x0401, s)
    else if length = 0 then (0, s)
    else if n * windowEntries s.unit.variant idx o < offset + length || 65536 < length then (0x0202, s)
    else s.stageEntries (entryValues idx n (offset / n) data)
  | .chan ch i o =>
    let n := o.ty.entrySize
    let c := s.chan ch
    let cx := s.ctx ch
    let es := entryValues i n (offset / n) data
    let reserved := es.length != 0 && es.all (fun p => reservedEntry i p.1)
    if !reserved && (o.acc = .ro || o.acc = .roh) then (0x0301, s)
    else if !o.ty.isWindow || misaligned n offset length then (0x0203, s)
    else if reserved then (1, s)
    else if c.notNow cx o i 0 0 then (0x0403, s)
    else if full || c.busyNow i 0 0 then (0x0401, s)
    else if length = 0 then (0, s)
    else if n * entryReach s.unit.variant i o < offset + length || 65536 < length then (0x0202, s)
    else
      let st := c.entriesStatus cx o i es
      if st ≠ 0 then (st, s)
      else (0, s.onChan ch fun cx c => es.foldl (fun c p => c.storeEntry cx o i p.1 p.2) c)

end Sys2Proof.Machine
end

