-- ==== Sys2Proof/Machine/Host.lean ====
section
/-! DEFINITION. The host port: identifiers, answers, duplicates, sessions, authentication, the relay of requests, and what each
message does (R592 to R624, R162 to R164, R686). -/

namespace Sys2Proof.Machine

/-! ## Identifiers and segments (R593, R596, R598) -/

/-- An identifier of R593. -/
def mkIdent (prio func dest src tag : Nat) : Nat :=
  prio % 8 * 2 ^ 26 + func % 64 * 2 ^ 20 + dest % 128 * 2 ^ 13 + src % 128 * 2 ^ 6 + tag % 64

/-- The identifier of a request with FUNCTION `func`. -/
def requestIdent (q : Request) (func : Nat) : Nat := mkIdent q.prio func q.dest q.src q.tag

/-- The identifier of its answer (R593): DEST and SOURCE exchanged, FUNCTION bit 5 set. -/
def answerIdent (q : Request) (func : Nat) : Nat := mkIdent q.prio (func + 32) q.src q.dest q.tag

/-- The request whose identifier is `i`. -/
def requestOf (bus : Bus) (i : Nat) (msg : List Byte) : Request :=
  ⟨bus, bits i 28 26, bits i 19 13, bits i 12 6, bits i 5 0, msg⟩

/-- FUNCTION of an identifier. -/
def identFunc (i : Nat) : Nat := bits i 25 20

/-- The bodies after the EtherType that carry a message (R596, R598). -/
def segmentsOf (ident : Nat) (msg : List Byte) : List (List Byte) :=
  let n := max 1 ((msg.length + 1023) / 1024)
  (List.range n).map fun k =>
    let part := slice msg (1024 * k) 1024
    let kind := if n = 1 then 0 else if k = 0 then 1 else if k + 1 = n then 3 else 2
    leBytes 4 ident ++ leBytes 1 (kind * 64 + k % 64) ++ leBytes 1 0 ++ leBytes 2 part.length ++
      leBytes 3 (if k = 0 then msg.length else 0) ++ leBytes 1 0 ++ part

/-- The data lengths of a CAN FD frame. -/
def canLen (n : Nat) : Nat :=
  if n ≤ 8 then n else ([12, 16, 20, 24, 32, 48, 64].find? fun k => Nat.ble n k).getD 64

/-- The data of the CAN FD frames that carry a message (R598): SEG, TOTAL in the first, at most 60 bytes and then 63, padding. -/
def canFrames (msg : List Byte) : List (List Byte) :=
  let n := 1 + (msg.length - 60 + 62) / 63
  (List.range n).map fun k =>
    let kind := if n = 1 then 0 else if k = 0 then 1 else if k + 1 = n then 3 else 2
    let d := leBytes 1 (kind * 64 + k % 64) ++
      if k = 0 then leBytes 3 msg.length ++ slice msg 0 60 else slice msg (60 + 63 * (k - 1)) 63
    d ++ List.replicate (canLen d.length - d.length) 0

/-- A frame of the management Ethernet (R596), padded to the minimum, with its FCS. -/
def ethFrame (dest src : Nat) (body : List Byte) : List Byte :=
  let b := beBytes 6 dest ++ beBytes 6 src ++ beBytes 2 0x88B5 ++ body ++ List.replicate (46 - body.length) 0
  b ++ fcsBytes b

/-- The frames that carry a message on a bus or to a station of the management Ethernet; relay frames are the channel's (R162). -/
def framesOf (mac : Nat) (bus : Bus) (ident : Nat) (msg : List Byte) : List Sent :=
  match bus with
  | .eth dest => (segmentsOf ident msg).map fun b => .eth (ethFrame dest mac b)
  | .relay _ => []
  | b => (canFrames msg).map (.can b ident)

/-! ## Layouts (R600, R686) -/

/-- FLAGS of a request; SESSION-OPEN and SESSION-PROVE have none. -/
def flagsOf (func : Nat) (m : List Byte) : Nat :=
  if func ≤ 4 then byteAt m 3 else if func = 5 then byteAt m 2 else if func = 9 || func = 11 then byteAt m 0 else 0

/-- Whether COUNTER and MAC are present. -/
def hasAuth (func : Nat) (m : List Byte) : Bool := func == 2 || func == 4 || func == 11 || bitOf (flagsOf func m) 0

/-- The length of the fixed fields. -/
def fixedLen (func : Nat) (m : List Byte) : Nat :=
  let a := if hasAuth func m then 12 else 0
  if func = 1 then 4 + a else if func = 2 then 18 else if func = 3 then 16 + a else if func = 4 then 28
  else if func = 5 then 8 + a else if func = 6 then 4 else if func = 7 then 20 else if func = 9 then 4 + a else 18

/-- LENGTH of DATA or FRAME. -/
def dataLen (func : Nat) (m : List Byte) : Nat :=
  if func = 2 || func = 11 then leNat (slice m 8 2) else if func = 4 then leNat (slice m 16 4) else 0

/-- The verdict on a message's length: 0x0701, 0x0201 or 0 (R686). -/
def lengthVerdict (func : Nat) (m : List Byte) : Nat :=
  if m.length < fixedLen func m then 0x0701 else if m.length ≠ fixedLen func m + dataLen func m then 0x0201 else 0

/-- COUNTER of a message that has one. -/
def counterOf (func : Nat) (m : List Byte) : Nat :=
  if hasAuth func m then leNat (slice m 4 4) else 0

/-- An answer with a status, and the echo fields of a message (R601). R601 gives the answer to a HEARTBEAT no STATUS: one that a HEARTBEAT
gets (R599, R615, R686) is sent alone (DESIGN CHOICE, assumption 130). -/
def statusAnswer (func st : Nat) (m : List Byte) : Option (List Byte) :=
  let counter := leBytes 4 (counterOf func m)
  let addr := slice (m ++ List.replicate 3 0#8) 0 3 ++ [0#8]
  let offset := slice (m ++ List.replicate 16 0#8) (if hasAuth func m then 8 else 4) 8
  if func = 1 then some (leBytes 2 st ++ addr ++ leBytes 2 0)
  else if func = 2 || func = 4 then some (leBytes 2 st ++ addr ++ counter)
  else if func = 3 then some (leBytes 2 st ++ addr ++ offset ++ leBytes 4 0)
  else if func = 5 then some (leBytes 2 st ++ leBytes 13 0)
  else if func = 6 then some (leBytes 2 st ++ leBytes 1 0 ++ leBytes 1 (byteAt m 0) ++ leBytes 16 0)
  else if func = 7 then some (leBytes 2 st ++ leBytes 1 (byteAt m 0) ++ leBytes 1 0)
  else if func = 9 then some (leBytes 2 st)
  else if func = 11 then some (leBytes 2 st ++ leBytes 2 0 ++ counter)
  else none

/-- The same with the echo fields zero (R686). -/
def zeroAnswer (func st : Nat) : Option (List Byte) := statusAnswer func st []

/-! ## Ways in and out -/

/-- The host port runs once stage 2 is complete (R614), outside RESET and with the service block's output on (R549). -/
def State.hostUp (s : State) : Bool :=
  s.power.powered && s.power.sbOut && !s.power.resetLow && s.bring.stage == 15

/-- Whether messages pass on a bus or port (R625, R627). -/
def State.busUp (s : State) : Bus → Bool
  | .canA => s.host.canA == .active || s.host.canA == .passive
  | .canB => s.host.canB == .active || s.host.canB == .passive
  | .eth _ => bitOf (s.mreg 0x1400 1) 3 && s.host.ethLink
  | .relay _ => true

/-- The module's active channel (R162): the one under the lease first. -/
def State.activeChan (s : State) : Option Ch :=
  match s.arb.holder with
  | some h => if s.forwards h then some h else s.channels.find? s.forwards
  | none => s.channels.find? s.forwards

/-- A relay frame sent from port 53 of an active channel (R162); without a way to the target it is dropped with 0x3D (R158). -/
def Channel.sendRelay (c : Channel) (cx : Ctx) (mac target : Nat) (body : List Byte) : Channel :=
  let b := beBytes 6 0x03004B000002 ++ beBytes 6 mac ++ body ++ List.replicate (32 - body.length) 0#8
  let f := Frame.fresh 0 (b ++ fcsBytes b) 53 c.time.stamp c.time.stepSum
  let c := c.hear 53 f.bytes.length
  if 131072 < (c.pool 15).shared + f.cellCount then c.rampDrop cx f 0
  else
    let id := c.nextId
    let c := c.store cx f
    let c := match (if cx.strapError then Way.none else c.way cx target) with
      | .to tier hops => c.placeCopy id .fwd tier 0 (some (mkTag false true cx 53 (tagDest target 53) 0 0 0 hops)) none
      | _ => ((c.dropCode 0x3D).modFrame id fun f => { f with drop := 0x3D }).mirror cx id
          ⟨false, 0x3D, false, none, none, 0, 0, f.rx, none⟩
    c.endPass cx id

/-- A message goes to module `m` over the fabric (R162). -/
def State.toModule (s : State) (m ident : Nat) (msg : List Byte) : State :=
  match s.activeChan with
  | none => s
  | some ch => (segmentsOf ident msg).foldl (fun s b => s.onChan ch fun cx c => c.sendRelay cx s.unit.mac m b) s

/-- Send a message on a bus or port in its frames, and count it; to another module it goes as relay frames (R162, R596, R598). -/
def State.send (s : State) (bus : Bus) (ident : Nat) (msg : List Byte) : State :=
  match bus with
  | .relay m => s.toModule m ident msg
  | b => if s.busUp b then (framesOf s.unit.mac b ident msg).foldl State.emit (s.minc 0x1430 4) else s

/-- Flags and counters that go with a status (R606, R628). -/
def State.noteStatus (s : State) (st : Nat) : State :=
  if st = 0x0502 then s.mflag 0x1400 7 4 else if st = 0x0503 then s.mflag 0x1400 7 8 else s

/-- An abandoned or malformed message (R599, R686). -/
def State.noteSequence (s : State) : State := (s.minc 0x1430 9).mflag 0x1400 7 32

/-- Answer a request. -/
def State.answer (s : State) (q : Request) (func : Nat) (a : Option (List Byte)) : State :=
  match a with
  | none => s
  | some b => s.send q.bus ((answerIdent q func)) b

/-! ## Sessions (R602 to R607) -/

/-- The proven session of a node. -/
def State.sessionOf (s : State) (node : Nat) : Option Session :=
  s.host.sessions.find? fun x => x.node == node && x.proven

/-- Replace the session with its number. -/
def State.putSession (s : State) (x : Session) : State :=
  { s with host := { s.host with sessions := s.host.sessions.filter (fun y => y.num != x.num) ++ [x] } }

/-- A failed authentication that AUTH_FAILURES counts. -/
def State.authFailed (s : State) : State := s.minc 0x1430 10

/-- The AUTH fields of a message are judged (R606): 0 with the session's slot where they are good or not asked for, or the
answer. A counter is used up once its MAC verifies. -/
def State.judge (s : State) (q : Request) (func : Nat) (need : Bool) : Nat × Option Nat × State :=
  let m := q.msg
  if !bitOf (flagsOf func m) 0 then (if need then 0x0501 else 0, none, s)
  else
    match s.sessionOf q.src with
    | none => (0x0501, none, s)
    | some x =>
      let body := m.take (m.length - 8)
      if (hmac x.skey (leBytes 4 (requestIdent q func) ++ body)).take 8 ≠ m.drop (m.length - 8) then (0x0502, none, s.authFailed)
      else
        let x := { x with since := s.sbTime }
        let n := counterOf func m
        if n ≤ x.counter then (0x0503, none, (s.putSession x).minc 0x1430 11)
        else (0, some x.slot, s.putSession { x with counter := n })

/-- READ_AUTH (R607). -/
def State.readAuth (s : State) : Bool := bitOf (s.mreg 0x1400 1) 0

/-- The key of a slot as bytes. -/
def State.keyOf (s : State) (slot : Nat) : Nat := tabGet (fun _ => 0) s.host.keys slot

/-- The session idle longest; among equals the lowest number (R603). -/
def idlest : List Session → Option Session
  | [] => none
  | x :: t =>
    match idlest t with
    | none => some x
    | some y => if x.since < y.since || (x.since = y.since && x.num < y.num) then some x else some y

/-- SESSION-OPEN (R603, R605). The session number is any free one. -/
def State.openSession (s : State) (q : Request) : Option (List Byte) × State :=
  let slot := byteAt q.msg 0
  if s.host.lockouts.contains q.src then (statusAnswer 6 0x0502 q.msg, (s.mflag 0x1400 7 16).noteStatus 0x0502)
  else if 3 < slot || s.keyOf slot = 0 then (statusAnswer 6 0x0502 q.msg, s.noteStatus 0x0502)
  else
    let l := s.host.sessions.filter fun x => x.node != q.src
    let l := if l.length < 8 then l
      else match idlest l with
        | some y => l.filter fun x => x.num != y.num
        | none => l
    let free := (upFrom 1 8).filter fun n => l.all fun x => x.num != n
    let d := s.draw
    let num := free.getD (d.1 % free.length) 1
    let e := d.2.draw
    let challenge := e.1 % 2 ^ 128
    let x : Session := ⟨num, q.src, slot, false, challenge, q.dest, [], 0, s.sbTime⟩
    (some (leBytes 2 0 ++ leBytes 1 num ++ leBytes 1 slot ++ leBytes 16 challenge),
      { e.2 with host := { e.2.host with sessions := l ++ [x] } })

/-- The bytes that a proof and a session key are taken over (R604). -/
def Session.seed (x : Session) (label : List Byte) : List Byte :=
  label ++ leBytes 16 x.challenge ++ leBytes 1 x.num ++ leBytes 1 x.node ++ leBytes 1 x.addressed

/-- A failed proof counts towards the lockout: the third within 60 s locks its node out (R605). -/
def State.failProof (s : State) (node : Nat) : State :=
  let s := (s.authFailed).noteStatus 0x0502
  let l := (s.host.fails.filter fun f => s.sbTime ≤ f.2 + 6000000) ++ [(node, s.sbTime)]
  let s := { s with host := { s.host with fails := l } }
  if 3 ≤ (l.filter fun f => f.1 == node).length then
    ({ s with host := { s.host with lockouts := node :: s.host.lockouts.filter (· != node) } }).mflag 0x1400 7 16
  else s

/-- SESSION-PROVE (R603 to R605). -/
def State.proveSession (s : State) (q : Request) : Option (List Byte) × State :=
  let n := byteAt q.msg 0
  let bad := (statusAnswer 7 0x0502 q.msg, s.failProof q.src)
  match s.host.sessions.find? fun x => x.num == n && x.node == q.src && !x.proven with
  | none => bad
  | some x =>
    let k := beBytes 32 (s.keyOf x.slot)
    let label := fun (c : Nat) => [0x4B#8, 0x58#8, 0x53#8, BitVec.ofNat 8 c]
    if x.since + 100000 < s.sbTime || (hmac k (x.seed (label 0x50))).take 16 ≠ slice q.msg 4 16 then bad
    else
      (some (leBytes 2 0 ++ leBytes 1 n ++ leBytes 1 0),
        s.putSession { x with proven := true, skey := hmac k (x.seed (label 0x4B)), counter := 0, since := s.sbTime })

/-! ## What each request does -/

/-- READ (R14, R610, R607). -/
def State.doRead (s : State) (q : Request) (full : Bool) : Option (List Byte) × State :=
  let idx := leNat (slice q.msg 0 2)
  let sub := byteAt q.msg 2
  let j := s.judge q 1 (s.readAuth && !(Nat.ble 0x1000 idx && Nat.ble idx 0x11FF))
  let early := s.rows12 idx sub
  let st := if early ≠ 0 then early else j.1
  let s := j.2.2
  if st ≠ 0 then (statusAnswer 1 st q.msg, s.noteStatus st)
  else
    let r := s.readObject idx sub (bitOf (flagsOf 1 q.msg) 1) full
    if r.1 ≠ 0 then (statusAnswer 1 r.1 q.msg, s)
    else (some (leBytes 2 0 ++ slice q.msg 0 3 ++ [0#8] ++ leBytes 2 r.2.length ++ r.2), s)

/-- READ-BLOCK (R611). -/
def State.doReadBlock (s : State) (q : Request) (full : Bool) : Option (List Byte) × State :=
  let idx := leNat (slice q.msg 0 2)
  let sub := byteAt q.msg 2
  let at_ := if hasAuth 3 q.msg then 8 else 4
  let offset := leNat (slice q.msg at_ 8)
  let length := leNat (slice q.msg (at_ + 8) 4)
  let j := s.judge q 3 (s.readAuth && !(Nat.ble 0x1000 idx && Nat.ble idx 0x11FF))
  let early := s.rows12 idx sub
  let st := if early ≠ 0 then early else j.1
  let s := j.2.2
  if st ≠ 0 then (statusAnswer 3 st q.msg, s.noteStatus st)
  else
    let r := s.readEntries idx sub offset length (bitOf (flagsOf 3 q.msg) 1) full
    if r.1 ≠ 0 then (statusAnswer 3 r.1 q.msg, s)
    else (some (leBytes 2 0 ++ slice q.msg 0 3 ++ [0#8] ++ leBytes 8 offset ++ leBytes 4 r.2.length ++ r.2), s)

/-- Objects that only a session proven with key slot 0 may write (R590, R602). -/
def slotZeroOnly (idx sub : Nat) : Bool :=
  (idx == 0x1400 && Nat.ble 0x10 sub && Nat.ble sub 0x13) || (idx == 0x1500 && sub == 5) || idx == 0x1510

/-- Rows 1 to 3 of R14 for a write: the answer, 0 where they let it pass. -/
def State.writeRows (s : State) (idx sub : Nat) (j : Nat × Option Nat × State) : Nat :=
  let early := s.rows12 idx sub
  if early ≠ 0 then early
  else if j.1 ≠ 0 then j.1
  else if slotZeroOnly idx sub && j.2.1 != some 0 then 0x0501
  else 0

/-- WRITE (R14, R609, R612). -/
def State.doWrite (s : State) (q : Request) (full : Bool) : Option (List Byte) × State :=
  let idx := leNat (slice q.msg 0 2)
  let sub := byteAt q.msg 2
  let j := s.judge q 2 true
  let st := s.writeRows idx sub j
  let s := j.2.2
  if st ≠ 0 then (statusAnswer 2 st q.msg, s.noteStatus st)
  else
    let r := s.writeObject idx sub (slice q.msg 10 (dataLen 2 q.msg)) full
    (statusAnswer 2 r.1 q.msg, r.2)

/-- WRITE-BLOCK (R611). -/
def State.doWriteBlock (s : State) (q : Request) (full : Bool) : Option (List Byte) × State :=
  let idx := leNat (slice q.msg 0 2)
  let sub := byteAt q.msg 2
  let j := s.judge q 4 true
  let st := s.writeRows idx sub j
  let s := j.2.2
  if st ≠ 0 then (statusAnswer 4 st q.msg, s.noteStatus st)
  else
    let r := s.writeEntries idx sub (leNat (slice q.msg 8 8)) (slice q.msg 20 (dataLen 4 q.msg)) full
    (statusAnswer 4 r.1 q.msg, r.2)

/-- Whether a snapshot of this channel began at this very tick of its time base, which copies at one tick (R619). -/
def Channel.copying (c : Channel) : Bool :=
  [1, 2, 3].any fun k => bitOf (c.reg 0x4E00 k) 31 && c.reg 0x4E00 k / 2 ^ 40 == c.time.stamp

/-- SNAPSHOT (R614, R619). Whether an earlier one that began at the same tick is still being copied is free (assumption 49). -/
def State.doSnapshot (s : State) (q : Request) (full : Bool) : Option (List Byte) × State :=
  let scope := byteAt q.msg 0
  let ch := if byteAt q.msg 1 = 1 then Ch.b else .a
  let sel := leNat (slice q.msg (if hasAuth 5 q.msg then 8 else 4) 4)
  let j := s.judge q 5 s.readAuth
  let dawn := s.mode.dawn
  let s := j.2.2
  let d := if (s.chan ch).copying then s.draw else (0, s)
  let s := d.2
  let st :=
    if dawn then 0x0402
    else if j.1 ≠ 0 then j.1
    else if byteAt q.msg 1 ≤ 1 && !s.present ch then 1
    else if full || d.1 % 2 = 1 then 0x0401
    else if 1 < byteAt q.msg 1 || !selectorOk s.unit.variant scope sel then 0x0202
    else 0
  if st ≠ 0 then (statusAnswer 5 st q.msg, s.noteStatus st)
  else
    (some (leBytes 4 0 ++ beBytes 11 (s.chan ch).time.stamp), s.onChan ch fun _ c => c.takeSnapshot scope sel)

/-- HB_FLAGS (R621). -/
def State.hbFlags (s : State) : Nat :=
  at_ 0 s.bring.strapError + at_ 1 s.bring.unconf + at_ 2 s.bring.fallback + at_ 3 s.power.warn

/-- The fields of a HEARTBEAT of the module (R601, R621). -/
def State.heartbeatFields (s : State) : List Byte :=
  leBytes 1 (if s.bring.strapError then 0 else s.bring.moduleId) ++ leBytes 1 s.modeCode ++ leBytes 1 (chCode s.arb.holder) ++
    leBytes 1 s.hbFlags ++ leBytes 4 s.arb.epoch ++ leBytes 4 s.redundancy ++ leBytes 4 s.supplyStatus

/-- A host HEARTBEAT (R621): answered whatever its AUTH fields are worth. -/
def State.doHeartbeat (s : State) (q : Request) : Option (List Byte) × State :=
  let j := s.judge q 9 false
  (some j.2.2.heartbeatFields, j.2.2.noteStatus j.1)

/-- A frame placed in the parser with ingress port 53 (R32, R624); the FCS is appended. It is stored in pool 15 as every frame is (R65);
at admission its cells come from the pool of port 53's class entry (`Channel.chargePool`). -/
def Channel.fromHost (c : Channel) (cx : Ctx) (b : List Byte) : Channel :=
  let f := Frame.fresh 0 (b ++ fcsBytes b) 53 c.time.stamp c.time.stepSum
  let c := c.hear 53 f.bytes.length
  if 131072 < (c.pool 15).shared + f.cellCount then c.rampDrop cx f 0 else c.store cx f

/-- FRAME-FROM-HOST (R614, R624). -/
def State.doFrameFromHost (s : State) (q : Request) (full : Bool) : Option (List Byte) × State :=
  let ch := if byteAt q.msg 1 = 1 then Ch.b else .a
  let n := dataLen 11 q.msg
  let j := s.judge q 11 true
  let dawn := s.mode.dawn
  let s := j.2.2
  let st :=
    if dawn then 0x0402
    else if j.1 ≠ 0 then j.1
    else if byteAt q.msg 1 ≤ 1 && !s.present ch then 1
    else if byteAt q.msg 1 ≤ 1 && (!s.forwards ch || s.mode.night != .awake) then 0x0403
    else if full then 0x0401
    else if 1 < byteAt q.msg 1 || n < 60 || 16124 < n then 0x0202
    else 0
  if st ≠ 0 then (statusAnswer 11 st q.msg, s.noteStatus st)
  else (statusAnswer 11 0 q.msg, (s.minc 0x1430 15).onChan ch fun cx c => c.fromHost cx (slice q.msg 10 n))

/-- A request of good length. -/
def State.perform (s : State) (q : Request) (func : Nat) (full : Bool) : Option (List Byte) × State :=
  if func = 1 then s.doRead q full
  else if func = 2 then s.doWrite q full
  else if func = 3 then s.doReadBlock q full
  else if func = 4 then s.doWriteBlock q full
  else if func = 5 then s.doSnapshot q full
  else if func = 11 then s.doFrameFromHost q full
  else if full then (statusAnswer func 0x0401 q.msg, s)
  else if func = 6 then s.openSession q
  else if func = 7 then s.proveSession q
  else s.doHeartbeat q

/-! ## Arrival (R592, R597, R599, R615, R686) -/

/-- Count a message received (R630). -/
def State.countRx (s : State) : Bus → State
  | .canA => s.minc 0x1430 1
  | .canB => s.minc 0x1430 2
  | .eth _ => s.minc 0x1430 3
  | .relay _ => s

/-- The stored requests that still count: 16 of each source, 200 ms (R597). -/
def State.recentDups (s : State) (src : Nat) : List Dup :=
  (s.host.dups.filter fun d => d.src == src && Nat.ble s.sbTime (d.time + 20000)).reverse.take 16

/-- Keep a request with its answer (R597). -/
def State.keepDup (s : State) (q : Request) (func : Nat) (a : Option (List Byte)) : State :=
  let rest := s.host.dups.filter fun d => d.src != q.src
  let own := ((s.recentDups q.src).take 15).reverse
  { s with host := { s.host with dups := rest ++ own ++ [⟨q.src, q.tag, func, q.msg, a, s.sbTime⟩] } }

/-- Whether this request found 16 waiting when it came, and the marks of those that wait now (R615). The requests of the
command queue are those that have come. -/
def State.takePlace (s : State) : Bool × State :=
  let me := s.host.refuse.contains 0
  let left := (s.host.refuse.filter (· != 0)).map (· - 1)
  let held := (List.range s.requests).filter fun i => !left.contains i
  (me, { s with host := { s.host with refuse := left ++ held.drop 16 } })

/-- QUEUE_FULL (R615). -/
def State.noteFull (s : State) (full : Bool) (a : Option (List Byte)) : State :=
  if full && (match a with
    | some b => leNat (b.take 2) == 0x0401
    | none => false) then (s.minc 0x1430 12).mflag 0x1400 7 64 else s

/-- A request for this module (R597, R686): a duplicate gets the stored answer, a bad length its own, the rest is executed. `full`: it found
16 waiting (R615). -/
def State.serve (s : State) (q : Request) (func : Nat) (full : Bool) : State :=
  match (s.recentDups q.src).find? fun d => d.tag == q.tag && d.func == func && d.msg == q.msg with
  | some d => (s.minc 0x1430 8).answer q func d.answer
  | none =>
    let v := if 65600 < q.msg.length then 0x0701 else lengthVerdict func q.msg
    if v = 0x0701 then (s.noteSequence.keepDup q func (zeroAnswer func v)).answer q func (zeroAnswer func v)
    else if v ≠ 0 then (s.keepDup q func (statusAnswer func v q.msg)).answer q func (statusAnswer func v q.msg)
    else
      let r := s.perform q func full
      ((r.2.noteFull full r.1).keepDup q func r.1).answer q func r.1

/-- A request for another module is relayed (R162, R164). -/
def State.relayOut (s : State) (q : Request) (func : Nat) : State :=
  if 64 ≤ s.host.relayed.length then s.answer q func (statusAnswer func 0x0401 q.msg)
  else
    ({ s with host := { s.host with relayed := s.host.relayed ++ [Relayed.mk q.bus (requestIdent q func) s.sbTime] } }).toModule
      q.dest (requestIdent q func) q.msg

/-! ### Relayed messages (R162, R599)

The frames that the active channel has delivered are judged as the segments of a port: for each sender, source and destination
those of the message in progress are kept in order, one that breaks R599 takes the message with it. -/

/-- The identifier that a relay frame carries. -/
def RelayMsg.ident (r : RelayMsg) : Nat := leNat (slice r.body 0 4)

/-- KIND and SEQ of a relay frame (R598). -/
def RelayMsg.seg (r : RelayMsg) : Nat × Nat := (byteAt r.body 4 / 64, byteAt r.body 4 % 64)

/-- The message bytes of a relay frame (R596). -/
def RelayMsg.part (r : RelayMsg) : List Byte := slice r.body 12 (leNat (slice r.body 6 2))

/-- TOTAL of a relay frame. -/
def RelayMsg.total (r : RelayMsg) : Nat := leNat (slice r.body 8 3)

/-- Frames whose segments belong together (R599). -/
def RelayMsg.with_ (r x : RelayMsg) : Bool :=
  r.sender == x.sender && bits r.ident 12 6 == bits x.ident 12 6 && bits r.ident 19 13 == bits x.ident 19 13

/-- What a frame does to the message in progress between its nodes: the frames of the message in progress after it, the message that is
complete with it, and those that it abandons (R598, R599). -/
def relaySeg (acc : List RelayMsg) (r : RelayMsg) : List RelayMsg × Option (List RelayMsg) × List (List RelayMsg) :=
  let got := (acc ++ [r]).flatMap RelayMsg.part
  let short := r.total ≤ 65600 && r.part.length ≤ r.total && r.seg.2 == 0
  match r.seg.1, acc with
  | 0, _ => if short && r.part.length == r.total then (acc, some [r], []) else (acc, none, [[r]])
  | 1, [] => if short then ([r], none, []) else ([], none, [[r]])
  | 1, _ => if short then ([r], none, [acc]) else ([], none, [acc, [r]])
  | _, [] => ([], none, [[r]])
  | k, a :: t =>
    if r.seg.2 != (a :: t).length % 64 || r.ident != a.ident then ([], none, [a :: t ++ [r]])
    else if k = 2 && got.length < a.total then (a :: t ++ [r], none, [])
    else if k = 3 && got.length = a.total then ([], some (a :: t ++ [r]), [])
    else ([], none, [a :: t ++ [r]])

/-- The messages that the frames between two nodes complete, and those abandoned, in order. -/
def relayRun (acc : List RelayMsg) : List RelayMsg → List (List RelayMsg) × List (List RelayMsg)
  | [] => ([], [])
  | r :: t =>
    let x := relaySeg acc r
    let y := relayRun x.1 t
    (x.2.1.toList ++ y.1, x.2.2 ++ y.2)

/-- The frames of the first complete message of a sender with an identifier. -/
def relayFrames (l : List RelayMsg) (sender ident : Nat) : Option (List RelayMsg) :=
  match l.find? fun r => r.sender == sender && r.ident == ident with
  | none => none
  | some r => (relayRun [] (l.filter r.with_)).1.find? fun m => m.all fun x => x.ident == ident

/-- The bytes of a relayed message, once all of it has come. -/
def relayMessage (l : List RelayMsg) (sender ident : Nat) : Option (List Byte) :=
  (relayFrames l sender ident).map fun m => m.flatMap RelayMsg.part

/-- Take a relayed message off the queue of frames that the active channel has delivered. -/
def State.takeRelayed (s : State) (sender ident : Nat) : State :=
  { s with host := { s.host with relayIn := ((relayFrames s.host.relayIn sender ident).getD []).foldl List.erase s.host.relayIn } }

/-- A message is abandoned: counted, and answered 0x0701 under its identifier where it is a request for this module or for one that it
relays to (R599). -/
def State.abandon (s : State) (bus : Bus) (ident : Nat) : State :=
  let q := requestOf bus ident []
  let func := identFunc ident
  s.noteSequence.answer q func (if s.executes { q with dest := s.node } func then zeroAnswer func 0x0701 else none)

/-- The relay frames that have come are judged: those of an abandoned message go, and it is answered (R599). -/
def State.judgeRelay (s : State) : State :=
  s.host.relayIn.foldl (fun s r =>
    (relayRun [] (s.host.relayIn.filter r.with_)).2.foldl (fun s m =>
      let s := { s with host := { s.host with relayIn := m.foldl List.erase s.host.relayIn } }
      match m with
      | [] => s
      | x :: _ => s.abandon (.relay x.sender) x.ident) s) s

/-- Before a relayed message is taken, the frames that have come are judged. -/
def State.judged (s : State) : Bus → State
  | .relay _ => s.judgeRelay
  | _ => s

/-- A request has come: whether a relayed one is really there. -/
def State.arrived (s : State) (q : Request) (func : Nat) : Option State :=
  match q.bus with
  | .relay m =>
    if relayMessage s.host.relayIn m (requestIdent q func) == some q.msg then some (s.takeRelayed m (requestIdent q func)) else none
  | b => if s.busUp b then some (s.countRx b) else none

/-- A complete host message (R592, R594): an answer, or a request to a host node, is for no module and is not counted. -/
def State.handle (s : State) (q : Request) (func : Nat) : State :=
  let p := if s.executes q func then s.takePlace else (false, s)
  let s := p.2
  if !s.hostUp then s
  else
    let s := s.judged q.bus
    match s.arrived q func with
    | none => s
    | some s =>
      if 32 ≤ func then s
      else if q.src < 65 || 126 < q.src || canOnly q.bus func || !isRequest func then s.minc 0x1430 7
      else if q.dest = s.node then s.serve q func p.1
      else if 1 ≤ q.dest && q.dest ≤ 64 then s.relayOut q func
      else if q.dest = 0 || q.dest = 127 then s.minc 0x1430 7
      else s

/-- A host message as a row. -/
def hostRow (q : Request) (func : Nat) (s : State) : Host.Outcome State Fault Refusal := .next (s.finish (s.handle q func))

/-- The WRITE message of a row with its authenticated envelope (R600). -/
def writeRequest (h : AuthHdr) (idx sub : Nat) (data : List Byte) : Request :=
  ⟨h.bus, h.prio, h.dest, h.src, h.tag,
    leBytes 2 idx ++ leBytes 1 sub ++ leBytes 1 1 ++ leBytes 4 h.counter ++ leBytes 2 data.length ++ data ++ h.mac⟩

/-- A WRITE of a value to a module object as a row. -/
def moduleRow (h : AuthHdr) (idx sub v : Nat) (s : State) : Host.Outcome State Fault Refusal :=
  hostRow (writeRequest h idx sub (carryObj idx sub (valueSize idx sub) v)) 2 s

/-- A WRITE of a value to an object of channel `ch`, by its channel A index (R18), as a row. -/
def channelRow (h : AuthHdr) (ch : Ch) (idx sub v : Nat) (s : State) : Host.Outcome State Fault Refusal :=
  hostRow (writeRequest h (idx + 0x2000 * ch.num) sub (carryObj idx sub (valueSize idx sub) v)) 2 s

end Sys2Proof.Machine
end

