-- ==== Sys2Proof/Machine/HostRows.lean ====
section
/-! DEFINITION. The rows of the host port: messages, segments, session timers, heartbeats, notices, the host path, the buses and
relayed requests (R162 to R164, R592 to R624). -/

namespace Sys2Proof.Machine

/-- READ (R610). -/
def execRead (q : Request) (s : State) : Host.Outcome State Fault Refusal := hostRow q 1 s

/-- WRITE (R609). -/
def execWrite (q : Request) (s : State) : Host.Outcome State Fault Refusal := hostRow q 2 s

/-- READ-BLOCK (R611). -/
def execReadBlock (q : Request) (s : State) : Host.Outcome State Fault Refusal := hostRow q 3 s

/-- WRITE-BLOCK (R611). -/
def execWriteBlock (q : Request) (s : State) : Host.Outcome State Fault Refusal := hostRow q 4 s

/-- SNAPSHOT (R619). -/
def execSnapshot (q : Request) (s : State) : Host.Outcome State Fault Refusal := hostRow q 5 s

/-- SESSION-OPEN (R603). -/
def execSessionOpen (q : Request) (s : State) : Host.Outcome State Fault Refusal := hostRow q 6 s

/-- SESSION-PROVE (R605). -/
def execSessionProve (q : Request) (s : State) : Host.Outcome State Fault Refusal := hostRow q 7 s

/-- A host HEARTBEAT (R621). -/
def execHeartbeatRequest (q : Request) (s : State) : Host.Outcome State Fault Refusal := hostRow q 9 s

/-- FRAME-FROM-HOST (R624). -/
def execFrameFromHost (q : Request) (s : State) : Host.Outcome State Fault Refusal := hostRow q 11 s

/-! ## Segments (R598, R599) -/

/-- Whether two messages use one bus or port (R599): the management Ethernet is one port whatever the station. -/
def sameBus : Bus → Bus → Bool
  | .eth _, .eth _ => true
  | a, b => a == b

/-- Whether a message in progress is that of a bus or port, source and destination (R599). -/
def Partial.between (p : Partial) (bus : Bus) (src dest : Nat) : Bool :=
  sameBus p.bus bus && bits p.ident 12 6 == src && bits p.ident 19 13 == dest

/-- Forget a message in progress. -/
def State.dropPartial (s : State) (p : Partial) : State :=
  { s with host := { s.host with partials := s.host.partials.filter (· != p) } }

/-- The relay frames of a sender between two nodes that make up no whole message are abandoned (R599). -/
def State.relaySegmentLate (s : State) (m src dest : Nat) : State :=
  let s := s.judgeRelay
  let l := s.host.relayIn.filter fun r => r.sender == m && bits r.ident 12 6 == src && bits r.ident 19 13 == dest
  match (relayRun [] l).1.foldl (fun l x => x.foldl List.erase l) l with
  | [] => s
  | r :: t =>
    ({ s with host := { s.host with relayIn := (r :: t).foldl List.erase s.host.relayIn } }).abandon (.relay m) r.ident

/-- The message in progress between two nodes on a bus or port is abandoned (R599). It is answered where it came from. -/
def State.segmentLate (s : State) (bus : Bus) (src dest : Nat) : State :=
  match bus with
  | .relay m => s.relaySegmentLate m src dest
  | _ =>
    match s.host.partials.find? fun p => p.between bus src dest with
    | none => s
    | some p => (s.dropPartial p).abandon p.bus p.ident

/-- SEGMENT_TIMEOUT (R599). -/
def execSegmentTimeout (bus : Bus) (src dest : Nat) (s : State) : Host.Outcome State Fault Refusal :=
  .next (s.finish (s.segmentLate bus src dest))

/-- A first segment: it abandons the message in progress between the same nodes and starts its own, unless it is itself out of sequence or
does not fit its TOTAL (R599). -/
def State.firstSegment (s : State) (bus : Bus) (ident seq total count : Nat) : State :=
  let s := s.segmentLate bus (bits ident 12 6) (bits ident 19 13)
  if 65600 < total || total < count || seq != 0 then s.abandon bus ident
  else { s with host := { s.host with partials := s.host.partials ++ [⟨bus, ident, 0, count, total⟩] } }

/-- A middle or last segment (R599). A message that is complete is taken by its own row. -/
def State.laterSegment (s : State) (bus : Bus) (ident : Nat) (last : Bool) (seq count : Nat) : State :=
  match s.host.partials.find? fun p => p.between bus (bits ident 12 6) (bits ident 19 13) with
  | none => s.abandon bus ident
  | some p =>
    let got := p.got + count
    let ok := seq = (p.seq + 1) % 64 && ident = p.ident && (if last then got = p.total else got < p.total)
    let s := s.dropPartial p
    if !ok then s.abandon p.bus p.ident
    else if last then s
    else { s with host := { s.host with partials := s.host.partials ++ [{ p with seq := seq, got := got }] } }

/-- Whether messages to a node are reassembled: to the module itself, or to a module that it relays to (R592, R599). -/
def State.hears (s : State) (dest : Nat) : Bool := dest == s.node || (Nat.ble 1 dest && Nat.ble dest 64)

/-- The message bytes that a segment brings: at most 60 or 63 fit one CAN FD frame (R598). -/
def segmentCount (bus : Bus) (kind : SegKind) (count : Nat) : Nat :=
  match bus, kind with
  | .eth _, _ | .relay _, _ => count
  | _, .middle | _, .last => min count 63
  | _, _ => min count 60

/-- The counter of a frame that is ignored or dropped before it is a segment: CLASSIC_FRAMES on CAN (R595), ETH_DISCARDS on the management
Ethernet (R596). -/
def discardCounter (bus : Bus) (kind : SegKind) (count : Nat) : Option Nat :=
  match bus, kind with
  | .canA, .classic | .canA, .base | .canA, .remote | .canB, .classic | .canB, .base | .canB, .remote => some 5
  | .eth _, .foreign | .eth _, .short => some 0x11
  | .eth _, _ => if count = 0 || 1024 < count then some 0x11 else none
  | _, _ => none

/-- A segment that is not a message of its own is judged (R592, R594 to R596, R599). What is no request to this module is counted once,
by the row of the complete message. Relay frames are judged as they have come (`State.judgeRelay`). -/
def State.takeSegment (s : State) (bus : Bus) (ident : Nat) (kind : SegKind) (seq total count : Nat) : State :=
  let src := bits ident 12 6
  if !s.hostUp || !s.busUp bus then s
  else
    match discardCounter bus kind count with
    | some sub => s.minc 0x1430 sub
    | none =>
      if bus matches .relay _ then s.judgeRelay
      else if src < 65 || 126 < src || canOnly bus (identFunc ident) || !s.hears (bits ident 19 13) || !isRequest (identFunc ident) then s
      else
        let n := segmentCount bus kind count
        match kind with
        | .single => if n = total && total ≤ 65600 && seq == 0 then s else s.abandon bus ident
        | .first => s.firstSegment bus ident seq total n
        | .middle => s.laterSegment bus ident false seq n
        | .last => s.laterSegment bus ident true seq n
        | _ => s

/-- SEQUENCE_ERROR (R599). -/
def execSequenceError (bus : Bus) (ident : Nat) (kind : SegKind) (seq total count : Nat) (s : State) :
    Host.Outcome State Fault Refusal := .next (s.finish (s.takeSegment bus ident kind seq total count))

/-! ## Session timers (R605, R607) -/

/-- CHALLENGE_EXPIRE: session `n` ends if it is not proven (R607). -/
def execChallengeExpire (n : Nat) (s : State) : Host.Outcome State Fault Refusal :=
  .next { s with host := { s.host with sessions := s.host.sessions.filter fun x => x.num != n || x.proven } }

/-- SESSION_IDLE_EXPIRE: session `n` ends (R607). -/
def execSessionIdleExpire (n : Nat) (s : State) : Host.Outcome State Fault Refusal :=
  .next { s with host := { s.host with sessions := s.host.sessions.filter fun x => x.num != n || !x.proven } }

/-- LOCKOUT_END (R605). -/
def execLockoutEnd (node : Nat) (s : State) : Host.Outcome State Fault Refusal :=
  .next { s with host := { s.host with lockouts := s.host.lockouts.filter (· != node) } }

/-! ## Heartbeats and notices (R621, R622) -/

/-- The next TAG of a message of the module (R593). -/
def State.nextTag (s : State) : Nat × State := (s.host.tag, { s with host := { s.host with tag := (s.host.tag + 1) % 64 } })

/-- MODULE_HEARTBEAT (R621). -/
def State.sendHeartbeat (s : State) : State :=
  if !s.hostUp || bits (s.mreg 0x1400 1) 31 16 = 0 then s
  else
    let t := s.nextTag
    let m := s.heartbeatFields
    [Bus.canA, .canB, .eth 0x03004B000003].foldl (fun s b => s.send b (mkIdent 6 9 0 s.node t.1) m) t.2

/-- MODULE_HEARTBEAT (R621). -/
def execModuleHeartbeat (s : State) : Host.Outcome State Fault Refusal := .next (s.finish s.sendHeartbeat)

/-- The value of an object by its full index. -/
def State.valueAt (s : State) (idx sub : Nat) : Nat :=
  match s.place idx sub with
  | .module _ => s.mreg idx sub
  | .chan ch i _ => (s.chan ch).reg i sub
  | _ => 0

/-- The ways a NOTIFY goes: the enabled buses with a NOTIFY_NODE, the management Ethernet with a NOTIFY_MAC, and the module
of NOTIFY_TO (R164, R622). -/
def State.notifyWays (s : State) : List Bus :=
  let d := s.mreg 0x1400 5
  let node := bits d 62 56 != 0
  let target := match s.activeChan with
    | some ch => bits ((s.chan ch).hw 0x4252 1) 29 23
    | none => 0
  (if node then [Bus.canA, .canB].filter s.busUp else []) ++
    ([Bus.eth (bits d 47 0)].filter fun b => bits d 47 0 != 0 && s.busUp b) ++
    (if target != 0 && target != s.bring.moduleId then [.relay target] else [])

/-- Send the NOTIFY of watch `w`, and start its 10 ms (R622). -/
def State.sendNotify (s : State) (w : Nat) : State :=
  let v := s.mreg 0x1420 w
  let new := tabGet (fun _ => 0) s.host.watchNew w
  let ways := s.notifyWays
  if !s.hostUp || !bitOf v 0 || new = 0 || s.host.watchHeld.contains w || ways.isEmpty then s
  else
    let idx := bits v 31 16
    let sub := bits v 15 8
    let m := leBytes 2 w ++ leBytes 2 idx ++ leBytes 4 sub ++ leBytes 4 (s.valueAt idx sub) ++ leBytes 4 new ++
      beBytes 11 s.refStamp
    let t := s.nextTag
    let node := bits (s.mreg 0x1400 5) 62 56
    let s := ways.foldl (fun s b => s.send b (mkIdent 1 8 node s.node t.1) m) t.2
    let s := s.minc 0x1430 13
    { s with host := { s.host with
        watchNew := tabErase s.host.watchNew w, watchHeld := s.host.watchHeld ++ [w] } }

/-- NOTIFY (R622). -/
def execNotify (w : Nat) (s : State) : Host.Outcome State Fault Refusal :=
  if w < 1 || 16 < w then .fault .noSuchPart else .next (s.finish (s.sendNotify w))

/-- NOTIFY_INTERVAL_END: the spacing of watch `w` ends, and what it held back is sent (R622). -/
def execNotifyIntervalEnd (w : Nat) (s : State) : Host.Outcome State Fault Refusal :=
  if w < 1 || 16 < w then .fault .noSuchPart
  else
    let t := { s with host := { s.host with watchHeld := s.host.watchHeld.filter (· != w) } }
    .next (s.finish (t.sendNotify w))

/-! ## The host path (R623) -/

/-- Read the next frame of port 53 out: METADATA and FRAME (R359, R623). It is a copy sent on port 53, which the sessions of the transmit
point see (R441). -/
def Channel.readOut (c : Channel) (cx : Ctx) : Option (List Byte) × Channel :=
  match (c.tier 53).picked.find? fun r => match c.copyOf r with
    | some (_, x) => x.pos == .edited
    | none => false with
  | none => (none, c)
  | some r =>
    match c.copyOf r with
    | none => (none, c)
    | some (f, x) =>
      let b := match x.bytes with
        | some b => b
        | none => withTag f.bytes f.tag
      let c := c.countQueue x (egressLen f x) true
      let c := match x.kind with
        | .mirror _ => c
        | _ => c.mirror cx r.1 ⟨false, 0, false, none, some 53, 53, x.q, c.time.stamp, some b⟩
      (some (x.info ++ b.take (leNat (slice x.info 20 2))), c.leave cx r)

/-- FRAME_TO_HOST: sent on the management Ethernet, or discarded (R623). PRIORITY, DEST and TAG of its identifier are free. -/
def State.toHost (s : State) (ch : Ch) : State :=
  let out := ((s.chan ch).readOut (s.ctx ch)).1
  let s := s.onChan ch fun cx c => (c.readOut cx).2
  match out with
  | none => s
  | some m =>
    let way := Bus.eth (s.mreg 0x1400 6)
    if s.mreg 0x1400 6 = 0 || !s.busUp way || !s.hostUp then (s.minc 0x1430 16).mflag 0x1400 7 128
    else
      let d := s.draw
      let i := mkIdent d.1 10 (d.1 / 8) s.node (d.1 / 1024)
      (d.2.minc 0x1430 14).send way i (leBytes 4 ch.num ++ m)

/-- FRAME_TO_HOST (R623). -/
def execFrameToHost (ch : Ch) (s : State) : Host.Outcome State Fault Refusal :=
  if !s.present ch then .fault .noSuchChannel else .next (s.finish (s.toHost ch))

/-! ## Buses (R595, R627) -/

/-- A CAN controller goes bus-off: counted and flagged (R595). -/
def State.goBusOff (s : State) (b : Bool) : State :=
  let x := if b then s.host.canB else s.host.canA
  if x = .off || x = .busOff then s
  else
    let h := if b then { s.host with canB := .busOff } else { s.host with canA := .busOff }
    ({ s with host := h }.minc 0x1430 6).mflag 0x1400 7 (if b then 2 else 1)

/-- A controller that is error-active becomes error-passive, or the reverse (R627). -/
def CanState.turn (x : CanState) (passive : Bool) : CanState :=
  match x, passive with
  | .active, true => .passive
  | .passive, false => .active
  | _, _ => x

/-- A CAN controller changes its error state: bus-off, or between error-active and error-passive. The spec has no row for the latter, which
CAN_A_STATE shows: the row's operand brings it (DESIGN CHOICE, assumption 131). -/
def State.canChange (s : State) (b : Bool) (level : CanLevel) : State :=
  match level with
  | .off => s.goBusOff b
  | l =>
    let p := l == .passive
    let h := if b then { s.host with canB := s.host.canB.turn p } else { s.host with canA := s.host.canA.turn p }
    { s with host := h }

/-- BUS_OFF (R595). -/
def execBusOff (e : CanChange) (s : State) : Host.Outcome State Fault Refusal :=
  match e.bus with
  | .canA => .next (s.finish (s.canChange false e.level))
  | .canB => .next (s.finish (s.canChange true e.level))
  | _ => .fault .noSuchPart

/-- A controller after 128 occurrences of 11 recessive bits (R595). -/
def CanState.recover (x : CanState) : CanState := if x == .busOff then .active else x

/-- BUS_OFF_RECOVERY (R595). -/
def execBusOffRecovery (bus : Bus) (s : State) : Host.Outcome State Fault Refusal :=
  match bus with
  | .canA => .next { s with host := { s.host with canA := s.host.canA.recover } }
  | .canB => .next { s with host := { s.host with canB := s.host.canB.recover } }
  | _ => .fault .noSuchPart

/-- MANAGEMENT_LINK_CHANGE (R627). -/
def execManagementLinkChange (up : Bool) (s : State) : Host.Outcome State Fault Refusal :=
  .next { s with host := { s.host with ethLink := up } }

/-! ## Relayed requests (R162 to R164) -/

/-- RELAY_REQUEST (R162). -/
def execRelayRequest (func : Nat) (q : Request) (s : State) : Host.Outcome State Fault Refusal := hostRow q func s

/-- The identifier of the answer to a request. -/
def answerOf (ident : Nat) : Nat := answerIdent (requestOf .canA ident []) (identFunc ident)

/-- A frame that the active channel has delivered and that is an answer or a NOTIFY. -/
def RelayMsg.back (r : RelayMsg) : Bool :=
  let f := identFunc r.ident
  bitOf f 5 || f == 8

/-- RELAY_ANSWER: the oldest complete answer goes to the bus or port of its request, a late one is discarded; a NOTIFY of
another module goes out as one of the module's own (R162, R164). -/
def State.relayBack (s : State) : State :=
  let s := s.judgeRelay
  let whole := s.host.relayIn.filter fun r => r.back && (relayMessage s.host.relayIn r.sender r.ident).isSome
  match whole with
  | [] => s
  | r :: _ =>
    let ident := r.ident
    let m := (relayMessage s.host.relayIn r.sender ident).getD []
    let s := s.takeRelayed r.sender ident
    if identFunc ident = 8 then
      (s.notifyWays.filter fun b => match b with
        | .relay _ => false
        | _ => true).foldl (fun s b => s.send b ident m) s
    else
      match s.host.relayed.find? fun x => answerOf x.ident == ident with
      | none => s
      | some x =>
        ({ s with host := { s.host with relayed := s.host.relayed.erase x } }).send x.bus ident m

/-- RELAY_ANSWER (R162). -/
def execRelayAnswer (s : State) : Host.Outcome State Fault Refusal := .next (s.finish s.relayBack)

/-- RELAY_TIMEOUT: a relayed request is discarded and counted (R164, R168). -/
def State.relayLate (s : State) (ident : Nat) : State :=
  match s.host.relayed.find? fun x => x.ident == ident with
  | none => s
  | some x =>
    let s := { s with host := { s.host with relayed := s.host.relayed.erase x } }
    s.onChan (s.activeChan.getD (s.arb.holder.getD .a)) fun _ c => c.inc 0x427C 1

/-- RELAY_TIMEOUT (R164). -/
def execRelayTimeout (ident : Nat) (s : State) : Host.Outcome State Fault Refusal := .next (s.finish (s.relayLate ident))

/-! ## Writes that have rows of their own -/

/-- MODULE (R585). -/
def execModuleReset (h : AuthHdr) (confirm : Nat) (s : State) : Host.Outcome State Fault Refusal :=
  moduleRow h 0x1109 0 (confirm * 2 ^ 16 + 1) s

/-- CHANNEL (R579). -/
def execChannelReset (h : AuthHdr) (ch : Ch) (s : State) : Host.Outcome State Fault Refusal :=
  moduleRow h 0x1109 0 (ch.num * 16 + 2) s

/-- PORT (R580). -/
def execPortReset (h : AuthHdr) (ch : Ch) (port : Nat) (s : State) : Host.Outcome State Fault Refusal :=
  moduleRow h 0x1109 0 (port * 2 ^ 8 + ch.num * 16 + 3) s

/-- SAVE (R575). -/
def execSave (h : AuthHdr) (withRuntime : Bool) (s : State) : Host.Outcome State Fault Refusal :=
  moduleRow h 0x1500 1 (withRuntime.toNat * 16 + 1) s

/-- INVALIDATE (R587). -/
def execInvalidate (h : AuthHdr) (slotB : Bool) (s : State) : Host.Outcome State Fault Refusal :=
  moduleRow h 0x1500 1 (slotB.toNat * 2 ^ 8 + 2) s

/-- ERASE (R590). -/
def execErase (h : AuthHdr) (s : State) : Host.Outcome State Fault Refusal := moduleRow h 0x1500 5 1 s

/-- COMMIT (R590). -/
def execCommit (h : AuthHdr) (s : State) : Host.Outcome State Fault Refusal := moduleRow h 0x1500 5 2 s

/-- SWITCH (R520). -/
def execSwitch (h : AuthHdr) (s : State) : Host.Outcome State Fault Refusal := moduleRow h 0x1300 4 1 s

/-- REARM (R507). -/
def execRearm (h : AuthHdr) (s : State) : Host.Outcome State Fault Refusal := moduleRow h 0x1300 4 2 s

/-- ISOLATE (R521). -/
def execIsolate (h : AuthHdr) (ch : Ch) (s : State) : Host.Outcome State Fault Refusal :=
  moduleRow h 0x1300 4 (ch.num * 2 ^ 8 + 3) s

/-- RELEASE (R521). -/
def execRelease (h : AuthHdr) (ch : Ch) (s : State) : Host.Outcome State Fault Refusal :=
  moduleRow h 0x1300 4 (ch.num * 2 ^ 8 + 4) s

/-- RESYNC: the role command, or with no sender the module's own start for a stale receiver once the relay is up (R502). -/
def execResync (h : Option AuthHdr) (s : State) : Host.Outcome State Fault Refusal :=
  match h with
  | some h => moduleRow h 0x1300 4 5 s
  | none => .next (s.finish s.autoResync)

/-- REQUEST_NIGHT (R537). -/
def execRequestNight (h : AuthHdr) (s : State) : Host.Outcome State Fault Refusal := moduleRow h 0x1101 0 4 s

/-- REQUEST_NOON (R531). -/
def execRequestNoon (h : AuthHdr) (s : State) : Host.Outcome State Fault Refusal := moduleRow h 0x1101 0 6 s

/-- REQUEST_DAY (R531). -/
def execRequestDay (h : AuthHdr) (s : State) : Host.Outcome State Fault Refusal := moduleRow h 0x1101 0 2 s

/-- CLR_HIGH_WATER, written with the object's other fields as they stand (R74). -/
def execClrHighWater (h : AuthHdr) (ch : Ch) (s : State) : Host.Outcome State Fault Refusal :=
  channelRow h ch 0x4000 0x10 (setBit ((s.chan ch).reg 0x4000 0x10) 8 true) s

/-- RAISE (R333). -/
def execRaise (h : AuthHdr) (ch : Ch) (s : State) : Host.Outcome State Fault Refusal := channelRow h ch 0x4707 1 1 s

/-- The command object of a table. -/
def tableObject : Hashed → Nat
  | .bridge => 0x4410
  | .sub => 0x4420
  | .v4 | .v6 => 0x4510

/-- The opcode word of a table command: FAMILY of a route command, KEEP_STATIC at its default of the others (R238, R258). -/
def tableWord (t : Hashed) (op : Nat) : Nat :=
  match t with
  | .bridge | .sub => 0x80 + op
  | .v4 => op
  | .v6 => 0x20 + op

/-- TABLE_READ (R225). -/
def execTableRead (h : AuthHdr) (ch : Ch) (t : Hashed) (s : State) : Host.Outcome State Fault Refusal :=
  channelRow h ch (tableObject t) 1 (tableWord t 1) s

/-- TABLE_WRITE (R225). -/
def execTableWrite (h : AuthHdr) (ch : Ch) (t : Hashed) (s : State) : Host.Outcome State Fault Refusal :=
  channelRow h ch (tableObject t) 1 (tableWord t 2) s

/-- TABLE_INSERT (R225). -/
def execTableInsert (h : AuthHdr) (ch : Ch) (t : Hashed) (s : State) : Host.Outcome State Fault Refusal :=
  channelRow h ch (tableObject t) 1 (tableWord t 3) s

/-- TABLE_DELETE (R225). -/
def execTableDelete (h : AuthHdr) (ch : Ch) (t : Hashed) (s : State) : Host.Outcome State Fault Refusal :=
  channelRow h ch (tableObject t) 1 (tableWord t 4) s

/-- TABLE_SEARCH (R225). -/
def execTableSearch (h : AuthHdr) (ch : Ch) (t : Hashed) (s : State) : Host.Outcome State Fault Refusal :=
  channelRow h ch (tableObject t) 1 (tableWord t 5) s

/-- TABLE_NEXT (R225). -/
def execTableNext (h : AuthHdr) (ch : Ch) (t : Hashed) (s : State) : Host.Outcome State Fault Refusal :=
  channelRow h ch (tableObject t) 1 (tableWord t 6) s

/-- FLUSH_BY_PORT of the bridge table or the subscriber map (R225). -/
def execFlushByPort (h : AuthHdr) (ch : Ch) (sub keepStatic : Bool) (s : State) : Host.Outcome State Fault Refusal :=
  channelRow h ch (if sub then 0x4420 else 0x4410) 1 (keepStatic.toNat * 0x80 + 7) s

/-- AGE_NOW (R225). -/
def execAgeNow (h : AuthHdr) (ch : Ch) (s : State) : Host.Outcome State Fault Refusal := channelRow h ch 0x4410 1 0x88 s

/-- FLUSH_VRF (R256). -/
def execFlushVrf (h : AuthHdr) (ch : Ch) (v6 : Bool) (s : State) : Host.Outcome State Fault Refusal :=
  channelRow h ch 0x4510 1 (v6.toNat * 0x20 + 7) s

/-- CLEAN_FILTER (R256). -/
def execCleanFilter (h : AuthHdr) (ch : Ch) (v6 : Bool) (s : State) : Host.Outcome State Fault Refusal :=
  channelRow h ch 0x4510 1 (v6.toNat * 0x20 + 8) s

/-- LPM_SEARCH (R256). -/
def execLpmSearch (h : AuthHdr) (ch : Ch) (v6 : Bool) (s : State) : Host.Outcome State Fault Refusal :=
  channelRow h ch 0x4510 1 (v6.toNat * 0x20 + 9) s

/-- SEARCH_ENTRY_READ (R279). -/
def execSearchEntryRead (h : AuthHdr) (ch : Ch) (s : State) : Host.Outcome State Fault Refusal := channelRow h ch 0x4620 1 1 s

/-- SEARCH_ENTRY_WRITE (R279). -/
def execSearchEntryWrite (h : AuthHdr) (ch : Ch) (s : State) : Host.Outcome State Fault Refusal := channelRow h ch 0x4620 1 2 s

/-- SEARCH_ENTRY_CLEAR (R279). -/
def execSearchEntryClear (h : AuthHdr) (ch : Ch) (s : State) : Host.Outcome State Fault Refusal := channelRow h ch 0x4620 1 3 s

/-- SEARCH_COMMAND_SEARCH (R279). -/
def execSearchCommandSearch (h : AuthHdr) (ch : Ch) (gmask : Nat) (s : State) : Host.Outcome State Fault Refusal :=
  channelRow h ch 0x4620 1 (gmask * 2 ^ 8 + 4) s

/-- NEXT_MATCH (R279). -/
def execNextMatch (h : AuthHdr) (ch : Ch) (gmask : Nat) (s : State) : Host.Outcome State Fault Refusal :=
  channelRow h ch 0x4620 1 (gmask * 2 ^ 8 + 5) s

/-- CLEAR_ALL (R279). -/
def execClearAll (h : AuthHdr) (ch : Ch) (s : State) : Host.Outcome State Fault Refusal := channelRow h ch 0x4620 1 6 s

/-- FLUSH of the capture engine (R461). -/
def execFlush (h : AuthHdr) (ch : Ch) (s : State) : Host.Outcome State Fault Refusal := channelRow h ch 0x4C20 1 1 s

/-- FREEZE (R454). -/
def execFreeze (h : AuthHdr) (ch : Ch) (s : State) : Host.Outcome State Fault Refusal := channelRow h ch 0x4C20 1 2 s

/-- CAPTURE_RELEASE (R461). -/
def execCaptureRelease (h : AuthHdr) (ch : Ch) (s : State) : Host.Outcome State Fault Refusal := channelRow h ch 0x4C20 1 3 s

/-- LOCATE (R461). -/
def execLocate (h : AuthHdr) (ch : Ch) (s : State) : Host.Outcome State Fault Refusal := channelRow h ch 0x4C20 1 4 s

/-- The sub-index of 0x4D08 that names a check unit; a number that no unit has names no object of the dictionary, which answers it (R612). -/
def checkSub (unit : Nat) : Nat := min (unit + 1) 255

/-- CHECK_START (R478). -/
def execCheckStart (h : AuthHdr) (ch : Ch) (unit : Nat) (s : State) : Host.Outcome State Fault Refusal :=
  channelRow h ch 0x4D08 (checkSub unit) 1 s

/-- ABORT (R480). -/
def execAbort (h : AuthHdr) (ch : Ch) (unit : Nat) (s : State) : Host.Outcome State Fault Refusal :=
  channelRow h ch 0x4D08 (checkSub unit) 2 s

/-- INCREMENT_WRITE (R416). -/
def execIncrementWrite (h : AuthHdr) (ch : Ch) (inc : Nat) (s : State) : Host.Outcome State Fault Refusal :=
  channelRow h ch 0x4B03 0 inc s

/-- OFFSET_STEP (R417). -/
def execOffsetStep (h : AuthHdr) (ch : Ch) (offset : Nat) (s : State) : Host.Outcome State Fault Refusal :=
  channelRow h ch 0x4B04 0 offset s

/-- TIME_SET (R417). -/
def execTimeSet (h : AuthHdr) (ch : Ch) (time : Nat) (s : State) : Host.Outcome State Fault Refusal :=
  channelRow h ch 0x4B02 0 time s

/-- COPY_PARTNER, written with the object's other fields as they stand (R420). -/
def execCopyPartner (h : AuthHdr) (ch : Ch) (s : State) : Host.Outcome State Fault Refusal :=
  channelRow h ch 0x4B00 1 (setBit ((s.chan ch).reg 0x4B00 1) 8 true) s

/-- TIMESTAMP_POP (R438). -/
def execTimestampPop (h : AuthHdr) (ch : Ch) (port : Nat) (s : State) : Host.Outcome State Fault Refusal :=
  channelRow h ch 0x4B11 port 1 s

end Sys2Proof.Machine
end

