-- ==== Sys2Proof/Machine/Bringup.lean ====
section
/-! DEFINITION. Bring-up, resets and persistence: the stages, retries and backoff, the image that stage 2 applies, the module-wide
resets, the flash commands and the event log (R540, R543, R547 to R549, R561 to R591, R646 to R648). -/

namespace Sys2Proof.Machine

/-! ## Stage 2: straps, images (R565, R574, R589) -/

/-- STRAP_ERROR and the module ID that the pins ID5 to ID0 and ID_PAR give (R565, R673). -/
def readStraps (pins : List StrapPin) : Bool × Nat :=
  let v := (pins.take 6).foldl (fun n p => 2 * n + (if p = .high then 1 else 0)) 0
  if pins.contains .between || (pins.filter (· = .high)).length % 2 = 1 then (true, 0)
  else (false, if v = 0 then 64 else v)

/-- One stored value of an image: its scope, whether it is a window entry, index, sub-index or entry, value. -/
structure ImageItem where
  scope : Nat
  win   : Bool
  idx   : Nat
  sub   : Nat
  raw   : Nat
deriving DecidableEq, Repr

/-- The values of a record; the customer region is no list of values. -/
def recordItems : Record → List ImageItem
  | .obj sc idx sub v => [⟨sc, false, idx, sub, v⟩]
  | .run sc idx first es => (upFrom first es.length).zip es |>.map fun p => ⟨sc, true, idx, p.1, p.2⟩
  | .region _ _ _ => []

/-- The channels that a scope of R685 names. -/
def State.scopeChannels (s : State) (scope : Nat) : List Ch :=
  s.channels.filter fun ch => scope == 1 || scope == ch.num + 2

/-- The checks of a stored value of a module object (R574). -/
def State.moduleRefuses (s : State) (o : Obj) (i : ImageItem) : Bool :=
  i.win || (0x10 ≤ i.sub && i.idx == 0x1400) || s.mBad i.idx i.sub (written o i.idx i.sub (mDflt (objKey i.idx i.sub)) i.raw) i.raw

/-- The checks of a stored value of a channel object or entry. -/
def Channel.itemRefused (c : Channel) (cx : Ctx) (o : Obj) (i : ImageItem) : Bool :=
  let v := written o i.idx i.sub (if i.win then c.wget i.idx i.sub else c.reg i.idx i.sub) i.raw
  o.ty.isWindow != i.win || (o.ty == .bool && 1 < i.raw) || c.badValue cx i.idx i.sub v i.raw || c.unitRefuses false i.idx i.sub v

/-- Store a value of the image. -/
def Channel.storeItem (c : Channel) (o : Obj) (i : ImageItem) : Channel :=
  if i.win then
    let v := written o i.idx i.sub (c.wget i.idx i.sub) i.raw
    c.wput i.idx i.sub (if i.idx = 0x4506 then nextHopParity v else v)
  else c.put i.idx i.sub (written o i.idx i.sub (c.reg i.idx i.sub) i.raw)

/-- Apply one stored value to the service block copy, none where it is refused (R571, R574). -/
def State.applyItem (s : State) (runtime : Bool) (i : ImageItem) : Option State :=
  if i.scope = 0 then
    match objIn moduleObjs i.idx i.sub with
    | none => none
    | some o =>
      if !o.stored runtime || s.moduleRefuses o i then none
      else some (s.mput i.idx i.sub (written o i.idx i.sub (s.mreg i.idx i.sub) i.raw))
  else
    match objIn channelObjs i.idx (if i.win then 0 else i.sub) with
    | none => none
    | some o =>
      let chs := s.scopeChannels i.scope
      if !o.stored runtime || chs.any (fun ch => (s.chan ch).itemRefused (s.ctx ch) o i) then none
      else some (chs.foldl (fun s ch => s.setChan ch ((s.chan ch).storeItem o i)) s)

/-- Apply values in order; those refused are answered. -/
def State.applyItems (runtime : Bool) : List ImageItem → State → State × List ImageItem
  | [], s => (s, [])
  | i :: t, s =>
    match s.applyItem runtime i with
    | some s' => State.applyItems runtime t s'
    | none =>
      let r := State.applyItems runtime t s
      (r.1, i :: r.2)

/-- Apply the values; one that is refused is tried again after the others while that helps. -/
def State.applyImage (runtime : Bool) : Nat → List ImageItem → State → State × List ImageItem
  | 0, l, s => (s, l)
  | n + 1, l, s =>
    let r := s.applyItems runtime l
    if r.2.isEmpty || r.2.length = l.length then r else State.applyImage runtime n r.2 r.1

/-- A value that was skipped is counted in IMAGE_SKIPPED and logged (R574, R649). -/
def State.skipItem (slot : Nat) (s : State) (i : ImageItem) : State :=
  (s.mputBits 0x1500 2 63 32 (bits (s.mreg 0x1500 2) 63 32 + 1)).logEvent 0 0x13
    (i.idx + (if i.win then 0 else i.sub) * 2 ^ 16 + slot * 2 ^ 32)

/-- The customer region of an image goes to the copy; a check value that does not match is found at stage 5 (R562, R571). -/
def State.applyRegion (s : State) : Record → State
  | .region sc ws crc =>
    let bad := wordsCrc ws != crc
    (s.scopeChannels sc).foldl (fun s ch =>
      let c := (ws.take 4096).zip (upFrom 0x3000 4096) |>.foldl (fun c p => c.wput 0x4710 p.2 (p.1 % 2 ^ 192)) (s.chan ch)
      (s.setChan ch c).modRole ch fun r => { r with regionBad := bad }) s
  | _ => s

/-- The headers of both slots are read (R588). -/
def State.readHeaders (s : State) : State :=
  let s := s.mput 0x1500 3 (s.slotHeader false)
  s.mput 0x1500 4 (s.slotHeader true)

/-- The selected vendor image (R589). -/
def State.selectVendor (s : State) : Option Nat :=
  let a := s.flash.vendor0
  let b := s.flash.vendor1
  if a.valid && b.valid then some (if newer (b.seq.getD 0) (a.seq.getD 0) then 1 else 0)
  else if a.valid then some 0
  else if b.valid then some 1
  else none

/-- The image that stage 2 selects is applied (R573, R574). -/
def State.loadImage (s : State) : State :=
  let k := s.selectImage
  let va := imageValid s.unit.variant s.flash.imageA
  let vb := imageValid s.unit.variant s.flash.imageB
  let s := { s with bring := { s.bring with image := k, fallback := va != vb, unconf := k == 3 } }
  if k = 3 then s
  else
    let img := if k = 2 then s.flash.imageB else s.flash.imageA
    let recs := imageBody img
    let items := recs.flatMap recordItems
    let r := s.applyImage (imageRuntime img) items.length items
    let s := recs.foldl State.applyRegion r.1
    r.2.foldl (State.skipItem (k - 1)) s

/-- A channel begins stage 3: its output is on and its core goes to 850 mV (R549, R561). -/
def State.beginStage3 (s : State) (ch : Ch) : State :=
  (s.modRole ch fun r => { r with
    st := .starting, stage := 3, attempt := 1, restartDue := false, backoffEnd := none, outputOn := true }).onChan ch
      fun _ c => ({ c with core := { c.core with setMv := 850 } }).showSetPoint

/-- Whether a channel may run a bring-up stage: in a TWILIGHT-hold only the one that takes its turn (R512). -/
def State.mayStart (s : State) (ch : Ch) : Bool :=
  match s.arb.hold with
  | some r => r == ch
  | none => true

/-- A channel in OFF starts once the service block has come up and its turn allows it (R45, R566). -/
def State.startChannel (s : State) (ch : Ch) : State :=
  if s.present ch && (s.role ch).st == .off && s.bring.stage == 15 && s.mayStart ch then s.beginStage3 ch else s

/-- Stage 2 completes: straps, image, copy, module objects, host port, vendor image; the channels begin (R561, R565, R567). -/
def State.completeStage2 (s : State) : State :=
  let id := readStraps s.unit.straps
  let s := { s with bring := { s.bring with moduleId := id.2, strapError := id.1 } }
  let s := s.loadImage.readHeaders
  let ctl := s.mreg 0x1400 1
  let s := { s with
    flash := { s.flash with selected := s.selectVendor }
    host := { s.host with
      rates := bits ctl 13 8, canA := CanState.enable .off (bitOf ctl 1), canB := CanState.enable .off (bitOf ctl 2) }
    bring := { s.bring with stage := 15, attempt := 0, restarts := 0 } }
  let s := (s.mput 0x110A 1 s.bring.kind).eachChan fun _ c => c.freshAllowances.freshBuckets
  s.channels.foldl State.startChannel s

/-- A stage of the service block completes (R561). -/
def State.stageDone (s : State) : State :=
  let b := s.bring
  if !s.power.powered || !s.power.sbOut || s.power.resetLow || b.backoffEnd.isSome then s
  else if b.stage = 0 then (if s.fed then { s with bring := { b with stage := 1, attempt := 1 } } else s)
  else if b.stage = 1 then
    { s with bring := { b with stage := 2, attempt := 1 }, arb := { s.arb with ok := true },
             relay := { s.relay with up := true }, power := { s.power with ctrlOk := true } }
  else if b.stage = 2 then s.completeStage2
  else s

/-! ## Failures and backoff (R566, R567) -/

/-- Whether a stage can fail with a cause (R561). -/
def stageFails (stage cause : Nat) : Bool :=
  [(1, 9), (2, 10), (3, 1), (3, 2), (4, 3), (5, 4), (5, 5), (5, 6), (6, 6), (8, 7), (9, 8)].contains (stage, cause)

/-- The `k`-th wait in units of 10 µs: 2^(k − 1) seconds, at most 64. -/
def backoffWait (k : Nat) : Nat := 100000 * 2 ^ min (k - 1) 6

/-- DETAIL of a failed attempt (R649). -/
def failDetail (stage cause attempt restarts : Nat) : Nat :=
  stage + cause * 2 ^ 8 + attempt * 2 ^ 16 + min 65535 restarts * 2 ^ 32

/-- A stage of the service block fails. -/
def State.stageFailed (s : State) (cause : Nat) : State :=
  let b := s.bring
  if b.backoffEnd.isSome || s.power.resetLow || !s.power.powered || !stageFails b.stage cause || 2 < b.stage then s
  else
    let s := s.logEvent 0 0x10 (failDetail b.stage cause b.attempt b.restarts)
    if b.attempt < 4 then { s with bring := { b with attempt := b.attempt + 1 } }
    else
      let k := min 65535 (b.restarts + 1)
      { s with bring := { b with stage := 1, attempt := 0, restarts := k, backoffEnd := some (s.sbTime + backoffWait k) } }

/-- The vendor image slot that a channel loads (R589). -/
def State.loadSlot (s : State) (ch : Ch) : Nat :=
  let k := s.flash.selected.getD 0
  if (s.role ch).imageFails != 0 && (s.vendorSlot (1 - k)).valid then 1 - k else k

/-- Stage 5 loads the vendor region into every copy and orders the eight check jobs on unit 0 (R321, R482, assumption 6). -/
def State.loadVendor (s : State) (ch : Ch) : State :=
  let k := s.loadSlot ch
  let s := if k != s.flash.selected.getD 0 then s.mputBits 0x1500 6 10 10 1 else s
  s.onChan ch fun cx c => (c.loadVendor (s.vendorSlot k).data).regionJobs cx

/-- An attempt at stage 5 begins: an image with a valid signature is loaded (R321). -/
def State.beginStage5 (s : State) (ch : Ch) : State :=
  if (s.vendorSlot (s.loadSlot ch)).valid then s.loadVendor ch else s

/-- A stage of a channel fails: it is tried again at once, and after the fourth attempt the channel goes to OFF and waits. -/
def State.chanStageFailed (s : State) (ch : Ch) (cause : Nat) : State :=
  let r := s.role ch
  if r.st != .starting || r.waitNight || r.waitArb || !stageFails r.stage cause then s
  else
    let s := s.logEvent (ch.num + 1) 0x10 (failDetail r.stage cause r.attempt r.restarts)
    let s := s.modRole ch fun r => { r with failStage := r.stage, failCause := cause }
    if r.attempt < 4 then
      let s := s.modRole ch fun x => { x with attempt := x.attempt + 1, outputOn := true }
      if r.stage = 5 then s.beginStage5 ch else s
    else
      let k := min 65535 (r.restarts + 1)
      (s.beginReset ch .bringup).modRole ch fun x => { x with
        restarts := k, backoffEnd := some (s.sbTime + backoffWait k), restartDue := false,
        imageFails := if r.stage = 5 && (cause = 4 || cause = 5) then x.imageFails + 1 else x.imageFails }

/-! ## Stages of a channel (R561 to R570) -/

/-- Stage 5 ends: the vendor region is verified, the customer region restored, or cleared where its check value does not match
(R321, R324, R562). -/
def State.completeStage5 (s : State) (ch : Ch) : State :=
  let bad := (s.role ch).regionBad
  (s.modRole ch fun r => { r with stage := r.stage + 1, attempt := 1, regionBad := false }).onChan ch fun _ c =>
    let c := c.putBit 0x4701 1 0 true
    if bad then
      let c := { c with win := c.win.filter fun p => p.1 / 2 ^ 40 != 0x4710 }
      let c := (listedSubs c.dict 0x4703).foldl (fun c p => if 0x3000 ≤ c.reg 0x4703 p then c.put 0x4703 p 0 else c) c
      c.log 0x12 0
    else (listedIn c.win 0x4710).foldl (fun c a => c.writeWord a (c.wget 0x4710 a)) (c.putBit 0x4701 1 1 true)

/-- Stage 5 (R321): a bad signature fails it with cause 4, a check value that does not match with cause 5 (R561). What is left of the
eight jobs runs to its end; while a chunk waits for its cells the stage is not over. -/
def State.stage5 (s : State) (ch : Ch) : State :=
  let v := s.vendorSlot (s.loadSlot ch)
  if !v.valid then s.chanStageFailed ch 4
  else
    let s := if (s.chan ch).own = Channel.fresh.own then s.loadVendor ch else s
    let s := s.onChan ch fun cx c => c.ownFinish cx
    if (s.chan ch).own.got.length < 8 then s
    else
      let good := v.matches (s.chan ch)
      let s := s.onChan ch fun _ c => c.dropJobs
      if good then s.completeStage5 ch else s.chanStageFailed ch 5

/-- Stage 7 begins (R570): a resync beside a holder, MIRROR_STALE when the relay is down. -/
def State.beginStage7 (s : State) (ch : Ch) : State :=
  let s := s.modRole ch fun r => { r with stage := 7, attempt := 1 }
  if s.arb.holder == some ch.other then
    if s.relay.up then s.startResync ch else s.modRole ch fun r => { r with stale := true }
  else s

/-- Stage 7 completes (R540, R570): a resync that is not complete is given up. -/
def State.completeStage7 (s : State) (ch : Ch) : State :=
  let s := if s.relay.resync == some ch then
      ({ s with relay := { s.relay with
          resync := none, deltas := s.relay.deltas.drop s.relay.copyLeft, copyLeft := 0 } }.onChan ch
        fun _ c => c.clearTables).modRole ch fun r => { r with stale := true }
    else s
  if s.mode.night != .awake then s.modRole ch fun r => { r with waitNight := true } else s.beginStage8 ch

/-- Stage 9's self-check is complete (R564): READY, and the arbiter assigns a role or the channel waits for it. -/
def State.completeStage9 (s : State) (ch : Ch) : State :=
  let s := s.modRole ch fun r => { r with ready := true, waitArb := true }
  if s.arb.ok then s.assignRole ch else s

/-- A stage of a channel completes (R561). `islands`: the islands that have locked. -/
def State.chanStageDone (s : State) (ch : Ch) (captureTrained : Bool) (islands : Nat) : State :=
  let r := s.role ch
  let next := fun (s : State) => s.modRole ch fun r => { r with stage := r.stage + 1, attempt := 1 }
  if r.st != .starting || r.waitNight || r.waitArb || !s.mayStart ch then s
  else if r.stage = 3 then next s
  else if r.stage = 4 then
    (next (if captureTrained then s
      else s.onChan ch fun _ c => { c.log 0x11 0 with cap := { c.cap with stopped := true } })).beginStage5 ch
  else if r.stage = 5 then s.stage5 ch
  else if r.stage = 6 then s.beginStage7 ch
  else if r.stage = 7 then s.completeStage7 ch
  else if r.stage = 8 then
    (if bitOf islands 26 && bitOf islands 27 then next (s.onChan ch fun _ c => c.put 0x4000 0x20 (islands % 2 ^ 29)) else s)
  else if r.stage = 9 then s.completeStage9 ch
  else s

/-- STAGE_COMPLETE (R561). -/
def execStageComplete (p : Part) (captureTrained : Bool) (islands : Nat) (s : State) : Host.Outcome State Fault Refusal :=
  match p with
  | .sb => .next (s.finish s.stageDone)
  | .chan ch =>
    if !s.present ch then .fault .noSuchChannel
    else .next (s.finish (s.chanStageDone ch captureTrained islands))

/-! ## Failures and backoff (R566, R567): the rows -/

/-- STAGE_FAIL (R566). -/
def execStageFail (p : Part) (cause : Nat) (s : State) : Host.Outcome State Fault Refusal :=
  match p with
  | .sb => .next (s.finish (s.stageFailed cause))
  | .chan ch =>
    if !s.present ch then .fault .noSuchChannel else .next (s.finish (s.chanStageFailed ch cause))

/-- A backoff wait ends. -/
def State.backoffOver (s : State) (ch : Ch) : State :=
  if (s.role ch).backoffEnd.isNone then s
  else (s.modRole ch fun r => { r with backoffEnd := none }).startChannel ch

/-- BACKOFF_EXPIRE (R566). -/
def execBackoffExpire (p : Part) (s : State) : Host.Outcome State Fault Refusal :=
  match p with
  | .sb => .next (s.finish (if s.bring.backoffEnd.isNone then s
      else { s with bring := { s.bring with stage := 1, attempt := 1, backoffEnd := none } }))
  | .chan ch => if !s.present ch then .fault .noSuchChannel else .next (s.finish (s.backoffOver ch))

/-- CHANNEL_RESTART (R579): 100 ms after a channel reset. -/
def execChannelRestart (ch : Ch) (s : State) : Host.Outcome State Fault Refusal :=
  if !s.present ch then .fault .noSuchChannel
  else .next (s.finish (if (s.role ch).restartDue then s.startChannel ch else s))

/-- PORT_RESET_DONE (R580): BUSY of 0x1109 clears. -/
def execPortResetDone (s : State) : Host.Outcome State Fault Refusal :=
  .next (s.finish (s.mputBits 0x1109 0 15 15 0))

/-! ## Module-wide resets (R576 to R581) -/

/-- A channel after a module-wide reset: nothing is kept but a persistent capture store with its health (R458, R463, R581), and, with
power, a 1PPS pulse in progress (R422). -/
def Channel.wiped (c : Channel) (v : Variant) (warn fed : Bool) : Channel :=
  let mine := fun (k : Nat) => v == .A && k == 0x4C02
  let ring := fun (k : Nat) => v == .A && k == 0x4C40
  let z := ({ c with
    dict := c.dict.filter fun p => mine (p.1 / 256)
    win := c.win.filter fun p => ring (p.1 / 2 ^ 40)
    time := { c.time with pps := fed && c.time.pps } }).reset v
  { z with
    win := freshWin v ++ z.win
    cap := { z.cap with hold := warn }
    box := Channel.fresh.box }

/-- The flash after a reset: a command that ran has ended, a half-written slot is not valid (R575, R590). -/
def Flash.afterReset (f : Flash) (staging : Nat) : Flash :=
  let f := match f.microJob with
    | some .erase => if staging = 0 then { f with vendor0 := ⟨[], [], none, false⟩ } else { f with vendor1 := ⟨[], [], none, false⟩ }
    | _ => f
  { f with imageJob := none, microJob := none, selected := none }

/-- What a module-wide reset leaves (R581): flash, keys, event log, persistent capture stores and the supply's inputs; the rest
is at its initial value, in DAWN. -/
def State.wipe (s : State) (kind stage : Nat) : State :=
  let z := State.reset
  { s with
    mdict := z.mdict
    mwin := s.mwin.filter fun p => p.1 / 2 ^ 40 == 0x1601
    host := { z.host with keys := s.host.keys }
    bring := { z.bring with kind := kind, stage := stage }
    roleA := z.roleA, roleB := z.roleB, arb := z.arb, relay := z.relay, mode := z.mode
    power := { s.power with wakeBy := [] }
    flash := s.flash.afterReset s.staging
    chA := s.chA.wiped s.unit.variant s.power.warn (stage != 0)
    chB := s.chB.wiped s.unit.variant s.power.warn (stage != 0) }

/-- Bring-up starts from its stage (R576): the start is logged with KIND (R649). -/
def State.beginBringUp (s : State) : State := s.logEvent 0 0x50 s.bring.kind

/-- The module goes into reset with a kind of R586 (R578); frames in progress are cut short (R98), and the change to DAWN is logged
(R533). -/
def State.moduleResetNow (s : State) (kind : Nat) : State :=
  let old := s.mode.last
  let s := if old = 1 then s else s.logEvent 0 1 (old * 256 + 1 + (modeTrigger old 1).code * 65536)
  (s.eachChan fun cx c => c.cutAll cx).wipe kind 1

/-- Whether the last entry of the event log is a power-fail warning (R577). -/
def State.lastIsWarning (s : State) : Bool :=
  s.log.next != 0 && bits (tabGet mwinDflt s.mwin (winKey 0x1601 ((s.log.next - 1) % 262144))) 127 112 == 2

/-- Power returns to an unpowered module (R576, R577). -/
def State.powerUp (s : State) : State :=
  if s.power.powered then s
  else
    let kind := if s.lastIsWarning then 2 else 1
    let s := { s with power := { s.power with powered := true, sbOut := true, ctrlOk := true, warn := false, warnWritten := false } }
    (s.wipe kind 0).beginBringUp

/-- COLD_START (R576). The reset kind is what R577 makes of the event log. -/
def execColdStart (s : State) : Host.Outcome State Fault Refusal := .next (s.finish s.powerUp)

/-- BROWN_OUT (R577): power is back after the outputs left regulation. -/
def execBrownOut (s : State) : Host.Outcome State Fault Refusal := .next (s.finish s.powerUp)

/-- The hold-up ends (R547): the module is off; entries that wait for the flash are lost (R648). -/
def State.losePower (s : State) : State :=
  if !s.power.powered || s.fed then s
  else
    let s := s.wipe 1 0
    { s with power := { s.power with powered := false, warn := false, warnWritten := false }
             log := { s.log with waiting := [] } }

/-- POWER_LOSS (R547). -/
def execPowerLoss (s : State) : Host.Outcome State Fault Refusal := .next (s.finish s.losePower)

/-- The RESET pin (R578): a low shorter than 100 µs is ignored; a longer one holds the module in reset until its release. -/
def State.resetPin (s : State) (lowUs : Nat) (released : Bool) : State :=
  if lowUs < 100 || !s.power.powered then s
  else
    let s := if s.power.resetLow then s
      else
        let s := s.moduleResetNow 4
        { s with power := { s.power with resetLow := true } }
    if released then ({ s with power := { s.power with resetLow := false } }).beginBringUp else s

/-- RESET_PIN (R578). -/
def execResetPin (lowUs : Nat) (released : Bool) (s : State) : Host.Outcome State Fault Refusal :=
  .next (s.finish (s.resetPin lowUs released))

/-- MODULE_RESET_BEGIN (R578, R585): the accepted MODULE command takes effect. -/
def execModuleResetBegin (s : State) : Host.Outcome State Fault Refusal :=
  .next (s.finish (if s.bring.resetDue then (s.moduleResetNow 3).beginBringUp else s))

/-! ## Output trips, NIGHT, the wake time -/

/-- OUTPUT_TRIP (R549): a trip in stage 3 fails that stage. -/
def execOutputTrip (p : Part) (s : State) : Host.Outcome State Fault Refusal :=
  match p with
  | .sb => .next (s.finish s.tripSb)
  | .chan ch =>
    if !s.present ch then .fault .noSuchChannel
    else
      let r := s.role ch
      .next (s.finish (
        if r.st == .starting && r.stage == 3 && r.outputOn then
          (((s.setRole ch { r with outputOn := false }).mflag 0x1200 6 (2 ^ (4 + ch.num))).logEvent 0 5 (1 + ch.num)).chanStageFailed
            ch 1
        else s.tripChan ch))

/-- NIGHT_DRAIN_END (R537). -/
def execNightDrainEnd (s : State) : Host.Outcome State Fault Refusal := .next (s.finish s.sleep)

/-- Nanoseconds of the low 32 bits of the seconds. -/
def nanos32 (sec ns : Nat) : Nat := sec % 2 ^ 32 * 1000000000 + ns

/-- Whether the wake time is due at a reference time (R543). -/
def wakeDue (wake now : Nat) : Bool :=
  let span := 2 ^ 32 * 1000000000
  Nat.ble ((now + span - wake) % span) (2 ^ 31 * 1000000000)

/-- The wake time is judged in NIGHT (R543). -/
def State.judgeWake (s : State) : State :=
  let w := s.mreg 0x1105 0
  match s.refChan with
  | none => s
  | some ch =>
    let t := (s.chan ch).time
    if s.mode.night != .awake && bitOf w 63 && wakeDue (nanos32 (bits w 61 30) (bits w 29 0)) (nanos32 t.sec t.ns) then
      (s.mput 0x1105 0 (setBit w 63 false)).wakeBy .time
    else s

/-- WAKE_TIME_DUE (R543). -/
def execWakeTimeDue (s : State) : Host.Outcome State Fault Refusal := .next (s.finish s.judgeWake)

/-! ## The configuration flash (R575, R587, R590) -/

/-- RESULT of 0x1500:02. -/
def State.imageResult (s : State) (r : Nat) : State := s.mputBits 0x1500 2 31 24 r

/-- Replace an image slot. -/
def State.setImage (s : State) (slotB : Bool) (b : List Byte) : State :=
  { s with flash := if slotB then { s.flash with imageB := b } else { s.flash with imageA := b } }

/-- SAVE_DONE (R574, R575). -/
def State.saveDone (s : State) (readBackOk : Bool) : State :=
  match s.flash.imageJob with
  | some (.save slotB image) =>
    let s := { s with flash := { s.flash with imageJob := none } }
    if readBackOk then
      let s := s.setImage slotB image
      (({ s with bring := { s.bring with unconf := false } }).imageResult 0).mputBits 0x1500 2 15 8 100 |>.readHeaders
    else ((s.setImage slotB []).imageResult 1).readHeaders
  | _ => s

/-- SAVE_DONE (R575). -/
def execSaveDone (readBackOk : Bool) (s : State) : Host.Outcome State Fault Refusal :=
  .next (s.finish (s.saveDone readBackOk))

/-- INVALIDATE takes effect (R587); no flash write is started between step b of R547 and the end of the warning. -/
def State.invalidateDone (s : State) : State :=
  match s.flash.imageJob with
  | some (.invalidate slotB) =>
    if s.power.warn && s.power.warnWritten then s
    else (({ s with flash := { s.flash with imageJob := none } }.setImage slotB []).imageResult 0).readHeaders
  | _ => s

/-- INVALIDATE_DONE (R587). -/
def execInvalidateDone (s : State) : Host.Outcome State Fault Refusal := .next (s.finish s.invalidateDone)

/-- Replace a vendor image slot. -/
def State.setVendor (s : State) (k : Nat) (v : VendorSlot) : State :=
  { s with flash := if k = 0 then { s.flash with vendor0 := v } else { s.flash with vendor1 := v } }

/-- ERASE or COMMIT completes (R590, R591). A channel runs a new image from its next stage 5, whatever the one before did there. -/
def State.microDone (s : State) (flashOk : Bool) : State :=
  let k := s.staging
  let v := s.vendorSlot k
  let result := fun (s : State) (r : Nat) => { s with flash := { s.flash with microJob := none } }.mputBits 0x1500 6 31 24 r
  match s.flash.microJob with
  | some .erase =>
    if flashOk then result (s.setVendor k ⟨[], [], none, false⟩) 0 else result (s.setVendor k { v with seq := none, delivered := false }) 3
  | some .commit =>
    if !flashOk then result s 3
    else if !(v.delivered || Config.imageComplete v.data) then result s 2
    else if !(v.delivered || Config.signatureValid v.data) then result s 1
    else
      let seq := match s.flash.selected with
        | some j => ((s.vendorSlot j).seq.getD 0 + 1) % 2 ^ 32
        | none => 1
      let s := s.setVendor k { v with seq := some seq }
      let s := { s with flash := { s.flash with selected := some k } }
      result (s.channels.foldl (fun s ch => s.modRole ch fun r => { r with imageFails := 0 }) s) 0
  | _ => s

/-- MICROCODE_COMMAND_DONE (R590). -/
def execMicrocodeCommandDone (flashOk : Bool) (s : State) : Host.Outcome State Fault Refusal :=
  .next (s.finish (s.microDone flashOk))

/-! ## The event log (R645 to R648) -/

/-- An entry of the log (R647). -/
def LogEntry.word (e : LogEntry) (seq : Nat) : Nat :=
  seq % 2 ^ 32 * 2 ^ 224 + e.time % 2 ^ 88 * 2 ^ 136 + e.source % 2 ^ 8 * 2 ^ 128 + e.code % 2 ^ 16 * 2 ^ 112 + e.detail % 2 ^ 112

/-- The sector that holds index `i` is erased (R646). -/
def eraseSector (t : Store) (i : Nat) : Store :=
  t.filter fun p => !(p.1 / 2 ^ 40 == 0x1601 && p.1 % 2 ^ 40 / 2048 == i / 2048)

/-- Step b of R547: the warning entry is written, a SAVE in progress is abandoned (R575). -/
def State.stepB (s : State) : State :=
  let s := { s with power := { s.power with warnWritten := true } }
  match s.flash.imageJob with
  | some (.save slotB _) =>
    ({ s with flash := { s.flash with imageJob := none } }.setImage slotB []).imageResult 2 |>.readHeaders
  | _ => s

/-- The oldest entry that waits reaches the flash (R646, R648); none does from step b of R547 until the warning clears. -/
def State.writeLog (s : State) : State :=
  match s.log.waiting with
  | [] => s
  | e :: rest =>
    if !s.power.powered || (s.power.warn && s.power.warnWritten) then s
    else
      let i := s.log.next % 262144
      let t := if i % 2048 = 0 then eraseSector s.mwin i else s.mwin
      let t := tabSet mwinDflt t (winKey 0x1601 i) (e.word s.log.next)
      let s := { s with mwin := t, log := { s.log with
        waiting := rest, next := (s.log.next + 1) % 2 ^ 32, held := (listedIn t 0x1601).length } }
      if s.power.warn && e.code = 2 then s.stepB else s

/-- EVENT_LOG_WRITE (R648). -/
def execEventLogWrite (s : State) : Host.Outcome State Fault Refusal := .next (s.finish s.writeLog)

end Sys2Proof.Machine
end

