-- ==== Sys2Proof/Machine/Dispatch.lean ====
section
/-! DEFINITION. The meaning of every command: one arm per constructor of Instr. -/

namespace Sys2Proof.Machine

/-- What a command does to everything but the queue. -/
def exec (i : Instr) (s : State) : Host.Outcome State Fault Refusal :=
  match i with
  | .read q => Sys2Proof.Machine.execRead q s
  | .write q => Sys2Proof.Machine.execWrite q s
  | .readBlock q => Sys2Proof.Machine.execReadBlock q s
  | .writeBlock q => Sys2Proof.Machine.execWriteBlock q s
  | .snapshot q => Sys2Proof.Machine.execSnapshot q s
  | .sessionOpen q => Sys2Proof.Machine.execSessionOpen q s
  | .sessionProve q => Sys2Proof.Machine.execSessionProve q s
  | .heartbeatRequest q => Sys2Proof.Machine.execHeartbeatRequest q s
  | .frameFromHost q => Sys2Proof.Machine.execFrameFromHost q s
  | .segmentTimeout bus src dest => Sys2Proof.Machine.execSegmentTimeout bus src dest s
  | .sequenceError bus ident kind seq total count => Sys2Proof.Machine.execSequenceError bus ident kind seq total count s
  | .challengeExpire n => Sys2Proof.Machine.execChallengeExpire n s
  | .sessionIdleExpire n => Sys2Proof.Machine.execSessionIdleExpire n s
  | .lockoutEnd node => Sys2Proof.Machine.execLockoutEnd node s
  | .moduleHeartbeat => Sys2Proof.Machine.execModuleHeartbeat s
  | .notify w => Sys2Proof.Machine.execNotify w s
  | .frameToHost ch => Sys2Proof.Machine.execFrameToHost ch s
  | .busOff bus => Sys2Proof.Machine.execBusOff bus s
  | .busOffRecovery bus => Sys2Proof.Machine.execBusOffRecovery bus s
  | .relayRequest func q => Sys2Proof.Machine.execRelayRequest func q s
  | .relayAnswer => Sys2Proof.Machine.execRelayAnswer s
  | .relayTimeout ident => Sys2Proof.Machine.execRelayTimeout ident s
  | .postedWriteApply ch dom => Sys2Proof.Machine.execPostedWriteApply ch dom s
  | .coldStart => Sys2Proof.Machine.execColdStart s
  | .brownOut => Sys2Proof.Machine.execBrownOut s
  | .resetPin lowUs released => Sys2Proof.Machine.execResetPin lowUs released s
  | .moduleReset h confirm => Sys2Proof.Machine.execModuleReset h confirm s
  | .moduleResetBegin => Sys2Proof.Machine.execModuleResetBegin s
  | .channelReset h ch => Sys2Proof.Machine.execChannelReset h ch s
  | .channelRestart ch => Sys2Proof.Machine.execChannelRestart ch s
  | .portReset h ch port => Sys2Proof.Machine.execPortReset h ch port s
  | .stageComplete p captureTrained islands => Sys2Proof.Machine.execStageComplete p captureTrained islands s
  | .stageFail p cause => Sys2Proof.Machine.execStageFail p cause s
  | .backoffExpire p => Sys2Proof.Machine.execBackoffExpire p s
  | .save h withRuntime => Sys2Proof.Machine.execSave h withRuntime s
  | .saveDone readBackOk => Sys2Proof.Machine.execSaveDone readBackOk s
  | .invalidate h slotB => Sys2Proof.Machine.execInvalidate h slotB s
  | .erase h => Sys2Proof.Machine.execErase h s
  | .commit h => Sys2Proof.Machine.execCommit h s
  | .microcodeCommandDone flashOk => Sys2Proof.Machine.execMicrocodeCommandDone flashOk s
  | .eventLogWrite => Sys2Proof.Machine.execEventLogWrite s
  | .switch h => Sys2Proof.Machine.execSwitch h s
  | .rearm h => Sys2Proof.Machine.execRearm h s
  | .isolate h ch => Sys2Proof.Machine.execIsolate h ch s
  | .release h ch => Sys2Proof.Machine.execRelease h ch s
  | .resync h => Sys2Proof.Machine.execResync h s
  | .resyncComplete => Sys2Proof.Machine.execResyncComplete s
  | .heartbeatArrival ch => Sys2Proof.Machine.execHeartbeatArrival ch s
  | .heartbeatSlot => Sys2Proof.Machine.execHeartbeatSlot s
  | .selfDeclare ch coreFault => Sys2Proof.Machine.execSelfDeclare ch coreFault s
  | .leaseLapse => Sys2Proof.Machine.execLeaseLapse s
  | .fenceConfirm ch => Sys2Proof.Machine.execFenceConfirm ch s
  | .fenceFault ch => Sys2Proof.Machine.execFenceFault ch s
  | .recoveryWindowEnd => Sys2Proof.Machine.execRecoveryWindowEnd s
  | .arbiterLost cause => Sys2Proof.Machine.execArbiterLost cause s
  | .arbiterReturn => Sys2Proof.Machine.execArbiterReturn s
  | .holdTurnExpire => Sys2Proof.Machine.execHoldTurnExpire s
  | .drillDue => Sys2Proof.Machine.execDrillDue s
  | .digestItemDone => Sys2Proof.Machine.execDigestItemDone s
  | .releasePoint => Sys2Proof.Machine.execReleasePoint s
  | .drainEnd => Sys2Proof.Machine.execDrainEnd s
  | .drainComplete => Sys2Proof.Machine.execDrainComplete s
  | .deltaApply => Sys2Proof.Machine.execDeltaApply s
  | .relayDown => Sys2Proof.Machine.execRelayDown s
  | .requestNight h => Sys2Proof.Machine.execRequestNight h s
  | .nightDrainEnd => Sys2Proof.Machine.execNightDrainEnd s
  | .requestNoon h => Sys2Proof.Machine.execRequestNoon h s
  | .requestDay h => Sys2Proof.Machine.execRequestDay h s
  | .wakeTimeDue => Sys2Proof.Machine.execWakeTimeDue s
  | .duskEntry => Sys2Proof.Machine.execDuskEntry s
  | .setPointUpdate ch periods silent measMv tj => Sys2Proof.Machine.execSetPointUpdate ch periods silent measMv tj s
  | .clrHighWater h ch => Sys2Proof.Machine.execClrHighWater h ch s
  | .junctionOvertemp ch tj => Sys2Proof.Machine.execJunctionOvertemp ch tj s
  | .islandLockLoss ch island => Sys2Proof.Machine.execIslandLockLoss ch island s
  | .supplyControllerFault => Sys2Proof.Machine.execSupplyControllerFault s
  | .inputChange x m => Sys2Proof.Machine.execInputChange x m s
  | .returningComplete x => Sys2Proof.Machine.execReturningComplete x s
  | .powerLoss => Sys2Proof.Machine.execPowerLoss s
  | .outputTrip p => Sys2Proof.Machine.execOutputTrip p s
  | .sbOutputRetry holds => Sys2Proof.Machine.execSbOutputRetry holds s
  | .supplyMeasure m => Sys2Proof.Machine.execSupplyMeasure m s
  | .mateLoopOpen => Sys2Proof.Machine.execMateLoopOpen s
  | .frameReceive ch port bytes err fecCorrected => Sys2Proof.Machine.execFrameReceive ch port bytes err fecCorrected s
  | .pauseReceive ch port m => Sys2Proof.Machine.execPauseReceive ch port m s
  | .pauseExpire ch port prio => Sys2Proof.Machine.execPauseExpire ch port prio s
  | .pauseRefresh ch port => Sys2Proof.Machine.execPauseRefresh ch port s
  | .lacpduReceive ch port info => Sys2Proof.Machine.execLacpduReceive ch port info s
  | .markerResponse ch port => Sys2Proof.Machine.execMarkerResponse ch port s
  | .lacpPeriodic ch port => Sys2Proof.Machine.execLacpPeriodic ch port s
  | .partnerExpire ch port => Sys2Proof.Machine.execPartnerExpire ch port s
  | .lockLoss ch port => Sys2Proof.Machine.execLockLoss ch port s
  | .linkDownHoldExpire ch port => Sys2Proof.Machine.execLinkDownHoldExpire ch port s
  | .linkUp ch port partnerOp => Sys2Proof.Machine.execLinkUp ch port partnerOp s
  | .anTimeout ch port => Sys2Proof.Machine.execAnTimeout ch port s
  | .anComplete ch port partnerAdv => Sys2Proof.Machine.execAnComplete ch port partnerAdv s
  | .lpiEnter ch port => Sys2Proof.Machine.execLpiEnter ch port s
  | .lpiWake ch port => Sys2Proof.Machine.execLpiWake ch port s
  | .flushFinished ch tier => Sys2Proof.Machine.execFlushFinished ch tier s
  | .plcaBeacon ch k => Sys2Proof.Machine.execPlcaBeacon ch k s
  | .transmitOpportunity ch k => Sys2Proof.Machine.execTransmitOpportunity ch k s
  | .toTimerExpire ch k => Sys2Proof.Machine.execToTimerExpire ch k s
  | .plcaBeaconReceive ch k => Sys2Proof.Machine.execPlcaBeaconReceive ch k s
  | .plcaBeaconLoss ch k => Sys2Proof.Machine.execPlcaBeaconLoss ch k s
  | .collision ch k => Sys2Proof.Machine.execCollision ch k s
  | .lateCollision ch k => Sys2Proof.Machine.execLateCollision ch k s
  | .collisionBackoffEnd ch k => Sys2Proof.Machine.execCollisionBackoffEnd ch k s
  | .tokenHandover k => Sys2Proof.Machine.execTokenHandover k s
  | .fabricFrameReceive ch l bytes err fecCorrected => Sys2Proof.Machine.execFabricFrameReceive ch l bytes err fecCorrected s
  | .beaconReceive ch l bytes => Sys2Proof.Machine.execBeaconReceive ch l bytes s
  | .beaconSend ch l => Sys2Proof.Machine.execBeaconSend ch l s
  | .beaconExpire ch l => Sys2Proof.Machine.execBeaconExpire ch l s
  | .directionFlush ch right => Sys2Proof.Machine.execDirectionFlush ch right s
  | .cutThroughStart ch l head => Sys2Proof.Machine.execCutThroughStart ch l head s
  | .cutThroughEnd ch l tail err fecCorrected => Sys2Proof.Machine.execCutThroughEnd ch l tail err fecCorrected s
  | .parseFrame ch fid => Sys2Proof.Machine.execParseFrame ch fid s
  | .lookup ch fid => Sys2Proof.Machine.execLookup ch fid s
  | .routeRound ch fid => Sys2Proof.Machine.execRouteRound ch fid s
  | .associativeSearch ch fid waited => Sys2Proof.Machine.execAssociativeSearch ch fid waited s
  | .dispatch ch fid => Sys2Proof.Machine.execDispatch ch fid s
  | .framelessDispatch ch => Sys2Proof.Machine.execFramelessDispatch ch s
  | .nextWord ch n => Sys2Proof.Machine.execNext ch n s
  | .jumpWord ch n => Sys2Proof.Machine.execJump ch n s
  | .branchT ch n => Sys2Proof.Machine.execBranchT ch n s
  | .branchF ch n => Sys2Proof.Machine.execBranchF ch n s
  | .callWord ch n => Sys2Proof.Machine.execCall ch n s
  | .returnWord ch n => Sys2Proof.Machine.execReturn ch n s
  | .endWord ch n => Sys2Proof.Machine.execEnd ch n s
  | .dropWord ch n => Sys2Proof.Machine.execDrop ch n s
  | .trapWord ch n => Sys2Proof.Machine.execTrap ch n s
  | .rttWord ch n => Sys2Proof.Machine.execRtt ch n s
  | .stepWatchdog ch n => Sys2Proof.Machine.execStepWatchdog ch n s
  | .sequencerResetEnd ch n => Sys2Proof.Machine.execSequencerResetEnd ch n s
  | .wordRepair ch copy addr => Sys2Proof.Machine.execWordRepair ch copy addr s
  | .controlStoreScrub ch => Sys2Proof.Machine.execControlStoreScrub ch s
  | .raise h ch => Sys2Proof.Machine.execRaise h ch s
  | .timeTrigger ch => Sys2Proof.Machine.execTimeTrigger ch s
  | .resultRelease ch pipe => Sys2Proof.Machine.execResultRelease ch pipe s
  | .policeFrame ch fid => Sys2Proof.Machine.execPoliceFrame ch fid s
  | .admitCopy ch => Sys2Proof.Machine.execAdmitCopy ch s
  | .selectFrame ch tier => Sys2Proof.Machine.execSelectFrame ch tier s
  | .matchingRound ch => Sys2Proof.Machine.execMatchingRound ch s
  | .recirculate ch => Sys2Proof.Machine.execRecirculate ch s
  | .egressEdit ch fid no => Sys2Proof.Machine.execEgressEdit ch fid no s
  | .transmitStart ch port => Sys2Proof.Machine.execTransmitStart ch port s
  | .frameSent ch port => Sys2Proof.Machine.execFrameSent ch port s
  | .launchStart ch port => Sys2Proof.Machine.execLaunchStart ch port s
  | .lateLaunch ch port => Sys2Proof.Machine.execLateLaunch ch port s
  | .releaseCells ch fid no owner ptr pool => Sys2Proof.Machine.execReleaseCells ch fid no owner ptr pool s
  | .requesterGrant ch pool => Sys2Proof.Machine.execRequesterGrant ch pool s
  | .requesterWaitTimeout ch pool => Sys2Proof.Machine.execRequesterWaitTimeout ch pool s
  | .shaperRefill ch => Sys2Proof.Machine.execShaperRefill ch s
  | .learn ch => Sys2Proof.Machine.execLearn ch s
  | .move ch => Sys2Proof.Machine.execMove ch s
  | .stashMigration ch t => Sys2Proof.Machine.execStashMigration ch t s
  | .ageTick ch => Sys2Proof.Machine.execAgeTick ch s
  | .sweepRead ch => Sys2Proof.Machine.execSweepRead ch s
  | .ageDelete ch => Sys2Proof.Machine.execAgeDelete ch s
  | .tableRead h ch t => Sys2Proof.Machine.execTableRead h ch t s
  | .tableWrite h ch t => Sys2Proof.Machine.execTableWrite h ch t s
  | .tableInsert h ch t => Sys2Proof.Machine.execTableInsert h ch t s
  | .tableDelete h ch t => Sys2Proof.Machine.execTableDelete h ch t s
  | .tableSearch h ch t => Sys2Proof.Machine.execTableSearch h ch t s
  | .tableNext h ch t => Sys2Proof.Machine.execTableNext h ch t s
  | .flushByPort h ch sub keepStatic => Sys2Proof.Machine.execFlushByPort h ch sub keepStatic s
  | .ageNow h ch => Sys2Proof.Machine.execAgeNow h ch s
  | .flushVrf h ch v6 => Sys2Proof.Machine.execFlushVrf h ch v6 s
  | .cleanFilter h ch v6 => Sys2Proof.Machine.execCleanFilter h ch v6 s
  | .lpmSearch h ch v6 => Sys2Proof.Machine.execLpmSearch h ch v6 s
  | .tableCommandDone ch t => Sys2Proof.Machine.execTableCommandDone ch t s
  | .searchEntryRead h ch => Sys2Proof.Machine.execSearchEntryRead h ch s
  | .searchEntryWrite h ch => Sys2Proof.Machine.execSearchEntryWrite h ch s
  | .searchEntryClear h ch => Sys2Proof.Machine.execSearchEntryClear h ch s
  | .searchCommandSearch h ch gmask => Sys2Proof.Machine.execSearchCommandSearch h ch gmask s
  | .nextMatch h ch gmask => Sys2Proof.Machine.execNextMatch h ch gmask s
  | .clearAll h ch => Sys2Proof.Machine.execClearAll h ch s
  | .searchUpdateApply ch => Sys2Proof.Machine.execSearchUpdateApply ch s
  | .searchScrub ch => Sys2Proof.Machine.execSearchScrub ch s
  | .captureIntake ch => Sys2Proof.Machine.execCaptureIntake ch s
  | .blockAged ch => Sys2Proof.Machine.execBlockAged ch s
  | .blockWriteDone ch ok => Sys2Proof.Machine.execBlockWriteDone ch ok s
  | .flush h ch => Sys2Proof.Machine.execFlush h ch s
  | .freeze h ch => Sys2Proof.Machine.execFreeze h ch s
  | .captureRelease h ch => Sys2Proof.Machine.execCaptureRelease h ch s
  | .locate h ch => Sys2Proof.Machine.execLocate h ch s
  | .checkStart h ch unit => Sys2Proof.Machine.execCheckStart h ch unit s
  | .abort h ch unit => Sys2Proof.Machine.execAbort h ch unit s
  | .checkChunk ch unit readError => Sys2Proof.Machine.execCheckChunk ch unit readError s
  | .checkJobEnd ch unit => Sys2Proof.Machine.execCheckJobEnd ch unit s
  | .timeTick ch => Sys2Proof.Machine.execTimeTick ch s
  | .ppsOutFall ch => Sys2Proof.Machine.execPpsOutFall ch s
  | .ppsInEdge ch => Sys2Proof.Machine.execPpsInEdge ch s
  | .incrementWrite h ch inc => Sys2Proof.Machine.execIncrementWrite h ch inc s
  | .offsetStep h ch offset => Sys2Proof.Machine.execOffsetStep h ch offset s
  | .timeSet h ch time => Sys2Proof.Machine.execTimeSet h ch time s
  | .copyPartner h ch => Sys2Proof.Machine.execCopyPartner h ch s
  | .partnerTimeCopy ch => Sys2Proof.Machine.execPartnerTimeCopy ch s
  | .timestampPop h ch port => Sys2Proof.Machine.execTimestampPop h ch port s
  | .islandRelock ch island => Sys2Proof.Machine.execIslandRelock ch island s
  | .mateLoopClose => Sys2Proof.Machine.execMateLoopClose s
  | .falseCarrier ch k => Sys2Proof.Machine.execFalseCarrier ch k s
  | .receiveLowPowerIdle ch port entered => Sys2Proof.Machine.execReceiveLowPowerIdle ch port entered s
  | .managementLinkChange up => Sys2Proof.Machine.execManagementLinkChange up s
  | .notifyIntervalEnd w => Sys2Proof.Machine.execNotifyIntervalEnd w s
  | .contactHoldEnd c => Sys2Proof.Machine.execContactHoldEnd c s
  | .captureCommandDone ch => Sys2Proof.Machine.execCaptureCommandDone ch s
  | .portResetDone => Sys2Proof.Machine.execPortResetDone s
  | .invalidateDone => Sys2Proof.Machine.execInvalidateDone s

end Sys2Proof.Machine
end

