-- ==== Sys2Proof/WellFormed.lean ====
section
/-! DEFINITION. Well-formed commands: every operand fits its field, and names a part that the module has (R2, R592 to R599). -/

namespace Sys2Proof

/-- A number from `lo` to `hi`. -/
def within (lo hi n : Nat) : Bool := Nat.ble lo n && Nat.ble n hi

/-- A bus or port; an address has 48 bits, and a relay frame comes from a module of 1 to 64 (R7). -/
def busOk : Bus → Bool
  | .eth mac => Nat.blt mac (2 ^ 48)
  | .relay m => within 1 64 m
  | _ => true

/-- The fields of an identifier (R593) and the longest message (R598). -/
def requestOk (q : Request) : Bool :=
  busOk q.bus && within 0 7 q.prio && within 0 127 q.dest && within 0 127 q.src && within 0 63 q.tag &&
    Nat.ble q.msg.length 65600

/-- The same of an authenticated write, with a COUNTER of 32 bits and a MAC of 8 bytes (R600, R606). -/
def headerOk (h : AuthHdr) : Bool :=
  busOk h.bus && within 0 7 h.prio && within 0 127 h.dest && within 0 127 h.src && within 0 63 h.tag &&
    Nat.blt h.counter (2 ^ 32) && h.mac.length == 8

/-- A channel that the variant has (R2). -/
def chanOk (v : Variant) : Ch → Bool
  | .a => true
  | .b => v != .C

/-- A bring-up part. -/
def partOk (v : Variant) : Part → Bool
  | .sb => true
  | .chan c => chanOk v c

/-- A posted domain (R30, R655). -/
def domainOk : Domain → Bool
  | .portMacro m => within 1 12 m
  | .fabricMacro m => within 1 2 m
  | _ => true

/-- Ports by kind (R32): front, multidrop (65 to 80), with a line, with flow control, and the tiers of R378. -/
def frontOk (p : Nat) : Bool := within 1 48 p
def dropPortOk (p : Nat) : Bool := within 65 80 p
def linePortOk (p : Nat) : Bool := within 1 52 p || dropPortOk p
def flowPortOk (p : Nat) : Bool := within 1 52 p
def tierOk (e : Nat) : Bool := (within 1 54 e || dropPortOk e) && e != 50 && e != 52

/-- Whether a command is well-formed for a module of variant `v`. -/
def wellFormed (v : Variant) : Instr → Bool
  | .read q | .write q | .readBlock q | .writeBlock q | .snapshot q | .sessionOpen q | .sessionProve q
  | .heartbeatRequest q | .frameFromHost q => requestOk q
  | .segmentTimeout b src dest => busOk b && within 0 127 src && within 0 127 dest
  | .sequenceError b ident _ seq _ _ => busOk b && Nat.blt ident (2 ^ 29) && within 0 63 seq
  | .challengeExpire n | .sessionIdleExpire n => within 1 8 n
  | .lockoutEnd node => within 0 127 node
  | .notify w | .notifyIntervalEnd w => within 1 16 w
  | .frameToHost ch => chanOk v ch
  | .busOff e => e.bus == .canA || e.bus == .canB
  | .busOffRecovery b => b == .canA || b == .canB
  | .relayRequest func q => Nat.blt func 32 && requestOk q
  | .relayTimeout ident => Nat.blt ident (2 ^ 29)
  | .postedWriteApply ch d => chanOk v ch && domainOk d
  | .moduleReset h confirm => headerOk h && Nat.blt confirm (2 ^ 16)
  | .portReset h _ port => headerOk h && within 0 127 port
  | .channelReset h _ | .isolate h _ | .release h _ | .clrHighWater h _ | .raise h _ => headerOk h
  | .channelRestart ch => chanOk v ch
  | .stageComplete p _ islands => partOk v p && Nat.blt islands (2 ^ 29)
  | .stageFail p cause => partOk v p && within 1 10 cause
  | .backoffExpire p | .outputTrip p => partOk v p
  | .save h _ | .invalidate h _ => headerOk h
  | .erase h | .commit h | .switch h | .rearm h | .requestNight h | .requestNoon h | .requestDay h => headerOk h
  | .resync (some h) => headerOk h
  | .heartbeatArrival ch | .fenceConfirm ch | .fenceFault ch => chanOk v ch
  | .selfDeclare ch _ => chanOk v ch
  | .setPointUpdate ch periods silent measMv tj =>
    chanOk v ch && periods.length == 8 && silent.all (Nat.ble · 7) && Nat.blt measMv 1024 && Nat.blt tj (2 ^ 16)
  | .junctionOvertemp ch tj => chanOk v ch && Nat.blt tj (2 ^ 16)
  | .islandLockLoss ch i | .islandRelock ch i => chanOk v ch && within 0 28 i
  | .frameReceive ch p _ _ _ => chanOk v ch && (frontOk p || dropPortOk p)
  | .pauseReceive ch p _ | .pauseExpire ch p _ | .pauseRefresh ch p | .lockLoss ch p | .linkUp ch p _
  | .launchStart ch p | .lateLaunch ch p => chanOk v ch && flowPortOk p
  | .lacpduReceive ch p _ | .markerResponse ch p | .lacpPeriodic ch p | .partnerExpire ch p | .linkDownHoldExpire ch p
  | .anTimeout ch p | .anComplete ch p _ | .lpiEnter ch p | .lpiWake ch p | .receiveLowPowerIdle ch p _ =>
    chanOk v ch && frontOk p
  | .flushFinished ch e | .selectFrame ch e => chanOk v ch && tierOk e
  | .plcaBeacon ch k | .transmitOpportunity ch k | .toTimerExpire ch k | .plcaBeaconReceive ch k | .plcaBeaconLoss ch k
  | .collision ch k | .lateCollision ch k | .collisionBackoffEnd ch k | .falseCarrier ch k => chanOk v ch && within 1 16 k
  | .tokenHandover k => within 1 16 k
  | .fabricFrameReceive ch l _ _ _ | .beaconReceive ch l _ | .beaconSend ch l | .beaconExpire ch l
  | .cutThroughStart ch l _ | .cutThroughEnd ch l _ _ _ => chanOk v ch && within 1 4 l
  | .directionFlush ch _ => chanOk v ch
  | .parseFrame ch _ | .lookup ch _ | .routeRound ch _ | .associativeSearch ch _ _ | .dispatch ch _ | .framelessDispatch ch =>
    chanOk v ch
  | .nextWord ch n | .jumpWord ch n | .branchT ch n | .branchF ch n | .callWord ch n | .returnWord ch n | .endWord ch n
  | .dropWord ch n | .trapWord ch n | .rttWord ch n | .stepWatchdog ch n | .sequencerResetEnd ch n =>
    chanOk v ch && within 0 255 n
  | .wordRepair ch copy addr => chanOk v ch && within 0 7 copy && Nat.blt addr 16384
  | .controlStoreScrub ch | .timeTrigger ch | .policeFrame ch _ | .admitCopy ch | .matchingRound ch | .recirculate ch
  | .egressEdit ch _ _ | .shaperRefill ch | .learn ch | .move ch | .stashMigration ch _ | .ageTick ch | .sweepRead ch
  | .ageDelete ch | .tableCommandDone ch _ | .searchUpdateApply ch | .searchScrub ch | .captureIntake ch | .blockAged ch
  | .blockWriteDone ch _ | .timeTick ch | .ppsOutFall ch | .ppsInEdge ch | .partnerTimeCopy ch | .captureCommandDone ch =>
    chanOk v ch
  | .resultRelease ch pipe => chanOk v ch && within 0 7 pipe
  | .transmitStart ch p | .frameSent ch p => chanOk v ch && linePortOk p
  | .releaseCells ch _ _ _ _ pool => chanOk v ch && within 0 15 pool
  | .requesterGrant ch pool | .requesterWaitTimeout ch pool => chanOk v ch && within 0 14 pool
  | .tableRead h _ _ | .tableWrite h _ _ | .tableInsert h _ _ | .tableDelete h _ _ | .tableSearch h _ _ | .tableNext h _ _
  | .flushVrf h _ _ | .cleanFilter h _ _ | .lpmSearch h _ _ => headerOk h
  | .flushByPort h _ _ _ => headerOk h
  | .ageNow h _ | .searchEntryRead h _ | .searchEntryWrite h _ | .searchEntryClear h _ | .clearAll h _ | .flush h _
  | .freeze h _ | .captureRelease h _ | .locate h _ | .copyPartner h _ => headerOk h
  | .searchCommandSearch h _ gmask | .nextMatch h _ gmask => headerOk h && within 0 15 gmask
  | .checkStart h _ unit | .abort h _ unit => headerOk h && within 0 3 unit
  | .checkChunk ch unit _ | .checkJobEnd ch unit => chanOk v ch && within 0 3 unit
  | .incrementWrite h _ inc => headerOk h && Nat.blt inc (2 ^ 64)
  | .offsetStep h _ offset => headerOk h && Nat.blt offset (2 ^ 64)
  | .timeSet h _ time => headerOk h && Nat.blt time (2 ^ 96)
  | .timestampPop h _ port => headerOk h && within 0 127 port
  | .resync none | .moduleHeartbeat | .relayAnswer | .coldStart | .brownOut | .resetPin _ _ | .moduleResetBegin
  | .saveDone _ | .microcodeCommandDone _ | .eventLogWrite | .resyncComplete | .heartbeatSlot | .leaseLapse
  | .recoveryWindowEnd | .arbiterLost _ | .arbiterReturn | .holdTurnExpire | .drillDue | .digestItemDone | .releasePoint
  | .drainEnd | .drainComplete | .deltaApply | .relayDown | .nightDrainEnd | .wakeTimeDue | .duskEntry
  | .supplyControllerFault | .inputChange _ _ | .returningComplete _ | .powerLoss | .sbOutputRetry _ | .supplyMeasure _
  | .mateLoopOpen | .mateLoopClose | .managementLinkChange _ | .contactHoldEnd _ | .portResetDone | .invalidateDone => true

end Sys2Proof
end

