-- ==== Sys2Proof/Safety.lean ====
section
/-! DEFINITION. What counts as a safe run of the module, in the terms that the statements use. -/

namespace Sys2Proof.Machine

/-! ## Roles -/

/-- What the spec's rules on roles keep true of one channel: it is ACTIVE only under the lease or the drain permission (R46),
one channel has not both, a fenced channel is in a state that transmits nothing (R494), stage 8 has lifted the fence of a
starting channel, no channel is ACTIVE while a grant waits for a fence or a TWILIGHT-hold lasts (R495, R512), a channel that is
being reinstated is unfenced in OFF or STARTING while no channel holds a role (R511), and an absent channel B reads OFF and takes no
part (R10). -/
def leaseOk (s : State) (ch : Ch) : Bool :=
  let r := s.role ch
  let a := s.arb
  (r.st != .active || a.holder == some ch || a.drainer == some ch) &&
  (a.holder != some ch || (r.st == .active && a.drainer != some ch)) &&
  (a.drainer != some ch || r.st == .active || r.st == .draining) &&
  (r.st != .draining || a.drainer == some ch) && (!r.fence || !(a.pending.any fun g => g.dest == ch)) &&
  (!r.fence || r.st.holdsWrites) && (!(r.fence && r.st == .starting) || Nat.ble r.stage 7) &&
  (a.pending.isNone || a.hold.isNone) && ((a.pending.isNone && a.hold.isNone) || (r.st != .active && r.st != .draining)) &&
  (!(a.back.any fun b => b.chan == ch) || (!r.fence && (r.st == .off || r.st == .starting))) &&
  (a.back.isNone || (a.holder.isNone && a.hold.isNone && a.pending.isNone && a.drainer.isNone)) &&
  (s.present ch ||
    (r.st == .off && a.holder != some ch && a.hold != some ch && !(a.pending.any fun g => g.dest == ch) &&
      !(a.back.any fun b => b.chan == ch) && !(a.window.any fun w => w.first == ch || w.new == ch) &&
      !(a.drill.any fun d => d.old == ch || d.new == ch)))

/-- The role invariant of the module. -/
def LeaseInv (s : State) : Prop := leaseOk s .a = true ∧ leaseOk s .b = true

/-- Every store of the service block is in its canonical form. -/
def ModuleStores (s : State) : Prop := tabWf mDflt s.mdict = true ∧ tabWf mwinDflt s.mwin = true

/-! ## Parts that commands name -/

/-- The channel that a command acts on, where it names one directly; a host message that names channel B in variant C is answered. -/
def channelOf : Instr → Option Ch
  | .frameToHost ch | .postedWriteApply ch _ | .channelRestart ch | .stageComplete (.chan ch) _ _ | .stageFail (.chan ch) _
  | .backoffExpire (.chan ch) | .outputTrip (.chan ch) | .heartbeatArrival ch | .selfDeclare ch _ | .fenceConfirm ch
  | .fenceFault ch | .setPointUpdate ch _ _ _ _ | .junctionOvertemp ch _ | .islandLockLoss ch _ | .islandRelock ch _
  | .frameReceive ch _ _ _ _ | .pauseReceive ch _ _ | .pauseExpire ch _ _ | .pauseRefresh ch _ | .lacpduReceive ch _ _
  | .markerResponse ch _ | .lacpPeriodic ch _ | .partnerExpire ch _ | .lockLoss ch _ | .linkDownHoldExpire ch _ | .linkUp ch _ _
  | .anTimeout ch _ | .anComplete ch _ _ | .lpiEnter ch _ | .lpiWake ch _ | .receiveLowPowerIdle ch _ _ | .flushFinished ch _
  | .plcaBeacon ch _ | .transmitOpportunity ch _ | .toTimerExpire ch _ | .plcaBeaconReceive ch _ | .plcaBeaconLoss ch _
  | .collision ch _ | .lateCollision ch _ | .collisionBackoffEnd ch _ | .falseCarrier ch _ | .fabricFrameReceive ch _ _ _ _
  | .beaconReceive ch _ _ | .beaconSend ch _ | .beaconExpire ch _ | .directionFlush ch _ | .cutThroughStart ch _ _
  | .cutThroughEnd ch _ _ _ _ | .parseFrame ch _ | .lookup ch _ | .routeRound ch _ | .associativeSearch ch _ _ | .dispatch ch _
  | .framelessDispatch ch | .nextWord ch _ | .jumpWord ch _ | .branchT ch _ | .branchF ch _ | .callWord ch _ | .returnWord ch _
  | .endWord ch _ | .dropWord ch _ | .trapWord ch _ | .rttWord ch _ | .stepWatchdog ch _ | .sequencerResetEnd ch _
  | .wordRepair ch _ _ | .controlStoreScrub ch | .timeTrigger ch | .resultRelease ch _ | .policeFrame ch _ | .admitCopy ch
  | .selectFrame ch _ | .matchingRound ch | .recirculate ch | .egressEdit ch _ _ | .transmitStart ch _ | .frameSent ch _
  | .launchStart ch _ | .lateLaunch ch _ | .releaseCells ch _ _ _ _ _ | .requesterGrant ch _ | .requesterWaitTimeout ch _
  | .shaperRefill ch | .learn ch | .move ch | .stashMigration ch _ | .ageTick ch | .sweepRead ch | .ageDelete ch
  | .tableCommandDone ch _ | .searchUpdateApply ch | .searchScrub ch | .captureIntake ch | .blockAged ch | .blockWriteDone ch _
  | .checkChunk ch _ _ | .checkJobEnd ch _ | .timeTick ch | .ppsOutFall ch | .ppsInEdge ch | .partnerTimeCopy ch
  | .captureCommandDone ch => some ch
  | _ => none

/-- Whether the port, link, island, sequencer, pipeline, pool, unit, watch or bus that a command names exists (R2, R30, R35, R54, R68,
R292, R344, R469, R622). -/
def partExists : Instr → Bool
  | .notify w | .notifyIntervalEnd w => within 1 16 w
  | .busOff e => e.bus == .canA || e.bus == .canB
  | .busOffRecovery b => b == .canA || b == .canB
  | .postedWriteApply _ d => domainOk d
  | .islandLockLoss _ i | .islandRelock _ i => within 0 28 i
  | .frameReceive _ p _ _ _ => frontOk p || dropPortOk p
  | .pauseReceive _ p _ | .pauseExpire _ p _ | .pauseRefresh _ p | .lockLoss _ p | .linkUp _ p _ | .launchStart _ p
  | .lateLaunch _ p => flowPortOk p
  | .lacpduReceive _ p _ | .markerResponse _ p | .lacpPeriodic _ p | .partnerExpire _ p | .linkDownHoldExpire _ p
  | .anTimeout _ p | .anComplete _ p _ | .lpiEnter _ p | .lpiWake _ p | .receiveLowPowerIdle _ p _ => frontOk p
  | .flushFinished _ e | .selectFrame _ e => tierOk e
  | .plcaBeacon _ k | .transmitOpportunity _ k | .toTimerExpire _ k | .plcaBeaconReceive _ k | .plcaBeaconLoss _ k
  | .collision _ k | .lateCollision _ k | .collisionBackoffEnd _ k | .falseCarrier _ k | .tokenHandover k => within 1 16 k
  | .fabricFrameReceive _ l _ _ _ | .beaconReceive _ l _ | .beaconSend _ l | .beaconExpire _ l | .cutThroughStart _ l _
  | .cutThroughEnd _ l _ _ _ => within 1 4 l
  | .nextWord _ n | .jumpWord _ n | .branchT _ n | .branchF _ n | .callWord _ n | .returnWord _ n | .endWord _ n | .dropWord _ n
  | .trapWord _ n | .rttWord _ n | .stepWatchdog _ n | .sequencerResetEnd _ n => within 0 255 n
  | .wordRepair _ copy addr => within 0 7 copy && Nat.blt addr 16384
  | .resultRelease _ pipe => within 0 7 pipe
  | .transmitStart _ p | .frameSent _ p => linePortOk p
  | .requesterGrant _ pool | .requesterWaitTimeout _ pool => within 0 14 pool
  | .checkChunk _ unit _ | .checkJobEnd _ unit => within 0 3 unit
  | _ => true

/-- A command that names channel B of a module without one (R2). -/
def namesAbsent (s : State) (i : Instr) : Bool := (channelOf i).any fun ch => !s.present ch

/-! ## Frames -/

/-- The module outside its channels is as it was, but for what any channel may hand over: log entries with the count of lost ones,
deltas and MIRROR_STALE, messages put out, free values drawn, new bits of watched flags and relay frames delivered. -/
def sameModule (s t : State) : Prop :=
  t.unit = s.unit ∧ t.mwin = s.mwin ∧ t.bring = s.bring ∧ t.arb = s.arb ∧ t.power = s.power ∧ t.mode = s.mode ∧
  t.flash = s.flash ∧ t.pending = s.pending ∧ t.sbTime = s.sbTime ∧
  (∀ ch, { t.role ch with stale := (s.role ch).stale } = s.role ch) ∧
  { t.host with watchNew := s.host.watchNew, relayIn := s.host.relayIn } = s.host ∧
  ∀ idx sub, sub < 256 → (idx, sub) ≠ (0x1600, 2) → t.mreg idx sub = s.mreg idx sub

/-- The same, and the other channel is untouched: all that a command of channel `ch` leaves alone. -/
def sameOutside (ch : Ch) (s t : State) : Prop := t.chan ch.other = s.chan ch.other ∧ sameModule s t

/-- The command answers a next state for which `ok` holds and which leaves alone what lies outside channel `ch`. -/
def answersOn (i : Instr) (ch : Ch) (s : State) (ok : State → Prop) : Prop :=
  ∃ t, exec i s = .next t ∧ sameOutside ch s t ∧ ok t

/-- What a command of the module that is no role, mode, reset or power command leaves alone. -/
def sameBoard (s t : State) : Prop :=
  t.unit = s.unit ∧ t.mwin = s.mwin ∧ t.bring = s.bring ∧ t.arb = s.arb ∧ t.flash = s.flash ∧ t.pending = s.pending ∧
  t.sbTime = s.sbTime ∧ { t.power with fault := s.power.fault, role := s.power.role } = s.power ∧
  ∀ ch, { t.role ch with stale := (s.role ch).stale } = s.role ch

/-- What the end of a command of the module (its channels following a role or mode, the mode change noted, the contacts) leaves of
the state `u` that its effect made. -/
def settles (u t : State) : Prop :=
  sameBoard u t ∧ { t.host with watchNew := u.host.watchNew, relayIn := u.host.relayIn } = u.host ∧
  ∀ idx sub, sub < 256 → (idx, sub) ∉ [(0x1600, 2), (0x1106, 0), (0x1108, 2)] → t.mreg idx sub = u.mreg idx sub

/-- Of a channel nothing differs but the listed objects and its emptied outbox. -/
def onlyRegs (c d : Channel) (but : List (Nat × Nat)) : Prop :=
  { d with dict := c.dict, box := c.box } = c ∧
  ∀ idx sub, sub < 256 → (idx, sub) ∉ but → d.reg idx sub = c.reg idx sub

/-- The objects of a channel but the listed ones are as they were; other fields may differ. -/
def keepsRegs (c d : Channel) (but : List (Nat × Nat)) : Prop :=
  ∀ idx sub, sub < 256 → (idx, sub) ∉ but → d.reg idx sub = c.reg idx sub

/-- A counter has counted `n` more, modulo 2^64 (R114). -/
def counts (c d : Channel) (idx sub n : Nat) : Prop := d.reg idx sub = (c.reg idx sub + n) % 2 ^ 64

/-- Bits of a flag object are set, and no bit of it has cleared. -/
def flagged (c d : Channel) (idx sub mask : Nat) : Prop := d.reg idx sub = c.reg idx sub ||| mask

/-- The messages that came out, oldest first. -/
def putsOut (s t : State) (l : List Sent) : Prop := t.sent = s.sent ++ l

/-! ## Microwords -/

/-- Sequencer `n` runs a routine within its step limit and its next word, read without error from its group's copy, is the
valid word `m` of the customer region or of a vendor routine other than the units of log entry 6. -/
def atWord (c : Channel) (n : Nat) (m : MicroWord) : Prop :=
  (c.seq n).busy = true ∧ (c.seq n).inReset = false ∧ c.expired (c.seq n) = false ∧ (c.seq n).pc < 0x10000 ∧
  (c.seq n).pc ≠ 0 ∧ (c.seq n).pc ≠ 0x18 ∧ (c.seq n).pc ≠ 0x19 ∧ m.reserved = false ∧
  ∃ d, readWord (c.storeWord (n / 32) (c.seq n).pc) = .clean d ∧ microWord d = m

/-- What the RESOLVE of a word gives, and the channel after it: the drop code or 0, the entry; a word of another side operation gives
nothing (R186, R301). -/
def resolved (c : Channel) (cx : Ctx) (q : SeqSt) (m : MicroWord) : Nat × Option Nat × Channel :=
  if m.side = 13 then c.resolveWord cx q m else (0, none, c)

/-- The stages of the forwarding pipeline of a channel run: it is present, and the module has not entered NIGHT (R538). -/
def pipeRuns (s : State) (ch : Ch) : Prop := s.present ch = true ∧ s.mode.night ≠ .asleep

/-- Bit `i` of a control store word is in error. -/
def flipBit (w i : Nat) : Nat := w ^^^ 2 ^ i

/-! ## Signed writes -/

/-- The fields of a WRITE that its MAC covers beside the identifier (R600, R606). -/
def signedBody (h : AuthHdr) (idx sub : Nat) (data : List Byte) : List Byte :=
  leBytes 2 idx ++ leBytes 1 sub ++ leBytes 1 1 ++ leBytes 4 h.counter ++ leBytes 2 data.length ++ data

/-- A proven session of the sender vouches for a WRITE (R602, R606): its MAC, a counter not used yet, its key slot. -/
def vouchedBy (x : Session) (h : AuthHdr) (idx sub : Nat) (data : List Byte) : Prop :=
  x.counter < h.counter ∧ (slotZeroOnly idx sub = true → x.slot = 0) ∧
  h.mac = (hmac x.skey (leBytes 4 (requestIdent (writeRequest h idx sub data) 2) ++ signedBody h idx sub data)).take 8

/-- The host port executes a WRITE with this envelope (R592, R597, R606, R614, R615): it runs, the message passes on its bus, its
nodes are right, it is no stored duplicate and did not find the port full, and a proven session vouches for it. -/
def signedOk (s : State) (h : AuthHdr) (idx sub : Nat) (data : List Byte) : Prop :=
  s.hostUp = true ∧ (∀ m, h.bus ≠ .relay m) ∧ s.busUp h.bus = true ∧ 65 ≤ h.src ∧ h.src ≤ 126 ∧ h.dest = s.node ∧
  h.counter < 2 ^ 32 ∧ h.mac.length = 8 ∧ s.host.refuse.contains 0 = false ∧
  ((s.recentDups h.src).any fun d => d.tag == h.tag && d.func == 2 && d.msg == (writeRequest h idx sub data).msg) = false ∧
  s.inDawn idx = false ∧ ∃ x, s.sessionOf h.src = some x ∧ vouchedBy x h idx sub data

/-- A WRITE of `v` to a module object that the host port executes. -/
def signedModule (s : State) (h : AuthHdr) (idx sub v : Nat) : Prop :=
  signedOk s h idx sub (carryObj idx sub (valueSize idx sub) v)

/-- A WRITE of `v` to an object of a channel, by its channel A index, that the host port executes; the channel is present, in a state
and mode that takes writes (R569, R539), and DUSK does not end with the command (`State.endDusk`). -/
def signedChannel (s : State) (h : AuthHdr) (ch : Ch) (idx sub v : Nat) : Prop :=
  signedOk s h (idx + 0x2000 * ch.num) sub (carryObj idx sub (valueSize idx sub) v) ∧ s.present ch = true ∧
  (s.role ch).st.holdsWrites = false ∧ s.mode.night = .awake ∧ (s.mode.dusk && s.modeCode != 3) = false

/-- A message has gone out on a bus or port: each of its frames has (R596, R598). -/
def sentOn (t : State) (bus : Bus) (ident : Nat) (m : List Byte) : Prop := ∀ f ∈ framesOf t.unit.mac bus ident m, f ∈ t.sent

/-- The WRITE has been answered with status OK (R601). -/
def answeredOk (t : State) (h : AuthHdr) (idx sub : Nat) : Prop :=
  sentOn t h.bus (answerIdent (writeRequest h idx sub []) 2)
    (leBytes 2 0 ++ leBytes 2 idx ++ leBytes 1 sub ++ [0] ++ leBytes 4 h.counter)

end Sys2Proof.Machine
end

