-- ==== Sys2Proof/Certificates/Slice0/Obligations.lean ====
section
/-! DEFINITION. The statements for the provers, and the notions they are stated in. -/

open Sys2Proof Sys2Proof.Machine

/-! ## Queue and outcomes -/

/-- For every command and state, a step of the state with the command put at the front of its queue is exec of that command on the state with the queue's rest; a step on an empty queue answers the same state. The queue and the idle step are the model's own (log entry 1). -/
def Obligations.StepRunsFront : Prop :=
  (∀ (c : Instr) (s : State), step { s with pending := c :: s.pending } = exec c s) ∧
  (∀ s : State, s.pending = [] → step s = .next s)

/-- Whatever command runs, where it answers a next state the waiting commands and the unit's variant, hardware revision, serial number, MAC address and straps are unchanged. -/
def Obligations.QueueAndUnitKept : Prop :=
  ∀ (i : Instr) (s t : State), exec i s = .next t → t.pending = s.pending ∧ t.unit = s.unit

/-- Every command answers a next state in every state, but for a command that names channel B of a variant C module (fault noSuchChannel) and one that names a port, link, island, sequencer, pipeline, pool, unit, watch or bus that does not exist (fault noSuchPart). -/
def Obligations.OutcomeOfEveryCommand : Prop :=
  ∀ (i : Instr) (s : State),
    (namesAbsent s i = true → exec i s = .fault .noSuchChannel) ∧
    (namesAbsent s i = false → partExists i = false → exec i s = .fault .noSuchPart) ∧
    (namesAbsent s i = false → partExists i = true → ∃ t, exec i s = .next t)

/-- A command whose operands fit the module's variant never faults and is never refused by the model. -/
def Obligations.WellFormedCompletes : Prop :=
  ∀ (i : Instr) (s : State), wellFormed s.unit.variant i = true → ∃ t, exec i s = .next t

/-! ## Invariants -/

/-- If a channel is ACTIVE only under the lease or the drain permission, has not both, a fenced channel transmits nothing, and no channel is ACTIVE while a grant waits or a TWILIGHT-hold lasts, then the same holds after any command. -/
def Obligations.LeaseInvKept : Prop :=
  ∀ s t : State, LeaseInv s → step s = .next t → LeaseInv t

/-- The object dictionary and the windows of the service block stay sorted, without repeats and without an entry equal to what an unlisted one reads as, so that equal contents are equal data. -/
def Obligations.ModuleStoresKept : Prop :=
  ∀ s t : State, ModuleStores s → step s = .next t → ModuleStores t

/-- The rules of roles and the canonical form of the service block's stores hold in the state after reset. -/
def Obligations.InvariantsAtReset : Prop :=
  LeaseInv State.reset ∧ ModuleStores State.reset

/-- While the arbiter is lost, no command but its return makes a channel the lease holder that was not the holder before. -/
def Obligations.NoNewHolderWhileLost : Prop :=
  ∀ (i : Instr) (s t : State) (h : Ch), exec i s = .next t → s.arb.ok = false → i ≠ .arbiterReturn →
    t.arb.holder = some h → s.arb.holder = some h

/-- From OFF only STARTING and from ISOLATED only OFF: no single command takes a channel from either state to STANDBY, ACTIVE or DRAINING. A channel that was in STANDBY or STARTING and is ACTIVE after a command holds the lease then, and no drain permission. -/
def Obligations.ServiceOnlyByGrant : Prop :=
  (∀ (i : Instr) (s t : State) (ch : Ch), LeaseInv s → exec i s = .next t →
    (s.role ch).st = .off ∨ (s.role ch).st = .isolated → (t.role ch).st ≠ .active ∧ (t.role ch).st ≠ .standby ∧
      (t.role ch).st ≠ .draining) ∧
  (∀ (i : Instr) (s t : State) (ch : Ch), LeaseInv s → exec i s = .next t →
    (s.role ch).st = .standby ∨ (s.role ch).st = .starting → (t.role ch).st = .active →
      t.arb.holder = some ch ∧ t.arb.drainer ≠ some ch)

/-! ## The time base -/

/-- Where the channel is not in OFF, a tick adds the increment in force to nanoseconds and fraction together; at 1,000,000,000 nanoseconds or more they lose that much and the seconds count one more, from 2^48 - 1 to 0. The default increment is 4 ns. But for the 1PPS output nothing else of the module changes. That an OFF channel has no running time base is the model's choice (log entry 17), so OFF is left out here. -/
def Obligations.TimeTickAddsIncrement : Prop :=
  chDflt (objKey 0x4B03 0) = 4 * 2 ^ 32 ∧
  ∀ (s : State) (ch : Ch), s.present ch = true → (s.role ch).st ≠ .off →
    ∃ t d, exec (.timeTick ch) s = .next t ∧ sameOutside ch s t ∧ t.chan ch = { (s.chan ch).emptied with time := d } ∧
      (let b := (s.chan ch).time
       let sum := b.ns * 2 ^ 32 + b.frac + bits ((s.chan ch).hw 0x4B03 0) 39 0
       d.frac = sum % 2 ^ 32 ∧
       (sum < 1000000000 * 2 ^ 32 → d.ns = sum / 2 ^ 32 ∧ d.sec = b.sec) ∧
       (1000000000 * 2 ^ 32 ≤ sum → d.ns + 1000000000 = sum / 2 ^ 32 ∧ d.sec = (b.sec + 1) % 2 ^ 48) ∧
       d.stepSum = b.stepSum ∧ d.valid = b.valid ∧ d.copied = b.copied ∧ d.copyDue = b.copyDue)

/-- With PPS_OUT_EN and VALID set, the tick that reaches the carry of the seconds, shifted by OFFSET_NS of 0x4B05, raises the 1PPS output, and no other tick does (how a delayed pulse is timed across a step is the model's choice, log entry 100); PPS_OUT_FALL lowers it and changes nothing else. A channel in OFF has no running time base: the model's choice (log entry 17). With PPS_IN_EN set an edge of the 1PPS input stores the time, sets PPS_IN and counts one edge, and without it does nothing. A copy that is due takes the other channel's seconds, nanoseconds, fraction and increment, sets VALID and COPIED, adds the difference to the step sum and sets STEP; where the other channel is absent or not VALID then, it leaves the time, VALID, COPIED and the step sum and sets COPY_FAILED. Either way COPY_PARTNER reads 0 afterwards; a write of 0x4B03 or 0x4B00 that is accepted and not yet applied stays. -/
def Obligations.PulsesAndTimeCopy : Prop :=
  (∀ (s : State) (ch : Ch), s.present ch = true →
    (∃ t, exec (.timeTick ch) s = .next t ∧ sameOutside ch s t ∧
      ((s.role ch).st = .off → t.chan ch = (s.chan ch).emptied) ∧
      ((s.role ch).st ≠ .off →
        let b := (s.chan ch).time
        let d := (t.chan ch).time
        let sec := 1000000000 * 2 ^ 32
        let inc := bits ((s.chan ch).hw 0x4B03 0) 39 0
        let old := b.ns * 2 ^ 32 + b.frac
        let off := signedOf 32 (bits ((s.chan ch).hw 0x4B05 0) 63 32)
        let shift := off.natAbs * 2 ^ 32
        (d.pps = true ↔ b.pps = true ∨ ((s.chan ch).hwBit 0x4B00 1 0 = true ∧ b.valid = true ∧
          (if off < 0 then old < sec - shift ∧ sec - shift ≤ old + inc
           else if sec ≤ old + inc then sec + shift ≤ old + inc
           else ∃ w, b.ppsWait = some w ∧ w ≤ inc))) ∧
        d.ppsWait = (if off < 0 then none
          else if sec ≤ old + inc then (if sec + shift ≤ old + inc then none else some (sec + shift - (old + inc)))
          else b.ppsWait.bind fun w => if w ≤ inc then none else some (w - inc)))) ∧
    (∃ t, exec (.ppsOutFall ch) s = .next t ∧ sameOutside ch s t ∧
      t.chan ch = { (s.chan ch).emptied with time := { (s.chan ch).time with pps := false } })) ∧
  (∀ (s : State) (ch : Ch), s.present ch = true →
    (∃ t, exec (.ppsInEdge ch) s = .next t ∧ sameOutside ch s t ∧
      ((s.chan ch).hwBit 0x4B00 1 4 = false → t.chan ch = (s.chan ch).emptied) ∧
      ((s.chan ch).hwBit 0x4B00 1 4 = true →
        (t.chan ch).reg 0x4B06 0 = (s.chan ch).time.stamp ∧ flagged (s.chan ch) (t.chan ch) 0x4B0F 1 2 ∧
        counts (s.chan ch) (t.chan ch) 0x4B28 1 1 ∧
        onlyRegs (s.chan ch) (t.chan ch) [(0x4B06, 0), (0x4B0F, 1), (0x4B28, 1)])) ∧
    (∃ t, exec (.partnerTimeCopy ch) s = .next t ∧ sameOutside ch s t ∧
      (let c := s.chan ch
       let o := s.chan ch.other
       let d := t.chan ch
       (c.time.copyDue = false → d = c.emptied) ∧
       (c.time.copyDue = true → s.present ch.other = true → o.time.valid = true →
         d.time = { c.time with sec := o.time.sec, ns := o.time.ns, frac := o.time.frac, valid := true, copied := true,
                                copyDue := false, stepSum := c.time.stepSum + ((o.time.now : Int) - (c.time.now : Int)) } ∧
         d.hw 0x4B03 0 = o.hw 0x4B03 0 ∧ flagged c d 0x4B0F 1 1 ∧ d.hw 0x4B00 1 = setBit (c.hw 0x4B00 1) 8 false ∧
         keepsRegs c d [(0x4B00, 1), (0x4B03, 0), (0x4B0F, 1)]) ∧
       (c.time.copyDue = true → (s.present ch.other && o.time.valid) = false →
         d.time = { c.time with copyDue := false } ∧ flagged c d 0x4B0F 1 32 ∧
         d.hw 0x4B00 1 = setBit (c.hw 0x4B00 1) 8 false ∧ keepsRegs c d [(0x4B00, 1), (0x4B0F, 1)]))))

/-! ## Action sequencers and the control store -/

/-- For every ALU operation of R300 but the reserved codes: the result that is written, in numbers for ADD, SUB, SHL, SHR, MIN and MAX and bit by bit for AND, OR, XOR, EXT and INS, and the flags Z, N and C; every other bit of the flags word stays. Operand A and B' are the arguments; OperandsOfAWord says where they come from. -/
def Obligations.AluOperations : Prop :=
  ∀ (m : MicroWord) (a b : Word64) (f : Nat),
    let o := aluRun m a b f
    let zn := fun (r : Word64) (c : Bool) => setBits f 2 0 (at_ 0 (r.toNat == 0) + at_ 1 (Nat.ble (2 ^ 63) r.toNat) + at_ 2 c)
    (m.alu = 0 → o = ⟨none, f⟩) ∧ (m.alu = 1 → o = ⟨some b, f⟩) ∧
    (m.alu = 2 → ∃ r, o = ⟨some r, zn r (Nat.ble (2 ^ 64) (a.toNat + b.toNat))⟩ ∧ r.toNat = (a.toNat + b.toNat) % 2 ^ 64) ∧
    (m.alu = 3 → ∃ r, o = ⟨some r, zn r (Nat.blt a.toNat b.toNat)⟩ ∧ r.toNat = (a.toNat + (2 ^ 64 - b.toNat)) % 2 ^ 64) ∧
    (m.alu = 4 → ∃ r, o = ⟨some r, zn r false⟩ ∧ ∀ i, r.getLsbD i = (a.getLsbD i && b.getLsbD i)) ∧
    (m.alu = 5 → ∃ r, o = ⟨some r, zn r false⟩ ∧ ∀ i, r.getLsbD i = (a.getLsbD i || b.getLsbD i)) ∧
    (m.alu = 6 → ∃ r, o = ⟨some r, zn r false⟩ ∧ ∀ i, r.getLsbD i = Bool.xor (a.getLsbD i) (b.getLsbD i)) ∧
    (m.alu = 7 → ∃ r, o = ⟨some r, zn r false⟩ ∧ r.toNat = a.toNat * 2 ^ m.shift % 2 ^ 64) ∧
    (m.alu = 8 → ∃ r, o = ⟨some r, zn r false⟩ ∧ r.toNat = a.toNat / 2 ^ m.shift) ∧
    (m.alu = 9 → ∃ r, o = ⟨some r, zn r false⟩ ∧
      ∀ i, r.getLsbD i = ((a.getLsbD (i + m.shift) && m.mask.getLsbD i) || b.getLsbD i)) ∧
    (m.alu = 10 → ∃ r, o = ⟨some r, zn r false⟩ ∧
      ∀ i, r.getLsbD i = if m.mask.getLsbD i then Nat.ble m.shift i && b.getLsbD (i - m.shift) else a.getLsbD i) ∧
    (m.alu = 11 → ∃ r : Word64, o = ⟨none, zn r (Nat.blt a.toNat b.toNat)⟩ ∧ r.toNat = (a.toNat + (2 ^ 64 - b.toNat)) % 2 ^ 64) ∧
    (m.alu = 12 → o.value = none ∧ bits o.flags 2 1 = 0 ∧
      (bitOf o.flags 0 = true ↔ ∀ i, m.mask.getLsbD i = true → a.getLsbD i = b.getLsbD i)) ∧
    (m.alu = 13 → ∃ r, o = ⟨some r, zn r false⟩ ∧ r.toNat = min a.toNat b.toNat) ∧
    (m.alu = 14 → ∃ r, o = ⟨some r, zn r false⟩ ∧ r.toNat = max a.toNat b.toNat)

/-- A word that a sequencer reads without error executes and goes on as its SEQ says: to the next word, to TARGET, by COND, by the return stack, or by the trap frame, whose flags word clears IN_TRAP; a CALL with 4 entries, a RETURN with none and an RTT outside a trap abort the routine with 0x4C. In the first cases nothing but that sequencer changes, and what a RESOLVE of the word does (OperandsOfAWord). A RESOLVE that gives a drop code aborts the routine with it whatever the SEQ. A word whose micro-PC is one of the vendor routines the model takes as a unit is left out (log entry 6). -/
def Obligations.MicrowordsMove : Prop :=
  ∀ (s : State) (ch : Ch) (n : Nat) (m : MicroWord), pipeRuns s ch → n < 256 → atWord (s.chan ch) n m →
    let q := (s.chan ch).seq n
    let x := resolved (s.chan ch) (s.ctx ch) q m
    let c := x.2.2
    let e := c.execute q m x.2.1
    let next := (q.pc + 1) % 2 ^ 14
    let goes := fun (i : Instr) (r : SeqSt) =>
      ∃ t, exec i s = .next t ∧ sameOutside ch s t ∧ t.chan ch = (c.setSeq n r).emptied
    let faults := fun (i : Instr) =>
      ∃ t, exec i s = .next t ∧ sameOutside ch s t ∧ t.chan ch = (c.abortSeq (s.ctx ch) n e.1.steps 0x4C).emptied
    (x.1 ≠ 0 → ∀ i k, (i, k) ∈ [(Instr.nextWord ch n, 0), (.jumpWord ch n, 1), (.branchT ch n, 2), (.branchF ch n, 3), (.callWord ch n, 4),
        (.returnWord ch n, 5), (.endWord ch n, 6), (.dropWord ch n, 7), (.trapWord ch n, 8), (.rttWord ch n, 9)] → m.seq = k →
      ∃ t, exec i s = .next t ∧ sameOutside ch s t ∧ t.chan ch = (c.abortSeq (s.ctx ch) n (q.steps + 3) x.1).emptied) ∧
    (x.1 = 0 →
    (m.seq = 0 → goes (.nextWord ch n) { e.1 with pc := next }) ∧
    (m.seq = 1 → goes (.jumpWord ch n) { e.1 with pc := m.target }) ∧
    (m.seq = 2 → goes (.branchT ch n) { e.1 with pc := if e.2 then m.target else next }) ∧
    (m.seq = 3 → goes (.branchF ch n) { e.1 with pc := if e.2 then next else m.target }) ∧
    (m.seq = 4 → q.stack.length < 4 → goes (.callWord ch n) { e.1 with pc := m.target, stack := next :: q.stack }) ∧
    (m.seq = 4 → 4 ≤ q.stack.length → faults (.callWord ch n)) ∧
    (∀ pc l, m.seq = 5 → q.stack = pc :: l → goes (.returnWord ch n) { e.1 with pc := pc, stack := l }) ∧
    (m.seq = 5 → q.stack = [] → faults (.returnWord ch n)) ∧
    (m.seq = 9 → e.1.inTrap = true → goes (.rttWord ch n)
      { e.1 with pc := (e.1.trapWord 0).toNat % 2 ^ 14, flags := (e.1.trapWord 1).toNat &&& 0xFF07, regs := e.1.trap.drop 2 }) ∧
    (m.seq = 9 → e.1.inTrap = false → faults (.rttWord ch n)))

/-- END commits the action record and frees the sequencer, its frame waiting for release, or drops the frame with the first code of R307 (the record of a frame that only passes through the module is checked as any other, log entry 34); DROP drops it with TARGET[7:0], 0x3F counting in RULE_DENY, or from the customer region with 0x4A when that reason is not a customer one; TRAP with a vector saves the word to resume at, the flags and W0 to W15, sets IN_TRAP, loads item 17 and goes on at the vector of its cause. The detail in item 17 of a customer trap is free (log entry 5). -/
def Obligations.MicrowordsEnd : Prop :=
  ∀ (s : State) (ch : Ch) (n fid : Nat) (m : MicroWord) (f : Frame), pipeRuns s ch → n < 256 → atWord (s.chan ch) n m →
    ((s.chan ch).seq n).frame = some fid → f.look.profile < 256 →
    let q := (s.chan ch).seq n
    let x := resolved (s.chan ch) (s.ctx ch) q m
    let c := x.2.2
    x.1 = 0 → c.frame fid = some f →
    let e := (c.execute q m x.2.1).1
    let bad := actionCheck s.unit.variant e.act
    (m.seq = 6 → bad = 0 →
      ∃ t, exec (.endWord ch n) s = .next t ∧ sameOutside ch s t ∧ (t.chan ch).seq n = SeqSt.empty ∧
        (t.chan ch).frame fid = some { f with act := e.act, window := e.window, edits := e.edits, pos := .done } ∧
        keepsRegs c (t.chan ch) [(0x4722, 1), (0x471F, 1), (0x4725, f.look.profile)]) ∧
    (m.seq = 6 → bad ≠ 0 →
      ∃ t, exec (.endWord ch n) s = .next t ∧ sameOutside ch s t ∧
        t.chan ch = (((((c.countSteps f e.steps).freeSeq n).modFrame fid fun f =>
          { f with act := e.act, window := e.window, edits := e.edits }).countMicroDrop bad).dropFrame (s.ctx ch) fid bad true).emptied) ∧
    (m.seq = 7 → (q.pc < 0x3000 ∨ 0xC0 ≤ m.target % 256) →
      ∃ t, exec (.dropWord ch n) s = .next t ∧ sameOutside ch s t ∧
        (let d := (((c.countSteps f e.steps).freeSeq n).countMicroDrop (m.target % 256)).countIndirect (m.target % 256)
         t.chan ch = (((if m.target % 256 = 0x3F then d.inc 0x4636 1 else d).modFrame fid fun f =>
           { f with act := e.act }).dropFrame (s.ctx ch) fid (m.target % 256) true).emptied)) ∧
    (m.seq = 7 → 0x3000 ≤ q.pc → m.target % 256 < 0xC0 →
      ∃ t, exec (.dropWord ch n) s = .next t ∧ sameOutside ch s t ∧
        t.chan ch = ((((((c.flag 0x471F 1 1).countSteps f e.steps).freeSeq n).countMicroDrop 0x4A).modFrame fid fun f =>
          { f with act := e.act }).dropFrame (s.ctx ch) fid 0x4A true).emptied) ∧
    (m.seq = 8 → e.inTrap = false → c.reg 0x4706 (3 + m.target % 8) % 2 ^ 14 ≠ 0 →
      ∃ t d, exec (.trapWord ch n) s = .next t ∧ sameOutside ch s t ∧
        counts c (t.chan ch) 0x4720 (8 + m.target % 8) 1 ∧ keepsRegs c (t.chan ch) [(0x4720, 8 + m.target % 8)] ∧
        (t.chan ch).seq n = { e with
          trap := BitVec.ofNat 64 ((q.pc + 1) % 2 ^ 14) :: BitVec.ofNat 64 e.flags :: e.regs
          flags := setBit e.flags 16 true
          item := d * 2 ^ 32 + q.pc % 2 ^ 14 * 2 ^ 8 + (8 + m.target % 8)
          pc := c.reg 0x4706 (3 + m.target % 8) % 2 ^ 14
          steps := e.steps + 1 })

/-- Outside NIGHT a routine that has taken 4 B(L) steps is trapped with cause 5, which saves its context and goes on at the vendor handler; one that has not is left alone. The end of a sequencer reset frees the sequencer with every register zero. Nothing else changes. The address of the vendor handler is the model's (log entry 6), the detail of the trap free (log entry 5). -/
def Obligations.SequencerWatchdogAndReset : Prop :=
  ∀ (s : State) (ch : Ch) (n : Nat), pipeRuns s ch → n < 256 →
    let c := s.chan ch
    let q := c.seq n
    (((q.busy && !q.inReset && c.expired q) = false →
      ∃ t, exec (.stepWatchdog ch n) s = .next t ∧ sameOutside ch s t ∧ t.chan ch = c.emptied)) ∧
    ((q.busy && !q.inReset && c.expired q) = true → q.inTrap = false →
      ∃ t d, exec (.stepWatchdog ch n) s = .next t ∧ sameOutside ch s t ∧
        flagged c (t.chan ch) 0x471F 1 16 ∧ counts c (t.chan ch) 0x4720 5 1 ∧
        keepsRegs c (t.chan ch) [(0x471F, 1), (0x4720, 5)] ∧
        (t.chan ch).seq n = { q with
          trap := BitVec.ofNat 64 (q.pc % 2 ^ 14) :: BitVec.ofNat 64 q.flags :: q.regs, flags := setBit q.flags 16 true
          item := d * 2 ^ 32 + q.pc % 2 ^ 14 * 2 ^ 8 + 5, pc := vendorHandler 5, steps := q.steps + 1 }) ∧
    (∃ t, exec (.sequencerResetEnd ch n) s = .next t ∧ sameOutside ch s t ∧
      (q.inReset = true → t.chan ch = (c.setSeq n SeqSt.empty).emptied) ∧ (q.inReset = false → t.chan ch = c.emptied))

/-- A word reads its operands as they stood at the start of the step, COND sees the flags that its ALU operation leaves, W[DST] takes the result unless the side load names the same register, and a register, flag, action field or header byte that the word does not name keeps its value. RESOLVE reads the descriptor of the group that the register names and delivers the entry that the hash picks, or the fallback entry, counted by its reason, where SIZE is 0, the entry is invalid or its member is down; an invalid fallback entry gives 0x38, a third resolution of a pass 0x37. Entries with a parity error are left out here. -/
def Obligations.OperandsOfAWord : Prop :=
  (∀ (c : Channel) (q : SeqSt) (m : MicroWord) (entry : Option Nat), q.regs.length = 16 → m.reserved = false →
    let e := (c.execute q m entry).1
    let o := aluRun m (q.regs.getD m.srcA 0) (if m.bImm then m.imm else q.regs.getD m.srcB 0) q.flags
    (∀ i < 16, i ≠ m.dst → (i ≠ m.sideReg ∨ c.sideLoad q m = none) → e.regs.getD i 0 = q.regs.getD i 0) ∧
    (∀ v, c.sideLoad q m = some v → m.sideReg < 16 → e.regs.getD m.sideReg 0 = v) ∧
    (∀ v, o.value = some v → m.dst < 16 → (c.sideLoad q m = none ∨ m.sideReg ≠ m.dst) → e.regs.getD m.dst 0 = v) ∧
    (o.value = none → c.sideLoad q m = none → e.regs = q.regs) ∧
    (m.side ≠ 14 → e.flags = o.flags) ∧
    (m.side = 14 → e.flags = setBit o.flags (8 + m.sideArg % 8) (bitOf m.sideArg 3)) ∧
    (m.side ≠ 16 → e.trap = q.trap) ∧
    (¬ (5 ≤ m.side ∧ m.side ≤ 8) → e.window = q.window ∧ e.edits = q.edits) ∧
    (m.side ≠ 10 → m.side ≠ 11 → e.act = q.act) ∧
    (c.execute q m entry).2 = c.condition q o.flags m.cond ∧
    e.frame = q.frame ∧ e.stack = q.stack ∧ e.res = q.res ++ entry.toList ∧ e.item = q.item ∧ e.pc = q.pc ∧
    e.steps = q.steps + if m.side = 13 then 3 else 1) ∧
  (∀ (c : Channel) (cx : Ctx) (q : SeqSt) (m : MicroWord) (fid : Nat) (f : Frame), q.frame = some fid → c.frame fid = some f →
    m.sideReg < 16 →
    let x := c.resolveWord cx q m
    (2 ≤ f.look.resolves → x = (0x37, none, c)) ∧
    (f.look.resolves < 2 →
      let d := c.wget 0x4311 ((q.regs.getD m.sideReg 0).toNat % 4096)
      let size := bits d 44 32
      let last := bits d 79 64
      let i := if size = 0 then last else bits d 15 0 + (crc32c (bits d 127 96) f.hashBytes % 65536) * size / 65536
      c.damage.objs.contains (winKey 0x4310 i) = false → c.damage.objs.contains (winKey 0x4310 last) = false →
      let t := bits (c.wget 0x4310 i) 63 60
      let reason := if size = 0 then 1 else if t = 0 then 2
        else if bitOf d 80 = true ∧ t = 2 ∧ c.memberUp cx (bits (c.wget 0x4310 i) 6 0) = false then 3 else 0
      let e := c.wget 0x4310 (if reason = 0 then i else last)
      x.1 = (if bits e 63 60 = 0 then 0x38 else 0) ∧ x.2.1 = (if bits e 63 60 = 0 then none else some e) ∧
      x.2.2.frame fid = some { f with look := { f.look with resolves := f.look.resolves + 1 } } ∧
      (reason = 0 → x.2.2.dict = c.dict) ∧
      (reason ≠ 0 → counts c x.2.2 0x4323 reason 1 ∧ keepsRegs c x.2.2 [(0x4323, reason)])))

/-- A word written with its CHECK reads clean; with any one of its 192 data bits or of CHECK[8:0] in error it reads corrected to the data as written; with any two of these bits in error, or with a bit of CHECK[15:9] set, it reads as not correctable. -/
def Obligations.ControlStoreCode : Prop :=
  ∀ d : Nat, d < 2 ^ 192 →
    let w := checkOf d * 2 ^ 192 + d
    checkOf d < 512 ∧ readWord w = .clean d ∧
    (∀ i < 201, readWord (flipBit w i) = .corrected d) ∧
    (∀ i j : Nat, i < j → j < 201 → readWord (flipBit (flipBit w i) j) = .bad) ∧
    (∀ i j : Nat, 201 ≤ i → i < 208 → j < i → readWord (flipBit w i) = .bad ∧ readWord (flipBit (flipBit w j) i) = .bad)

/-- The repair of a word that a read has noted rewrites it in its copy with the corrected data, or, where it cannot be corrected, with the data of the lowest-numbered other copy that reads clean, which COPY_REPAIRS counts; where none reads clean, UNREPAIRABLE is set. A word that no read has noted is left alone. With SCRUB_EN set the scrubber reads its next word in all eight copies and moves on by one, from 16,383 to 0; a word that reads corrected in one copy counts as cause 1 and as corrected, and is noted for repair. With SCRUB_EN clear it does nothing. Nothing else of the module changes. -/
def Obligations.ControlStoreUpkeep : Prop :=
  (∀ (s : State) (ch : Ch) (copy addr : Nat), s.present ch = true → copy < 8 → addr < 16384 →
      let c := s.chan ch
      let rest := { c with disp := { c.disp with repair := c.disp.repair.filter fun x => !(x.1 == copy && x.2.1 == addr) } }
      ∃ t, exec (.wordRepair ch copy addr) s = .next t ∧ sameOutside ch s t ∧
        ((c.disp.repair.all fun r => !(r.1 == copy && r.2.1 == addr)) = true → t.chan ch = c.emptied) ∧
        ((c.disp.repair.any fun r => r.1 == copy && r.2.1 == addr) = true →
          (∀ d, readWord (c.storeWord copy addr) = .clean d → t.chan ch = rest.emptied) ∧
          (∀ d, readWord (c.storeWord copy addr) = .corrected d → t.chan ch = (rest.writeCopy copy addr d).emptied) ∧
          (readWord (c.storeWord copy addr) = .bad →
            (∀ k d, k < 8 → k ≠ copy → readWord (c.storeWord k addr) = .clean d →
              (∀ j < k, j ≠ copy → ∀ e, readWord (c.storeWord j addr) ≠ .clean e) →
              t.chan ch = ((rest.writeCopy copy addr d).inc 0x4721 3).emptied) ∧
            ((∀ k < 8, ∀ e, readWord (c.storeWord k addr) ≠ .clean e) →
              flagged c (t.chan ch) 0x471F 1 64 ∧ (t.chan ch).reg 0x4701 1 = setBit (c.reg 0x4701 1) 2 true ∧
              keepsRegs c (t.chan ch) [(0x471F, 1), (0x4701, 1)])))) ∧
  (∀ (s : State) (ch : Ch), s.present ch = true →
      let c := s.chan ch
      let a := c.disp.scrub
      let on := { c with disp := { c.disp with scrub := (a + 1) % 16384 } }
      ∃ t, exec (.controlStoreScrub ch) s = .next t ∧ sameOutside ch s t ∧
        (c.bit 0x4700 1 1 = false → t.chan ch = c.emptied) ∧
        (c.bit 0x4700 1 1 = true → (∀ k < 8, ∃ d, readWord (c.storeWord k a) = .clean d) → t.chan ch = on.emptied) ∧
        (∀ k d, c.bit 0x4700 1 1 = true → k < 8 → (∀ j < 8, j ≠ k → ∃ d, readWord (c.storeWord j a) = .clean d) →
          readWord (c.storeWord k a) = .corrected d →
          counts c (t.chan ch) 0x4720 1 1 ∧ counts c (t.chan ch) 0x4721 1 1 ∧ flagged c (t.chan ch) 0x471F 1 2 ∧
          keepsRegs c (t.chan ch) [(0x4720, 1), (0x4721, 1), (0x471F, 1)] ∧
          (t.chan ch).disp = { on.disp with repair := c.disp.repair ++ [(k, a, false)] }))

/-- Outside NIGHT, where no stage of the pipeline runs, a frame whose lookups are complete and that no older frame of its pipeline holds back starts on a free sequencer with the entry of its profile, zero registers, flags and stack, the window of the pass and the dispatch values; that sequencer is the lowest-numbered free one in the first group, in rotating order, after the group served last. A result is released to the policer when its frame is the oldest of its pipeline that has not been, and not before its routine has ended. -/
def Obligations.DispatchAndRelease : Prop :=
  (∀ (s : State) (ch : Ch) (fid n : Nat) (f : Frame), pipeRuns s ch → (s.chan ch).frame fid = some f →
    f.pos = .look → f.look.probed = true → f.look.routed = true →
    (f.look.searched = true ∨ (s.chan ch).bit 0x4601 f.look.profile 8 = false) → f.look.parity = none →
    (((s.chan ch).frames.takeWhile fun g => g.id != fid).any fun g => g.pipe == f.pipe && (g.pos == .parse || g.pos == .look)) = false →
    ((s.chan ch).frames.filter fun g => g.pipe == f.pipe && (g.pos == .run || g.pos == .done)).length < 64 →
    (s.chan ch).freeSeqNo = some n →
    ∃ t, exec (.dispatch ch fid) s = .next t ∧ sameOutside ch s t ∧ (t.chan ch).dict = (s.chan ch).dict ∧
      (t.chan ch).frame fid = some { f with pos := .run } ∧ (t.chan ch).disp = { (s.chan ch).disp with group := n / 32 } ∧
      (t.chan ch).seq n = { SeqSt.empty with
        frame := some fid, pc := (s.chan ch).reg 0x4703 f.look.profile % 2 ^ 14, window := f.window, act := dispatchAct f } ∧
      ∀ k, k ≠ n → (t.chan ch).seq k = (s.chan ch).seq k) ∧
  (∀ (c : Channel) (n : Nat), c.freeSeqNo = some n → n < 256 ∧ (c.seq n).busy = false ∧ (c.seq n).inReset = false ∧
    ∀ k < 256, (c.seq k).busy = false → (c.seq k).inReset = false →
      (n / 32 + 7 - c.disp.group % 8) % 8 ≤ (k / 32 + 7 - c.disp.group % 8) % 8 ∧ (k / 32 = n / 32 → n ≤ k)) ∧
  (∀ (s : State) (ch : Ch) (p : Nat) (f : Frame), pipeRuns s ch → p < 8 →
    ((s.chan ch).frames.find? fun f => f.pipe == p && f.pos != .live && f.pos != .police) = some f →
    ∃ t, exec (.resultRelease ch p) s = .next t ∧ sameOutside ch s t ∧
      (f.pos ≠ .done → t.chan ch = (s.chan ch).emptied) ∧
      (f.pos = .done → t.chan ch = ((s.chan ch).modFrame f.id fun f => { f with pos := .police }).emptied))

/-- Outside NIGHT the oldest waiting cause without a frame starts on a free sequencer at its vector, with W0 the argument for cause 6 and zero otherwise, and counts. When the time base reaches TIME of an armed trigger, cause 7 waits; while the routine of the last trigger still runs or waits, and in NIGHT (log entry 95), TIME_SKIPPED is set in its place. A one-shot trigger is disarmed, a periodic one moves on by its period. The detail of causes 6 and 7 and the word to resume at are free (log entry 5). -/
def Obligations.CausesWithoutFrame : Prop :=
  (∀ (s : State) (ch : Ch) (cause arg detail n : Nat) (rest : List (Nat × Nat × Nat)), pipeRuns s ch →
    (s.chan ch).disp.wait = (cause, arg, detail) :: rest → cause < 256 → (s.chan ch).freeSeqNo = some n →
    ∃ t d r, exec (.framelessDispatch ch) s = .next t ∧ sameOutside ch s t ∧
      counts (s.chan ch) (t.chan ch) 0x4720 cause 1 ∧ keepsRegs (s.chan ch) (t.chan ch) [(0x4720, cause)] ∧
      (t.chan ch).disp = { (s.chan ch).disp with wait := rest, group := n / 32 } ∧ (cause = 3 → d = detail) ∧
      (t.chan ch).seq n = { SeqSt.empty with
        cause := cause, regs := setAt SeqSt.empty.regs 0 (BitVec.ofNat 64 (if cause = 6 then arg else 0)), flags := 2 ^ 16
        trap := BitVec.ofNat 64 (r % 2 ^ 14) :: 0 :: setAt SeqSt.empty.regs 0 (BitVec.ofNat 64 (if cause = 6 then arg else 0))
        item := d * 2 ^ 32 + cause, steps := 1, pc := (s.chan ch).vectorOf cause }) ∧
  (∀ (s : State) (ch : Ch), s.present ch = true → (s.chan ch).disp.wait = [] ∨ (s.chan ch).freeSeqNo = none →
    ∃ t, exec (.framelessDispatch ch) s = .next t ∧ sameOutside ch s t ∧ t.chan ch = (s.chan ch).emptied) ∧
  (∀ (s : State) (ch : Ch), s.present ch = true →
    let c := s.chan ch
    let v := c.reg 0x4708 1
    let time := triggerTime v
    ∃ t, exec (.timeTrigger ch) s = .next t ∧ sameOutside ch s t ∧
      ((bitOf v 63 = false ∨ 0 < c.time.ahead time) → t.chan ch = c.emptied) ∧
      (bitOf v 63 = true → c.time.ahead time ≤ 0 →
        (c.triggerRuns = false → s.mode.night ≠ .asleep → (t.chan ch).disp = { c.disp with wait := c.disp.wait ++ [(7, 0, 0)] } ∧
          keepsRegs c (t.chan ch) [(0x4708, 1)]) ∧
        (c.triggerRuns = true ∨ s.mode.night = .asleep → flagged c (t.chan ch) 0x471F 1 128 ∧ (t.chan ch).disp = c.disp ∧
          keepsRegs c (t.chan ch) [(0x4708, 1), (0x471F, 1)]) ∧
        (c.reg 0x4708 2 = 0 → bitOf ((t.chan ch).reg 0x4708 1) 63 = false) ∧
        (c.reg 0x4708 2 ≠ 0 → bitOf ((t.chan ch).reg 0x4708 1) 63 = true ∧
          triggerTime ((t.chan ch).reg 0x4708 1) = (time + c.reg 0x4708 2 * 1000) % (2 ^ 32 * 1000000000))))

/-! ## Signed writes that are rows of their own -/

/-- READ, WRITE, INSERT, DELETE, SEARCH and NEXT of the bridge table, the subscriber map and both route stores, FLUSH-BY-PORT with and without KEEP_STATIC, AGE-NOW, FLUSH-VRF, CLEAN-FILTER and LPM-SEARCH: where the host port executes the write, the object is not busy and a route command's Key is valid, the opcode is stored, the command takes its Key, Data and Address as they stand, BUSY is set and the write is answered with status OK. While a drill holds the engine of the table a command is only BUSY and has its effect afterwards. A flush, an AGE-NOW and a FLUSH-VRF begin a walk of their table, but for an AGE-NOW with AGE_TIME 0, which completes at once; a CLEAN-FILTER leaves the filter in use until its end and notes the routes inserted meanwhile. The other channel and the service block but its host port stay. The table changes at acceptance and the results stand at TABLE_COMMAND_DONE: the model's choice (log entry 18). -/
def Obligations.TableCommandRows : Prop :=
  (∀ (s : State) (h : AuthHdr) (ch : Ch) (tb : Hashed),
      let idx := tableObject tb
      let c := s.chan ch
      let on := fun (w : Nat) => c.put idx 1 (maskWrite (if idx = 0x4510 then 0x2F else 0x8F) (c.reg idx 1) w)
      let held := c.halted (match tb with | .bridge => 0 | .sub => 1 | .v4 => 2 | .v6 => 3)
      let starts := fun (i : Instr) (op : Nat) (d : Channel) =>
        signedChannel s h ch idx 1 (tableWord tb op) → c.bit idx 5 16 = false →
        (idx = 0x4510 → badRouteKey (tb == .v6) op (c.reg 0x4510 2) = false) →
        ∃ t, exec i s = .next t ∧ answeredOk t h (idx + 0x2000 * ch.num) 1 ∧ sameBoard s t ∧
          t.chan ch.other = s.chan ch.other ∧ (held = false → t.chan ch = d.emptied) ∧
          (held = true → t.chan ch = ((on (tableWord tb op)).beginLate idx).emptied) ∧ (t.chan ch).bit idx 5 16 = true
      starts (.tableRead h ch tb) 1 ((on (tableWord tb 1)).cmdRead tb idx (c.reg idx 4)) ∧
      starts (.tableWrite h ch tb) 2 ((on (tableWord tb 2)).cmdWrite tb idx (c.reg idx 2) (c.reg idx 3)) ∧
      starts (.tableInsert h ch tb) 3 ((on (tableWord tb 3)).cmdInsert tb idx (c.reg idx 2) (c.reg idx 3)) ∧
      starts (.tableDelete h ch tb) 4 ((on (tableWord tb 4)).cmdDelete tb idx (c.reg idx 2)) ∧
      starts (.tableSearch h ch tb) 5 ((on (tableWord tb 5)).cmdSearch tb idx (c.reg idx 2)) ∧
      starts (.tableNext h ch tb) 6 ((on (tableWord tb 6)).cmdNext tb idx (c.reg idx 4))) ∧
  (∀ (s : State) (h : AuthHdr) (ch : Ch) (b : Bool),
      let c := s.chan ch
      let on := fun (idx w : Nat) => c.put idx 1 (maskWrite (if idx = 0x4510 then 0x2F else 0x8F) (c.reg idx 1) w)
      let held := fun (idx : Nat) => c.halted (if idx = 0x4410 then 0 else if idx = 0x4420 then 1 else if b then 3 else 2)
      let takes := fun (i : Instr) (idx w : Nat) (d : Channel) (busy : Bool) =>
        signedChannel s h ch idx 1 w → c.bit idx 5 16 = false →
        (idx = 0x4510 → badRouteKey (bitOf w 5) (w % 16) (c.reg 0x4510 2) = false) →
        ∃ t, exec i s = .next t ∧ answeredOk t h (idx + 0x2000 * ch.num) 1 ∧ sameBoard s t ∧
          t.chan ch.other = s.chan ch.other ∧
          (held idx = false → t.chan ch = d.emptied ∧ (t.chan ch).bit idx 5 16 = busy) ∧
          (held idx = true → t.chan ch = ((on idx w).beginLate idx).emptied ∧ (t.chan ch).bit idx 5 16 = true)
      let starts := fun (i : Instr) (idx w : Nat) (d : Channel) => takes i idx w d true
      let walks := fun (i : Instr) (idx w : Nat) => starts i idx w ((on idx w).beginWalk idx)
      walks (.flushByPort h ch false b) 0x4410 (b.toNat * 0x80 + 7) ∧
      walks (.flushByPort h ch true b) 0x4420 (b.toNat * 0x80 + 7) ∧
      (bits (c.reg 0x4400 0) 30 16 ≠ 0 → walks (.ageNow h ch) 0x4410 0x88) ∧
      (bits (c.reg 0x4400 0) 30 16 = 0 →
        takes (.ageNow h ch) 0x4410 0x88 (((on 0x4410 0x88).result 0x4410 resOk [(6, 0)]).endCmd 0x4410) false) ∧
      walks (.flushVrf h ch b) 0x4510 (b.toNat * 0x20 + 7) ∧
      starts (.cleanFilter h ch b) 0x4510 (b.toNat * 0x20 + 8) ((on 0x4510 (b.toNat * 0x20 + 8)).beginClean 0x4510) ∧
      starts (.lpmSearch h ch b) 0x4510 (b.toNat * 0x20 + 9) ((on 0x4510 (b.toNat * 0x20 + 9)).cmdLpm b 0x4510 (c.reg 0x4510 2)))

/-- READ finds the entry at Address, with RESULT PARITY where its check fails; WRITE and CLEAR put an update of the entry at Address in line; SEARCH and NEXT-MATCH take the lowest matching index, from Address on for NEXT-MATCH, with the global mask named; CLEAR-ALL begins. While a drill holds the table the command is only BUSY and has its effect afterwards. FLUSH closes the open block, FREEZE makes a region of the named blocks, RELEASE ends a region, LOCATE finds a block's slot; each takes Argument as it stands. Each command sets BUSY and is answered with status OK where the host port executes the write, no command is in progress and, for FLUSH and FREEZE, no power-fail warning holds the engine. The number that a FLUSH without an open block returns is free (log entry 5). -/
def Obligations.SearchAndCaptureRows : Prop :=
  (∀ (s : State) (h : AuthHdr) (ch : Ch) (g : Nat), g < 16 →
      let c := s.chan ch
      let a := c.reg 0x4620 4 % 2 ^ 15
      let on := fun (w : Nat) => c.put 0x4620 1 (maskWrite 0xF0F (c.reg 0x4620 1) w)
      let starts := fun (i : Instr) (w : Nat) (d : Channel) =>
        signedChannel s h ch 0x4620 1 w → c.bit 0x4620 5 16 = false →
        ∃ t, exec i s = .next t ∧ answeredOk t h (0x4620 + 0x2000 * ch.num) 1 ∧ sameBoard s t ∧
          t.chan ch.other = s.chan ch.other ∧ (c.halted 4 = false → t.chan ch = d.emptied) ∧
          (c.halted 4 = true → t.chan ch = ((on w).beginLate 0x4620).emptied) ∧ (t.chan ch).bit 0x4620 5 16 = true
      let wait := fun (c : Channel) (e : Nat) =>
        { c with search := { c.search with updates := c.search.updates ++ [(a, e, false)] } }.result 0x4620 resOk [(6, 0)]
      (bitOf (c.wget 0x4610 a) 127 = false ∨ searchGood (c.wget 0x4610 a) = true →
        starts (.searchEntryRead h ch) 1 ((on 1).result 0x4620 resOk [(3, c.wget 0x4610 a), (6, 0)])) ∧
      (bitOf (c.wget 0x4610 a) 127 = true → searchGood (c.wget 0x4610 a) = false →
        starts (.searchEntryRead h ch) 1 (((on 1).invalidateEntry a).result 0x4620 resParity [(3, c.wget 0x4610 a), (6, 0)])) ∧
      starts (.searchEntryWrite h ch) 2 (wait (on 2) (entryOf (c.reg 0x4620 3))) ∧
      starts (.searchEntryClear h ch) 3 (wait (on 3) 0) ∧
      starts (.searchCommandSearch h ch g) (g * 2 ^ 8 + 4) ((on (g * 2 ^ 8 + 4)).cmdMatch 0 resNotFound) ∧
      starts (.nextMatch h ch g) (g * 2 ^ 8 + 5) ((on (g * 2 ^ 8 + 5)).cmdMatch a resEnd) ∧
      starts (.clearAll h ch) 6 ({ on 6 with search := { c.search with clearing := true, cleared := 0 } }.result 0x4620 resOk [])) ∧
  (∀ (s : State) (h : AuthHdr) (ch : Ch),
      let c := s.chan ch
      let arg := c.reg 0x4C20 2
      let on := fun (w : Nat) => c.put 0x4C20 1 (maskWrite 0xF (c.reg 0x4C20 1) w)
      let cx := s.ctx ch
      let starts := fun (i : Instr) (w : Nat) (ok : Channel → Prop) =>
        signedChannel s h ch 0x4C20 1 w → c.bit 0x4C20 5 16 = false →
        ∃ t, exec i s = .next t ∧ answeredOk t h (0x4C20 + 0x2000 * ch.num) 1 ∧ sameBoard s t ∧
          t.chan ch.other = s.chan ch.other ∧ ok (t.chan ch) ∧ (t.chan ch).bit 0x4C20 5 16 = true
      (c.cap.hold = false → starts (.flush h ch) 1 fun d => ∃ n, (c.cap.openBlk.isSome = true → n = c.cap.nextSeq) ∧
        d = (({ on 1 with box := { c.box with drawn := c.box.drawn + 1 } }.closeOn cx flagFlushed).result 0x4C20 0
          [(6, n % 2 ^ 32)]).emptied) ∧
      (c.cap.hold = false → arg ≠ 0 → starts (.freeze h ch) 2 fun d =>
        let r := (on 2).freezeCommand cx (bits arg 31 0) (bits arg 63 32)
        d = (r.2.2.result 0x4C20 r.1 (if r.1 = 0 then [(6, r.2.1)] else [])).emptied) ∧
      (starts (.captureRelease h ch) 3 fun d =>
        let r := (on 3).releaseRegion (bits arg 5 0)
        d = (r.2.2.result 0x4C20 r.1 (if r.1 = 0 then [(6, r.2.1)] else [])).emptied) ∧
      (starts (.locate h ch) 4 fun d =>
        d = ((on 4).result 0x4C20 (if (c.cap.heldIn arg (arg + 1)).isEmpty then 1 else 0)
          (match c.cap.heldIn arg (arg + 1) with
          | [] => []
          | x :: _ => [(6, x.2)])).emptied))

/-- START of an idle unit whose settings pass R475 begins a job from INIT with PROGRESS and VALUE zero and BUSY set, or ends at once for a length of 0; ABORT of an idle unit does nothing; RAISE sets BUSY and puts cause 6 with Argument in line. Each is answered with status OK where the host port executes the write. -/
def Obligations.CheckAndRaiseRows : Prop :=
  ∀ (s : State) (h : AuthHdr) (ch : Ch) (u : Nat), u < 4 →
    let c := s.chan ch
    let cx := s.ctx ch
    let done := fun (i : Instr) (idx sub : Nat) (ok : Channel → Prop) =>
      ∃ t, exec i s = .next t ∧ answeredOk t h (idx + 0x2000 * ch.num) sub ∧ sameBoard s t ∧
        t.chan ch.other = s.chan ch.other ∧ ok (t.chan ch)
    (signedChannel s h ch 0x4D08 (u + 1) 1 → c.jobBusy (u + 1) = false → c.misStart (u + 1) = false →
      c.badStart s.unit.variant (u + 1) = false → done (.checkStart h ch u) 0x4D08 (u + 1) fun d =>
        d = (c.startJob cx (u + 1)).emptied ∧ (c.reg 0x4D07 (u + 1) ≠ 0 → d.jobBusy (u + 1) = true ∧ d.reg 0x4D0A (u + 1) = 0 ∧
          d.reg 0x4D0B (u + 1) = 0 ∧
          d.job (u + 1) = ⟨0, crcRun (c.crcOf (u + 1)) (c.reg 0x4D03 (u + 1)) (c.foldOf (u + 1)), 0, false, 0⟩)) ∧
    (signedChannel s h ch 0x4D08 (u + 1) 2 → done (.abort h ch u) 0x4D08 (u + 1) fun d =>
      d = (c.abortJob cx (u + 1)).emptied ∧ (c.jobBusy (u + 1) = false → d = c.emptied)) ∧
    (signedChannel s h ch 0x4707 1 1 → c.bit 0x4707 1 8 = false → done (.raise h ch) 0x4707 1 fun d =>
      d.reg 0x4707 1 = setBit (c.reg 0x4707 1) 8 true ∧ onlyRegs { c with disp := d.disp } d [(0x4707, 1)] ∧
      d.disp = { c.disp with wait := c.disp.wait ++ [(6, c.reg 0x4707 2, 0)] })

/-- An increment from 3.5 to 4.5 ns, an offset step or a time set whose result lies in range, and COPY_PARTNER with a VALID partner are accepted into the posted time domain: the object reads the new value, the domain is busy, the value in force and the time base stay until the domain is applied. A timestamp pop removes the oldest entry of its port's queue. CLR_HIGH_WATER is noted for the next update of the loop (SetPointLoop says what that does) and reads 0. COPY_PARTNER and CLR_HIGH_WATER write the other fields of their objects as they stand: the model's choice (log entry 18). -/
def Obligations.TimeAndWatermarkRows : Prop :=
  ∀ (s : State) (h : AuthHdr) (ch : Ch) (v : Nat),
    let c := s.chan ch
    let cx := s.ctx ch
    let accepts := fun (i : Instr) (idx sub m : Nat) =>
      ∃ t, exec i s = .next t ∧ answeredOk t h (idx + 0x2000 * ch.num) sub ∧ sameBoard s t ∧
        t.chan ch.other = s.chan ch.other ∧ t.chan ch = (c.accept cx idx sub m).emptied ∧ (t.chan ch).domainBusy idx sub = true ∧
        (t.chan ch).reg idx sub = m ∧ (t.chan ch).hw idx sub = c.hw idx sub ∧ (t.chan ch).time = c.time
    let inc := maskWrite (2 ^ 40 - 1) (c.reg 0x4B03 0) v
    let off := maskWrite (2 ^ 64 - 1) (c.reg 0x4B04 0) v
    let set := maskWrite (2 ^ 80 - 1 - 3 * 2 ^ 30) (c.reg 0x4B02 0) v
    (signedChannel s h ch 0x4B03 0 v → v < 2 ^ 64 → c.domainBusy 0x4B03 0 = false →
      7 * 2 ^ 32 ≤ 2 * bits inc 39 0 → 2 * bits inc 39 0 ≤ 9 * 2 ^ 32 → accepts (.incrementWrite h ch v) 0x4B03 0 inc) ∧
    (signedChannel s h ch 0x4B04 0 v → v < 2 ^ 64 → c.domainBusy 0x4B04 0 = false →
      outOfTime ((c.time.now : Int) + signedOf 64 off) = false → accepts (.offsetStep h ch v) 0x4B04 0 off) ∧
    (signedChannel s h ch 0x4B02 0 v → v < 2 ^ 80 → c.domainBusy 0x4B02 0 = false → bits v 31 30 = 0 →
      bits set 29 0 ≤ 999999999 → outOfTime ((bits set 79 32 * 1000000000 + bits set 29 0 : Nat) : Int) = false →
      accepts (.timeSet h ch v) 0x4B02 0 set) ∧
    (c.reg 0x4B00 1 < 2 ^ 32 → signedChannel s h ch 0x4B00 1 (setBit (c.reg 0x4B00 1) 8 true) → c.domainBusy 0x4B00 1 = false →
      s.partnerTime ch = true →
      accepts (.copyPartner h ch) 0x4B00 1 (maskWrite 0x111 (c.reg 0x4B00 1) (setBit (c.reg 0x4B00 1) 8 true))) ∧
    (1 ≤ v → v ≤ 52 → signedChannel s h ch 0x4B11 v 1 → ∃ t, exec (.timestampPop h ch v) s = .next t ∧
      answeredOk t h (0x4B11 + 0x2000 * ch.num) v ∧ sameBoard s t ∧ t.chan ch.other = s.chan ch.other ∧
      t.chan ch = (c.setPort v { c.port v with stamps := (c.port v).stamps.drop 1 }).emptied) ∧
    (c.reg 0x4000 0x10 < 2 ^ 32 → bits (c.reg 0x4000 0x10) 5 4 ≠ 3 →
      signedChannel s h ch 0x4000 0x10 (setBit (c.reg 0x4000 0x10) 8 true) → ∃ t, exec (.clrHighWater h ch) s = .next t ∧
      answeredOk t h (0x4000 + 0x2000 * ch.num) 0x10 ∧ sameBoard s t ∧ t.chan ch.other = s.chan ch.other ∧
      onlyRegs { c with core := { c.core with markDue := true } } (t.chan ch) [(0x4000, 0x10)] ∧
      (t.chan ch).bit 0x4000 0x10 8 = false)

/-! ## Signed writes to the service block -/

/-- What the reset of a channel keeps of its contents `c` and what it leaves at its initial value in `d` (R581). -/
def resetOf (v : Variant) (c d : Channel) : Prop :=
  (∀ idx sub o, sub < 256 → objIn channelObjs idx sub = some o → o.ty.isWindow = false →
    (o.inCopy = true → idx ≠ 0x4407 → d.reg idx sub = c.reg idx sub) ∧
    (o.inCopy = false → idx ∉ [0x4205, 0x4206, 0x410D, 0x425D, 0x4406, 0x4907, 0x4C01, 0x4C02] →
      d.reg idx sub = chDflt (objKey idx sub))) ∧
  (∀ idx e o, e < 2 ^ 40 → objIn channelObjs idx 0 = some o → o.ty.isWindow = true →
    (o.inCopy = true → idx ≠ 0x4408 → d.wget idx e = c.wget idx e) ∧
    (o.inCopy = false → idx ∉ [0x4908, 0x4909, 0x4A11, 0x4C40] → d.wget idx e = winDflt (winKey idx e))) ∧
  (∀ e, e < 2 ^ 40 → d.wget 0x4C40 e = if v = .A then c.wget 0x4C40 e else 0) ∧
  (∀ k, k < 256 → ∀ w ∈ [Allow.port k, .drop k, .sub k, .remote], d.allowance w = (0, (d.allowance w).2.1, (d.allowance w).2.1)) ∧
  bits (d.reg 0x4407 0) 41 21 = bits (c.reg 0x4407 0) 41 21 ∧
  (∀ e, e < 2 ^ 40 → bits (d.wget 0x4408 e) 31 16 = bits (c.wget 0x4408 e) 31 16) ∧
  (∀ p, 1 ≤ p → p ≤ 54 → d.reg 0x4907 p = credit (bits (c.reg 0x4902 p) 55 32)) ∧
  (∀ e, e < 2 ^ 40 → d.wget 0x4908 e = credit (bits (c.wget 0x4904 e) 55 32) ∧
    d.wget 0x4909 e = credit (bits (c.wget 0x4905 e) 55 32)) ∧
  (∀ e, e < 2 ^ 40 → bits (c.wget 0x4A10 e) 127 126 ≠ 0 →
    d.wget 0x4A11 e = credit (bits (c.wget 0x4A10 e) 95 72) * 2 ^ 64 + credit (bits (c.wget 0x4A10 e) 119 96)) ∧
  { d with dict := [], win := [], box := c.box } = { Channel.fresh with
    dict := [], win := [], box := c.box, time := { Channel.fresh.time with pps := c.time.pps }, cap := c.cap.restart v c.ringBlock }

/-- A value of an object that an image stores: the writable bits of one of a class that it takes, which differ from the default
(R573, R685). -/
def savedIn (objs : List Obj) (d : Nat → Nat) (t : Store) (runtime : Bool) (pick : Obj → Nat → Nat → Prop)
    (idx sub v : Nat) : Prop :=
  ∃ o x, sub < 256 ∧ (objKey idx sub, x) ∈ t ∧ objIn objs idx sub = some o ∧ o.stored runtime = true ∧ pick o idx sub ∧
    v = x &&& storedMask o ∧ v ≠ d (objKey idx sub) &&& storedMask o

/-- The records of an image: module objects without the keys; what the relay carries once, from the holder's copy or channel A's; what
it does not carry for each channel present; the runs of window entries; and the customer region (R573, R685). -/
def savesCopy (s : State) (b : Bool) : Prop :=
  let src := s.chan (s.arb.holder.getD .a)
  let r := s.imageRecords b
  (∀ idx sub v, Record.obj 0 idx sub v ∈ r ↔ savedIn moduleObjs mDflt s.mdict b
    (fun _ idx sub => ¬(idx = 0x1400 ∧ 0x10 ≤ sub ∧ sub ≤ 0x13)) idx sub v) ∧
  (∀ idx sub v, Record.obj 1 idx sub v ∈ r ↔ savedIn channelObjs chDflt src.dict b
    (fun o idx _ => relayedObj o idx = true) idx sub v) ∧
  (∀ idx sub v, Record.obj 2 idx sub v ∈ r ↔ savedIn channelObjs chDflt s.chA.dict b
    (fun o idx _ => relayedObj o idx = false) idx sub v) ∧
  (∀ idx sub v, Record.obj 3 idx sub v ∈ r ↔ s.present .b = true ∧ savedIn channelObjs chDflt s.chB.dict b
    (fun o idx _ => relayedObj o idx = false) idx sub v) ∧
  (∀ idx e v, (∃ first es k, Record.run 1 idx first es ∈ r ∧ first + k = e ∧ es[k]? = some v) ↔
    ∃ o x, e < 2 ^ 40 ∧ (winKey idx e, x) ∈ src.win ∧ objIn channelObjs idx 0 = some o ∧ o.stored b = true ∧ idx ≠ 0x4710 ∧
      v = x &&& storedMask o ∧
      v ≠ (if idx = 0x4801 then poolDefault s.unit.variant e else winDflt (winKey idx e)) &&& storedMask o) ∧
  ∀ sc ws n, Record.region sc ws n ∈ r ↔ sc = 1 ∧ n = wordsCrc ws ∧ ws = (upFrom 0x3000 4096).map fun a => src.wget 0x4710 a

/-- Where the host port executes the write and 0x1109 is not busy: MODULE with its key word makes the module-wide reset due; CHANNEL takes its channel to OFF, fenced, its output off, with cause HOST recorded, its restart due and its restart count as before, keeps its objects of class P and S but no others, no table, frame or quarantined cell and no count, with every allowance unused and every bucket full, keeps a persistent capture store and loses a fallback ring, moves the lease of a holder to a fit other channel without a window, and leaves an isolated channel alone; PORT resets its port and sets BUSY. Each is answered with status OK. Where the host port executes the write, no command of the kind is in progress and no power-fail warning is in force (INVALIDATE needs no more than the first two): SAVE starts writing the slot that does not hold the newest valid image, which it erases, with PROGRESS 0, and the image is valid, of SEQUENCE one above the newest valid image's, with RUNTIME as commanded, and holds the copy as it stands: the module objects without the keys, what the relay carries from the lease holder's part (channel A's without a holder), what it does not carry from each channel, the runs of window entries that differ from their defaults, and the customer region; class S objects only with RUNTIME; INVALIDATE, ERASE and COMMIT start. Each is answered with status OK. That SAVE erases its slot at acceptance is the model's choice (log entry 19). -/
def Obligations.ResetAndFlashCommandRows : Prop :=
  (∀ (s : State) (h : AuthHdr) (ch : Ch) (p : Nat), s.mreg 0x1109 0 / 2 ^ 15 % 2 = 0 → s.present ch = true →
    (signedModule s h 0x1109 0 0xA5A50001 → ∃ t, exec (.moduleReset h 0xA5A5) s = .next t ∧ answeredOk t h 0x1109 0 ∧
      sameBoard { s with bring := { s.bring with resetDue := true } } t) ∧
    (signedModule s h 0x1109 0 (ch.num * 16 + 2) → (s.role ch).st ≠ .isolated →
      (s.arb.holder = some ch → (s.role ch).st = .active ∧ (s.present ch.other = true → s.fit ch.other = true)) →
      ∃ t, exec (.channelReset h ch) s = .next t ∧ answeredOk t h 0x1109 0 ∧
        (t.role ch).st = .off ∧ (t.role ch).fence = true ∧ (t.role ch).outputOn = false ∧ (t.role ch).ready = false ∧
        (t.role ch).restartDue = true ∧ (t.role ch).resetAt = s.sbTime ∧ (t.role ch).resetCause = .host ∧
        (t.role ch).restarts = (s.role ch).restarts ∧
        t.mreg 0x110A (2 + ch.num) = 1 ∧ t.arb.holder ≠ some ch ∧ t.arb.window = s.arb.window ∧
        (s.arb.holder = some ch → s.present ch.other = true →
          t.arb.holder = some ch.other ∨ t.arb.pending = some ⟨ch.other, ch, .isolate, false, false,
            (s.role ch).fence && (s.role ch).fenceLate && !(s.role ch).fenceDone, s.sbTime⟩) ∧
        resetOf s.unit.variant (s.chan ch) (t.chan ch)) ∧
    (signedModule s h 0x1109 0 (p * 2 ^ 8 + ch.num * 16 + 3) → (1 ≤ p ∧ p ≤ 52) ∨ (65 ≤ p ∧ p ≤ 80) →
      ∃ t, exec (.portReset h ch p) s = .next t ∧ answeredOk t h 0x1109 0 ∧ sameBoard s t ∧ bitOf (t.mreg 0x1109 0) 15 = true ∧
        (s.mode.dawn = false → (s.mode.dusk && s.modeCode != 3) = false → t.chan ch.other = s.chan ch.other ∧
          t.chan ch = ((s.chan ch).resetPort (s.ctx ch) p).emptied))) ∧
  (∀ (s : State) (h : AuthHdr) (b : Bool),
    (signedModule s h 0x1500 1 (b.toNat * 16 + 1) → s.flash.imageJob = none → s.power.warn = false →
      let seq := (match s.selectImage with | 1 => imageSeq s.flash.imageA + 1 | 2 => imageSeq s.flash.imageB + 1 | _ => 1) % 2 ^ 32
      let img := s.encodeImage seq b
      savesCopy s b ∧
      (img.length < 2 ^ 32 → imageValid s.unit.variant img = true ∧ imageSeq img = seq ∧ imageRuntime img = b ∧
        imageLength img = img.length ∧ (img.drop 32).take (img.length - 36) = (s.imageRecords b).flatMap (Record.bytes valueSize)) ∧
      ∃ t, exec (.save h b) s = .next t ∧ answeredOk t h 0x1500 1 ∧ bits (t.mreg 0x1500 2) 15 8 = 0 ∧
        sameBoard { s with flash := (if s.selectImage = 1 then { s.flash with imageB := [], imageJob := some (.save true img) }
          else { s.flash with imageA := [], imageJob := some (.save false img) }) } t) ∧
    (signedModule s h 0x1500 1 (b.toNat * 2 ^ 8 + 2) → s.flash.imageJob = none →
      ∃ t, exec (.invalidate h b) s = .next t ∧ answeredOk t h 0x1500 1 ∧ t.mreg 0x1500 2 = s.mreg 0x1500 2 ∧
        sameBoard { s with flash := { s.flash with imageJob := some (.invalidate b) } } t) ∧
    (signedModule s h 0x1500 5 1 → s.flash.microJob = none → s.power.warn = false →
      ∃ t, exec (.erase h) s = .next t ∧ answeredOk t h 0x1500 5 ∧
        sameBoard { s with flash := { s.flash with microJob := some .erase } } t) ∧
    (signedModule s h 0x1500 5 2 → s.flash.microJob = none → s.power.warn = false →
      ∃ t, exec (.commit h) s = .next t ∧ answeredOk t h 0x1500 5 ∧
        sameBoard { s with flash := { s.flash with microJob := some .commit } } t))

/-- Where the host port executes the write: SWITCH with R515 met and unit 0 of both channels free starts the digest phase of a drill: table 0's digest is ordered and begins on both channels, and the holder's engine of that table stops; REARM ends the suspension of drills; ISOLATE fences its channel and moves it to ISOLATED, ends its backoff and restart, and moves the lease of a holder to a fit other channel as a planned move recorded with CAUSE 4; RELEASE takes an isolated channel to OFF with a reset; RESYNC clears the receiver's tables and starts the copy. A stale receiver is resynced by the module itself once the relay is up. Where the host port executes the write: a request of NIGHT with no window, hold or drill in progress stores 4 and starts NIGHT entry, which is counted and ends DUSK; a request of DAY, or of NOON but in variant C, stores its value, NOON ending DUSK, and in NIGHT wakes the module with cause host. In DAWN the value is stored and the mode follows when DAWN ends. Each is answered with status OK. -/
def Obligations.RoleAndModeCommandRows : Prop :=
  (∀ (s : State) (h : AuthHdr) (ch : Ch), s.present ch = true →
    (∀ x, signedModule s h 0x1300 4 1 → s.drillReady = true → s.arb.holder = some x →
      s.chA.unit0Free = true → s.chB.unit0Free = true →
      ∃ t, exec (.switch h) s = .next t ∧ answeredOk t h 0x1300 4 ∧
        sameBoard { s with arb := { s.arb with drill := some ⟨1, x, x.other, 0, s.modeCode == 6, s.sbTime, 0, 0, false⟩ } } t ∧
        (s.relay.deltas = [] → (s.mode.dusk && s.modeCode != 3) = false → (t.chan x).own.halt = some 0 ∧ ∀ c,
          (s.chan c).own.todo = [] → (s.chan c).own.got = [] → (s.chan c).own.running = false →
          (t.chan c).own.todo = [(.digest 0, false)] ∧ (t.chan c).own.running = true ∧ (t.chan c).jobBusy 1 = true)) ∧
    (signedModule s h 0x1300 4 2 → ∃ t, exec (.rearm h) s = .next t ∧ answeredOk t h 0x1300 4 ∧
      sameBoard { s with arb := { s.arb with suspended := false } } t) ∧
    (signedModule s h 0x1300 4 (ch.num * 2 ^ 8 + 3) → s.arb.drill = none → (s.arb.holder = some ch → s.fit ch.other = true) →
      ∃ t, exec (.isolate h ch) s = .next t ∧ answeredOk t h 0x1300 4 ∧ (t.role ch).st = .isolated ∧ (t.role ch).fence = true ∧
        (t.role ch).backoffEnd = none ∧ (t.role ch).restartDue = false ∧ t.arb.holder ≠ some ch ∧
        t.arb.suspended = s.arb.suspended ∧ t.arb.window = s.arb.window ∧ t.mreg 0x1310 1 = s.mreg 0x1310 1 ∧
        (s.arb.holder = some ch →
          (t.arb.holder = some ch.other ∧ bits (t.mreg 0x1300 0xB) 31 8 = 4 * 2 ^ 8 + ch.num) ∨
            t.arb.pending = some ⟨ch.other, ch, .isolate, true, false,
              (s.role ch).fence && (s.role ch).fenceLate && !(s.role ch).fenceDone, s.sbTime⟩)) ∧
    (signedModule s h 0x1300 4 (ch.num * 2 ^ 8 + 4) → (s.role ch).st = .isolated →
      ∃ t, exec (.release h ch) s = .next t ∧ answeredOk t h 0x1300 4 ∧ (t.role ch).st = .off ∧ (t.role ch).restartDue = true ∧
        (t.role ch).resetAt = s.sbTime ∧ t.mreg 0x110A (2 + ch.num) = 4) ∧
    (s.arb.holder = some ch.other → (s.role ch).st ≠ .isolated → (s.role ch).st ≠ .off → (s.role ch).st ≠ .failed →
      (signedModule s h 0x1300 4 5 → s.relay.up = true → (s.mode.dusk && s.modeCode != 3) = false →
        ∃ t, exec (.resync (some h)) s = .next t ∧ answeredOk t h 0x1300 4 ∧ sameBoard s t ∧ t.relay.resync = some ch ∧
          t.chan ch = (s.chan ch).clearTables.emptied ∧ t.mreg 0x1310 9 = (s.mreg 0x1310 9 + 1) % 2 ^ 64) ∧
      ((s.role ch).stale = true → s.relay.resync = none → s.mode.dawn = false → (s.mode.dusk && s.modeCode != 3) = false →
        ∃ t, exec (.resync none) s = .next t ∧ sameBoard s t ∧ t.relay.up = true ∧ t.relay.resync = some ch ∧
          t.chan ch = (s.chan ch).clearTables.emptied ∧ t.mreg 0x1310 9 = (s.mreg 0x1310 9 + 1) % 2 ^ 64)) ∧
    (s.arb.holder = none → ∃ t, exec (.resync none) s = .next t ∧ sameBoard s t ∧ t.relay.up = true ∧
      t.relay.resync = s.relay.resync)) ∧
  (∀ (s : State) (h : AuthHdr),
    (signedModule s h 0x1101 0 4 → s.arb.window = none → s.arb.hold = none → s.arb.drill = none →
      ∃ t, exec (.requestNight h) s = .next t ∧ answeredOk t h 0x1101 0 ∧ sameBoard s t ∧ t.mreg 0x1101 0 = 4 ∧
        (s.mode.dawn = false → s.mode.night = .awake → t.mode.night = .entering ∧ t.mode.dusk = false ∧
          t.mreg 0x1108 2 = (s.mreg 0x1108 2 + 1) % 2 ^ 64)) ∧
    ∀ m, m = 2 ∨ (m = 6 ∧ s.unit.variant ≠ .C) → signedModule s h 0x1101 0 m →
      ∃ t, exec (if m = 6 then .requestNoon h else .requestDay h) s = .next t ∧ answeredOk t h 0x1101 0 ∧ t.mreg 0x1101 0 = m ∧
        (s.mode.dawn = false → s.mode.night = .awake → sameBoard s t ∧ t.mode.night = .awake ∧
          t.mode.dusk = (s.mode.dusk && m == 2 && !s.twilight)) ∧
        (s.mode.dawn = false → s.mode.night = .asleep → t.mode.night = .awake ∧ t.mreg 0x1107 0 = 1 ∧
          t.mreg 0x1108 3 = (s.mreg 0x1108 3 + 1) % 2 ^ 64))

/-! ## The role arbiter -/

/-- FENCE_FAULT has been taken of a channel whose fence is not confirmed yet (R495). -/
def fenceWasLate (r : ChanRole) : Bool := r.fence && r.fenceLate && !r.fenceDone

/-- The holder that the arbiter may declare failed as a first failure: no recovery window in which it is the new holder. -/
def firstFailure (s : State) (c : Ch) : Prop :=
  s.arb.ok = true ∧ s.present c = true ∧ s.arb.holder = some c ∧ (s.role c).st = .active ∧ ∀ w, s.arb.window = some w → w.new ≠ c

/-- A holder whose failure moves the lease: a first failure without a drain permission, the other channel fit, the outbox without deltas,
as it is between commands. -/
def leaseCanMove (s : State) (c : Ch) : Prop :=
  firstFailure s c ∧ s.arb.drainer = none ∧ s.fit c.other = true ∧ (s.chan c).box.deltas = []

/-- The commands by which a channel that must deliver heartbeats is declared failed: a heartbeat with UNFIT set, the third in a row with a
low SCORE (of the holder only while the other channel is fit), and its own finding (R491). -/
def declares (s : State) (c : Ch) : Instr → DeclCause → Prop
  | .heartbeatArrival k, .unfit => k = c ∧ bitOf (s.healthWord c) 7 = true
  | .heartbeatArrival k, .score => k = c ∧ bitOf (s.healthWord c) 7 = false ∧ bits (s.healthWord c) 31 24 < s.failThreshold ∧
      2 ≤ (s.role c).lowRun ∧ (s.arb.holder = some c → s.fit c.other = true)
  | .selfDeclare k fault, .unfit => k = c ∧ fault = true
  | _, _ => False

/-- The lease has moved away from `c`, declared failed for a cause (R495, R508 to R510). -/
def leaseMoved (s t : State) (c : Ch) (cause : DeclCause) : Prop :=
  (t.arb.holder = some c.other ∨
    t.arb.pending = some ⟨c.other, c, cause, true, true, fenceWasLate (s.role c), s.sbTime⟩) ∧
  t.arb.window = some ⟨c, c.other, cause⟩ ∧ t.arb.suspended = true ∧ t.arb.drill = none ∧ (t.role c).fence = true ∧
  (if cause = .heartbeat then (t.role c).st = .failed ∧ (t.role c).deferred = true
   else (t.role c).st = .off ∧ (t.role c).restartDue = true ∧ (t.role c).resetAt = s.sbTime)

/-- A heartbeat with UNFIT clear and SCORE at the threshold or above stores its word, ends the runs of misses and low scores, counts in the run of good ones, and renews the lease of the holder. One with SCORE below the threshold is counted in the run of low ones and renews the lease too; the third in a row of a holder whose other channel is not fit declares nothing and sets LOW_HEALTH. The end of a 10 us slot advances the arbiter's time; the run of good heartbeats of a channel whose heartbeat did not come ends, and one that must deliver one misses it and is counted; with no reinstatement in progress nothing is declared before the third miss, and nothing at all while the arbiter is lost. -/
def Obligations.HeartbeatsAndSlots : Prop :=
  ∀ (s : State) (ch : Ch), s.present ch = true →
    (let w := s.healthWord ch
     let r := s.role ch
     bitOf w 7 = false → s.failThreshold ≤ bits w 31 24 →
      ∃ t, exec (.heartbeatArrival ch) s = .next t ∧
        settles { ((s.setRole ch { r with
            health := w, misses := 0, lowRun := 0, hbSeen := true,
            goodRun := if r.hbSeen then r.goodRun else r.goodRun + 1 }).mput 0x1300 (8 + ch.num) w) with
          arb := if r.beats && s.arb.ok && s.arb.holder == some ch then { s.arb with leaseAt := s.sbTime } else s.arb } t) ∧
    (let w := s.healthWord ch
     let r := s.role ch
     let base := (s.setRole ch { r with
       health := w, misses := 0, goodRun := 0, lowRun := r.lowRun + 1, hbSeen := true }).mput 0x1300 (8 + ch.num) w
     let renewed := if s.arb.holder == some ch then { s.arb with leaseAt := s.sbTime } else s.arb
     bitOf w 7 = false → bits w 31 24 < s.failThreshold → r.beats = true → s.arb.ok = true →
      (r.lowRun < 2 → ∃ t, exec (.heartbeatArrival ch) s = .next t ∧ settles { base with arb := renewed } t) ∧
      (2 ≤ r.lowRun → s.arb.holder = some ch → s.fit ch.other = false → ∃ t, exec (.heartbeatArrival ch) s = .next t ∧
        settles { base.mflag 0x1300 0xA (2 ^ 6) with arb := renewed } t)) ∧
    (s.arb.ok = false → ∃ t, exec .heartbeatSlot s = .next t ∧ sameBoard { s with sbTime := s.sbTime + 1 } t) ∧
    (s.arb.ok = true → s.arb.pending = none → s.arb.back = none →
      (∀ c, s.present c = true → (s.role c).beats = true → (s.role c).hbSeen = true ∨ (s.role c).misses < 2) →
      ∃ t, exec .heartbeatSlot s = .next t ∧ t.sbTime = s.sbTime + 1 ∧ t.arb = s.arb ∧ t.flash = s.flash ∧ t.bring = s.bring ∧
        (∀ c, { t.role c with stale := (s.role c).stale } = (let r := s.role c
          if !s.present c then r else if r.hbSeen then { r with hbSeen := false }
          else if r.beats then { r with misses := r.misses + 1, goodRun := 0 } else { r with goodRun := 0 })) ∧
        ((s.role ch).beats = true → (s.role ch).hbSeen = false →
          t.mreg 0x1310 (7 + ch.num) = (s.mreg 0x1310 (7 + ch.num) + 1) % 2 ^ 64))

/-- With the other channel fit, no recovery window after which it took over and no drain permission, the holder is declared failed by a heartbeat with UNFIT set, by the third low SCORE in a row, by its own finding, by the lapse of its lease, by a third missed heartbeat and by a trip of its output: it is fenced; the lease goes to the other channel, at once or when the fence is confirmed; the recovery window opens; drills are suspended and a drill in progress ends; after a heartbeat loss the reset is deferred, else it follows at once. A channel that finds itself fit declares nothing. The declaration of a channel that does not hold the lease resets it, ends a drill and its drain permission, and leaves the lease and the window as they are. That of a new holder while the healthy old one still drains ends the drain permission and moves the lease back, recorded with cause 6, with its window and a reset at once (that the cause is 6 is the reading of log entry 102). That of a holder whose other channel is neither fit nor such a drainer resets it and begins the TWILIGHT-hold, in a module with two channels. -/
def Obligations.FailureMovesTheLease : Prop :=
  (∀ (s : State) (c : Ch) (i : Instr) (cause : DeclCause), declares s c i cause →
    (leaseCanMove s c → ∃ t, exec i s = .next t ∧ leaseMoved s t c cause ∧
      (i = .heartbeatArrival c → t.mreg 0x1300 (8 + c.num) = s.healthWord c) ∧
      (i = .selfDeclare c true → bitOf (t.mreg 0x1300 (8 + c.num)) 7 = true)) ∧
    (s.arb.ok = true → s.present c = true → s.arb.holder ≠ some c → (s.role c).beats = true →
      ∃ t, exec i s = .next t ∧ t.arb = { s.arb with
          drill := none, drainer := s.arb.drainer.filter (· != c), pending := s.arb.pending.filter (·.dest != c),
          back := s.arb.back.filter (·.chan != c) } ∧
        (t.role c).st = .off ∧ (t.role c).fence = true ∧ (t.role c).outputOn = false ∧ (t.role c).restartDue = true ∧
        (t.role c).resetAt = s.sbTime ∧ (t.role c).resetCause = .arbiter) ∧
    (firstFailure s c → s.arb.drainer = some c.other → s.healthy c.other = true →
      ∃ t, exec i s = .next t ∧ (t.role c).st = .off ∧ (t.role c).fence = true ∧ (t.role c).restartDue = true ∧
        t.arb.drainer = none ∧ t.arb.drill = none ∧ t.arb.suspended = true ∧ t.arb.window = some ⟨c, c.other, cause⟩ ∧
        t.relay.hold = [] ∧ ((t.arb.holder = some c.other ∧ (t.role c.other).st = .active ∧
            bits (t.mreg 0x1300 0xB) 31 8 = 6 * 2 ^ 8 + c.num) ∨
          ((t.role c.other).st = .standby ∧
            t.arb.pending = some ⟨c.other, c, .drillFault, true, true, fenceWasLate (s.role c), s.sbTime⟩))) ∧
    (firstFailure s c → s.fit c.other = false → ¬(s.arb.drainer = some c.other ∧ s.healthy c.other = true) →
      ∃ t, exec i s = .next t ∧ (t.role c).st = .off ∧ (t.role c).fence = true ∧ (t.role c).restartDue = true ∧
        t.arb.holder = none ∧ t.arb.drill = none ∧ t.arb.window = s.arb.window ∧
        (s.present .b = true → t.arb.hold.isSome = true ∧ t.arb.pending = none ∧ t.arb.back = none ∧
          bitOf (t.mreg 0x1300 0xA) 4 = true ∧ t.mreg 0x1310 3 = (s.mreg 0x1310 3 + 1) % 2 ^ 64))) ∧
  ∀ (s : State) (c : Ch), leaseCanMove s c →
    (bitOf (s.healthWord c) 7 = false → ∃ t, exec (.selfDeclare c false) s = .next t ∧ settles s t) ∧
    (∃ t, exec .leaseLapse s = .next t ∧ leaseMoved s t c .unfit) ∧
    ((s.role c).hbSeen = false → 2 ≤ (s.role c).misses → (s.role c.other).hbSeen = true → s.arb.pending = none → s.arb.back = none →
      ∃ t, exec .heartbeatSlot s = .next t ∧ t.sbTime = s.sbTime + 1 ∧
        leaseMoved { s with sbTime := s.sbTime + 1 } t c .heartbeat) ∧
    ((s.role c).outputOn = true → ∃ t, exec (.outputTrip (.chan c)) s = .next t ∧ leaseMoved s t c .trip ∧
      bitOf (t.mreg 0x1200 6) (4 + c.num) = true)

/-- With the recovery window open and no drain permission, a declaration of the new holder is a double fault, which sets its flag and resets that channel. Where the channel that failed first had lost its heartbeats, has its reset deferred and is healthy, it is reinstated: it passes to OFF with its fence lifted, and a new window opens. Otherwise the TWILIGHT-hold begins, and the window runs on. While a channel is being reinstated, with no other channel that must deliver heartbeats, the first slot that ends takes it from OFF to STARTING, in stage 9, with its fence as it was, and applies the deltas that were held for it, in order, as far as none waits for a busy object. Once none is left, the next one grants it the lease with cause 5, which raises the epoch unless it was the last holder and counts a fail-over and a reinstatement, where the other channel's fence is confirmed; else the grant waits. One of a channel whose FENCE_FAULT has been taken is the subject of FencesAndGrants. -/
def Obligations.SecondFailureAndReinstatement : Prop :=
  (∀ (s : State) (c : Ch) (w : Window), s.arb.ok = true → s.present c = true → s.present c.other = true →
    s.arb.holder = some c → (s.role c).st = .active → s.arb.window = some w → w.new = c → w.first = c.other →
    s.arb.drainer = none → bitOf (s.healthWord c) 7 = true →
    (w.cause = .heartbeat → (s.role c.other).st = .failed → (s.role c.other).deferred = true → s.healthy c.other = true →
      ∃ t, exec (.heartbeatArrival c) s = .next t ∧ (t.role c).st = .off ∧ (t.role c).fence = true ∧ (t.role c).restartDue = true ∧
        (t.role c.other).st = .off ∧ (t.role c.other).fence = false ∧ (t.role c.other).deferred = false ∧
        t.arb.holder = none ∧ t.arb.back = some ⟨c.other, c, false, s.sbTime⟩ ∧ t.arb.window = some ⟨c, c.other, .unfit⟩ ∧
        bitOf (t.mreg 0x1300 0xA) 5 = true) ∧
    ((w.cause = .heartbeat ∧ (s.role c.other).st = .failed ∧ (s.role c.other).deferred = true ∧ s.healthy c.other = true → False) →
      ∃ t, exec (.heartbeatArrival c) s = .next t ∧ (t.role c).st = .off ∧ t.arb.holder = none ∧ t.arb.back = none ∧
        t.arb.window = some w ∧ t.arb.hold.isSome = true ∧ bitOf (t.mreg 0x1300 0xA) 5 = true ∧
        t.mreg 0x1310 3 = (s.mreg 0x1310 3 + 1) % 2 ^ 64)) ∧
  (∀ (s : State) (b : Comeback), s.arb.ok = true → s.arb.back = some b → s.arb.holder = none → s.arb.pending = none →
    s.present b.chan = true → ((s.role b.chan).hbSeen = true ∨ (s.role b.chan).misses < 2) →
    (s.present b.chan.other = true → (s.role b.chan.other).beats = false) →
    (b.starting = false → ∃ t, exec .heartbeatSlot s = .next t ∧ t.arb = { s.arb with back := some { b with starting := true } } ∧
      (t.role b.chan).st = .starting ∧ (t.role b.chan).stage = 9 ∧ (t.role b.chan).fence = (s.role b.chan).fence ∧
      t.relay.hold <:+ s.relay.hold ∧
      ((∀ d ∈ s.relay.hold, match d with | .obj _ _ | .win _ _ => False | _ => True) → t.relay.hold = []) ∧
      t.relay.deltas = s.relay.deltas ∧ t.mreg 0x1310 1 = s.mreg 0x1310 1) ∧
    (∀ d rest, b.starting = true → s.relay.hold = d :: rest → s.deltaWaits b.chan d = true →
      ∃ t, exec .heartbeatSlot s = .next t ∧ t.arb = s.arb ∧ t.relay.hold = s.relay.hold) ∧
    (b.starting = true → (s.role b.chan).st = .starting → s.relay.hold = [] → fenceWasLate (s.role b.chan.other) = false →
      let g : Grant := ⟨b.chan, b.declared, .reinstatement, true, true, false, b.since⟩
      (s.mayGrant g = true → ∃ t, exec .heartbeatSlot s = .next t ∧ t.arb.back = none ∧ t.arb.holder = some b.chan ∧
        (t.role b.chan).st = .active ∧ t.arb.window = s.arb.window ∧ t.arb.leaseAt = s.sbTime + 1 ∧
        t.arb.epoch = (if s.arb.last = some b.chan then s.arb.epoch else (s.arb.epoch + 1) % 2 ^ 32) ∧
        t.mreg 0x1310 1 = (s.mreg 0x1310 1 + 1) % 2 ^ 64 ∧ t.mreg 0x1310 2 = (s.mreg 0x1310 2 + 1) % 2 ^ 64 ∧
        bits (t.mreg 0x1300 0xB) 31 8 = 5 * 2 ^ 8 + b.declared.num) ∧
      (s.mayGrant g = false → ∃ t, exec .heartbeatSlot s = .next t ∧
        t.arb = { s.arb with back := none, pending := some g } ∧ (t.role b.chan).st = .starting)))

/-- While the arbiter is lost no failure is declared: the lapse of the holder's lease makes it an orphan that stays ACTIVE, and an orphan that is unfit, by its heartbeat or its own finding, stops forwarding without losing its state. -/
def Obligations.OrphanWhileArbiterLost : Prop :=
  ∀ (s : State) (c : Ch), s.arb.ok = false → s.arb.holder = some c → (s.role c).st = .active → s.present c = true →
    (bitOf (s.healthWord c) 7 = false → ∃ t, exec .leaseLapse s = .next t ∧
      settles (s.setRole c { s.role c with orphan := true }) t) ∧
    (bitOf (s.healthWord c) 7 = true → ∃ t, exec .leaseLapse s = .next t ∧
      settles (s.setRole c { s.role c with orphan := true, silent := true }) t ∧ t.forwards c = false) ∧
    (bitOf (s.healthWord c) 7 = true → (s.role c).orphan = true → ∃ t, exec (.heartbeatArrival c) s = .next t ∧
      settles ((s.setRole c { s.role c with
        health := s.healthWord c, misses := 0, goodRun := 0, lowRun := 0, hbSeen := true, silent := true }).mput
          0x1300 (8 + c.num) (s.healthWord c)) t ∧ t.forwards c = false) ∧
    ((s.role c).orphan = true → ∃ t, exec (.selfDeclare c true) s = .next t ∧
      settles (s.setRole c { s.role c with silent := true }) t ∧ t.forwards c = false)

/-- When all islands of a fenced channel have confirmed, a grant that waits for the fence takes place: the destination holds the lease and is ACTIVE; the epoch rises by one unless the destination was the last holder; FAILOVERS, the FAILOVER flag and 0x1300:0B record it where the grant is of that kind. A fence not confirmed in time sets FENCE_FAULT and marks the waiting grant, which takes place with the first slot that ends 1.1 ms or more after the last renewal of the lease, 100 us after the lapse of the lease record, and not before; TAKEOVER_US then reads 255 where 255 us have passed since the declaration. Of a channel without a fence neither command changes anything. -/
def Obligations.FencesAndGrants : Prop :=
  ∀ (s : State) (ch : Ch), s.present ch = true →
    ((s.role ch).fence = false → (∃ t, exec (.fenceConfirm ch) s = .next t ∧ settles s t) ∧
      ∃ t, exec (.fenceFault ch) s = .next t ∧ settles s t) ∧
    (∀ g, s.arb.pending = some g → g.faulted = true → s.arb.ok = true → s.arb.back = none →
      (∀ c, s.present c = true → (s.role c).beats = true → (s.role c).hbSeen = true ∨ (s.role c).misses < 2) →
      (s.sbTime + 1 < s.arb.leaseAt + 110 → ∃ t, exec .heartbeatSlot s = .next t ∧ t.arb = s.arb) ∧
      (s.arb.leaseAt + 110 ≤ s.sbTime + 1 → (s.role g.dest).st = .standby ∨ (s.role g.dest).st = .starting →
        ∃ t, exec .heartbeatSlot s = .next t ∧ t.arb.holder = some g.dest ∧ t.arb.pending = none ∧ t.arb.leaseAt = s.sbTime + 1 ∧
          (t.role g.dest).st = .active ∧ t.arb.drainer = s.arb.drainer ∧ t.arb.window = s.arb.window ∧
          t.arb.epoch = (if s.arb.last = some g.dest then s.arb.epoch else (s.arb.epoch + 1) % 2 ^ 32) ∧
          (g.record = true → t.mreg 0x1300 0xB / 2 ^ 8 = t.arb.epoch * 2 ^ 24 + g.cause.code * 2 ^ 8 + g.declared.num ∧
            (g.since + 25 < s.sbTime → t.mreg 0x1300 0xB % 2 ^ 8 = 255)))) ∧
    ((s.role ch).fence = true →
      (s.arb.pending = none → ∃ t, exec (.fenceConfirm ch) s = .next t ∧ settles (s.setRole ch { s.role ch with fenceDone := true }) t) ∧
      (∀ g, s.arb.pending = some g → g.dest = ch.other → g.faulted = false → s.arb.ok = true →
        (s.role g.dest).st = .standby ∨ (s.role g.dest).st = .starting →
        ∃ t, exec (.fenceConfirm ch) s = .next t ∧ (t.role ch).fenceDone = true ∧ t.arb.holder = some g.dest ∧
          t.arb.pending = none ∧ t.arb.leaseAt = s.sbTime ∧ (t.role g.dest).st = .active ∧ (t.role g.dest).orphan = false ∧
          t.arb.epoch = (if s.arb.last = some g.dest then s.arb.epoch else (s.arb.epoch + 1) % 2 ^ 32) ∧
          (t.role g.dest).epoch = t.arb.epoch ∧ t.arb.drainer = s.arb.drainer ∧ t.arb.window = s.arb.window ∧
          (g.counted = true → t.mreg 0x1310 1 = (s.mreg 0x1310 1 + 1) % 2 ^ 64 ∧ bitOf (t.mreg 0x1300 0xA) 0 = true) ∧
          (g.counted = false → t.mreg 0x1310 1 = s.mreg 0x1310 1) ∧
          (g.record = true → t.mreg 0x1300 0xB / 2 ^ 8 = t.arb.epoch * 2 ^ 24 + g.cause.code * 2 ^ 8 + g.declared.num) ∧
          (g.record = false → t.mreg 0x1300 0xB = s.mreg 0x1300 0xB)) ∧
      ((s.role ch).fenceDone = false → (s.role ch).fenceLate = false → ∃ t, exec (.fenceFault ch) s = .next t ∧
        (t.role ch).fenceLate = true ∧ bitOf (t.mreg 0x1300 0xA) 7 = true ∧
        t.arb = { s.arb with pending := s.arb.pending.map fun g =>
          if g.dest = ch.other then { g with faulted := true } else g }))

/-- The end of the recovery window judges the new holder's stability and begins deferred resets, which wait while the arbiter is lost. The loss of the arbiter sets ARBITER_LOST and changes no role. On its return it keeps an ACTIVE holder with the epoch, else grants to a fit channel or one that waits in stage 9 (channel A first), else enters the TWILIGHT-hold, which variant C does not have (its channel then waits for no role); this holds where no output has tripped meanwhile. When a turn of the hold expires the other channel, if present and not isolated, takes its turn with a reset. -/
def Obligations.WindowHoldAndArbiter : Prop :=
  ∀ (s : State) (ch : Ch), s.present ch = true →
    (∀ w, s.arb.window = some w → ∃ t, exec .recoveryWindowEnd s = .next t ∧ t.arb.window = none ∧ t.arb.stable = s.healthy w.new ∧
      (s.arb.ok = true → (s.role ch).deferred = true → (t.role ch).st = .off ∧ (t.role ch).restartDue = true) ∧
      (s.arb.ok = false ∨ (s.role ch).deferred = false → { t.role ch with stale := (s.role ch).stale } = s.role ch)) ∧
    (∀ c, s.arb.ok = true → ∃ t, exec (.arbiterLost c) s = .next t ∧
      settles ({ s with arb := { s.arb with ok := false } }.mflag 0x1300 0xA 2) t) ∧
    (s.arb.ok = false → s.power.sbOut = true → s.arb.hold = none → s.arb.pending = none → s.arb.window = none →
      (s.role .a).deferred = false → (s.role .b).deferred = false → (∀ c, s.tripped c = false) →
      (s.arb.holder = some ch → (s.role ch).st = .active → ∃ t, exec .arbiterReturn s = .next t ∧ t.arb.ok = true ∧
        t.arb.holder = some ch ∧ t.arb.epoch = s.arb.epoch ∧ (t.role ch).st = .active ∧ (t.role ch).orphan = false ∧
        t.mreg 0x1310 0xB = (s.mreg 0x1310 0xB + 1) % 2 ^ 64) ∧
      (s.arb.holder = none → (∀ c, (s.role c).st ≠ .active) →
        (s.candidate ch = true → (ch = .b → s.candidate .a = false) →
          (s.role ch.other).st = .standby ∨ (s.role ch.other).st = .starting ∨ (s.role ch.other).st = .off →
          ∃ t, exec .arbiterReturn s = .next t ∧ t.arb.ok = true ∧ t.arb.holder = some ch ∧ (t.role ch).st = .active) ∧
        (s.candidate .a = false → s.candidate .b = false → (s.present .b = false → s.waitsRole .a = false) → ∃ t, exec .arbiterReturn s = .next t ∧ t.arb.ok = true ∧
          t.arb.holder = none ∧ t.arb.hold.isSome = s.present .b ∧
          (s.present .b = true → t.mreg 0x1310 3 = (s.mreg 0x1310 3 + 1) % 2 ^ 64)))) ∧
    (s.arb.ok = true → s.arb.hold = some ch →
      let o := if s.present ch.other && (s.role ch.other).st != .isolated then ch.other else ch
      ∃ t, exec .holdTurnExpire s = .next t ∧ t.arb.hold = some o ∧
        ((s.role o).st ≠ .isolated → (t.role o).st = .off ∧ (t.role o).restartDue = true ∧ (t.role o).resetCause = .hold) ∧
        (o ≠ ch → (t.role ch).restartDue = false ∧ ((s.role ch).st ≠ .isolated → (t.role ch).st = .off)))

/-- A due drill begins the digest phase or, where unit 0 of a channel does not become free in time, where R515 is not met or drills are suspended, is recorded as SKIPPED and tried again 600 s later. An item does not end while unit 0 of a channel is held by another job; once the jobs of both channels have ended, with no delta waiting, equal results lead to the next item and after the last one (the customer region, or table 7 in a drill that began in NOON) to the exchange of roles, in which the old holder has the drain permission and the engines run on; a difference, or a job that did not end well though it was repeated, aborts the drill with DIGEST_MISMATCH and leaves the standby stale. The release point is passed once; drain_end makes the old holder DRAINING and puts the held deltas first; the end of the drain flushes what remains, makes it STANDBY and ends the drill OK or LOSSY. -/
def Obligations.DrillCourse : Prop :=
  ∀ s : State,
    (s.drillDue = false → ∃ t, exec .drillDue s = .next t ∧ settles s t) ∧
    (∀ h, s.drillDue = true → s.arb.holder = some h →
      (s.drillReady = true → s.arb.suspended = false →
        let begun := { s with arb := { s.arb with drill := some ⟨1, h, h.other, 0, false, s.sbTime, 0, 0, false⟩ } }
        (s.chA.unit0Free = true → s.chB.unit0Free = true → ∃ t, exec .drillDue s = .next t ∧ sameBoard begun t ∧
          (s.relay.deltas = [] → settles begun t)) ∧
        ∃ t, exec .drillDue s = .next t ∧ (t.arb = begun.arb ∨
          t.arb = { s.arb with retryAt := (s.chan h).time.sec + 600 } ∧ t.mreg 0x1300 7 = 3 * 2 ^ 24)) ∧
      (s.drillReady = false ∨ s.arb.suspended = true → ∃ t, exec .drillDue s = .next t ∧
        settles { ((s.mput 0x1300 7 (3 * 2 ^ 24)).minc 0x1310 6) with
          arb := { s.arb with retryAt := (s.chan h).time.sec + 600 } } t)) ∧
    ∀ d, s.arb.drill = some d →
      (d.phase = 1 → s.arb.ok = true → s.arb.holder = some d.old → d.new = d.old.other → (s.role d.new).st = .standby →
        s.relay.deltas = [] → ∀ x y, (s.chan d.old).own.got = [x] → (s.chan d.new).own.got = [y] →
        (s.chan d.old).own.todo = [] → (s.chan d.new).own.todo = [] →
        (s.chan d.old).own.running = false → (s.chan d.new).own.running = false →
        ∃ t, exec .digestItemDone s = .next t ∧
          (x = y → x ≠ none → d.item ≠ d.lastItem →
            sameBoard { s with arb := { s.arb with drill := some { d with item := d.item + 1 } } } t) ∧
          (x = y → x ≠ none → d.item = d.lastItem → (∀ k, s.present k = true → (t.chan k).own = Channel.fresh.own) ∧ t.arb.holder = some d.new ∧ t.arb.drainer = some d.old ∧
            (t.role d.new).st = .active ∧ ((s.role d.old).st = .active → (t.role d.old).st = .active) ∧ t.arb.drill.map Drill.phase = some 2) ∧
          (x ≠ y ∨ x = none → t.arb.drill = none ∧ t.arb.holder = some d.old ∧ (t.role d.new).stale = true ∧
            t.mreg 0x1300 7 / 2 ^ 20 = 4 * 2 ^ 4 + (if d.item = 8 then 15 else d.item) ∧
            t.mreg 0x1310 6 = (s.mreg 0x1310 6 + 1) % 2 ^ 64 ∧ bitOf (t.mreg 0x1300 0xA) 2 = true)) ∧
      (∀ k, k = d.old ∨ k = d.new → (s.chan k).own.got = [] → (s.chan k).own.running = false → (s.chan k).unit0Free = false →
        s.relay.deltas = [] → ∃ t, exec .digestItemDone s = .next t ∧ settles s t) ∧
      (d.phase = 2 → d.released = false → ∃ t, exec .releasePoint s = .next t ∧
        sameBoard { s with arb := { s.arb with drill := some { d with released := true } } } t) ∧
      (∀ a, s.arb.drainer = some a → (s.role a).st = .active → ∃ t, exec .drainEnd s = .next t ∧
        settles { s.setRole a { s.role a with st := .draining } with arb := { s.arb with drill := some { d with phase := 3 } } } t ∧
        s.relay.hold ++ s.relay.deltas <+: t.relay.deltas) ∧
      (s.arb.drainer = some d.old → d.new = d.old.other → (s.role d.old).st = .draining →
        ∃ t, exec .drainComplete s = .next t ∧ (t.role d.old).st = .standby ∧ t.arb.drainer = none ∧ t.arb.drill = none ∧
          t.arb.holder = s.arb.holder ∧
          (let lossy := ((s.chan d.old).flushAll (s.ctx d.old)).lossCount ≠ d.lossOld ∨ (s.chan d.new).lossCount ≠ d.lossNew
           (lossy → t.mreg 0x1300 7 / 2 ^ 24 = 2 ∧ t.mreg 0x1310 5 = (s.mreg 0x1310 5 + 1) % 2 ^ 64) ∧
           (¬lossy → t.mreg 0x1300 7 / 2 ^ 24 = 1 ∧ t.mreg 0x1310 4 = (s.mreg 0x1310 4 + 1) % 2 ^ 64)))

/-- The receiver applies the oldest delta, whole and in order, and the count of applied deltas rises by one; a write to a posted domain whose object is still busy there waits, with all behind it. When the relay goes down the deltas in flight are lost, a resync ends, in stage 7 with empty tables, and the receiver becomes stale. Once every copied entry has been applied, the resync is complete and MIRROR_STALE clears; before that RESYNC_COMPLETE changes nothing. -/
def Obligations.RelayCourse : Prop :=
  ∀ (s : State) (h : Ch), s.arb.holder = some h →
    (∀ d rest, s.relay.deltas = d :: rest →
      (s.deltaWaits h.other d = true → ∃ t, exec .deltaApply s = .next t ∧ settles s t ∧ s.relay.deltas <+: t.relay.deltas) ∧
      (s.deltaWaits h.other d = false → ∃ t, exec .deltaApply s = .next t ∧ sameBoard s t ∧ t.mreg 0x1310 0xA = (s.mreg 0x1310 0xA + 1) % 2 ^ 64 ∧
        rest <+: t.relay.deltas ∧
        (s.mode.dawn = false → (s.mode.dusk && s.modeCode != 3) = false → (∀ key v, d = .obj key v → key / 256 ∉ [0x410C, 0x410D, 0x4200, 0x4206, 0x4252, 0x425D]) →
          t.chan h = s.chan h ∧ t.chan h.other = ((s.chan h.other).applyDelta (s.ctx h.other) d).emptied))) ∧
    (s.relay.deltas = [] → ∃ t, exec .deltaApply s = .next t ∧ settles s t) ∧
    (∃ t, exec .relayDown s = .next t ∧ sameBoard s t ∧ t.relay.up = false ∧ t.relay.deltas = [] ∧ t.relay.resync = none ∧
      (s.present h.other = true → (t.role h.other).stale = true) ∧
      (∀ r, s.relay.resync = some r → (s.role r).st = .starting → s.mode.dawn = false → (s.mode.dusk && s.modeCode != 3) = false →
        t.chan r = (s.chan r).clearTables.emptied)) ∧
    (∀ r, s.relay.resync = some r → s.relay.copyLeft = 0 → s.mode.dawn = false → s.mode.last = s.modeCode →
      ∃ t, exec .resyncComplete s = .next t ∧ sameBoard s t ∧ t.relay = { s.relay with resync := none } ∧
        (t.role r).stale = false) ∧
    (s.relay.resync = none ∨ s.relay.copyLeft ≠ 0 → exec .resyncComplete s = .next s)

/-! ## The core and the modes -/

/-- Per R63, with voltages in mV and x the product 108 * load * p in units where 5.6 * 10^11 is a margin of 1.0, load being the larger of the line occupancy of all ports and seven times that of the pipeline that received most in the window: 850 on a fixed track mode, a monitor fault, a monitor that reported nothing or more than 1 MiB of reserve in use; 750 on the fixed DAY mode; 550 in DUSK; else 750 at once when capacity is short below 750, up by 5 per 0.015 of shortage, down by 5 below 0.97, not below 750 while a DUSK exit is pending; then at most 850 and at least 550, and at least 750 on a standby outside DUSK. In NIGHT it is 550. Each update shows the two fractions in whole units of 0.1 % (log entry 87) and the longest period, begins the next window and makes a CLR_HIGH_WATER written before it take effect. With a lost supply controller the window is shown, the run of quiet ones ends (the model's choice, log entry 125) and the set point stands. A trigger of R535 ends DUSK in the same update. After an update MEAS_MV is the measured voltage, the flags of the lowest and highest set point follow the set point, RAMPING stands while the measured voltage lies below it (the model's choice, log entry 88), the junction temperature is shown (log entry 108), and FAULT_HOLD stands while the supply controller is lost. -/
def Obligations.SetPointUpdate : Prop :=
  (∀ (s : State) (ch : Ch) (rs silent : List Nat) (meas tj : Nat), s.present ch = true → s.mode.dawn = false →
    (s.mode.dusk && s.modeCode != 3) = false →
    let c := s.chan ch
    let ps := monitorReadings rs silent
    let used := (c.pool 15).shared
    let track := bits (c.reg 0x4000 0x10) 5 4
    let p := ps.foldl max 0
    let all := c.core.heard.foldl (· + ·) 0
    let most := c.core.heard.foldl max 0
    let x := 108 * max all (7 * most) * p
    let shown := fun (d : Channel) => d.core.heard = List.replicate 8 0 ∧
      d.reg 0x4000 0x1B = most / 800 % 2 ^ 16 * 2 ^ 16 + all / 5600 % 2 ^ 16 ∧
      d.reg 0x4000 0x12 = (if 0xFFFF ∈ ps then 0xFFFF else p % 2 ^ 16)
    let runs := fun (v : Nat) => ∃ t, exec (.setPointUpdate ch rs silent meas tj) s = .next t ∧ sameBoard s t ∧
      (t.chan ch).core.setMv = v ∧ (t.chan ch).core.exitPend = false ∧ bits ((t.chan ch).reg 0x4000 0x11) 9 0 = v ∧
      shown (t.chan ch) ∧ (t.chan ch).core.markDue = false ∧
      (t.chan ch).reg 0x4000 0x1E = (if c.core.markDue then used else c.reg 0x4000 0x1E)
    (s.power.ctrlOk = false → ∃ t, exec (.setPointUpdate ch rs silent meas tj) s = .next t ∧ settles s t ∧
      t.chan ch.other = s.chan ch.other ∧ shown (t.chan ch) ∧
      (t.chan ch).core = { c.core with heard := List.replicate 8 0, quietRun := 0 } ∧
      (c.core.setMv < 1024 → bits ((t.chan ch).reg 0x4000 0x11) 9 0 = c.core.setMv)) ∧
    (s.power.ctrlOk = true →
      (s.mode.night = .asleep → runs 550) ∧
      (s.mode.night ≠ .asleep → (∃ q ∈ ps, q < 400 ∨ 4000 < q) ∨ 4096 < used ∨ track = 2 → runs 850) ∧
      (s.mode.night ≠ .asleep → (∀ q ∈ ps, 400 ≤ q ∧ q ≤ 4000) → c.core.monFault = false →
        used ≤ 4096 → c.core.drain = false ∨ used < 1024 →
        s.mode.dusk = false ∨ s.duskTrigger ch = false →
        let floor := fun (v : Nat) => if (s.role ch).st = .standby ∧ s.modeCode ≠ 3 then max 750 v else v
        let loop := if 604800000000 < x ∧ c.core.setMv < 750 then 750
          else if 560000000000 < x then c.core.setMv + 5 * ((x - 560000000000 + 8399999999) / 8400000000)
          else if x < 543200000000 then c.core.setMv - 5 else c.core.setMv
        (track = 1 → runs 750) ∧
        (track = 0 → s.modeCode = 3 → c.core.exitPend = false → runs 550) ∧
        (track = 0 → s.modeCode ≠ 3 → c.core.exitPend = false → runs (floor (min 850 (max 550 loop)))) ∧
        (track = 0 → c.core.exitPend = true → runs (floor (min 850 (max 550 (max loop 750))))))) ∧
    (s.power.ctrlOk = true → s.mode.dusk = true → s.duskTrigger ch = true →
      ∃ t, exec (.setPointUpdate ch rs silent meas tj) s = .next t ∧ t.mode.dusk = false ∧ bitOf (t.mreg 0x1106 0) 2 = true)) ∧
  ∀ (s : State) (ch : Ch) (rs silent : List Nat) (meas tj : Nat), s.present ch = true → s.mode.dawn = false → meas < 1024 →
    ∃ t, exec (.setPointUpdate ch rs silent meas tj) s = .next t ∧
      (let w := (t.chan ch).reg 0x4000 0x11
       let v := (t.chan ch).core.setMv
       bits w 25 16 = meas ∧ (bitOf w 14 = true ↔ v = 550) ∧ (bitOf w 13 = true ↔ v = 850) ∧ (bitOf w 15 = true ↔ meas < v) ∧
       (t.chan ch).reg 0x4000 0x1C = tj % 2 ^ 16 ∧
       bitOf ((t.chan ch).view (t.ctx ch) 0x4000 0x11) 12 = !s.power.ctrlOk)

/-- DUSK is entered where R534 holds, flagged and counted. When the drain of NIGHT entry ends, what remains queued is flagged and the module sleeps, or wakes at once by a source that arose meanwhile, its cores at DAY voltage and dusk_exit_pending set; a request of NIGHT that stands in 0x1101 then begins the next entry (log entry 106). A wake time that is due by the reference time in NIGHT clears ENABLE and wakes the sleeping module with cause time into WAKE_MODE; during NIGHT entry it waits for the entry to complete; outside NIGHT or without a reference time it is not judged. -/
def Obligations.ModeChanges : Prop :=
  ∀ s : State,
    (s.duskReady = false → ∃ t, exec .duskEntry s = .next t ∧ settles s t) ∧
    (s.duskReady = true → ∃ t, exec .duskEntry s = .next t ∧ sameBoard s t ∧ t.mode.dusk = true ∧ bitOf (t.mreg 0x1106 0) 1 = true ∧
      t.mreg 0x1108 1 = (s.mreg 0x1108 1 + 1) % 2 ^ 64 ∧ t.modeCode = 3) ∧
    (s.mode.night ≠ .entering → ∃ t, exec .nightDrainEnd s = .next t ∧ settles s t) ∧
    (s.mode.night = .entering → s.mode.dawn = false →
      ∃ t, exec .nightDrainEnd s = .next t ∧
        (s.channels.any (fun ch => !(s.chan ch).queuesEmpty) = true → bitOf (t.mreg 0x1106 0) 6 = true) ∧
        (∀ ch, s.present ch = true → (t.chan ch).core.setMv = (if s.mode.wake = none then (s.chan ch).core.setMv else max 750 (s.chan ch).core.setMv) ∧
          (s.mode.wake ≠ none → (t.chan ch).core.exitPend = true)) ∧
        (s.mode.wake = none → sameBoard s t ∧ t.mode.night = .asleep ∧ t.modeCode = 4) ∧
        (∀ w, s.mode.wake = some w → t.mode.wake = none ∧ t.mreg 0x1107 0 = w.record ∧
          t.mreg 0x1108 3 = (s.mreg 0x1108 3 + 1) % 2 ^ 64 ∧
          (let m := if w = .host then s.mreg 0x1101 0 else bits (s.mreg 0x1104 0) 7 4
           t.mreg 0x1101 0 = m ∧ (m ≠ 4 → t.mode.night = .awake ∧ t.mreg 0x1108 2 = s.mreg 0x1108 2) ∧
           (m = 4 → t.mode.night = .entering ∧ t.mreg 0x1108 2 = (s.mreg 0x1108 2 + 1) % 2 ^ 64)))) ∧
    (let w := s.mreg 0x1105 0
     let due := fun (x : Ch) =>
      ((s.chan x).time.sec % 2 ^ 32 * 1000000000 + (s.chan x).time.ns + 2 ^ 32 * 1000000000 -
        (bits w 61 30 * 1000000000 + bits w 29 0)) % (2 ^ 32 * 1000000000) ≤ 2 ^ 31 * 1000000000
     (s.refChan = none ∨ s.mode.night = .awake ∨ bitOf w 63 = false → ∃ t, exec .wakeTimeDue s = .next t ∧ settles s t) ∧
     ∀ x, s.refChan = some x → bitOf w 63 = true →
      (¬due x → ∃ t, exec .wakeTimeDue s = .next t ∧ settles s t) ∧
      (due x → s.mode.night = .asleep → s.mode.dawn = false → ∃ t, exec .wakeTimeDue s = .next t ∧
        (bits (s.mreg 0x1104 0) 7 4 ≠ 4 → t.mode.night = .awake) ∧
        (∀ ch, s.present ch = true → (t.chan ch).core.setMv = max 750 (s.chan ch).core.setMv ∧ (t.chan ch).core.exitPend = true) ∧ bitOf (t.mreg 0x1105 0) 63 = false ∧ t.mreg 0x1107 0 = 3 ∧ bitOf (t.mreg 0x1106 0) 5 = true ∧
        t.mreg 0x1101 0 = bits (s.mreg 0x1104 0) 7 4) ∧
      (due x → s.mode.night = .entering → s.mode.dawn = false → ∃ t, exec .wakeTimeDue s = .next t ∧ sameBoard s t ∧
        t.mode.night = .entering ∧ t.mode.wake.isSome = true ∧ bitOf (t.mreg 0x1105 0) 63 = false))

/-- A junction report stores the temperature and from +105 C on sets OVERTEMP. An island that loses lock clears its bit, sets LOST_LOCK and takes its ports down; the buffer, time base and capture islands have none. A relock sets the bit. -/
def Obligations.JunctionAndIslands : Prop :=
  ∀ (s : State) (ch : Ch), s.present ch = true →
    let c := s.chan ch
    (∀ tj, tj < 2 ^ 16 → ∃ t, exec (.junctionOvertemp ch tj) s = .next t ∧ sameOutside ch s t ∧
      (t.chan ch).reg 0x4000 0x1C = tj ∧ onlyRegs c (t.chan ch) [(0x4000, 0x1C), (0x4000, 0x21)] ∧
      (840 ≤ signedOf 16 tj → flagged c (t.chan ch) 0x4000 0x21 2) ∧
      (signedOf 16 tj < 840 → (t.chan ch).reg 0x4000 0x21 = c.reg 0x4000 0x21)) ∧
    ∀ i, i ≤ 28 →
      (c.bit 0x4000 0x20 i = false → ∃ t, exec (.islandLockLoss ch i) s = .next t ∧ sameOutside ch s t ∧ t.chan ch = c.emptied) ∧
      (c.bit 0x4000 0x20 i = true → ∃ t, exec (.islandLockLoss ch i) s = .next t ∧ sameOutside ch s t ∧
        t.chan ch = ((islandPorts i).foldl (fun d p => d.portDown (s.ctx ch) p)
          (((c.putBit 0x4000 0x20 i false).flag 0x4000 0x21 (2 ^ 4)).log 0x34 (c.reg 0x4000 0x20))).emptied ∧
        (26 ≤ i → (t.chan ch).bit 0x4000 0x20 i = false ∧ flagged c (t.chan ch) 0x4000 0x21 (2 ^ 4) ∧
          onlyRegs c (t.chan ch) [(0x4000, 0x20), (0x4000, 0x21)])) ∧
      (∃ t, exec (.islandRelock ch i) s = .next t ∧ sameOutside ch s t ∧ (t.chan ch).bit 0x4000 0x20 i = true ∧
        (∀ j, j ≠ i → (t.chan ch).bit 0x4000 0x20 j = c.bit 0x4000 0x20 j) ∧ onlyRegs c (t.chan ch) [(0x4000, 0x20)])

/-- The states that a measurement calls for follow the table of R546. An input that comes back from LOST, OVERVOLTAGE or FREQUENCY passes through RETURNING and takes its state when that time ends, which ends a warning. Every entry to an unused state is flagged. The warning is issued in the step in which the last input in use leaves use, unless one is in force; the capture engines then hold. While the mating loop is open both inputs stay LOST. -/
def Obligations.SupplyInputs : Prop :=
  (∀ m, (m.dc = true → m.volt < 800 → 5000 ≤ m.heldUs → inputTarget m = some .lost) ∧
    (m.dc = true → 800 ≤ m.volt → m.volt < 1000 → inputTarget m = some .low) ∧
    (m.dc = true → 1000 ≤ m.volt → m.volt ≤ 4400 → inputTarget m = some .dc) ∧
    (m.dc = true → 4400 < m.volt → 1000 ≤ m.heldUs → inputTarget m = some .overvoltage) ∧
    (m.dc = false → m.inst < 600 → 5000 ≤ m.heldUs → inputTarget m = some .lost) ∧
    (m.dc = false → 600 ≤ m.inst → 4600 < m.inst → inputTarget m = some .overvoltage ∨ inputTarget m = some .lost) ∧
    (m.dc = false → 600 ≤ m.inst → m.inst ≤ 4600 → 430 ≤ m.freq → m.freq ≤ 4600 →
      (850 ≤ m.volt → m.volt ≤ 3200 → inputTarget m = some .ac) ∧ (700 ≤ m.volt → m.volt < 850 → inputTarget m = some .low)) ∧
    (m.dc = false → 600 ≤ m.inst → m.inst ≤ 4600 → 700 ≤ m.volt → m.volt ≤ 3200 → m.freq < 430 ∨ 4600 < m.freq → 100000 ≤ m.heldUs →
      inputTarget m = some .frequency)) ∧
  ∀ (s : State) (i : Inlet) (m : InputMeas),
    let x := s.input i
    let flag := match i with
      | .a => 1
      | .b => 2
    (s.power.looped = false ∨ inputTarget m = none → ∃ t, exec (.inputChange i m) s = .next t ∧ settles s t) ∧
    (∀ g, s.power.looped = true → inputTarget m = some g → ∃ t, exec (.inputChange i m) s = .next t ∧
      t.input i = (if g.gone = false ∧ (x.st.gone = true ∨ x.st = .returning) then ⟨.returning, g⟩ else ⟨g, g⟩) ∧
      t.power.looped = true ∧ t.arb = s.arb ∧ t.flash = s.flash ∧
      (g.gone = true → x.st ≠ g → bitOf (t.mreg 0x1200 6) flag = true) ∧
      (s.power.powered = true → s.power.warn = false → s.fed = true → (s.setInput i (x.step g)).fed = false → s.mode.dawn = false →
        t.power.warn = true ∧ t.power.warnWritten = false ∧ bitOf (t.mreg 0x1200 6) 3 = true ∧
        ∀ ch, s.present ch = true → (t.chan ch).cap.hold = true) ∧
      (s.fed = false ∨ (s.setInput i (x.step g)).fed = true ∨ s.power.warn = true → t.power.warn = s.power.warn)) ∧
    (x.st ≠ .returning → ∃ t, exec (.returningComplete i) s = .next t ∧ settles s t) ∧
    (x.st = .returning → ∃ t, exec (.returningComplete i) s = .next t ∧ t.input i = ⟨x.next, x.next⟩ ∧ t.power.warn = false ∧
      t.arb = s.arb ∧ t.flash = s.flash) ∧
    (∃ t, exec .mateLoopOpen s = .next t ∧ t.power.looped = false ∧ t.power.inA = ⟨.lost, .lost⟩ ∧ t.power.inB = ⟨.lost, .lost⟩ ∧
      (s.power.powered = true → s.fed = true → t.power.warn = true)) ∧
    (∃ t, exec .mateLoopClose s = .next t ∧ settles { s with power := { s.power with looped := true } } t)

/-- The loss of the supply controller freezes every core voltage, raised to 750 mV at least. A trip of the service block's output takes arbiter, relay and controller with it and no channel's state; a retry that holds brings relay and controller back. A trip in stage 3 fails that stage. The measurements are stored and flagged. A contact whose hold ends shows its condition. The end of the hold-up turns the module off: both contacts drop out, the channels are OFF, the images and keys stay. -/
def Obligations.SupplyOutputs : Prop :=
  ∀ s : State,
    (s.power.ctrlOk = true → ∃ t, exec .supplyControllerFault s = .next t ∧ t.power.ctrlOk = false ∧
      t.arb = s.arb ∧ bitOf (t.mreg 0x1200 6) 0 = true ∧ ∀ ch, s.mode.dawn = false → (s.mode.dusk && s.modeCode != 3) = false → s.present ch = true →
        (t.chan ch).core = { (s.chan ch).core with setMv := max 750 (s.chan ch).core.setMv } ∧
        bitOf ((t.chan ch).view (t.ctx ch) 0x4000 0x11) 12 = true) ∧
    (s.power.ctrlOk = false → ∃ t, exec .supplyControllerFault s = .next t ∧ settles s t) ∧
    (s.power.sbOut = true → ∃ t, exec (.outputTrip .sb) s = .next t ∧ t.power.sbOut = false ∧ t.power.ctrlOk = false ∧
      t.arb = { s.arb with ok := false } ∧ t.relay.up = false ∧ ∀ ch, (t.role ch).st = (s.role ch).st) ∧
    (s.power.sbOut = false → ∃ t, exec (.outputTrip .sb) s = .next t ∧ settles s t) ∧
    (∀ ch, s.present ch = true → (s.role ch).st = .starting → (s.role ch).stage = 3 → (s.role ch).outputOn = true →
      (s.role ch).waitNight = false → (s.role ch).waitArb = false → (s.role ch).attempt < 4 →
      ∃ t, exec (.outputTrip (.chan ch)) s = .next t ∧ bitOf (t.mreg 0x1200 6) (4 + ch.num) = true ∧
        { t.role ch with stale := (s.role ch).stale } = { s.role ch with
          attempt := (s.role ch).attempt + 1, failStage := 3, failCause := 1 }) ∧
    (∀ b, s.power.sbOut = true ∨ b = false → ∃ t, exec (.sbOutputRetry b) s = .next t ∧ settles s t) ∧
    (s.power.sbOut = false → ∃ t, exec (.sbOutputRetry true) s = .next t ∧ t.power.sbOut = true ∧ t.power.ctrlOk = true ∧
      t.relay.up = true ∧ t.arb = s.arb) ∧
    (∀ m, ∃ t, exec (.supplyMeasure m) s = .next t ∧ sameBoard s t ∧ t.mreg 0x1200 2 = m.inA % 2 ^ 64 ∧
      t.mreg 0x1200 3 = m.inB % 2 ^ 64 ∧ bits (t.mreg 0x1200 4) 63 48 = (m.chAW + m.chBW + m.sbW) % 2 ^ 16 ∧
      bits (t.mreg 0x1200 4) 47 32 = m.chAW % 2 ^ 16 ∧ bits (t.mreg 0x1200 4) 31 16 = m.chBW % 2 ^ 16 ∧
      bits (t.mreg 0x1200 4) 15 0 = m.sbW % 2 ^ 16 ∧ t.mreg 0x1200 5 = m.tempS % 2 ^ 16 ∧
      (bits (s.mreg 0x1200 7) 15 0 < (m.chAW + m.chBW + m.sbW) % 2 ^ 16 → bitOf (t.mreg 0x1200 6) 6 = true) ∧
      (800 ≤ signedOf 16 m.tempS → bitOf (t.mreg 0x1200 6) 7 = true) ∧
      ∀ ch, s.mode.dawn = false → (s.mode.dusk && s.modeCode != 3) = false → t.chan ch = s.chan ch) ∧
    (s.power.powered = true → s.mode.dawn = false →
      (∃ t, exec (.contactHoldEnd .fault) s = .next t ∧ sameBoard s t ∧
        t.power.fault = (if s.power.fault.on = s.faultCond then ⟨s.power.fault.on, false⟩ else ⟨s.faultCond, true⟩)) ∧
      (∃ t, exec (.contactHoldEnd .role) s = .next t ∧ sameBoard s t ∧
        t.power.role = (if s.power.role.on = s.roleCond then ⟨s.power.role.on, false⟩ else ⟨s.roleCond, true⟩))) ∧
    (s.power.powered = true → s.fed = false → ∃ t, exec .powerLoss s = .next t ∧ t.power.powered = false ∧ t.mode.dawn = true ∧
      t.power.fault = ⟨false, false⟩ ∧ t.power.role = ⟨false, false⟩ ∧ t.arb.holder = none ∧
      (∀ ch, (t.role ch).st = .off) ∧ t.flash.imageA = s.flash.imageA ∧ t.flash.imageB = s.flash.imageB ∧ t.host.keys = s.host.keys) ∧
    (s.power.powered = false ∨ s.fed = true → ∃ t, exec .powerLoss s = .next t ∧ settles s t)

/-! ## Bring-up, resets, persistence -/

/-- What stage 2 loads into the service block copy (R571, R574): the newer valid image, slot A where both have one SEQUENCE, no image where
neither is valid. A value is skipped only where the checks refuse it with all others applied; each is counted. -/
def loadsImage (s t : State) : Prop :=
  let f := s.flash
  let va := imageValid s.unit.variant f.imageA
  let vb := imageValid s.unit.variant f.imageB
  let k := if va && !(vb && newer (imageSeq f.imageB) (imageSeq f.imageA)) then 1 else if vb then 2 else 3
  let id := readStraps s.unit.straps
  let u := { s with bring := { s.bring with
    moduleId := id.2, strapError := id.1, image := k, fallback := va != vb, unconf := k == 3 } }
  let holds := fun (r : State) =>
    (∀ idx sub o, sub < 256 → objIn moduleObjs idx sub = some o → o.keep = .P ∨ o.keep = .S → t.mreg idx sub = r.mreg idx sub) ∧
    ∀ ch, s.present ch = true → ∀ idx sub o, sub < 256 → objIn channelObjs idx sub = some o → o.ty.isWindow = false → o.inCopy = true →
      idx ≠ 0x4407 → (t.chan ch).reg idx sub = (r.chan ch).reg idx sub
  let img := if k = 2 then f.imageB else f.imageA
  let recs := imageBody img
  let items := recs.flatMap recordItems
  let r := u.applyImage (imageRuntime img) items.length items
  t.bring.image = k ∧ t.bring.fallback = (va != vb) ∧ t.bring.unconf = (k == 3) ∧
  (k = 3 → holds s ∧ bits (t.mreg 0x1500 2) 63 32 = bits (s.mreg 0x1500 2) 63 32) ∧
  (k ≠ 3 → holds r.1 ∧ (∀ i ∈ r.2, r.1.applyItem (imageRuntime img) i = none) ∧
    bits (t.mreg 0x1500 2) 63 32 = (bits (r.1.mreg 0x1500 2) 63 32 + r.2.length) % 2 ^ 32 ∧
    ∀ ws n, Record.region 1 ws n ∈ recs → (∀ sc ws' n', Record.region sc ws' n' ∈ recs → sc = 1 ∧ ws' = ws ∧ n' = n) →
      ∀ ch, s.present ch = true → (t.role ch).regionBad = (wordsCrc ws != n) ∧
        ∀ a w, a < 4096 → ws[a]? = some w → (t.chan ch).wget 0x4710 (0x3000 + a) = w % 2 ^ 192)

/-- When power returns to an unpowered module, by either command, the bring-up is of kind 2 (brown-out) if the last entry of the event log is a power-fail warning, else of kind 1 (cold start); it begins with stage 0 in DAWN, with both channels OFF, no lease and epoch 0. -/
def Obligations.BringUpKind : Prop :=
  ∀ (s : State) (i : Instr), i = .coldStart ∨ i = .brownOut → s.power.powered = false →
    let warning := s.log.next ≠ 0 ∧
      bits (tabGet mwinDflt s.mwin (winKey 0x1601 ((s.log.next - 1) % 262144))) 127 112 = 2
    ∃ t, exec i s = .next t ∧ (warning → t.bring.kind = 2) ∧ (¬warning → t.bring.kind = 1) ∧ t.bring.stage = 0 ∧
      t.power.powered = true ∧ t.mode.dawn = true ∧ t.arb.holder = none ∧ t.arb.epoch = 0 ∧ ∀ ch, (t.role ch).st = .off

/-- A RESET pulse of 100 us or more and a due MODULE command reset the whole module with their kind, in DAWN with both channels OFF, no lease and epoch 0, and keep keys and images; a shorter pulse does nothing. The stages of the service block follow in order: stage 0 waits for a used input, stage 1 brings arbiter, relay and supply controller up, stage 2 reads the straps, records the reset kind, loads the image that R574 selects into the service block copy, counting the values that the checks refuse, and lets the channels begin stage 3. A failed stage is tried again, and after the fourth attempt the block waits 2^(k-1) s, at most 64 s, and restarts from stage 1. -/
def Obligations.ResetsAndStages : Prop :=
  ∀ s : State,
    (s.power.powered = true → (∃ t, exec .coldStart s = .next t ∧ settles s t) ∧ ∃ t, exec .brownOut s = .next t ∧ settles s t) ∧
    (∀ us b, us < 100 ∨ s.power.powered = false → ∃ t, exec (.resetPin us b) s = .next t ∧ settles s t) ∧
    (∀ us b, 100 ≤ us → s.power.powered = true → s.power.resetLow = false → ∃ t, exec (.resetPin us b) s = .next t ∧
      t.power.resetLow = !b ∧ t.bring.kind = 4 ∧ t.bring.stage = 1 ∧ t.mode.dawn = true ∧ t.arb.holder = none ∧ t.arb.epoch = 0 ∧
      t.host.keys = s.host.keys ∧ t.flash.imageA = s.flash.imageA ∧ t.flash.imageB = s.flash.imageB ∧ ∀ ch, (t.role ch).st = .off) ∧
    (s.bring.resetDue = false → ∃ t, exec .moduleResetBegin s = .next t ∧ settles s t) ∧
    (s.bring.resetDue = true → ∃ t, exec .moduleResetBegin s = .next t ∧ t.bring.kind = 3 ∧ t.bring.stage = 1 ∧
      t.bring.resetDue = false ∧ t.mode.dawn = true ∧ t.arb.holder = none ∧ t.arb.epoch = 0 ∧ t.host.keys = s.host.keys ∧
      ∀ ch, (t.role ch).st = .off) ∧
    (∃ t, exec .portResetDone s = .next t ∧ settles (s.mputBits 0x1109 0 15 15 0) t) ∧
    (s.power.powered = true → s.power.sbOut = true → s.power.resetLow = false → s.bring.backoffEnd = none → ∀ b n,
      (s.bring.stage = 0 → ∃ t, exec (.stageComplete .sb b n) s = .next t ∧
        settles (if s.fed then { s with bring := { s.bring with stage := 1, attempt := 1 } } else s) t) ∧
      (s.bring.stage = 1 → ∃ t, exec (.stageComplete .sb b n) s = .next t ∧ t.bring = { s.bring with stage := 2, attempt := 1 } ∧
        t.arb.ok = true ∧ t.relay.up = true ∧ t.power.ctrlOk = true) ∧
      (s.bring.stage = 2 → ∃ t, exec (.stageComplete .sb b n) s = .next t ∧ t.bring.stage = 15 ∧
        t.bring.strapError = (readStraps s.unit.straps).1 ∧ t.bring.moduleId = (readStraps s.unit.straps).2 ∧
        t.mreg 0x110A 1 = s.bring.kind ∧ ∀ ch, s.present ch = true → (s.role ch).st = .off → s.arb.hold = none →
          (t.role ch).st = .starting ∧ (t.role ch).stage = 3 ∧ (t.role ch).attempt = 1 ∧ (t.role ch).outputOn = true)) ∧
    (s.power.powered = true → s.power.sbOut = true → s.power.resetLow = false → s.bring.backoffEnd = none → s.bring.stage = 2 → ∀ b n,
      ∃ t, exec (.stageComplete .sb b n) s = .next t ∧ loadsImage s t) ∧
    (∀ cause, s.power.powered = true → s.power.resetLow = false → s.bring.backoffEnd = none →
      (s.bring.stage = 1 ∧ cause = 9) ∨ (s.bring.stage = 2 ∧ cause = 10) →
      (s.bring.attempt < 4 → ∃ t, exec (.stageFail .sb cause) s = .next t ∧
        settles { s with bring := { s.bring with attempt := s.bring.attempt + 1 } } t) ∧
      (4 ≤ s.bring.attempt → ∃ t, exec (.stageFail .sb cause) s = .next t ∧
        let k := min 65535 (s.bring.restarts + 1)
        settles { s with bring := { s.bring with
          stage := 1, attempt := 0, restarts := k, backoffEnd := some (s.sbTime + 100000 * 2 ^ min (k - 1) 6) } } t)) ∧
    (s.bring.backoffEnd.isSome = true → ∃ t, exec (.backoffExpire .sb) s = .next t ∧
      settles { s with bring := { s.bring with stage := 1, attempt := 1, backoffEnd := none } } t) ∧
    (s.bring.backoffEnd = none → ∃ t, exec (.backoffExpire .sb) s = .next t ∧ settles s t)

/-- A channel in OFF whose restart is due or whose backoff ends begins stage 3 with its output on. Stages 3 to 8 lead each to the next; stage 4 without a trained capture store stops the engine and no more; stage 5 loads a vendor image with a valid signature (cause 4) into every copy and orders the eight jobs that check them, waits while unit 0 is held, and needs the check value that the image carries from all eight (cause 5; the image that the module was delivered with has it, log entry 4); stage 7 waits in NIGHT; stage 8 needs the buffer and time base islands. Stage 9 makes the channel STANDBY beside a holder or gives it the lease where there is none, with the epoch of R496, and waits while the arbiter is lost. A failed stage is tried again, and after the fourth attempt the channel goes to OFF, fenced, and waits 2^(k-1) s, at most 64 s. -/
def Obligations.ChannelStages : Prop :=
  ∀ (s : State) (ch : Ch), s.present ch = true →
    let r := s.role ch
    let begun := fun (t : State) => (t.role ch).st = .starting ∧ (t.role ch).stage = 3 ∧ (t.role ch).attempt = 1 ∧
      (t.role ch).outputOn = true ∧ (t.role ch).backoffEnd = none ∧ t.arb = s.arb
    let turn := s.arb.hold = none ∨ s.arb.hold = some ch
    (r.restartDue = true → r.st = .off → s.bring.stage = 15 → turn → ∃ t, exec (.channelRestart ch) s = .next t ∧ begun t) ∧
    (r.restartDue = false → ∃ t, exec (.channelRestart ch) s = .next t ∧ settles s t) ∧
    (r.backoffEnd.isSome = true → r.st = .off → s.bring.stage = 15 → turn →
      ∃ t, exec (.backoffExpire (.chan ch)) s = .next t ∧ begun t) ∧
    (r.backoffEnd = none → ∃ t, exec (.backoffExpire (.chan ch)) s = .next t ∧ settles s t) ∧
    (r.st = .starting → r.waitNight = false → r.waitArb = false →
      (turn → ∀ b n,
        let run := fun (ok : State → Prop) => ∃ t, exec (.stageComplete (.chan ch) b n) s = .next t ∧ ok t
        let at_ := fun (k : Nat) => run fun t => (t.role ch).st = .starting ∧ (t.role ch).stage = k ∧ (t.role ch).attempt = 1 ∧
          t.arb = s.arb
        (r.stage = 3 → at_ 4) ∧ (r.stage = 4 → at_ 5) ∧
        (r.stage = 4 → (s.vendorSlot (s.loadSlot ch)).valid = true → run fun t =>
          (t.chan ch).own.todo = (List.range 8).map (fun k => (OwnJob.region k, false)) ∧
          (t.chan ch).vendor = some (s.vendorSlot (s.loadSlot ch)).data ∧
          ∀ copy a, copy < 8 → a < 0x3000 → (t.chan ch).wget 0x14710 (copy * 16384 + a) = 0) ∧
        (r.stage = 6 → at_ 7) ∧
        (let v := s.vendorSlot (s.loadSlot ch)
         let own := (s.chan ch).own
         let good := own.got = List.replicate 8 (some (if v.delivered then (s.chan ch).vendorCheck else Config.imageCrc v.data))
         let fails := fun (cause : Nat) =>
          (r.attempt < 4 → run fun t => sameBoard (s.setRole ch { r with
            attempt := r.attempt + 1, outputOn := true, failStage := 5, failCause := cause }) t) ∧
          (4 ≤ r.attempt → run fun t => (t.role ch).st = .off ∧ (t.role ch).failCause = cause ∧
            (t.role ch).imageFails = r.imageFails + 1)
         r.stage = 5 → (v.valid = false → fails 4) ∧
          (v.valid = true → own.got.length = 8 → own.todo = [] → own.running = false →
            (good → at_ 6 ∧ run fun t => (t.chan ch).bit 0x4701 1 0 = true ∧ (r.regionBad = false → (t.chan ch).bit 0x4701 1 1 = true)) ∧
            (¬good → fails 5)) ∧
          (v.valid = true → own = Channel.fresh.own → (s.chan ch).unit0Free = false → run fun t => sameBoard s t ∧
            (t.chan ch).own.todo = (List.range 8).map (fun k => (OwnJob.region k, false)))) ∧
        (r.stage = 4 → b = false → s.mode.dawn = false → run fun t => (t.chan ch).cap.stopped = true) ∧
        (r.stage = 7 → s.mode.night = .awake → at_ 8) ∧
        (r.stage = 7 → s.mode.night ≠ .awake → run fun t => (t.role ch).stage = 7 ∧ (t.role ch).waitNight = true) ∧
        (r.stage = 8 → bitOf n 26 = true → bitOf n 27 = true → at_ 9) ∧
        (r.stage = 8 → bitOf n 26 = false ∨ bitOf n 27 = false → run fun t => settles s t) ∧
        (r.stage = 9 → s.arb.ok = false → run fun t => (t.role ch).st = .starting ∧ (t.role ch).waitArb = true ∧ t.arb = s.arb) ∧
        (r.stage = 9 → s.arb.ok = true → s.arb.hold = none → s.arb.holder = some ch.other →
          run fun t => (t.role ch).st = .standby ∧ (t.role ch).restarts = 0 ∧ t.arb = s.arb ∧ t.mode.dawn = false) ∧
        (r.stage = 9 → s.arb.ok = true → s.arb.hold = none → s.arb.holder = none → s.arb.pending = none → s.arb.back = none →
          (s.role ch.other).st = .standby ∨ (s.role ch.other).st = .starting ∨ (s.role ch.other).st = .off →
          run fun t => (t.role ch).st = .active ∧ t.arb.holder = some ch ∧ (t.role ch).epoch = t.arb.epoch ∧
            t.arb.epoch = (if s.arb.last = some ch then s.arb.epoch else (s.arb.epoch + 1) % 2 ^ 32) ∧ t.mode.dawn = false)) ∧
      (∀ cause, stageFails r.stage cause = true →
        (r.attempt < 4 → ∃ t, exec (.stageFail (.chan ch) cause) s = .next t ∧
          settles (s.setRole ch { r with attempt := r.attempt + 1, outputOn := true, failStage := r.stage, failCause := cause }) t) ∧
        (4 ≤ r.attempt → ∃ t, exec (.stageFail (.chan ch) cause) s = .next t ∧
          let k := min 65535 (r.restarts + 1)
          (t.role ch).st = .off ∧ (t.role ch).fence = true ∧ (t.role ch).outputOn = false ∧ (t.role ch).restarts = k ∧
            (t.role ch).backoffEnd = some (s.sbTime + 100000 * 2 ^ min (k - 1) 6) ∧ (t.role ch).restartDue = false ∧
            (t.role ch).failStage = r.stage ∧ (t.role ch).failCause = cause)))

/-- A SAVE that reads back right leaves its image in the slot, PROGRESS 100 and RESULT 0, one that does not leaves the slot without an image and RESULT 1; INVALIDATE empties its slot; ERASE empties the staging slot; COMMIT gives a complete image with a valid signature (the image that the module was delivered with is one, log entry 4) the next SEQUENCE and selects it, for the next stage 5 of each channel whatever image failed there before, else leaves the slot with its RESULT. The oldest event waiting is written at the next index with the fields of R647, a new sector being erased first; none is written from the writing of the power-fail warning's entry until the warning clears. -/
def Obligations.FlashAndLog : Prop :=
  ∀ s : State,
    let none_ := { s.flash with imageJob := none }
    let vend := fun (k : Nat) (v : VendorSlot) (f : Flash) => if k = 0 then { f with vendor0 := v } else { f with vendor1 := v }
    let k := s.staging
    let renew := fun (ch : Ch) (u : State) => if u.present ch then u.setRole ch { u.role ch with imageFails := 0 } else u
    let done := fun (i : Instr) (f : Flash) (r : Nat) => ∃ t, exec i s = .next t ∧ sameBoard { s with flash := f } t ∧
      bits (t.mreg 0x1500 6) 31 24 = r
    (∀ slotB img ok, s.flash.imageJob = some (.save slotB img) → ∃ t, exec (.saveDone ok) s = .next t ∧
      t.flash = (if slotB then { none_ with imageB := if ok then img else [] } else { none_ with imageA := if ok then img else [] }) ∧
      bits (t.mreg 0x1500 2) 31 24 = (if ok then 0 else 1) ∧ (ok = true → bits (t.mreg 0x1500 2) 15 8 = 100 ∧ t.bring.unconf = false) ∧
      t.arb = s.arb) ∧
    (∀ slotB, s.flash.imageJob = some (.invalidate slotB) →
      (s.power.warn = false ∨ s.power.warnWritten = false → ∃ t, exec .invalidateDone s = .next t ∧
        sameBoard { s with flash := if slotB then { none_ with imageB := [] } else { none_ with imageA := [] } } t ∧
        bits (t.mreg 0x1500 2) 31 24 = 0) ∧
      (s.power.warn = true → s.power.warnWritten = true → ∃ t, exec .invalidateDone s = .next t ∧ settles s t)) ∧
    (s.flash.microJob = some .erase →
      done (.microcodeCommandDone true) (vend k ⟨[], [], none, false⟩ { s.flash with microJob := none }) 0 ∧
      done (.microcodeCommandDone false) (vend k { s.vendorSlot k with seq := none, delivered := false } { s.flash with microJob := none }) 3) ∧
    (s.flash.microJob = some .commit →
      let v := s.vendorSlot k
      done (.microcodeCommandDone false) { s.flash with microJob := none } 3 ∧
      let complete := v.delivered || Config.imageComplete v.data
      let signed := v.delivered || Config.signatureValid v.data
      (complete = false → done (.microcodeCommandDone true) { s.flash with microJob := none } 2) ∧
      (complete = true → signed = false →
        done (.microcodeCommandDone true) { s.flash with microJob := none } 1) ∧
      (complete = true → signed = true →
        ∃ t, exec (.microcodeCommandDone true) s = .next t ∧ bits (t.mreg 0x1500 6) 31 24 = 0 ∧
        sameBoard (renew .b (renew .a { s with flash := (vend k { v with seq := some (match s.flash.selected with
          | some j => ((s.vendorSlot j).seq.getD 0 + 1) % 2 ^ 32
          | none => 1) } { s.flash with microJob := none, selected := some k }) })) t)) ∧
    (s.log.waiting = [] ∨ s.power.powered = false ∨ (s.power.warn = true ∧ s.power.warnWritten = true) →
      ∃ t, exec .eventLogWrite s = .next t ∧ settles s t ∧ t.log.next = s.log.next) ∧
    (∀ e rest, s.log.waiting = e :: rest → s.power.powered = true → s.power.warn = false ∨ s.power.warnWritten = false →
      ∃ t, exec .eventLogWrite s = .next t ∧ t.log.next = (s.log.next + 1) % 2 ^ 32 ∧ rest <+: t.log.waiting ∧
        (let w := tabGet mwinDflt t.mwin (winKey 0x1601 (s.log.next % 262144))
         bits w 255 224 = s.log.next % 2 ^ 32 ∧ bits w 223 136 = e.time % 2 ^ 88 ∧ bits w 135 128 = e.source % 2 ^ 8 ∧
         bits w 127 112 = e.code % 2 ^ 16 ∧ bits w 111 0 = e.detail % 2 ^ 112) ∧
        (∀ n, n < 262144 → n / 2048 ≠ s.log.next % 262144 / 2048 →
          tabGet mwinDflt t.mwin (winKey 0x1601 n) = tabGet mwinDflt s.mwin (winKey 0x1601 n)) ∧
        (s.power.warn = true → e.code = 2 → t.power.warnWritten = true))

/-! ## The host port -/

/-- The host port takes a request for this module: it runs, the message passes on its bus, its nodes and length are right, it is no
stored duplicate and did not find the port full (R592, R597, R614, R615, R686). -/
def taken (s : State) (q : Request) (func : Nat) : Prop :=
  s.hostUp = true ∧ (∀ m, q.bus ≠ .relay m) ∧ s.busUp q.bus = true ∧ 65 ≤ q.src ∧ q.src ≤ 126 ∧ q.dest = s.node ∧
  s.host.refuse.contains 0 = false ∧ q.msg.length ≤ 65600 ∧ lengthVerdict func q.msg = 0 ∧
  ((s.recentDups q.src).any fun d => d.tag == q.tag && d.func == func && d.msg == q.msg) = false

/-- A message without AUTH (R600). -/
def unsigned (q : Request) (func : Nat) : Prop := bitOf (flagsOf func q.msg) 0 = false

/-- A proven session vouches for a message: its MAC and a counter not used yet (R606). -/
def signedBy (s : State) (q : Request) (func : Nat) (x : Session) : Prop :=
  bitOf (flagsOf func q.msg) 0 = true ∧ s.sessionOf q.src = some x ∧ x.counter < counterOf func q.msg ∧
  (hmac x.skey (leBytes 4 (requestIdent q func) ++ q.msg.take (q.msg.length - 8))).take 8 = q.msg.drop (q.msg.length - 8)

/-- An answer has been sent on the request's bus. -/
def answers (t : State) (q : Request) (func : Nat) (m : List Byte) : Prop := sentOn t q.bus (answerIdent q func) m

/-- No change of mode is pending: the module is not in DAWN, DUSK does not end with the command, and the mode has been noted. -/
def modeStands (s : State) : Prop :=
  s.mode.dawn = false ∧ (s.mode.dusk && s.modeCode != 3) = false ∧ s.mode.last = s.modeCode

/-- The AUTH fields of a status read are good (R606, R607): none while READ_AUTH is clear, or those of a proven session. -/
def admits (s : State) (q : Request) (func : Nat) : Prop :=
  (unsigned q func ∧ s.readAuth = false) ∨ ∃ x, signedBy s q func x

/-- READ and READ-BLOCK (R610, R611, R620): the answers to requests that the host port takes. -/
def readsAnswered (s : State) (q : Request) : Prop :=
  let idx := leNat (slice q.msg 0 2)
  let sub := byteAt q.msg 2
  let echo := slice q.msg 0 3 ++ [0#8]
  let still := fun (t : State) => sameBoard s t ∧ (modeStands s → ∀ ch, t.chan ch = s.chan ch)
  (taken s q 1 → admits s q 1 →
    let reads := fun (st : Nat) (data : List Byte) => ∃ t, exec (.read q) s = .next t ∧ still t ∧
      answers t q 1 (leBytes 2 st ++ echo ++ leBytes 2 data.length ++ data)
    let live := bitOf (flagsOf 1 q.msg) 1 = false
    let held := bitOf (flagsOf 1 q.msg) 1 = true
    (¬((0x1000 ≤ idx ∧ idx ≤ 0x16FF) ∨ (0x4000 ≤ idx ∧ idx ≤ 0x7FFF)) → reads 0x0101 []) ∧
    (∀ st, s.place idx sub = .unknown st → reads st []) ∧
    (∀ a b, s.place idx sub = .empty a b → s.inDawn idx = false → reads 0 (leBytes b 0)) ∧
    (∀ o, s.place idx sub = .module o → s.inDawn idx = false →
      (o.acc = .wo → reads 0x0302 []) ∧
      (o.acc ≠ .wo → live → o.ty.isWindow = true → reads 0 (s.windowRead idx o)) ∧
      (o.acc ≠ .wo → live → o.ty.isWindow = false → idx ≠ 0x1430 → (idx, sub) ≠ (0x1400, 3) →
        reads 0 (carryObj idx sub o.ty.readSize (s.mview idx sub))) ∧
      (o.acc ≠ .wo → held → reads 0x0601 [])) ∧
    (∀ ch i o, s.place idx sub = .chan ch i o → s.inDawn idx = false →
      (o.acc = .wo → reads 0x0302 []) ∧
      (o.acc ≠ .wo → live → o.ty.isWindow = true → reads 0 (s.windowRead i o)) ∧
      (o.acc ≠ .wo → live → o.ty.isWindow = false →
        reads 0 (carryObj i sub o.ty.readSize ((s.chan ch).view (s.ctx ch) i sub))) ∧
      (held → o.ty.isWindow = false → ∀ k sel h, o.acc = .counter → counterScope i sub 0 = some (k, sel) →
        (s.chan ch).holding k = some h → h.selector = sel →
        reads 0 (leBytes o.ty.readSize (tabGet chDflt h.dict (objKey i sub)))) ∧
      (held → o.acc ≠ .wo → o.acc ≠ .counter ∨ o.ty.isWindow = true ∨ (∀ k sel h, counterScope i sub 0 = some (k, sel) →
        (s.chan ch).holding k = some h → h.selector ≠ sel) → reads 0x0601 []))) ∧
  (taken s q 3 → admits s q 3 → s.inDawn idx = false →
    let at_ := if bitOf (flagsOf 3 q.msg) 0 then 8 else 4
    let off := leNat (slice q.msg at_ 8)
    let len := leNat (slice q.msg (at_ + 8) 4)
    let reads := fun (st : Nat) (data : List Byte) => ∃ t, exec (.readBlock q) s = .next t ∧ still t ∧
      answers t q 3 (leBytes 2 st ++ echo ++ leBytes 8 off ++ leBytes 4 data.length ++ data)
    let live := bitOf (flagsOf 3 q.msg) 1 = false
    let held := bitOf (flagsOf 3 q.msg) 1 = true
    let inside := fun (n entries : Nat) => 0 < n ∧ off % n = 0 ∧ len % n = 0 ∧ off + len ≤ n * entries ∧ len ≤ 65536
    (∀ o, s.place idx sub = .module o →
      (o.acc = .wo → reads 0x0302 []) ∧
      (o.acc ≠ .wo → o.ty.isWindow = false → reads 0x0203 []) ∧
      (o.acc ≠ .wo → o.ty.isWindow = true → inside o.ty.entrySize (windowEntries s.unit.variant idx o) →
        (live → (idx = 0x1410 → unsigned q 3) → reads 0 ((upFrom (off / o.ty.entrySize) (len / o.ty.entrySize)).flatMap
          fun e => carryEntry idx o.ty.entrySize (s.mentry idx e))) ∧
        (held → reads 0x0601 []))) ∧
    (∀ ch i o, s.place idx sub = .chan ch i o →
      (o.acc = .wo → reads 0x0302 []) ∧
      (o.acc ≠ .wo → o.ty.isWindow = false → reads 0x0203 []) ∧
      (o.acc ≠ .wo → o.ty.isWindow = true → inside o.ty.entrySize (windowEntries s.unit.variant i o) →
        let n := o.ty.entrySize
        let es := upFrom (off / n) (len / n)
        (live → reads 0 (es.flatMap fun e => carryEntry i n ((s.chan ch).entryView i e))) ∧
        (held → (∀ e ∈ es, ((s.chan ch).holdingOf o i 0 e).isSome = true) → reads 0 (es.flatMap fun e =>
          match (s.chan ch).holdingOf o i 0 e with
          | some h => carryEntry i n (tabGet winDflt h.win (winKey i e))
          | none => [])) ∧
        (held → (∃ e ∈ es, (s.chan ch).holdingOf o i 0 e = none) → reads 0x0601 []))))

/-- WRITE and WRITE-BLOCK of the module's own objects and windows (R590, R602, R609, R611). -/
def moduleWrites (s : State) (q : Request) : Prop :=
  let idx := leNat (slice q.msg 0 2)
  let sub := byteAt q.msg 2
  let echo := slice q.msg 0 3 ++ [0#8] ++ leBytes 4 (leNat (slice q.msg 4 4))
  let still := fun (t : State) => sameBoard s t ∧ (modeStands s → ∀ ch, t.chan ch = s.chan ch)
  (taken s q 2 → s.inDawn idx = false → ∀ x o, signedBy s q 2 x → s.place idx sub = .module o →
    let data := slice q.msg 10 (leNat (slice q.msg 8 2))
    let raw := objOf idx sub data
    let status := fun (t : State) (st : Nat) => answers t q 2 (leBytes 2 st ++ echo)
    let fixed := o.acc = .ro ∨ o.acc = .roh ∨ o.ty.isWindow = true
    let st := s.mStatus o idx sub raw
    (slotZeroOnly idx sub = true → x.slot ≠ 0 → ∃ t, exec (.write q) s = .next t ∧ still t ∧ status t 0x0501) ∧
    ((slotZeroOnly idx sub = true → x.slot = 0) →
      (fixed → ∃ t, exec (.write q) s = .next t ∧ still t ∧ status t 0x0301) ∧
      (¬fixed → data.length ≠ o.ty.readSize → ∃ t, exec (.write q) s = .next t ∧ still t ∧ status t 0x0201) ∧
      (¬fixed → data.length = o.ty.readSize →
        (st ≠ 0 → ∃ t, exec (.write q) s = .next t ∧ still t ∧ status t st) ∧
        (st = 0 → idx = 0x1400 → 0x10 ≤ sub → ∃ t, exec (.write q) s = .next t ∧ still t ∧ status t 0 ∧
          t.host.keys = tabSet (fun _ => 0) s.host.keys (sub - 0x10) raw) ∧
        (st = 0 → idx ∉ [0x1101, 0x1109, 0x1500] → ¬(idx = 0x1300 ∧ sub = 4) → ¬(idx = 0x1400 ∧ 0x10 ≤ sub) →
          modeStands s → ∃ t, exec (.write q) s = .next t ∧ (idx ≠ 0x1106 → sameBoard s t) ∧ (∀ ch, t.chan ch = s.chan ch) ∧
            (t.busUp q.bus = true → status t 0) ∧
            (let alarm := bits (t.mreg 0x1200 7) 15 0 < bits (t.mreg 0x1200 4) 63 48
             (idx ≠ 0x1430 → idx ≠ 0x1200 ∨ sub ≠ 6 ∨ ¬alarm → t.mreg idx sub = written o idx sub (s.mreg idx sub) raw) ∧
             (idx = 0x1200 → alarm → bitOf (t.mreg 0x1200 6) 6 = true)) ∧
            (idx = 0x1430 → t.mreg idx sub = (if sub = 4 then 1 else 0)) ∧
            ∀ i k, k < 256 → (i, k) ≠ (idx, sub) → (idx = 0x1200 → (i, k) ≠ (0x1200, 6)) → i ≠ 0x1430 → t.mreg i k = s.mreg i k)))) ∧
  (taken s q 4 → s.inDawn idx = false → ∀ x o, signedBy s q 4 x → s.place idx sub = .module o →
    let n := o.ty.entrySize
    let off := leNat (slice q.msg 8 8)
    let data := slice q.msg 20 (leNat (slice q.msg 16 4))
    let status := fun (t : State) (st : Nat) => answers t q 4 (leBytes 2 st ++ echo)
    let refused := fun (st : Nat) => ∃ t, exec (.writeBlock q) s = .next t ∧ still t ∧ status t st
    (slotZeroOnly idx sub = true → x.slot ≠ 0 → refused 0x0501) ∧
    ((slotZeroOnly idx sub = true → x.slot = 0) →
      (o.acc = .ro ∨ o.acc = .roh → refused 0x0301) ∧
      (o.acc ≠ .ro → o.acc ≠ .roh →
        (o.ty.isWindow = false ∨ off % n ≠ 0 ∨ data.length % n ≠ 0 → refused 0x0203) ∧
        (o.ty.isWindow = true → off % n = 0 → data.length % n = 0 →
          (s.power.warn = true → s.power.warnWritten = true → refused 0x0403) ∧
          (s.power.warn = false ∨ s.power.warnWritten = false →
            (s.flash.microJob.isSome = true → refused 0x0401) ∧
            (s.flash.microJob = none → 0 < n → 0 < data.length → off + data.length ≤ n * windowEntries s.unit.variant idx o →
              data.length ≤ 65536 →
              let k := s.staging
              let v := s.vendorSlot k
              let es := entryValues idx n (off / n) data
              ((∃ p ∈ es, p.1 ∈ v.written) → refused 0x0601) ∧
              ((∀ p ∈ es, p.1 ∉ v.written) → ∃ t, exec (.writeBlock q) s = .next t ∧ status t 0 ∧
                sameBoard { s with flash := t.flash } t ∧ t.vendorSlot (1 - k) = s.vendorSlot (1 - k) ∧
                t.flash.imageA = s.flash.imageA ∧ t.flash.imageB = s.flash.imageB ∧ t.flash.selected = s.flash.selected ∧
                (t.vendorSlot k).seq = v.seq ∧ (t.vendorSlot k).written = v.written ++ es.map (·.1) ∧
                (t.vendorSlot k).delivered = false ∧
                (∀ p ∈ es, tabGet (fun _ => 2 ^ 512 - 1) (t.vendorSlot k).data p.1 = p.2) ∧
                ∀ e, (∀ p ∈ es, p.1 ≠ e) → tabGet (fun _ => 2 ^ 512 - 1) (t.vendorSlot k).data e =
                  tabGet (fun _ => 2 ^ 512 - 1) v.data e)))))))

/-- A request that the host port takes is answered on its own bus. A READ, READ-BLOCK or SNAPSHOT is carried out with AUTH fields that a session vouches for, and without them while READ_AUTH is clear; with READ_AUTH set a SNAPSHOT without AUTH answers 0x0501. A READ outside the documented ranges answers 0x0101, one of a write-only object 0x0302, one of a window its entry size and count, any other the object's value, and changes nothing; with HOLDING set it answers a counter's held value where the last snapshot of its kind has its selector, else 0x0601. A READ-BLOCK returns the entries of its range of a module's or a channel's window, or with HOLDING the held ones where all are held. A WRITE without AUTH answers 0x0501 and changes nothing; one that a session vouches for answers 0x0301 for what cannot be written, the status of the checks of R14, or 0 with the write carried out and the other channel unchanged, but for the flags that mark in both channels a setting they must hold alike. A signed WRITE of a module object stores its value and leaves the others, but for the rows of their own; a key is written, and the staging window with WRITE-BLOCK, only in a session of key slot 0. The staging window refuses an entry written since ERASE with 0x0601, a busy job with 0x0401, and a write after step b of R547 with 0x0403 (the model's choice, log entry 129). A WRITE-BLOCK that passes its checks writes its entries in order. A SNAPSHOT copies the counters of its scope and answers the time; one at the very tick of an earlier one may answer 0x0401 (log entry 49). -/
def Obligations.ReadsAndWrites : Prop :=
  ∀ (s : State) (q : Request),
    let idx := leNat (slice q.msg 0 2)
    let sub := byteAt q.msg 2
    let echo := slice q.msg 0 3 ++ [0#8]
    let still := fun (t : State) => sameBoard s t ∧ (modeStands s → ∀ ch, t.chan ch = s.chan ch)
    readsAnswered s q ∧ moduleWrites s q ∧
    (taken s q 2 → s.inDawn idx = false →
      let status := fun (t : State) (st : Nat) => answers t q 2 (leBytes 2 st ++ echo ++ leBytes 4 (leNat (slice q.msg 4 4)))
      (∀ o, s.place idx sub = .module o ∨ (∃ ch i, s.place idx sub = .chan ch i o) → unsigned q 2 →
        ∃ t, exec (.write q) s = .next t ∧ still t ∧ status t 0x0501) ∧
      ∀ x ch i o, signedBy s q 2 x → s.place idx sub = .chan ch i o →
        let data := slice q.msg 10 (leNat (slice q.msg 8 2))
        let raw := objOf i sub data
        let st := (s.chan ch).objStatus (s.ctx ch) (s.partnerTime ch) o i sub raw
        (o.acc = .ro ∨ o.acc = .roh ∨ o.ty.isWindow = true → ∃ t, exec (.write q) s = .next t ∧ still t ∧ status t 0x0301) ∧
        (o.acc ≠ .ro → o.acc ≠ .roh → o.ty.isWindow = false → data.length = o.ty.readSize →
          (st ≠ 0 → ∃ t, exec (.write q) s = .next t ∧ still t ∧ status t st) ∧
          (st = 0 → ∃ t, exec (.write q) s = .next t ∧ status t 0 ∧ (i ≠ 0x4232 → sameBoard s t) ∧
            (modeStands s →
              let d := ((s.chan ch).storeObj (s.ctx ch) o i sub raw).emptied
              let both := (0x410D, 1) :: (0x425D, 1) :: (upFrom 1 16).map fun k => (0x4206, k)
              onlyRegs d (t.chan ch) both ∧ onlyRegs (s.chan ch.other) (t.chan ch.other) both ∧
              (i ∉ [0x410C, 0x410D, 0x4200, 0x4206, 0x4252, 0x425D] → t.chan ch = d ∧ t.chan ch.other = s.chan ch.other))))) ∧
    (taken s q 4 → ∀ x ch i o, signedBy s q 4 x → s.place idx sub = .chan ch i o → s.inDawn idx = false → o.ty.isWindow = true →
      o.acc ≠ .ro → o.acc ≠ .roh →
      let n := o.ty.entrySize
      let off := leNat (slice q.msg 8 8)
      let data := slice q.msg 20 (leNat (slice q.msg 16 4))
      let es := entryValues i n (off / n) data
      let c := s.chan ch
      off % n = 0 → data.length % n = 0 → off + data.length ≤ n * windowEntries s.unit.variant i o → data.length ≤ 65536 →
      0 < data.length → 0 < n → c.notNow (s.ctx ch) o i 0 0 = false → c.busyNow i 0 0 = false →
      (es.all fun p => reservedEntry i p.1) = false → c.entriesStatus (s.ctx ch) o i es = 0 →
      ∃ t, exec (.writeBlock q) s = .next t ∧ sameBoard s t ∧
        answers t q 4 (leBytes 2 0 ++ echo ++ leBytes 4 (leNat (slice q.msg 4 4))) ∧
        (modeStands s → t.chan ch.other = s.chan ch.other ∧
          t.chan ch = (es.foldl (fun c p => c.storeEntry (s.ctx ch) o i p.1 p.2) c).emptied)) ∧
    (taken s q 5 → admits s q 5 → modeStands s → ∀ ch : Ch, byteAt q.msg 1 = ch.num → s.present ch = true →
      let scope := byteAt q.msg 0
      let sel := leNat (slice q.msg (if bitOf (flagsOf 5 q.msg) 0 then 8 else 4) 4)
      selectorOk s.unit.variant scope sel = true →
      ∃ t, exec (.snapshot q) s = .next t ∧ sameBoard s t ∧ t.chan ch.other = s.chan ch.other ∧
        ((t.chan ch = ((s.chan ch).takeSnapshot scope sel).emptied ∧
          answers t q 5 (leBytes 4 0 ++ beBytes 11 (s.chan ch).time.stamp) ∧
          ∃ h, (t.chan ch).holding scope = some h ∧ h.selector = sel ∧
            (∀ i k o, k < 256 → objIn channelObjs i k = some o → o.acc = .counter → counterScope i k 0 = some (scope, sel) →
              tabGet chDflt h.dict (objKey i k) = (s.chan ch).reg i k) ∧
            ∀ i e o, e < 2 ^ 40 → objIn channelObjs i 0 = some o → o.acc = .counter → counterScope i 0 e = some (scope, sel) →
              tabGet winDflt h.win (winKey i e) = (s.chan ch).wget i e) ∨
        ((s.chan ch).copying = true ∧ t.chan ch = s.chan ch ∧ answers t q 5 (leBytes 2 0x0401 ++ leBytes 13 0)))) ∧
    (∀ ch : Ch, taken s q 5 → unsigned q 5 → s.readAuth = true → s.mode.dawn = false → byteAt q.msg 1 = ch.num →
      ∃ t, exec (.snapshot q) s = .next t ∧ still t ∧ answers t q 5 (leBytes 2 0x0501 ++ leBytes 13 0))

/-- SESSION-OPEN with a filled key slot ends the node's session and opens a pending one under a free number with a free challenge; under a lockout or with a bad slot it answers 0x0502 and leaves the sessions. SESSION-PROVE with the right proof within a second opens the session with its key and counter 0; a wrong one is counted and recorded. A host HEARTBEAT is answered with the module's fields. FRAME-FROM-HOST puts its frame into the parser of a forwarding channel. The timers end the session or lockout they name. A segment in sequence, to this module or to another one, starts, continues or ends its message; one that is not, one whose sequence number does not begin at 0 or one that does not fit its TOTAL among them, abandons it, as a timeout does, and is counted. A frame of R595 or R596 that is no segment is counted by its own counter, and a frame from the host is no message of a CAN bus (R594). -/
def Obligations.SessionsAndSegments : Prop :=
  ∀ (s : State) (q : Request),
    (taken s q 6 → s.host.lockouts.contains q.src = false → byteAt q.msg 0 ≤ 3 → s.keyOf (byteAt q.msg 0) ≠ 0 →
      (s.host.sessions.filter fun x => x.node != q.src).length < 8 →
      ∃ t n c, exec (.sessionOpen q) s = .next t ∧ sameBoard s t ∧ 1 ≤ n ∧ n ≤ 8 ∧ c < 2 ^ 128 ∧
        t.host.sessions = (s.host.sessions.filter fun x => x.node != q.src) ++
          [⟨n, q.src, byteAt q.msg 0, false, c, q.dest, [], 0, s.sbTime⟩] ∧
        ((s.host.sessions.filter fun x => x.node != q.src).any fun x => x.num == n) = false ∧
        answers t q 6 (leBytes 2 0 ++ leBytes 1 n ++ leBytes 1 (byteAt q.msg 0) ++ leBytes 16 c)) ∧
    (taken s q 6 → s.host.lockouts.contains q.src = true ∨ 3 < byteAt q.msg 0 ∨ s.keyOf (byteAt q.msg 0) = 0 →
      ∃ t, exec (.sessionOpen q) s = .next t ∧ sameBoard s t ∧ t.host.sessions = s.host.sessions ∧
        answers t q 6 (leBytes 2 0x0502 ++ leBytes 1 0 ++ leBytes 1 (byteAt q.msg 0) ++ leBytes 16 0)) ∧
    (taken s q 7 → ∀ x, s.host.sessions.find? (fun x => x.num == byteAt q.msg 0 && x.node == q.src && !x.proven) = some x →
      let k := beBytes 32 (s.keyOf x.slot)
      let right := s.sbTime ≤ x.since + 100000 ∧ (hmac k (x.seed [0x4B#8, 0x58#8, 0x53#8, 0x50#8])).take 16 = slice q.msg 4 16
      (right → ∃ t, exec (.sessionProve q) s = .next t ∧ sameBoard s t ∧
        t.host.sessions = (s.host.sessions.filter fun y => y.num != x.num) ++
          [{ x with proven := true, skey := hmac k (x.seed [0x4B#8, 0x58#8, 0x53#8, 0x4B#8]), counter := 0, since := s.sbTime }] ∧
        answers t q 7 (leBytes 2 0 ++ leBytes 1 (byteAt q.msg 0) ++ leBytes 1 0)) ∧
      (¬right → ∃ t, exec (.sessionProve q) s = .next t ∧ sameBoard s t ∧ t.host.sessions = s.host.sessions ∧
        (q.src, s.sbTime) ∈ t.host.fails ∧ t.mreg 0x1430 10 = (s.mreg 0x1430 10 + 1) % 2 ^ 64 ∧
        answers t q 7 (leBytes 2 0x0502 ++ leBytes 1 (byteAt q.msg 0) ++ leBytes 1 0))) ∧
    (taken s q 9 → unsigned q 9 → ∃ t, exec (.heartbeatRequest q) s = .next t ∧ sameBoard s t ∧
      t.host.sessions = s.host.sessions ∧ answers t q 9 s.heartbeatFields) ∧
    (∀ mac, taken s q 11 → q.bus = .eth mac → ∀ x (ch : Ch), signedBy s q 11 x → modeStands s → s.mode.night = .awake →
      byteAt q.msg 1 = ch.num → s.present ch = true → s.forwards ch = true →
      let n := leNat (slice q.msg 8 2)
      60 ≤ n → n ≤ 16124 → ∃ t, exec (.frameFromHost q) s = .next t ∧ sameBoard s t ∧ t.chan ch.other = s.chan ch.other ∧
        t.chan ch = ((s.chan ch).fromHost (s.ctx ch) (slice q.msg 10 n)).emptied ∧
        t.mreg 0x1430 15 = (s.mreg 0x1430 15 + 1) % 2 ^ 64 ∧
        answers t q 11 (leBytes 4 0 ++ leBytes 4 (leNat (slice q.msg 4 4)))) ∧
    (∀ n, (∃ t, exec (.challengeExpire n) s = .next t ∧ sameModule { s with host := t.host } t ∧ t.chA = s.chA ∧ t.chB = s.chB ∧
        { t.host with sessions := s.host.sessions } = s.host ∧
        ∀ x, x ∈ t.host.sessions ↔ x ∈ s.host.sessions ∧ (x.num ≠ n ∨ x.proven = true)) ∧
      (∃ t, exec (.sessionIdleExpire n) s = .next t ∧ sameModule { s with host := t.host } t ∧ t.chA = s.chA ∧ t.chB = s.chB ∧
        { t.host with sessions := s.host.sessions } = s.host ∧
        ∀ x, x ∈ t.host.sessions ↔ x ∈ s.host.sessions ∧ (x.num ≠ n ∨ x.proven = false)) ∧
      (∃ t, exec (.lockoutEnd n) s = .next t ∧ sameModule { s with host := t.host } t ∧ t.chA = s.chA ∧ t.chB = s.chB ∧
        { t.host with lockouts := s.host.lockouts } = s.host ∧
        ∀ x, x ∈ t.host.lockouts ↔ x ∈ s.host.lockouts ∧ x ≠ n)) ∧
    (∀ bus src dest, (∀ m, bus ≠ .relay m) →
      (s.host.partials.find? (fun p => p.between bus src dest) = none →
        ∃ t, exec (.segmentTimeout bus src dest) s = .next t ∧ settles s t) ∧
      ∀ p, s.host.partials.find? (fun p => p.between bus src dest) = some p → ∃ t, exec (.segmentTimeout bus src dest) s = .next t ∧
        sameBoard s t ∧ t.host.partials = s.host.partials.filter (· != p) ∧
        t.mreg 0x1430 9 = (s.mreg 0x1430 9 + 1) % 2 ^ 64 ∧ bitOf (t.mreg 0x1400 7) 5 = true) ∧
    (∀ bus id kind seq total n, (∀ m, bus ≠ .relay m) → s.hostUp = true → s.busUp bus = true → 65 ≤ bits id 12 6 → bits id 12 6 ≤ 126 →
      bits id 19 13 = s.node ∨ (1 ≤ bits id 19 13 ∧ bits id 19 13 ≤ 64) → isRequest (identFunc id) = true →
      let find := s.host.partials.find? fun p => p.between bus (bits id 12 6) (bits id 19 13)
      let runs := fun (l : List Partial) (bad : Nat) => ∃ t, exec (.sequenceError bus id kind seq total n) s = .next t ∧
        sameBoard s t ∧ t.host.partials = l ∧ t.mreg 0x1430 9 = (s.mreg 0x1430 9 + bad) % 2 ^ 64
      let m := segmentCount bus kind n
      let fits := m ≤ total ∧ total ≤ 65600 ∧ seq = 0
      (∀ c, discardCounter bus kind n = some c → ∃ t, exec (.sequenceError bus id kind seq total n) s = .next t ∧
        settles (s.minc 0x1430 c) t) ∧
      (discardCounter bus kind n = none → canOnly bus (identFunc id) = true →
        ∃ t, exec (.sequenceError bus id kind seq total n) s = .next t ∧ settles s t) ∧
      (discardCounter bus kind n = none → canOnly bus (identFunc id) = false → s.mreg 0x1430 9 < 2 ^ 64 →
        (kind = .single → (fits ∧ m = total → runs s.host.partials 0) ∧ (¬(fits ∧ m = total) → runs s.host.partials 1)) ∧
        (kind = .first → find = none → (fits → runs (s.host.partials ++ [⟨bus, id, 0, m, total⟩]) 0) ∧
          (¬fits → runs s.host.partials 1)) ∧
        (kind = .middle ∨ kind = .last → find = none → runs s.host.partials 1) ∧
        ∀ p, find = some p →
          (kind = .first → fits → runs (s.host.partials.filter (· != p) ++ [⟨bus, id, 0, m, total⟩]) 1) ∧
          (kind = .middle → seq = (p.seq + 1) % 64 → id = p.ident → p.got + m < p.total →
            runs (s.host.partials.filter (· != p) ++ [{ p with seq := seq, got := p.got + m }]) 0) ∧
          (kind = .last → seq = (p.seq + 1) % 64 → id = p.ident → p.got + m = p.total → runs (s.host.partials.filter (· != p)) 0) ∧
          (kind = .middle ∨ kind = .last → seq ≠ (p.seq + 1) % 64 ∨ id ≠ p.ident → runs (s.host.partials.filter (· != p)) 1)))

/-- The module's HEARTBEAT goes out on every bus that is up where an interval is set. A NOTIFY goes out for the new bits of an enabled watch on every way that is configured, starts its spacing and is counted; a watch without new bits, or within its spacing, sends none. A frame for the host goes out on the management Ethernet, to the station of 0x1400:06, or is discarded and flagged. Bus-off is counted and flagged, and ended by the recovery; the same row takes a controller between error-active and error-passive (the model's choice, log entry 131). A request for another module is kept and relayed, or answered 0x0401 when 64 wait; its answer, once all of it has come and while no message of the fabric is abandoned, goes to the bus it came from; a timeout discards it and is counted. The posted writes of a domain come into force together. -/
def Obligations.HostPortOnItsOwn : Prop :=
  ∀ s : State,
    (s.hostUp = false ∨ bits (s.mreg 0x1400 1) 31 16 = 0 → ∃ t, exec .moduleHeartbeat s = .next t ∧ settles s t) ∧
    (s.hostUp = true → bits (s.mreg 0x1400 1) 31 16 ≠ 0 → ∃ t, exec .moduleHeartbeat s = .next t ∧ sameBoard s t ∧
      t.host.tag = (s.host.tag + 1) % 64 ∧ ∀ b, b = .canA ∨ b = .canB ∨ b = .eth 0x03004B000003 → s.busUp b = true →
        sentOn t b (mkIdent 6 9 0 s.node s.host.tag) s.heartbeatFields) ∧
    (∀ w, 1 ≤ w → w ≤ 16 →
      let v := s.mreg 0x1420 w
      let new := tabGet (fun _ => 0) s.host.watchNew w
      let quiet := s.hostUp = false ∨ bitOf v 0 = false ∨ new = 0 ∨ s.notifyWays = []
      let told := fun (t : State) => t.mreg 0x1430 13 = (s.mreg 0x1430 13 + 1) % 2 ^ 64 ∧
        ∀ b, b = .canA ∨ b = .canB ∨ b = .eth (bits (s.mreg 0x1400 5) 47 0) → b ∈ s.notifyWays → ∃ i m, sentOn t b i m ∧ identFunc i = 8 ∧
          m.take 8 = leBytes 2 w ++ leBytes 2 (bits v 31 16) ++ leBytes 4 (bits v 15 8)
      (quiet ∨ w ∈ s.host.watchHeld → ∃ t, exec (.notify w) s = .next t ∧ settles s t) ∧
      (¬quiet → w ∉ s.host.watchHeld → ∃ t, exec (.notify w) s = .next t ∧ sameBoard s t ∧
        t.host.watchHeld = s.host.watchHeld ++ [w] ∧ told t) ∧
      (quiet → ∃ t, exec (.notifyIntervalEnd w) s = .next t ∧
        settles { s with host := { s.host with watchHeld := s.host.watchHeld.filter (· != w) } } t) ∧
      (¬quiet → ∃ t, exec (.notifyIntervalEnd w) s = .next t ∧ sameBoard s t ∧
        t.host.watchHeld = s.host.watchHeld.filter (· != w) ++ [w] ∧ told t)) ∧
    (∀ ch, s.present ch = true → modeStands s →
      let r := (s.chan ch).readOut (s.ctx ch)
      ∃ t, exec (.frameToHost ch) s = .next t ∧ sameBoard s t ∧ t.chan ch = r.2.emptied ∧ t.chan ch.other = s.chan ch.other ∧
        ∀ m, r.1 = some m →
          (s.mreg 0x1400 6 ≠ 0 → s.busUp (.eth (s.mreg 0x1400 6)) = true → s.hostUp = true → t.mreg 0x1430 14 = (s.mreg 0x1430 14 + 1) % 2 ^ 64 ∧
            ∃ i, identFunc i = 10 ∧ sentOn t (.eth (s.mreg 0x1400 6)) i (leBytes 4 ch.num ++ m)) ∧
          (s.mreg 0x1400 6 = 0 ∨ s.busUp (.eth (s.mreg 0x1400 6)) = false ∨ s.hostUp = false →
            t.mreg 0x1430 16 = (s.mreg 0x1430 16 + 1) % 2 ^ 64 ∧ bitOf (t.mreg 0x1400 7) 7 = true)) ∧
    (s.host.canA = .active ∨ s.host.canA = .passive → ∃ t, exec (.busOff ⟨.canA, .off⟩) s = .next t ∧
      settles (({ s with host := { s.host with canA := .busOff } }.minc 0x1430 6).mflag 0x1400 7 1) t) ∧
    (s.host.canB = .active ∨ s.host.canB = .passive → ∃ t, exec (.busOff ⟨.canB, .off⟩) s = .next t ∧
      settles (({ s with host := { s.host with canB := .busOff } }.minc 0x1430 6).mflag 0x1400 7 2) t) ∧
    (∀ x y, (x, y) = (CanState.active, CanLevel.passive) ∨ (x, y) = (.passive, .active) →
      let z := if x = .active then CanState.passive else .active
      (s.host.canA = x → ∃ t, exec (.busOff ⟨.canA, y⟩) s = .next t ∧ settles { s with host := { s.host with canA := z } } t) ∧
      (s.host.canB = x → ∃ t, exec (.busOff ⟨.canB, y⟩) s = .next t ∧ settles { s with host := { s.host with canB := z } } t)) ∧
    (s.host.canA = .busOff → exec (.busOffRecovery .canA) s = .next { s with host := { s.host with canA := .active } }) ∧
    (s.host.canB = .busOff → exec (.busOffRecovery .canB) s = .next { s with host := { s.host with canB := .active } }) ∧
    (∀ up, exec (.managementLinkChange up) s = .next { s with host := { s.host with ethLink := up } }) ∧
    (∀ func q, s.hostUp = true → (∀ m, q.bus ≠ .relay m) → s.busUp q.bus = true → 65 ≤ q.src → q.src ≤ 126 → q.dest ≠ s.node →
      1 ≤ q.dest → q.dest ≤ 64 → isRequest func = true → canOnly q.bus func = false →
      (s.host.relayed.length < 64 → ∃ t, exec (.relayRequest func q) s = .next t ∧ sameBoard s t ∧
        t.host.relayed = s.host.relayed ++ [⟨q.bus, requestIdent q func, s.sbTime⟩]) ∧
      (64 ≤ s.host.relayed.length → ∀ m, statusAnswer func 0x0401 q.msg = some m → ∃ t, exec (.relayRequest func q) s = .next t ∧
        sameBoard s t ∧ t.host.relayed = s.host.relayed ∧ answers t q func m)) ∧
    ((∀ r ∈ s.host.relayIn, (relayRun [] (s.host.relayIn.filter r.with_)).2 = []) →
     let whole := s.host.relayIn.filter fun r => r.back && (relayMessage s.host.relayIn r.sender (leNat (slice r.body 0 4))).isSome
     (whole = [] → ∃ t, exec .relayAnswer s = .next t ∧ settles s t) ∧
     ∀ r rest m x, whole = r :: rest → relayMessage s.host.relayIn r.sender (leNat (slice r.body 0 4)) = some m →
      identFunc (leNat (slice r.body 0 4)) ≠ 8 →
      s.host.relayed.find? (fun x => answerOf x.ident == leNat (slice r.body 0 4)) = some x → (∀ k, x.bus ≠ .relay k) →
      ∃ t, exec .relayAnswer s = .next t ∧ sameBoard s t ∧ t.host.relayed = s.host.relayed.erase x ∧
        (s.busUp x.bus = true → sentOn t x.bus (leNat (slice r.body 0 4)) m)) ∧
    (∀ ident, (s.host.relayed.find? (fun x => x.ident == ident) = none → ∃ t, exec (.relayTimeout ident) s = .next t ∧ settles s t) ∧
      ∀ x h, s.host.relayed.find? (fun x => x.ident == ident) = some x → modeStands s → s.activeChan = some h →
        ∃ t, exec (.relayTimeout ident) s = .next t ∧ sameBoard s t ∧ t.host.relayed = s.host.relayed.erase x ∧
          counts (s.chan h) (t.chan h) 0x427C 1 1 ∧ onlyRegs (s.chan h) (t.chan h) [(0x427C, 1)] ∧ t.chan h.other = s.chan h.other) ∧
    (∀ ch d, s.present ch = true → domainOk d = true → ∃ t, exec (.postedWriteApply ch d) s = .next t ∧ sameModule s t ∧
      onlyRegs ((s.chan ch).applyDomain (s.ctx ch) d).emptied (t.chan ch) ((0x425D, 1) :: (upFrom 1 16).map fun k => (0x4206, k)) ∧
      (crossObject d = 0 → t.chan ch.other = s.chan ch.other ∧ t.chan ch = ((s.chan ch).applyDomain (s.ctx ch) d).emptied))

/-! ## Front ports -/

/-- A frame received on a front port is counted in one row of R90 and R93 and dropped with that row's code, or consumed as MAC control, LACPDU or Marker, or dropped with 0x0D in NIGHT and with 0x0C where its channel does not forward or its member does not distribute, or stored for the parser. While the link is down or within its hold nothing is received but the one frame that was in progress: it is dropped with 0x06 within the hold and with 0x09 after it (log entry 76). A frame with a good FCS sets the status of every wake pattern it matches and counts it; in NIGHT it wakes the module into WAKE_MODE, the lowest pattern is recorded and every one that drives WAKE does so. Where the partners of a pair differ PARTNER_SPLIT is set in both channels. A Marker PDU is answered on a port that is silent to data too, the model's choice (log entry 111). Line errors counting in one row only, and the layouts of LACPDUs and MAC control frames, are log entries 23, 20 and 21. -/
def Obligations.FrontFrames : Prop :=
  (∀ (s : State) (ch : Ch) (p : Nat) (b : List Byte) (err : LineErr) (fec : Nat), s.present ch = true →
    (1 ≤ p ∧ p ≤ 48) ∨ (65 ≤ p ∧ p ≤ 80) → s.leaveDawn = s →
    (s.mode.dusk && s.modeCode != 3) = false →
    let o := s.chan ch.other
    let r := (s.chan ch).receivePort (s.ctx ch) p b err fec
    let split := s.present .b ∧ (r.port p).partner ∧ (o.port p).partner ∧
      (r.reg 0x410B p ≠ o.reg 0x410B p ∨ bits (r.reg 0x4109 p) 63 48 ≠ bits (o.reg 0x4109 p) 63 48)
    (s.mode.night = .awake → ∃ t, exec (.frameReceive ch p b err fec) s = .next t ∧ settles s t ∧
      (split → t.chan ch = (r.flag 0x410D p 64).emptied ∧ t.chan ch.other = (o.flag 0x410D p 64).emptied) ∧
      (¬split → t.chan ch = r.emptied ∧ t.chan ch.other = o)) ∧
    (s.mode.night = .entering → ∃ t, exec (.frameReceive ch p b err fec) s = .next t ∧ t.mode.night = .entering ∧
      (r.box.wake = none → { t.mode with last := s.mode.last } = s.mode) ∧
      ∀ q k more, r.box.wake = some (q, k :: more) →
        t.mode.wake = some (WakeCause.lower s.mode.wake (.pattern ch q k)) ∧
        t.mode.pins = s.mode.pins ++ (k :: more).map (WakeCause.pattern ch q)) ∧
    (s.mode.night = .asleep → ∃ t, exec (.frameReceive ch p b err fec) s = .next t ∧
      (r.box.wake = none → t.mode.night = .asleep) ∧
      ∀ q k more, r.box.wake = some (q, k :: more) →
        let m := bits (s.mreg 0x1104 0) 7 4
        t.mreg 0x1101 0 = m ∧ t.mreg 0x1107 0 = (WakeCause.pattern ch q k).record ∧ bitOf (t.mreg 0x1106 0) 3 = true ∧
        (m ≠ 4 → t.mode.night = .awake) ∧ (m = 4 → t.mode.night = .entering) ∧
        ∀ j, j ∈ k :: more → s.drivesWake (.pattern ch q j) = true → WakeCause.pattern ch q j ∈ t.power.wakeBy)) ∧
  (∀ (c : Channel) (cx : Ctx) (p : Nat) (b : List Byte) (err : LineErr) (fec : Nat), 1 ≤ p → p ≤ 48 →
    let r := c.receivePort cx p b err fec
    let n := b.length
    let x := c.port p
    let gone := c.takeTail p
    let long := decide (err = .none ∧ 64 ≤ n ∧ c.maxLen p < n)
    let good := err = .none ∧ fcsGood b = true
    let m := (c.add 0x4118 p fec).hear p n
    let after := fun (d : Channel) => if good then d.wakePatterns p b else d
    let drops := fun (d : Channel) (code : Nat) =>
      r = (after d).storeRx cx ((after d).rxFrame p b ⟨code, code == 4⟩) code
    let d := after ((m.inc 0x4110 p).add 0x4111 p n)
    let f := d.rxFrame p b ⟨0, false⟩
    let fits := good ∧ 64 ≤ n ∧ n ≤ c.maxLen p
    (n < 65536 →
      (c.linkUp p = false ∨ x.holding = true → x.tail = false → r = c) ∧
      (x.holding = true → x.tail = true →
        r = ((gone.hear p n).inc 0x4117 p).storeRx cx (c.rxFrame p b ⟨6, long⟩) 6) ∧
      (c.linkUp p = false → x.holding = false → x.tail = true → r = gone.storeRx cx (c.rxFrame p b ⟨9, long⟩) 9)) ∧
    (c.linkUp p = true → x.holding = false →
      (65536 ≤ n →
        let j := (((c.add 0x4118 p fec).hear p 65536).inc 0x4116 p).flag 0x410D p 8
        let j := if err = .none ∧ fcsGood (b.take 65536) = true then j.wakePatterns p (b.take 65536) else j
        r = j.storeRx cx (j.rxFrame p (b.take 65536) ⟨5, true⟩) 5) ∧
      (n < 65536 →
        (err = .pcs ∨ err = .noEnd ∨ err = .symbol → drops (m.inc 0x4117 p) 6) ∧
        (∀ w, err = .fec w → drops (m.add 0x4119 p w) 7) ∧
        (err = .none → n < 64 → (fcsGood b = true → drops (m.inc 0x4113 p) 2) ∧
          (fcsGood b = false → drops (m.inc 0x4114 p) 3)) ∧
        (err = .none → 64 ≤ n → n ≤ c.maxLen p → fcsGood b = false → drops (m.inc 0x4112 p) 1) ∧
        (err = .none → 64 ≤ n → c.maxLen p < n → drops (m.inc 0x4115 p) 4) ∧
        (fits → field b 12 2 = 0x8808 → r = if (d.takeControl cx p (controlOf b)).1
          then (d.takeControl cx p (controlOf b)).2.storeRx cx f 8 else (d.takeControl cx p (controlOf b)).2) ∧
        (fits → field b 12 2 = 0x8809 → byteAt b 14 = 1 → r = d.takeLacpdu cx p (lacpOf b)) ∧
        (fits → field b 12 2 = 0x8809 → byteAt b 14 = 2 → r = d.answerMarker cx p) ∧
        (fits → field b 12 2 ≠ 0x8808 → ¬(field b 12 2 = 0x8809 ∧ (byteAt b 14 = 1 ∨ byteAt b 14 = 2)) →
          (cx.night ≠ .awake → r = (d.inc 0x411F p).storeRx cx f 0x0D) ∧
          (cx.night = .awake → d.collects cx p = false → r = (d.inc 0x411F p).storeRx cx f 0x0C) ∧
          (cx.night = .awake → d.collects cx p = true → d.rampRoom p = true → r = d.store cx f) ∧
          (cx.night = .awake → d.collects cx p = true → d.rampRoom p = false → r = d.rampDrop cx f 0))))) ∧
  (∀ (c : Channel) (p k : Nat) (b : List Byte), p < 256 → k < 32 →
    let d := c.wakePatterns p b
    bitOf (d.reg 0x4232 0) k = (c.bit 0x4232 0 k || c.wakeMatch p k b) ∧
    (c.wakeMatch p k b = true → counts c d 0x4233 k 1) ∧ (c.wakeMatch p k b = false → d.reg 0x4233 k = c.reg 0x4233 k) ∧
    (c.wakeMatch p k b = true → bitOf (d.reg 0x410D p) 4 = true ∧
      d.box.wake = some (p, (List.range 32).filter fun j => c.wakeMatch p j b)) ∧
    keepsRegs c d ((0x4232, 0) :: (0x410D, p) :: (upFrom 0 32).map fun j => (0x4233, j)))

/-- A PAUSE frame is counted and, in FLOW_MODE 1, holds the port or releases it with quanta 0; a PFC frame in FLOW_MODE 2 holds or releases each enabled priority that the port honours, and other MAC control frames are dropped with 0x08. A hold ends by its timer, and an LACPDU that PAUSE held then goes out. What a port asserts is sent again with PAUSE_QUANTA. A control frame goes out at once, or after the frame in progress. An LACPDU and a Marker Response also wait where a launch time guards the port, counted in 0x4B24, and the wake patterns that are armed look at each of these frames. A Marker is answered, an LACPDU that a port with LACP_EN and a source address takes (the address: log entry 109) gives the member its partner, its synchronization and DISTRIBUTING by the role of its channel, a partner whose information runs out is first expired, with PARTNER_EXPIRED set, and then forgotten, and a periodic LACPDU goes out where either end is active, within the limit of its second, from the member's own address with the module's system, the port's number, key and priority. The octet layouts are log entry 20 and the bytes of a MAC control frame 21; what raises the need for an LACPDU is log entry 24, when a fast periodic time begins 78. -/
def Obligations.FrontControl : Prop :=
  (∀ (s : State) (ch : Ch) (p : Nat), s.present ch = true → 1 ≤ p → p ≤ 52 →
    let c := s.chan ch
    let cx := s.ctx ch
    let x := c.port p
    let q := bits (c.flowCtl p) 15 0
    let h := c.hear p 64
    let counted := if p ≤ 48 then (h.inc 0x4110 p).add 0x4111 p 64 else (h.inc 0x4260 (p - 48)).add 0x4261 (p - 48) 64
    let up := c.linkUp p = true ∧ x.holding = false
    let calm := s.mode.night = .awake ∨ (c.armed p = false ∧ c.box.wake = none)
    let see := fun (d : Channel) (m : MacControl) =>
      let a := d.draw cx.free
      let b := a.2.draw cx.free
      if c.armed p then b.2.wakePatterns p (controlBytes m a.1 b.1) else d
    (∀ m, ¬up → calm → answersOn (.pauseReceive ch p m) ch s fun t => t.chan ch = c.emptied) ∧
    (∀ n, up → calm →
      let d := if p ≤ 48 then counted.inc 0x411A p else counted.inc 0x4271 (p - 48)
      (c.flowMode p ≠ 1 → answersOn (.pauseReceive ch p (.pause n)) ch s fun t => t.chan ch = (see d (.pause n)).emptied) ∧
      (c.flowMode p = 1 → n = 0 → answersOn (.pauseReceive ch p (.pause n)) ch s fun t =>
        t.chan ch = (see (d.endHold cx p none) (.pause n)).emptied) ∧
      (c.flowMode p = 1 → n ≠ 0 → answersOn (.pauseReceive ch p (.pause n)) ch s fun t =>
        t.chan ch = (see ((d.setPort p { x with paused := true }).showHold p) (.pause n)).emptied)) ∧
    (∀ en qs, up → calm → c.flowMode p = 2 → answersOn (.pauseReceive ch p (.pfc en qs)) ch s fun t =>
      let y := (t.chan ch).port p
      y = { x with pfc := y.pfc } ∧
      (∀ i, i < 8 → bitOf y.pfc i = if bitOf en i && bitOf (c.flowCtl p) (16 + i) then qs.getD i 0 != 0 else bitOf x.pfc i) ∧
      (if p ≤ 48 then counts c (t.chan ch) 0x411B p 1 else counts c (t.chan ch) 0x4272 (p - 48) 1)) ∧
    (∀ m, up → calm → (∃ op, m = .other op) ∨ (∃ en qs, m = .pfc en qs ∧ c.flowMode p ≠ 2) →
      let pfc := match m with | .pfc _ _ => true | _ => false
      let seen := if !pfc then counted else if p ≤ 48 then counted.inc 0x411B p else counted.inc 0x4272 (p - 48)
      let a := (if p ≤ 48 then seen.inc 0x411E p else seen).draw cx.free
      let b := a.2.draw cx.free
      answersOn (.pauseReceive ch p m) ch s fun t =>
        let d := if p ≤ 48 then b.2.wakePatterns p (controlBytes m a.1 b.1) else b.2
        t.chan ch = (d.storeRx cx (d.rxFrame p (controlBytes m a.1 b.1) ⟨8, false⟩) 8).emptied) ∧
    (x.owed = false → answersOn (.pauseExpire ch p none) ch s fun t =>
      t.chan ch = ((c.setPort p { x with paused := false }).showHold p).emptied) ∧
    (x.owed = true → answersOn (.pauseExpire ch p none) ch s fun t =>
      t.chan ch = (((c.setPort p { x with paused := false }).showHold p).sendLacpdu cx p x.forRole).emptied) ∧
    (∀ i, answersOn (.pauseExpire ch p (some i)) ch s fun t =>
      t.chan ch = ((c.setPort p { x with pfc := setBit x.pfc i false }).showHold p).emptied) ∧
    (let a := c.reg 0x4805 p
     let out := (if bitOf a 0 then [Sent.pause ch p false 0 q] else []) ++
       (if bits a 15 8 = 0 then [] else [Sent.pause ch p true (bits a 15 8) q])
     (c.linkUp p = false ∨ (bitOf a 0 = false ∧ bits a 15 8 = 0) → answersOn (.pauseRefresh ch p) ch s fun t =>
       t.chan ch = c.emptied ∧ putsOut s t c.box.out) ∧
     (c.linkUp p = true → c.inProgress p = true → answersOn (.pauseRefresh ch p) ch s fun t =>
       t.chan ch = (c.setPort p { x with due := x.due ++ out.map fun y => (y, false) }).emptied ∧ putsOut s t c.box.out) ∧
     (c.linkUp p = true → c.inProgress p = false → answersOn (.pauseRefresh ch p) ch s fun t =>
       putsOut s t (c.box.out ++ out) ∧
       (p ≤ 48 → bitOf a 0 = true → counts c (t.chan ch) 0x4122 p 1) ∧
       (p ≤ 48 → bits a 15 8 ≠ 0 → counts c (t.chan ch) 0x4123 p 1)))) ∧
  (∀ (s : State) (ch : Ch) (p : Nat), s.present ch = true → 1 ≤ p → p ≤ 48 →
    let c := s.chan ch
    let x := c.port p
    let cx := s.ctx ch
    let up := c.linkUp p = true ∧ x.holding = false
    let calm := s.mode.night = .awake ∨ (c.armed p = false ∧ c.box.wake = none)
    let dull := c.armed p = false ∧ c.box.wake = none
    let clear := (c.guards p).all (fun g => c.fitsBefore p 128 g.2.1) = true
    let got := ((c.inc 0x4110 p).add 0x4111 p 128).hear p 128
    let see := fun (bytes : Nat → Nat → List Byte) =>
      let a := got.draw cx.free
      let b := a.2.draw cx.free
      if c.armed p then b.2.wakePatterns p (bytes a.1 b.1) else got
    (¬up → calm → answersOn (.markerResponse ch p) ch s fun t => t.chan ch = c.emptied ∧ putsOut s t c.box.out) ∧
    (up → calm → answersOn (.markerResponse ch p) ch s fun t =>
      t.chan ch = ((see markerBytes).answerMarker cx p).emptied) ∧
    (up → dull → c.inProgress p = true → answersOn (.markerResponse ch p) ch s fun t => putsOut s t c.box.out ∧
      (t.chan ch).port p = { x with due := x.due ++ [(Sent.marker ch p, false)] } ∧
      counts c (t.chan ch) 0x4110 p 1 ∧ counts c (t.chan ch) 0x4111 p 128 ∧ counts c (t.chan ch) 0x411D p 1 ∧
      keepsRegs c (t.chan ch) [(0x4110, p), (0x4111, p), (0x411D, p)]) ∧
    (up → dull → c.inProgress p = false → ¬clear → answersOn (.markerResponse ch p) ch s fun t => putsOut s t c.box.out ∧
      (t.chan ch).port p = { x with due := x.due ++ [(Sent.marker ch p, true)] } ∧ counts c (t.chan ch) 0x4B24 p 1 ∧
      keepsRegs c (t.chan ch) [(0x4110, p), (0x4111, p), (0x411D, p), (0x4B24, p)]) ∧
    (up → dull → c.inProgress p = false → clear → answersOn (.markerResponse ch p) ch s fun t =>
      putsOut s t (c.box.out ++ [Sent.marker ch p]) ∧
      counts c (t.chan ch) 0x4110 p 1 ∧ counts c (t.chan ch) 0x4111 p 128 ∧ counts c (t.chan ch) 0x411D p 1 ∧
      counts c (t.chan ch) 0x4120 p 1 ∧ counts c (t.chan ch) 0x4121 p 128 ∧ counts c (t.chan ch) 0x4124 p 1 ∧
      (t.chan ch).reg 0x4102 p = setBit (c.reg 0x4102 p) 22 false ∧
      onlyRegs (c.hear p 128) (t.chan ch)
        [(0x4110, p), (0x4111, p), (0x411D, p), (0x4120, p), (0x4121, p), (0x4124, p), (0x4102, p)]) ∧
    (∀ info,
      let o := s.chan ch.other
      let r := c.receiveLacpdu cx p info
      let split := s.present .b ∧ (r.port p).partner ∧ (o.port p).partner ∧
        (r.reg 0x410B p ≠ o.reg 0x410B p ∨ bits (r.reg 0x4109 p) 63 48 ≠ bits (o.reg 0x4109 p) 63 48)
      (calm → ∃ t, exec (.lacpduReceive ch p info) s = .next t ∧ sameModule s t ∧
        (split → t.chan ch = (r.flag 0x410D p 64).emptied ∧ t.chan ch.other = (o.flag 0x410D p 64).emptied) ∧
        (¬split → t.chan ch = r.emptied ∧ t.chan ch.other = o)) ∧
      (¬up → r = c) ∧
      (up → c.runsLacp p = false → r = (see (lacpduBytes info)).inc 0x411C p) ∧
      (up → c.runsLacp p = true → counts c r 0x4110 p 1 ∧ counts c r 0x4111 p 128 ∧ counts c r 0x411C p 1 ∧
        (r.port p).partner = true ∧ (r.port p).sync = bitOf info.state 3 ∧ (r.port p).expired = false ∧
        (r.port p).farPrio = info.prio ∧
        r.reg 0x410B p = info.sysPrio % 2 ^ 16 * 2 ^ 48 + info.sysMac % 2 ^ 48 ∧
        bits (r.reg 0x4109 p) 63 48 = info.key % 2 ^ 16 ∧ bits (r.reg 0x4109 p) 47 32 = info.port % 2 ^ 16 ∧
        bits (r.reg 0x4109 p) 15 8 = r.actorOctet cx p ∧ bits (r.reg 0x4109 p) 7 0 = info.state % 256 ∧
        (r.bit 0x4102 p 20 = true ↔ cx.forwards = true ∧ cx.night ≠ .asleep ∧ bitOf info.state 3 = true))) ∧
    (let on := c.linkUp p && (c.hwBit 0x4100 p 26 && c.hw 0x410A p != 0) && (c.hwBit 0x4108 p 49 || bitOf (c.reg 0x4109 p) 0)
     let second := s.sbTime / 100000
     let n := if x.pduTime = second then x.sentPdu else 0
     let y := { x with sentPdu := n + 1, pduTime := second, owed := false, forRole := false }
     let pdu := Sent.lacpdu ch p (c.lacpdu cx p)
     (on = false → answersOn (.lacpPeriodic ch p) ch s fun t => t.chan ch = c.emptied ∧ putsOut s t c.box.out) ∧
     (on = true → x.paused = true ∨ 2 ≤ n → answersOn (.lacpPeriodic ch p) ch s fun t =>
       t.chan ch = (c.setPort p { x with owed := true }).emptied ∧ putsOut s t c.box.out) ∧
     (on = true → x.paused = false → n < 2 → c.inProgress p = true → answersOn (.lacpPeriodic ch p) ch s fun t =>
       t.chan ch = (c.setPort p { y with due := x.due ++ [(pdu, false)] }).emptied ∧ putsOut s t c.box.out) ∧
     (on = true → x.paused = false → n < 2 → c.inProgress p = false → ¬clear → answersOn (.lacpPeriodic ch p) ch s fun t =>
       t.chan ch = ((c.setPort p { y with due := x.due ++ [(pdu, true)] }).inc 0x4B24 p).emptied ∧ putsOut s t c.box.out) ∧
     (on = true → x.paused = false → n < 2 → c.inProgress p = false → clear → answersOn (.lacpPeriodic ch p) ch s fun t =>
       putsOut s t (c.box.out ++ [pdu]) ∧ (t.chan ch).port p = y ∧ counts c (t.chan ch) 0x4120 p 1 ∧
       counts c (t.chan ch) 0x4121 p 128 ∧ counts c (t.chan ch) 0x4124 p 1 ∧
       keepsRegs c (t.chan ch) [(0x4102, p), (0x4120, p), (0x4121, p), (0x4124, p)])) ∧
    (x.partner = false → x.expired = false → answersOn (.partnerExpire ch p) ch s fun t => t.chan ch = c.emptied) ∧
    (x.partner = true → x.expired = false → answersOn (.partnerExpire ch p) ch s fun t =>
      ((t.chan ch).port p).partner = true ∧ ((t.chan ch).port p).expired = true ∧ ((t.chan ch).port p).sync = false ∧
      (t.chan ch).reg 0x410B p = c.reg 0x410B p ∧ flagged c (t.chan ch) 0x410D p 32 ∧ (t.chan ch).bit 0x4102 p 20 = false) ∧
    (x.expired = true → answersOn (.partnerExpire ch p) ch s fun t =>
      ((t.chan ch).port p).partner = false ∧ ((t.chan ch).port p).expired = false ∧ ((t.chan ch).port p).sync = false ∧
      (t.chan ch).reg 0x4109 p = 0 ∧ (t.chan ch).reg 0x410B p = 0 ∧ (t.chan ch).bit 0x4102 p 20 = false)) ∧
  (∀ (c : Channel) (cx : Ctx) (p : Nat), 1 ≤ p → p ≤ 48 →
    let b := c.lacpdu cx p
    let own := c.hw 0x4108 p
    b.length = 128 ∧ fcsGood b = true ∧ field b 0 6 = 0x0180C2000002 ∧ field b 6 6 = c.hw 0x410A p % 2 ^ 48 ∧
    field b 12 2 = 0x8809 ∧ byteAt b 14 = 1 ∧ field b 18 8 = c.reg 0x410C 1 % 2 ^ 64 ∧ field b 26 2 = bits own 31 16 ∧
    field b 28 2 = bits own 15 0 ∧ field b 30 2 = p + 0x100 * cx.ch.num ∧ byteAt b 32 = c.actorOctet cx p % 256)

/-- A loss of lock is reported at once where the hold is 0, else when it has lasted; a return within the hold, of the operation that ran, reports nothing. Link down forgets the partner, PAUSE and what the port asserts. A link comes up only where role and mode allow it and the partner runs the operation that SPEED or negotiation names, which RESOLVED then shows, and LINK_UP is set. Negotiation resolves to the highest common ability, without one it never completes, and every 3 s AN_FAIL is set. An idle port with EEE and nothing to send enters low-power idle and counts it, and leaves it again; the flushing of a tier ends. The order of clause 73's abilities is log entry 22. -/
def Obligations.FrontLinks : Prop :=
  (∀ (s : State) (ch : Ch) (p : Nat), s.present ch = true → 1 ≤ p → p ≤ 48 →
    let c := s.chan ch
    let x := c.port p
    let ctl := c.hw 0x4100 p
    let hold := bits (c.hw 0x4107 p) 15 0
    let same := fun (i : Instr) => answersOn i ch s fun t => t.chan ch = c.emptied
    let goesDown := fun (i : Instr) => answersOn i ch s fun t => t.chan ch = (c.frontDown' (s.ctx ch) p).emptied ∧
      (t.chan ch).reg 0x4805 p = 0 ∧ (t.chan ch).reg 0x4109 p = 0 ∧ (t.chan ch).reg 0x410B p = 0 ∧
      ((t.chan ch).port p).partner = false ∧ ((t.chan ch).port p).paused = false ∧ ((t.chan ch).port p).locked = false
    (c.linkUp p = false → same (.lockLoss ch p)) ∧
    (c.linkUp p = true → hold = 0 → goesDown (.lockLoss ch p)) ∧
    (c.linkUp p = true → hold ≠ 0 → x.holding = true → same (.lockLoss ch p)) ∧
    (c.linkUp p = true → hold ≠ 0 → x.holding = false → answersOn (.lockLoss ch p) ch s fun t =>
      t.chan ch = (c.setPort p { x with locked := false, holding := true, tail := true }).emptied) ∧
    (x.holding = false → same (.linkDownHoldExpire ch p)) ∧
    (x.holding = true → c.linkUp p = true → goesDown (.linkDownHoldExpire ch p)) ∧
    (x.holding = true → c.linkUp p = false → answersOn (.linkDownHoldExpire ch p) ch s fun t =>
      t.chan ch = (c.setPort p { x with holding := false, locked := false }).emptied) ∧
    (∀ op, c.linkUp p = true → x.holding = true → bits (c.reg 0x4102 p) 15 12 = op → answersOn (.linkUp ch p op) ch s fun t =>
      t.chan ch = (c.setPort p { x with holding := false, locked := true, tail := false }).emptied) ∧
    (∀ op, c.linkUp p = true → x.holding = false ∨ bits (c.reg 0x4102 p) 15 12 ≠ op → same (.linkUp ch p op)) ∧
    (∀ op, c.linkUp p = false →
      let matches_ := (1 ≤ bits ctl 15 12 ∧ op = bits ctl 15 12) ∨ (bits ctl 15 12 = 0 ∧ c.bit 0x4102 p 11 = true ∧ op = x.anOp ∧ op ≠ 0)
      (c.linkAllowed (s.ctx ch) p = false ∨ ¬matches_ → same (.linkUp ch p op)) ∧
      (c.linkAllowed (s.ctx ch) p = true → matches_ → answersOn (.linkUp ch p op) ch s fun t =>
        (t.chan ch).linkUp p = true ∧ bits ((t.chan ch).reg 0x4102 p) 15 12 = op % 16 ∧ flagged c (t.chan ch) 0x410D p 2 ∧
        ((t.chan ch).tier p).down = false ∧ (t.chan ch).port p =
          { x with locked := true, holding := false, tail := false, expired := bitOf ctl 26, due := ((t.chan ch).port p).due })) ∧
    (let waits := bitOf ctl 0 && bits ctl 15 12 == 0 && !c.bit 0x4102 p 11
     (waits = false → same (.anTimeout ch p)) ∧
     (waits = true → answersOn (.anTimeout ch p) ch s fun t =>
       flagged c (t.chan ch) 0x410D p 4 ∧ onlyRegs c (t.chan ch) [(0x410D, p)])) ∧
    (∀ far,
      let runs := bitOf ctl 0 = true ∧ bits ctl 15 12 = 0 ∧ c.linkUp p = false
      (¬runs ∨ resolveAn (bits ctl 11 10) (c.hw 0x4101 p) far = none → same (.anComplete ch p far)) ∧
      (∀ op, runs → resolveAn (bits ctl 11 10) (c.hw 0x4101 p) far = some op → answersOn (.anComplete ch p far) ch s fun t =>
        t.chan ch = ((c.putBit 0x4102 p 11 true).setPort p
          { x with anOp := op, eee := bitOf (c.hw 0x4101 p) 11 && bitOf far 11 }).emptied)) ∧
    (let resolved := if bits ctl 15 12 = 0 then x.eee else bitOf (c.hw 0x4101 p) 11
     let enters := bitOf ctl 23 && c.bit 0x4102 p 0 && resolved && !c.bit 0x4102 p 22 && x.line.isNone &&
       (c.tier p).picked.isEmpty && (c.queuedAt p).isEmpty
     (enters = false → same (.lpiEnter ch p)) ∧
     (enters = true → answersOn (.lpiEnter ch p) ch s fun t =>
       (t.chan ch).reg 0x4102 p = setBit (c.reg 0x4102 p) 22 true ∧ counts c (t.chan ch) 0x4126 p 1 ∧
       onlyRegs c (t.chan ch) [(0x4102, p), (0x4126, p)])) ∧
    (answersOn (.lpiWake ch p) ch s fun t => (t.chan ch).reg 0x4102 p = setBit (c.reg 0x4102 p) 22 false ∧
      onlyRegs c (t.chan ch) [(0x4102, p)]) ∧
    (∀ b, (c.linkUp p = false → same (.receiveLowPowerIdle ch p b)) ∧
      (c.linkUp p = true → answersOn (.receiveLowPowerIdle ch p b) ch s fun t =>
        (t.chan ch).reg 0x4102 p = setBit (c.reg 0x4102 p) 21 b ∧ onlyRegs c (t.chan ch) [(0x4102, p), (0x4127, p)] ∧
        (b = true → c.bit 0x4102 p 21 = false → counts c (t.chan ch) 0x4127 p 1) ∧
        (b = false ∨ c.bit 0x4102 p 21 = true → (t.chan ch).reg 0x4127 p = c.reg 0x4127 p)))) ∧
  (∀ (s : State) (ch : Ch) (e : Nat), s.present ch = true → tierOk e = true →
    answersOn (.flushFinished ch e) ch s fun t =>
      t.chan ch = ((s.chan ch).setTier e { (s.chan ch).tier e with flushing := false }).emptied) ∧
  (∀ m own far, own < 2 ^ 12 → far < 2 ^ 12 →
    let both := own &&& far
    let fec := fun (i : Nat) => bitOf own i || bitOf far i
    resolveAn m own far =
      if bitOf both 6 || bitOf both 5 then some 10 else if bitOf both 3 || bitOf both 2 then some (if fec 7 then 8 else 7)
      else if bitOf both 4 then some (if fec 8 then 6 else if fec 7 then 5 else 4)
      else if bitOf both 1 then some (if fec 7 then 3 else 2) else if bitOf both 0 && m == 0 then some 1 else none)

/-! ## Multidrop ports -/

/-- A coordinator that holds its medium sends a BEACON when NODE_COUNT opportunities have ended; each that passes begins a cycle, and the tenth in a row that finds a frame waiting sets TO_STARVED. A transmit opportunity gives the port its turn, once in a cycle, the coordinator's first; an unused one ends, and a frame heard uses one (log entry 82). A follower that loses its BEACONs leaves PLCA, counted, and returns with the next one; a coordinator that hears one counts a duplicate ID and leaves PLCA where DUP_ACTION says so. A collision stops the frame and sets a backoff below 2^min(n, 10) slot times, a free value (log entry 5); the 16th, and a late one, which sends the jam, drops it, and a frame that collides in NIGHT is flushed. The token of a dual-attached segment passes to the lease holder when both ports are idle and the old active neither forwards under its drain permission nor drains frames for the port. Received frames count in one row and are dropped with 0x0D in NIGHT and with 0x0C without the token. That TO_STARVED counts anew after the tenth BEACON is log entry 25. -/
def Obligations.MultidropPorts : Prop :=
  (∀ (s : State) (ch : Ch) (k : Nat), s.present ch = true → 1 ≤ k → k ≤ 16 →
    let c := s.chan ch
    let d := c.mdrop k
    let same := fun (i : Instr) => answersOn i ch s fun t => t.chan ch = c.emptied ∧ putsOut s t c.box.out
    let plca := c.bit 0x4202 k 14 = true
    let may := plca ∧ s.mode.night ≠ .asleep ∧ c.token (s.ctx ch) k = true
    let dupAct := bits (c.hw 0x4200 k) 5 4 = 1
    let gone := c.bit 0x4202 k 14 && d.turn && bits (c.hw 0x4200 k) 5 4 == 1
    let own := plca ∧ d.turn = true
    let double := fun (t : State) => counts c (t.chan ch) 0x4220 k 1 ∧ bitOf ((t.chan ch).reg 0x4206 k) 3 = true
    let passed := fun (x : DropSt) (t : State) =>
      let y := { x with turn := false, cycle := some 0, had := false }
      (c.dropWaits k = false → (t.chan ch).mdrop k = { y with starved := 0 }) ∧
      (c.dropWaits k = true → d.starved < 9 → (t.chan ch).mdrop k = { y with starved := d.starved + 1 }) ∧
      (c.dropWaits k = true → 9 ≤ d.starved → (t.chan ch).mdrop k = { y with starved := 0 } ∧ flagged c (t.chan ch) 0x4206 k 16)
    let begins := may ∧ bits (c.hw 0x4201 k) 7 0 = 0 ∧ d.line = none ∧ d.turn = false ∧
      ∀ n, d.cycle = some n → bits (c.hw 0x4201 k) 39 32 ≤ n
    let reached := may ∧ d.had = false ∧ (if bits (c.hw 0x4201 k) 7 0 = 0 then d.cycle = some 0 else d.cycle ≠ none)
    (¬begins → same (.plcaBeacon ch k)) ∧
    (begins → answersOn (.plcaBeacon ch k) ch s fun t =>
      putsOut s t (c.box.out ++ [Sent.plcaBeacon ch k]) ∧ passed d t ∧ onlyRegs c { t.chan ch with mdrops := c.mdrops } [(0x4206, k)]) ∧
    (¬reached → same (.transmitOpportunity ch k)) ∧
    (reached → answersOn (.transmitOpportunity ch k) ch s fun t =>
      t.chan ch = (c.setMdrop k { d with turn := true, burst := 0, had := true, starved := 0 }).emptied) ∧
    (d.line ≠ none → same (.toTimerExpire ch k)) ∧
    (d.line = none → answersOn (.toTimerExpire ch k) ch s fun t => t.chan ch = (c.setMdrop k { d with turn := false, cycle := d.cycle.map (· + 1) }).emptied) ∧
    (let on := c.bit 0x4202 k 0 = true ∧ c.hwBit 0x4200 k 2 = true
     (¬on ∨ (c.coordinator k = true ∧ d.dup = true) → same (.plcaBeaconReceive ch k)) ∧
     (on → c.coordinator k = true → d.dup = false → answersOn (.plcaBeaconReceive ch k) ch s fun t => double t ∧
       (¬dupAct → (t.chan ch).mdrop k = d ∧ (t.chan ch).reg 0x4202 k = c.reg 0x4202 k) ∧
       (dupAct → (t.chan ch).mdrop k = { d with dup := true, turn := false, burst := 0, cycle := none, had := false } ∧ (t.chan ch).bit 0x4202 k 12 = true ∧
         (t.chan ch).bit 0x4202 k 14 = false)) ∧
     (on → c.coordinator k = false → answersOn (.plcaBeaconReceive ch k) ch s fun t =>
       let new := (c.setMdrop k { d with lost := false }).showDrop (s.ctx ch) k
       (new.bit 0x4202 k 14 = true → s.mode.night ≠ .asleep → passed { d with lost := false } t ∧
         (t.chan ch).reg 0x4202 k = new.reg 0x4202 k) ∧
       (new.bit 0x4202 k 14 = true → s.mode.night = .asleep → passed (new.mdrop k) t) ∧
       (new.bit 0x4202 k 14 = false → t.chan ch = new.emptied))) ∧
    (¬plca ∨ c.coordinator k = true → same (.plcaBeaconLoss ch k)) ∧
    (plca → c.coordinator k = false → answersOn (.plcaBeaconLoss ch k) ch s fun t =>
      (t.chan ch).mdrop k = { d with lost := true, turn := false, burst := 0, cycle := none, had := false } ∧ counts c (t.chan ch) 0x421F k 1 ∧
      flagged c (t.chan ch) 0x4206 k 4 ∧ (t.chan ch).bit 0x4202 k 14 = false ∧
      keepsRegs c (t.chan ch) [(0x4202, k), (0x4206, k), (0x421F, k)]) ∧
    (d.line = none → same (.collision ch k) ∧ same (.lateCollision ch k)) ∧
    (∀ r, d.line = some r →
      let given := fun (t : State) => ((t.chan ch).mdrop k).attempts = 0 ∧ ((t.chan ch).mdrop k).backoff = none ∧
        ((t.chan ch).mdrop k).hand = none ∧ ((t.chan ch).mdrop k).line = none ∧ ((t.chan ch).mdrop k).turn = false ∧ bitOf ((t.chan ch).reg 0x4206 k) 0 = true ∧
        counts c (t.chan ch) 0x421D k 1 ∧ ((c.copyOf r).isSome = true → counts c (t.chan ch) 0x421C k 1) ∧ (own → double t)
      let cut := fun (f : Frame × Copy) => [Sent.frame ch (64 + k) (f.2.bytes.getD []) false]
      (d.attempts < 15 → s.mode.night ≠ .asleep → answersOn (.collision ch k) ch s fun t =>
        let y := (t.chan ch).mdrop k
        y = { d with
          line := none, turn := false, attempts := d.attempts + 1, hand := some r, backoff := y.backoff, dup := y.dup,
          burst := if gone then 0 else d.burst, had := if gone then false else d.had,
          cycle := if gone then none else if d.turn then d.cycle.map (· + 1) else d.cycle } ∧
        (∃ w, w < 2 ^ min (d.attempts + 1) 10 ∧ y.backoff = some w) ∧ (y.dup = true ↔ d.dup = true ∨ (own ∧ dupAct)) ∧
        counts c (t.chan ch) 0x421D k 1 ∧ (own → double t) ∧
        (∀ f, c.copyOf r = some f → putsOut s t (c.box.out ++ cut f))) ∧
      (d.attempts < 15 → s.mode.night = .asleep → answersOn (.collision ch k) ch s fun t =>
        counts c (t.chan ch) 0x421D k 1 ∧ (own → double t) ∧
        t.chan ch = ((((c.collided (s.ctx ch) k).inc 0x4922 (64 + k)).flag 0x490F 1 1).discard (s.ctx ch) r 0x80).emptied) ∧
      (15 ≤ d.attempts → answersOn (.collision ch k) ch s given) ∧
      (answersOn (.lateCollision ch k) ch s fun t => given t ∧ counts c (t.chan ch) 0x421E k 1 ∧
        (∀ f, c.copyOf r = some f → putsOut s t (c.box.out ++ cut f ++ [Sent.jam ch (64 + k)])))) ∧
    (answersOn (.collisionBackoffEnd ch k) ch s fun t => t.chan ch = (c.setMdrop k { d with backoff := none }).emptied) ∧
    (c.bit 0x4202 k 0 = false → same (.falseCarrier ch k)) ∧
    (c.bit 0x4202 k 0 = true → answersOn (.falseCarrier ch k) ch s fun t =>
      counts c (t.chan ch) 0x4218 k 1 ∧ onlyRegs c (t.chan ch) [(0x4218, k)])) ∧
  (∀ (s : State) (k : Nat), 1 ≤ k → k ≤ 16 →
    let dual := s.present .b = true ∧ s.chA.hwBit 0x4200 k 3 = true ∧ s.chB.hwBit 0x4200 k 3 = true
    let idle := (s.chA.mdrop k).line = none ∧ (s.chB.mdrop k).line = none
    let keeps := fun (o : Ch) => (s.arb.drainer = some o ∧ (s.role o).st = .active) ∨
      ((s.role o).st = .draining ∧ (s.chan o).dropWaits k = true)
    (s.arb.holder = none → exec (.tokenHandover k) s = .next s) ∧
    (∀ h, s.arb.holder = some h → ¬dual ∨ ¬idle ∨ keeps h.other → exec (.tokenHandover k) s = .next s) ∧
    (∀ h, s.arb.holder = some h → dual → idle → ¬keeps h.other → exec (.tokenHandover k) s =
      .next { s with arb := { s.arb with tokens := tabSet (fun _ => Ch.a) s.arb.tokens k h } })) ∧
  (∀ (c : Channel) (cx : Ctx) (k : Nat) (b : List Byte) (err : LineErr) (fec : Nat), 1 ≤ k → k ≤ 16 →
    let r := c.receivePort cx (64 + k) b err fec
    let n := b.length
    let x := c.mdrop k
    let heard := fun (d : Channel) (n : Nat) =>
      if x.turn = true then d.hear (64 + k) n
      else (d.hear (64 + k) n).setMdrop k { x with turn := false, cycle := x.cycle.map (· + 1) }
    let drops := fun (i code : Nat) =>
      let d := heard (c.inc i k) n
      r = d.storeRx cx (d.rxFrame (64 + k) b ⟨code, code == 4⟩) code
    let d := heard ((c.inc 0x4210 k).add 0x4211 k n) n
    let f := d.rxFrame (64 + k) b ⟨0, false⟩
    let fits := err = .none ∧ fcsGood b = true ∧ 64 ≤ n ∧ n ≤ c.maxLen (64 + k) ∧ n < 65536
    let takes := cx.night = .awake ∧ c.token cx k = true
    (c.bit 0x4202 k 0 = false → r = c) ∧
    (c.bit 0x4202 k 0 = true →
      (65536 ≤ n →
        let j := heard (c.inc 0x4216 k) 65536
        r = j.storeRx cx (j.rxFrame (64 + k) (b.take 65536) ⟨5, true⟩) 5) ∧
      (n < 65536 → err ≠ .none → drops 0x4217 0x10) ∧
      (err = .none → n < 64 → (fcsGood b = true → drops 0x4213 2) ∧ (fcsGood b = false → drops 0x4214 3)) ∧
      (err = .none → 64 ≤ n → n ≤ c.maxLen (64 + k) → n < 65536 → fcsGood b = false → drops 0x4212 1) ∧
      (err = .none → 64 ≤ n → c.maxLen (64 + k) < n → n < 65536 → drops 0x4215 4) ∧
      (fits → field b 12 2 = 0x8808 → r = (d.inc 0x4219 k).storeRx cx f 8) ∧
      (fits → field b 12 2 ≠ 0x8808 → cx.night ≠ .awake → r = (d.inc 0x4219 k).storeRx cx f 0x0D) ∧
      (fits → field b 12 2 ≠ 0x8808 → cx.night = .awake → c.token cx k = false → r = (d.inc 0x4219 k).storeRx cx f 0x0C) ∧
      (fits → field b 12 2 ≠ 0x8808 → takes → r = d.storeRx cx f 0)))

/-! ## Fabric links -/

/-- Loss of lock on a fabric link is reported at once and forgets its beacon; the link comes up where role and mode allow it. A channel from STARTING to DRAINING sends beacons of 64 bytes with its state, mode and epoch, after a frame in progress. A good beacon gives the link its epoch, state and channel, is fresh and passes the wiring check only from the expected module, channel and link; a failed check sets WIRING_ERROR, a beacon with a bad tag only counts. An old beacon is forgotten. In each direction the selected link is the one that is up, wired and fresh from an ACTIVE channel, the newer epoch before the older and channel A's on a tie. A direction without a selected link is flushed. -/
def Obligations.FabricLinks : Prop :=
  (∀ (s : State) (ch : Ch) (l : Nat), s.present ch = true → 1 ≤ l → l ≤ 4 →
    let c := s.chan ch
    let cx := s.ctx ch
    let x := c.link l
    let port := c.port (48 + l)
    let same := fun (i : Instr) => answersOn i ch s fun t => t.chan ch = c.emptied ∧ putsOut s t c.box.out
    let on := c.linkUp (48 + l) = true ∧ port.holding = false
    (c.linkUp (48 + l) = false → same (.lockLoss ch (48 + l))) ∧
    (c.linkUp (48 + l) = true → answersOn (.lockLoss ch (48 + l)) ch s fun t => (t.chan ch).linkUp (48 + l) = false ∧
      (t.chan ch).reg 0x4256 l = 0 ∧ (t.chan ch).link l = LinkSt.empty ∧ bitOf ((t.chan ch).reg 0x425D l) 0 = true) ∧
    (∀ op, c.linkUp (48 + l) = true ∨ c.linkAllowed cx (48 + l) = false → same (.linkUp ch (48 + l) op)) ∧
    (∀ op, c.linkUp (48 + l) = false → c.linkAllowed cx (48 + l) = true → answersOn (.linkUp ch (48 + l) op) ch s fun t =>
      (t.chan ch).reg 0x4251 l = 1 ∧ flagged c (t.chan ch) 0x425D l 2) ∧
    (c.linkUp (48 + l) = false ∨ cx.st.code = 0 ∨ 4 < cx.st.code → same (.beaconSend ch l)) ∧
    (c.linkUp (48 + l) = true → 1 ≤ cx.st.code → cx.st.code ≤ 4 → c.inProgress (48 + l) = true →
      answersOn (.beaconSend ch l) ch s fun t => putsOut s t c.box.out ∧
        t.chan ch = (c.setPort (48 + l) { port with due := port.due ++ [(Sent.beacon ch l (c.beacon cx l), false)] }).emptied) ∧
    (c.linkUp (48 + l) = true → 1 ≤ cx.st.code → cx.st.code ≤ 4 → c.inProgress (48 + l) = false →
      answersOn (.beaconSend ch l) ch s fun t =>
      putsOut s t (c.box.out ++ [Sent.beacon ch l (c.beacon cx l)]) ∧ counts c (t.chan ch) 0x4273 l 1 ∧
      counts c (t.chan ch) 0x4274 l 64 ∧ counts c (t.chan ch) 0x4277 l 1 ∧
      onlyRegs c (t.chan ch) [(0x4273, l), (0x4274, l), (0x4277, l)]) ∧
    (x.fresh = false → same (.beaconExpire ch l)) ∧
    (x.fresh = true → answersOn (.beaconExpire ch l) ch s fun t => (t.chan ch).link l = { x with fresh := false, sel := false } ∧
      (t.chan ch).reg 0x4256 l = 0 ∧ (t.chan ch).bit 0x4251 l 17 = false ∧ (t.chan ch).bit 0x4251 l 18 = false ∧
      flagged c (t.chan ch) 0x425D l 16) ∧
    (∀ b, ¬on → port.holding = true ∨ port.tail = false → same (.beaconReceive ch l b)) ∧
    (∀ b, on → b.length < 65536 → (fabricRx (c.maxLen (48 + l) + 16) b .none).code = 0 → field b 12 2 = 0x88B5 →
      bitOf (byteAt b 14) 1 = true →
      let tag := field b 14 14
      let ok := bits tag 103 98 + 1 = c.neighbour cx l ∧ bits tag 90 90 = (l + 1) % 2 ∧
        byteAt b 29 = (if l ≤ 2 then 3 else 1) + ch.num
      (tagBad b = true → answersOn (.beaconReceive ch l b) ch s fun t => counts c (t.chan ch) 0x4264 l 1 ∧
        t.chan ch = { (c.hear (48 + l) b.length).emptied with dict := (t.chan ch).dict } ∧
        keepsRegs c (t.chan ch) [(0x426D, l), (0x426E, l), (0x4260, l), (0x4261, l), (0x4264, l)]) ∧
      (tagBad b = false → answersOn (.beaconReceive ch l b) ch s fun t =>
        counts c (t.chan ch) 0x426F l 1 ∧ counts c (t.chan ch) 0x4260 l 1 ∧ counts c (t.chan ch) 0x4261 l b.length ∧
        let y := (t.chan ch).link l
        y.epoch = field b 36 4 ∧ y.state = byteAt b 28 ∧ y.chan = bits tag 90 90 ∧ y.fresh = true ∧ (y.wired = true ↔ ok) ∧
        (t.chan ch).reg 0x4256 l = field b 36 4 * 2 ^ 32 + (bits tag 103 98 + 1) * 2 ^ 16 + bits tag 90 90 * 2 ^ 12 +
          byteAt b 28 % 16 * 2 ^ 8 + byteAt b 30 % 16 * 2 ^ 4 + byteAt b 29 % 16 ∧
        ((t.chan ch).bit 0x4251 l 19 = true ↔ ok) ∧ (t.chan ch).bit 0x4251 l 17 = true ∧
        (¬ok → flagged c (t.chan ch) 0x425D l 32)))) ∧
  (∀ (s : State) (ch : Ch) (right : Bool), s.present ch = true →
    let c := s.chan ch
    let e := if right then 51 else 49
    ((c.selected e).isSome = true → answersOn (.directionFlush ch right) ch s fun t => t.chan ch = c.emptied) ∧
    (c.selected e = none → answersOn (.directionFlush ch right) ch s fun t =>
      t.chan ch = (c.tierDown (s.ctx ch) e).emptied ∧ ((t.chan ch).tier e).down = true)) ∧
  (∀ (c : Channel) (l : Nat), l = 1 ∨ l = 3 →
    let d := c.reselect (if l = 1 then 49 else 51)
    let good := fun (i : Nat) => c.linkUp (48 + i) = true ∧ (c.link i).wired = true ∧ (c.link i).fresh = true ∧ (c.link i).state = 3
    let second := newerEpoch (c.link (l + 1)).epoch (c.link l).epoch = true
    ((d.link l).sel = true ↔ good l ∧ (good (l + 1) → ¬second)) ∧ ((d.link (l + 1)).sel = true ↔ good (l + 1) ∧ (good l → second)) ∧
    d.bit 0x4251 l 18 = (d.link l).sel ∧ d.bit 0x4251 (l + 1) 18 = (d.link (l + 1)).sel) ∧
  (∀ e1 e2, e1 < 2 ^ 32 → e2 < 2 ^ 32 → (newerEpoch e1 e2 = true ↔ ∃ k, 1 ≤ k ∧ k < 2 ^ 31 ∧ e1 = (e2 + k) % 2 ^ 32)) ∧
  (∀ (c : Channel) (cx : Ctx) (l : Nat), 1 ≤ l → l ≤ 4 →
    let b := c.beacon cx l
    b.length = 64 ∧ fcsGood b = true ∧ field b 0 6 = 0x03004B000001 ∧ field b 12 2 = 0x88B5 ∧ bitOf (byteAt b 14) 1 = true ∧
    byteAt b 28 = cx.st.code ∧ byteAt b 29 = l ∧ byteAt b 30 = cx.mode % 256 ∧ field b 36 4 = cx.epoch % 2 ^ 32)

/-- A frame from a fabric link is checked as on a front port with 16 bytes more, a stomped one apart; then for its tag, the wiring and the domain, the mode and the role, and routed by its hops: delivered here, sent on towards the other direction with one hop less, or dropped with the first code that applies. A relay frame for this module goes to the service block. Data frames that travel on pass through the pipeline first. A frame is cut through only between links with CT_EN, to the selected link, with nothing queued or in progress there, once 512 bytes or all of it have arrived; at its end it goes out with the FCS of its bytes, or, where it turned out bad, too long, unreadable in a cell or its link was lost, with that FCS inverted; it holds its cells and the timestamps of its start, and a PTP event message has its transmit timestamp queued. A group frame that is neither delivered here nor passed on has no copy. The frame in progress when a link went down is dropped with 0x09 (log entry 76); the maxima of a frame in cut-through are log entry 84. -/
def Obligations.FabricFrames : Prop :=
  (∀ (s : State) (ch : Ch) (l : Nat) (b : List Byte) (err : LineErr) (fec : Nat), s.present ch = true → 1 ≤ l → l ≤ 4 → b.length < 65536 →
    let c := s.chan ch
    let cx := s.ctx ch
    let top := c.maxLen (48 + l) + 16
    let x := c.port (48 + l)
    let r := fabricRx top b err
    let f := c.fabricFrame l top b r
    let tag := field b 14 14
    let way := c.route cx l tag
    let relay := bitOf tag 104 = true
    let rows := fun (ok : State → Prop) => answersOn (.fabricFrameReceive ch l b err fec) ch s ok
    let d0 := ((c.add 0x426D l fec).add 0x426E l (lostWords err)).hear (48 + l) b.length
    let d1 := (d0.inc 0x4260 l).add 0x4261 l b.length
    let d2 := if relay ∧ tagBad b = false then d1.inc 0x4270 l else d1
    let data := r.code = 0 ∧ field b 12 2 ≠ 0x8808 ∧ ¬(field b 12 2 = 0x88B5 ∧ bitOf (byteAt b 14) 1 = true)
    let code := if tagBad b then 0x15 else if !(c.link l).wired || c.domainBad cx then 0x17
      else if cx.night ≠ .awake then 0x0D else if !cx.forwards then 0x0C else way.code
    (c.linkUp (48 + l) = false ∨ x.holding = true → x.holding = true ∨ x.tail = false → rows fun t => t.chan ch = c.emptied) ∧
    (c.linkUp (48 + l) = false → x.holding = false → x.tail = true → rows fun t =>
      t.chan ch = ((c.takeTail (48 + l)).storeRx cx f 9).emptied) ∧
    (c.linkUp (48 + l) = true → x.holding = false →
      (r.code ≠ 0 → rows fun t => t.chan ch = ((d0.countFabric l r.code).storeRx cx f r.code).emptied) ∧
      (r.code = 0 → field b 12 2 = 0x8808 → rows fun t => t.chan ch = (if (d1.takeControl cx (48 + l) (controlOf b)).1
        then (d1.takeControl cx (48 + l) (controlOf b)).2.storeRx cx f 8
        else (d1.takeControl cx (48 + l) (controlOf b)).2).emptied) ∧
      (data → code ≠ 0 → rows fun t => t.chan ch = ((d2.countFabric l code).storeRx cx f code).emptied) ∧
      (data → code = 0 → relay → way.loc = true → rows fun t => t.chan ch = d2.emptied ∧
        t.host.relayIn = s.host.relayIn ++ (c.box.up ++ [(⟨ch, bits tag 103 98 + 1, (b.drop 28).take (b.length - 32)⟩ : RelayMsg)])) ∧
      (data → code = 0 → ¬relay ∨ way.loc = false → rows fun t => t.chan ch = (d2.forwardFabric cx f way none).emptied) ∧
      (data → code = 0 → ¬relay → way.loc = true → way.onward = none → d2.rampRoom (48 + l) = true →
        rows fun t => t.chan ch = (d2.store cx f).emptied) ∧
      (∀ e h, data → code = 0 → ¬relay → way.onward = some (e, h) → d2.rampRoom (48 + l) = true →
        rows fun t => t.chan ch = (d2.store cx { f with transit := some ⟨e, h, way.loc, false⟩ }).emptied) ∧
      (data → code = 0 → ¬relay → way.loc = false → way.onward = none → d2.rampRoom (48 + l) = true →
        rows fun t => t.chan ch = (d2.store cx { f with transit := some ⟨0, 0, false, false⟩ }).emptied))) ∧
  (∀ (top : Nat) (b : List Byte) (err : LineErr), b.length < 65536 →
    let r := (fabricRx top b err).code
    let n := b.length
    (err = .pcs ∨ err = .noEnd ∨ err = .symbol → r = 6) ∧ (∀ w, err = .fec w → r = 7) ∧
    (err = .none → n < 64 → r = if fcsGood b then 2 else 3) ∧ (err = .none → 64 ≤ n → top < n → r = 4) ∧
    (err = .none → 64 ≤ n → n ≤ top → fcsGood b = true → r = 0) ∧
    (err = .none → 64 ≤ n → n ≤ top → fcsGood b = false →
      r = if field b 12 2 == 0x88B5 && bitOf (byteAt b 14) 2 && stompGood b then 0x14 else 1)) ∧
  (∀ (c : Channel) (cx : Ctx) (l tag : Nat), 1 ≤ l → l ≤ 4 →
    let hops := bits tag 51 46
    let away := if l ≤ 2 then 51 else 49
    let here := bits tag 89 84 + 1 = cx.moduleId
    let port := bits tag 83 77
    let m := c.wget 0x4257 (bits tag 89 74)
    let mc := bitOf tag 107 = true
    let w := c.route cx l tag
    let on := some (away, hops - 1)
    (hops = 0 → w.code = 0x16) ∧
    (0 < hops → mc → w = ⟨0, bitOf m 2, if 1 < hops ∧ bitOf m (if l ≤ 2 then 1 else 0) = true then on else none⟩) ∧
    (0 < hops → ¬mc → here → port ≠ 54 → isPort port = true → w = ⟨0, true, none⟩) ∧
    (0 < hops → ¬mc → here → port = 54 ∨ isPort port = false → w.code = 0x18) ∧
    (hops = 1 → ¬mc → ¬here → w.code = 0x16) ∧
    (1 < hops → ¬mc → ¬here → (c.selected away).isNone = true → w.code = 0x3D) ∧
    (1 < hops → ¬mc → ¬here → (c.selected away).isSome = true → w = ⟨0, false, on⟩)) ∧
  (∀ (s : State) (ch : Ch) (l : Nat) (head : List Byte), s.present ch = true → 1 ≤ l → l ≤ 4 →
    let c := s.chan ch
    (c.cutTarget (s.ctx ch) l head = none → answersOn (.cutThroughStart ch l head) ch s fun t => t.chan ch = c.emptied) ∧
    (∀ out tag, c.cutTarget (s.ctx ch) l head = some (out, tag) →
      c.hwBit 0x4250 l 1 = true ∧ c.hwBit 0x4250 out 1 = true ∧ c.selected (if l ≤ 2 then 51 else 49) = some out ∧
      c.queuedAt (if l ≤ 2 then 51 else 49) = [] ∧ c.rampRoom (48 + l) = true ∧
      (∀ r f y, r ∈ (c.tier (if l ≤ 2 then 51 else 49)).picked → c.copyOf r = some (f, y) → y.port ≠ 48 + out) ∧ (c.port (48 + out)).paused = false ∧ c.inProgress (48 + out) = false ∧
      64 ≤ head.length ∧ head.length ≤ c.maxLen (48 + out) + 16 ∧ (512 ≤ head.length ∨ fcsGood head = true) ∧
      bits tag 51 46 + 1 = bits (field head 14 14) 51 46 ∧ bitOf tag 106 = true ∧
      answersOn (.cutThroughStart ch l head) ch s fun t =>
        let got := c.takeCells (s.ctx ch) (cellsOf head.length)
        let x : CutSt := ⟨l, out, tag, head, c.maxLen (48 + l) + 16, c.maxLen (48 + out) + 16, 0, got.1, c.rxStamp (48 + l),
          c.txStamp (48 + out), c.time.stepSum⟩
        let d := { got.2 with cuts := c.cuts ++ [x] }
        let ptp := (findPtp true (c.hw 0x4B08 (48 + out)) (x.leaving head)).isSome && c.hwBit 0x4B08 (48 + out) 0
        (t.chan ch).cuts = c.cuts ++ [x] ∧ (ptp = false → t.chan ch = d.emptied) ∧
        (ptp = true → ∃ e, t.chan ch = (d.queueStamp (48 + out) e).emptied ∧ e % 2 ^ 96 = x.tx % 2 ^ 96))) ∧
  (∀ (s : State) (ch : Ch) (l : Nat) (tail : List Byte) (err : LineErr) (fec : Nat), s.present ch = true → 1 ≤ l → l ≤ 4 →
    let c := s.chan ch
    let cx := s.ctx ch
    let stomped := fun (y : List Byte) => y ++ (fcsBytes y).map (fun z => ~~~z)
    (∀ err, (c.cuts.all fun x => x.ingress != l) = true → answersOn (.cutThroughEnd ch l tail err fec) ch s fun t =>
      t.chan ch = c.emptied) ∧
    (∀ x, (c.cuts.find? fun x => x.ingress == l) = some x → 1 ≤ x.egress → x.egress ≤ 4 →
      let b := x.head ++ tail
      let whole := b.take (min x.rxMax x.txMax)
      let body := (c.timePtp (48 + x.egress) ((whole.take (whole.length - 4)).take 12 ++ tagBytes x.tag ++
        (whole.take (whole.length - 4)).drop 28) x.tx x.rx x.sum).1
      let bad := (fabricRx x.rxMax b err).code ≠ 0 ∨ whole.length < b.length ∨ x.cells.any c.damage.cells.contains = true
      (x.fate = 0 → answersOn (.cutThroughEnd ch l tail (some err) fec) ch s fun t => counts c (t.chan ch) 0x4275 x.egress 1 ∧
        (bad → (∃ more, putsOut s t (c.box.out ++ Sent.frame ch (48 + x.egress) (stomped body) false :: more)) ∧
          counts c (t.chan ch) 0x4276 x.egress 1) ∧
        (¬bad → ∃ more, putsOut s t (c.box.out ++ Sent.frame ch (48 + x.egress) (body ++ fcsBytes body) true :: more))) ∧
      (x.fate ≠ 0 → answersOn (.cutThroughEnd ch l tail (some err) fec) ch s fun t =>
        t.chan ch = (({ c with cuts := c.cuts.filter fun y => y.ingress != l } : Channel).receiveFabric cx l x.rxMax b err fec
          (some ⟨48 + x.egress, x.fate, x.leaving x.head, x⟩)).emptied) ∧
      (answersOn (.cutThroughEnd ch l tail none fec) ch s fun t =>
        t.chan ch = ((c.modCut l fun y => { y with head := b }).fabricDown' cx l).emptied ∧
        (x.fate = 0 → c.linkUp (48 + l) = true → (∀ y, y ∈ c.cuts → y.ingress = l → y.egress ≠ l) →
          Sent.frame ch (48 + x.egress) (stomped (c.timePtp (48 + x.egress) (b.take 12 ++ tagBytes x.tag ++ b.drop 28) x.tx x.rx x.sum).1) false ∈ t.sent))))

/-! ## The pipeline -/

/-- The parser takes the profile of the lowest matching selector, drops on a parity error of the profile, an invalid profile or a missing field (log entries 93 and 94), and passes a frame on to the lookups. A lookup forms the keys of a frame from the profile's objects as the parser read them and gives it its VID, FID, VRF, destination and subscriber, and on a first pass handles its source, of which nothing is learned where the frame only passes through; a learn request is charged and queued unless an allowance is at 0 or the queue is full. A route round probes the eight longest lengths left, longest first, for what the search was begun with; a parity error drops the frame. A pass that a lookup or route drops or traps has made its search too. A search takes the lowest matching entry, counts it, and drops the frame with 0x3E when its check fails. The policer runs both meters by R398 and drops by colour; its colour never improves. Admission decides the copy that has waited longest and puts it at the tail of its queue or drops it with the code of the first limit it meets. -/
def Obligations.PipelineStages : Prop :=
  (∀ (s : State) (ch : Ch) (fid : Nat) (b : Bool), pipeRuns s ch → (s.chan ch).frame fid = none →
    ∀ i, i ∈ [Instr.parseFrame ch fid, .lookup ch fid, .routeRound ch fid, .associativeSearch ch fid b, .policeFrame ch fid] →
      answersOn i ch s fun t => t.chan ch = (s.chan ch).emptied) ∧
  (∀ (s : State) (ch : Ch) (fid : Nat) (f : Frame), pipeRuns s ch → (s.chan ch).frame fid = some f →
    let c := s.chan ch
    let cx := s.ctx ch
    let p := c.profileOf f
    let ctl := c.reg 0x4303 p
    let before := c.frames.takeWhile fun g => g.id != fid
    let missing := ∃ k, k < 24 ∧ bitOf ctl k = true ∧ fieldIncomplete (c.fieldDesc p k) f.bytes.length = true
    let turn := f.pos = .parse ∧ (before.any fun g => g.pipe == f.pipe && g.pos == .parse) = false
    let bad := c.profileBad p 0x4303 = true ∨
      (bitOf ctl 24 = true ∧ ∃ i, i ∈ [0x4304, 0x4305, 0x4306, 0x4307] ∧ c.profileBad p i = true)
    (¬turn → answersOn (.parseFrame ch fid) ch s fun t => t.chan ch = c.emptied) ∧
    (turn → bad → answersOn (.parseFrame ch fid) ch s fun t =>
      t.chan ch = (((c.inc 0x4322 3).flag 0x432F 1 16).dropFrame cx fid 0x22 false).emptied) ∧
    (turn → ¬bad → bitOf ctl 24 = false → answersOn (.parseFrame ch fid) ch s fun t =>
      t.chan ch = (((c.inc 0x4322 2).flag 0x432F 1 1).dropFrame cx fid 0x21 false).emptied) ∧
    (turn → ¬bad → bitOf ctl 24 = true → missing → answersOn (.parseFrame ch fid) ch s fun t =>
      t.chan ch = ((((c.inc 0x4320 p).inc 0x4322 4).flag 0x432F 1 4).dropFrame cx fid 0x23 false).emptied) ∧
    (turn → ¬bad → bitOf ctl 24 = true → ¬missing → answersOn (.parseFrame ch fid) ch s fun t =>
      (t.chan ch).frame fid = some { f with
        pos := .look, look := { Look.empty with
          profile := p, fields := c.wget 0x4304 (p - 1), kmap := c.reg 0x4305 p, assoc := c.reg 0x4306 p, hash := c.reg 0x4307 p }
        window := windowOf f.bytes, edits := [] } ∧
      counts c (t.chan ch) 0x4320 p 1 ∧ keepsRegs c (t.chan ch) [(0x4320, p)])) ∧
  (∀ (c : Channel) (f : Frame),
    let w := windowOf f.bytes
    let pc := c.reg 0x4301 f.port
    let m := fun (i : Nat) =>
      let e := c.reg 0x4302 i
      bitOf e 57 = true ∧ bitOf e (bits pc 3 0) = true ∧ (bitOf e 32 = true ∨ bits e 31 16 = field w 12 2) ∧
        (bitOf e 49 = true ∨ bits e 48 33 = field w 16 2)
    (∀ i, 1 ≤ i → i ≤ 64 → m i → (∀ j, 1 ≤ j → j < i → ¬m j) → c.profileOf f = bits (c.reg 0x4302 i) 56 50) ∧
    ((∀ i, 1 ≤ i → i ≤ 64 → ¬m i) → c.profileOf f = bits pc 14 8)) ∧
  (∀ (s : State) (ch : Ch) (fid : Nat) (f : Frame), pipeRuns s ch → (s.chan ch).frame fid = some f →
    let c := s.chan ch
    let km := f.look.kmap
    let pb := c.reg 0x4404 f.inPort
    let ov := (f.slotVid (bits km 14 10)).getD 0
    let iv := (f.slotVid (bits km 19 15)).getD 0
    let vid := if ov = 0 then bits pb 11 0 else ov
    let no := bits (c.wget 0x4403 vid) 11 0
    let sk := f.inPort * 2 ^ 24 + ov * 2 ^ 12 + iv
    let whole := fun (t : Hashed) (k : Nat) => ∀ a ∈ candidates t k, slotGood t (c.slot t a) = true
    let hit := (c.findKey .sub sk).map fun a => bits (c.slot .sub a) 14 0
    let da := f.slotBytes (bits km 4 0)
    let dst := da.bind fun b => (c.findKey .bridge (no * 2 ^ 48 + beNat b % 2 ^ 48)).map (c.slot .bridge)
    let look := { f.look with
      vid := vid, fid := no, vrf := bits (c.wget 0x4501 no) 7 0, probed := true, dst := dst, subHit := hit.isSome
      sub := hit.getD (bits pb 26 12), routed := 24 ≤ bits km 24 20 || bits km 26 25 == 0 }
    let d := (if hit = none then c.inc 0x4432 1 else c)
    let d := (if da ≠ none ∧ dst = none then d.inc 0x4430 1 else d).modFrame fid fun f => { f with look := look }
    (f.pos ≠ .look ∨ f.look.probed = true → answersOn (.lookup ch fid) ch s fun t => t.chan ch = c.emptied) ∧
    let cx := s.ctx ch
    let sa := f.slotBytes (bits km 9 5)
    let asks := f.pass = 1 ∧ f.inPort ≠ 53 ∧ f.inPort ≠ 54 ∧ sa ≠ none
    let lost := hit = none ∧ bitOf pb 30 = true
    let goes := fun (e : Channel) => answersOn (.lookup ch fid) ch s fun t => t.chan ch = (e.searchLeft c fid).emptied
    let noted := fun (e : Channel) (src : Option Nat) (copy : Bool) => e.modFrame fid fun f => { f with
      look := { look with src := src, copyHost := copy } }
    (f.pos = .look → f.look.probed = false → whole .sub sk → (∀ b, da = some b → whole .bridge (no * 2 ^ 48 + beNat b % 2 ^ 48)) →
      (¬asks → lost → goes (d.dropFrame cx fid 0x31 false)) ∧
      (¬asks → ¬lost → answersOn (.lookup ch fid) ch s fun t =>
        t.chan ch = d.emptied ∧ (t.chan ch).frame fid = some { f with look := look }) ∧
      (∀ b, asks → sa = some b → whole .bridge (no * 2 ^ 48 + beNat b % 2 ^ 48) →
        let at_ := c.findKey .bridge (no * 2 ^ 48 + beNat b % 2 ^ 48)
        let al := d.sourceAlone cx f no b
        let r := d.sourceLookup cx f no look.sub b
        let e := noted r.2.2.2 r.2.2.1 r.2.1
        (lost → goes ((noted al.2 al.1 f.look.copyHost).dropFrame cx fid 0x31 false)) ∧
        (¬lost → f.through = true → goes (noted al.2 al.1 f.look.copyHost) ∧ al.1 = at_.map (c.slot .bridge) ∧
          al.2.bridge = d.bridge) ∧
        (f.through = false → ¬lost → (r.1 = .on → goes e) ∧ (∀ code, r.1 = .drop code → goes (e.dropFrame cx fid code false)) ∧
          (r.1 = .trap → goes (e.modFrame fid fun f => { f with pos := .done, act := 4 * 2 ^ 24 :: List.replicate 11 0 })))))) ∧
  (∀ (c : Channel) (cx : Ctx) (p : Nat) (r : LearnReq),
    let a := c.ask cx p r
    let pending := (c.bridge.learns.any fun q => q.key == r.key) = true
    let none_ := r.charges.find? fun w => (c.allowance w).2.2 == 0
    (cx.holder = false ∨ pending → a = (.on, c)) ∧
    (cx.holder = true → ¬pending → none_ = none → 4096 ≤ c.bridge.learns.length →
      a.1 = .on ∧ a.2.bridge = c.bridge ∧ counts c a.2 0x4436 1 1 ∧ flagged c a.2 0x4402 0 4 ∧
      keepsRegs c a.2 [(0x4436, 1), (0x4402, 0)]) ∧
    (cx.holder = true → ¬pending → none_ = none → c.bridge.learns.length < 4096 →
      a.1 = .on ∧ a.2.bridge.learns = c.bridge.learns ++ [r]) ∧
    (∀ w, cx.holder = true → ¬pending → none_ = some w → a.2.bridge = c.bridge ∧
      a.1 = if r.remote then .on else
        match c.limitAction p with
        | 1 => .drop 0x3B
        | 2 => .trap
        | _ => .on)) ∧
  (∀ (s : State) (ch : Ch) (fid : Nat) (f : Frame), pipeRuns s ch → (s.chan ch).frame fid = some f →
    let c := s.chan ch
    let first := f.look.todo = none
    let v6 := if first then bits f.look.kmap 26 25 == 2 else f.look.v6
    let fam := if v6 then Hashed.v6 else Hashed.v4
    let n := if v6 then 2 else 1
    let addr := if first then beNat ((f.slotBytes (bits f.look.kmap 24 20)).getD []) else f.look.addr
    let region := if first then (c.vrfGroup v6 f.look.vrf, regionOf v6 addr) else f.look.region
    let key := fun (l : Nat) => routeKey f.look.vrf l (maskTo v6 l addr)
    let todo := f.look.todo.getD (c.lengthsFor v6 f.look.vrf addr)
    let round := todo.take 8
    let counted := if first then c.inc 0x4520 n else c.inc 0x4523 n
    let slow := counted.inc 0x4522 n
    let counted := if f.look.rounds ≠ 1 then counted
      else (if c.bit 0x451F 1 0 then slow
        else slow.put 0x4500 2 (v6.toNat * 2 ^ 31 + region.1 * 2 ^ 20 + region.2)).flag 0x451F 1 1
    let on := fun (d : Channel) => d.modFrame fid fun f => { f with look := { f.look with
      todo := some (todo.drop 8), rounds := f.look.rounds + 1, v6 := v6, addr := addr, region := region } }
    let d := on counted
    let slots := round.flatMap fun l => candidates fam (key l)
    let whole := ∀ a ∈ slots, slotGood fam (c.slot fam a) = true
    let turn := f.pos = .look ∧ f.look.probed = true ∧ f.look.routed = false ∧ ¬(first ∧ c.roundWaits f = true)
    (¬turn → answersOn (.routeRound ch fid) ch s fun t => t.chan ch = c.emptied) ∧
    (turn → ¬whole → answersOn (.routeRound ch fid) ch s fun t =>
      t.chan ch = (((on (counted.checkSlots fam slots)).dropFrame (s.ctx ch) fid 0x33 false).searchLeft c fid).emptied) ∧
    (turn → whole →
      ((∀ l ∈ round, c.findKey fam (key l) = none) → todo.drop 8 ≠ [] →
        answersOn (.routeRound ch fid) ch s fun t => t.chan ch = d.emptied) ∧
      ((∀ l ∈ round, c.findKey fam (key l) = none) → todo.drop 8 = [] → answersOn (.routeRound ch fid) ch s fun t =>
        t.chan ch = ((d.inc 0x4521 n).modFrame fid fun f => { f with look := { f.look with routed := true } }).emptied) ∧
      (∀ pre l post a, round = pre ++ l :: post → (∀ k ∈ pre, c.findKey fam (key k) = none) → c.findKey fam (key l) = some a →
        answersOn (.routeRound ch fid) ch s fun t =>
          t.chan ch = ((d.routeFound (s.ctx ch) fid (bits (c.slot fam a) 215 208) (c.slot fam a % 2 ^ 64)).searchLeft c fid).emptied))) ∧
  (∀ (c : Channel) (v6 : Bool) (vrf addr : Nat),
    let l := c.lengthsFor v6 vrf addr
    let at_ := filterAt v6 (c.vrfGroup v6 vrf) (regionOf v6 addr)
    l.Pairwise (· > ·) ∧ ∀ n, n ∈ l ↔ n ≤ (if v6 then 128 else 32) ∧ bitOf (c.wget at_.1 at_.2) n = true) ∧
  (∀ (s : State) (ch : Ch) (fid : Nat) (waited : Bool) (f : Frame), pipeRuns s ch → (s.chan ch).frame fid = some f →
    let c := s.chan ch
    let cfg := c.reg 0x4601 f.look.profile
    let before := c.frames.takeWhile fun g => g.id != fid
    let turn := f.pos = .look ∧ f.look.probed = true ∧ f.look.searched = false ∧ bitOf cfg 8 = true ∧
      (before.any fun g => g.pipe == f.pipe && g.pos == .look && !g.look.searched && c.bit 0x4601 g.look.profile 8) = false
    let gm := c.reg 0x4602 (bits cfg 3 0 + 1)
    let k := f.searchKey
    let fits := fun (i : Nat) =>
      let e := c.wget 0x4610 i
      bitOf e 127 = true ∧ (k ^^^ bits e 767 448) &&& (bits e 447 128 &&& gm) = 0
    let d := if waited then ((c.inc 0x4630 1).inc 0x4633 1).flag 0x461F 1 4 else c.inc 0x4630 1
    (¬turn → answersOn (.associativeSearch ch fid waited) ch s fun t => t.chan ch = c.emptied) ∧
    (turn → tabWf winDflt c.win = true →
      ((∀ i, i < 32768 → ¬fits i) → (∀ i, 32768 ≤ i → c.wget 0x4610 i = 0) → answersOn (.associativeSearch ch fid waited) ch s fun t =>
        t.chan ch = (d.modFrame fid fun f => { f with
          look := { f.look with searchOn := true, searched := true, hit := none, multi := false } }).emptied) ∧
      (∀ i, i < 32768 → fits i → (∀ j, j < i → ¬fits j) → searchGood (c.wget 0x4610 i) = false →
        answersOn (.associativeSearch ch fid waited) ch s fun t =>
          t.chan ch = ((d.invalidateEntry i).dropFrame (s.ctx ch) fid 0x3E false).emptied) ∧
      (∀ i, i < 32768 → fits i → (∀ j, j < i → ¬fits j) → searchGood (c.wget 0x4610 i) = true →
        answersOn (.associativeSearch ch fid waited) ch s fun t => ∃ multi,
          ((∃ j, i < j ∧ j < 32768 ∧ fits j) → multi = true) ∧ ((∀ j, i < j → ¬fits j) → multi = false) ∧ counts c (t.chan ch) 0x4630 1 1 ∧ counts c (t.chan ch) 0x4631 1 1 ∧
          (t.chan ch).wget 0x4611 i = (c.wget 0x4611 i + 1) % 2 ^ 64 ∧
          (t.chan ch).frame fid = some { f with look := { f.look with
            searchOn := true, searched := true, multi := multi
            hit := some (i, setBits (setBit (c.wget 0x4610 i % 2 ^ 128) 127 false) 123 112 0) } }))) ∧
  (∀ (s : State) (ch : Ch) (fid : Nat) (f : Frame), pipeRuns s ch → (s.chan ch).frame fid = some f →
    let c := s.chan ch
    let cx := s.ctx ch
    let goes := fun (d : Channel) => answersOn (.policeFrame ch fid) ch s fun t => t.chan ch = d.emptied
    (f.pos ≠ .police → goes c) ∧
    (∀ code d, f.pos = .police → c.runMeter f 0 (f.field 4) = (.inl code, d) → goes (d.dropFrame cx fid code false)) ∧
    (∀ col d code e, f.pos = .police → c.runMeter f 0 (f.field 4) = (.inr col, d) → d.runMeter f 1 col = (.inl code, e) →
      goes (e.dropFrame cx fid code false)) ∧
    (∀ col d col' e, f.pos = .police → c.runMeter f 0 (f.field 4) = (.inr col, d) → d.runMeter f 1 col = (.inr col', e) →
      goes ((e.modFrame fid fun f => { f with colour := col' }).spread cx fid))) ∧
  (∀ (c : Channel) (f : Frame) (j col : Nat), j < 2 →
    let m := bits (f.field (2 + j)) 18 0
    let cfg := c.meterCfg m
    let lv := c.wget 0x4A11 m
    let b := f.bytes.length * 31250
    let tc := bits lv 127 64
    let tx := bits lv 63 0
    let x := if bitOf cfg 125 then col else 0
    let mode := bits cfg 127 126
    let r := c.runMeter f j col
    let ends := fun (got tc' tx' : Nat) => r.2.wget 0x4A11 m = tc' * 2 ^ 64 + tx' ∧
      r.1 = if got = 2 ∧ bitOf cfg 124 then .inl (0x60 + j) else if got = 1 ∧ bitOf cfg 123 then .inl (0x62 + j) else .inr (max col got)
    (bitOf (f.field (2 + j)) 19 = false ∨ mode = 0 → r = (.inr col, c)) ∧
    (bitOf (f.field (2 + j)) 19 = true → mode = 1 → (x = 0 → b ≤ tc → ends 0 (tc - b) tx) ∧
      (x = 0 → tc < b → b ≤ tx → ends 1 tc (tx - b)) ∧ (x = 1 → b ≤ tx → ends 1 tc (tx - b)) ∧ (x ≤ 1 → tc < b → tx < b → ends 2 tc tx) ∧
      (x = 2 → ends 2 tc tx)) ∧
    (bitOf (f.field (2 + j)) 19 = true → 2 ≤ mode → (x = 2 ∨ tx < b → ends 2 tc tx) ∧
      (x ≠ 2 → b ≤ tx → x = 1 ∨ tc < b → ends 1 tc (tx - b)) ∧ (x = 0 → b ≤ tx → b ≤ tc → ends 0 (tc - b) (tx - b)))) ∧
  (∀ (s : State) (ch : Ch), pipeRuns s ch →
    let c := s.chan ch
    let cx := s.ctx ch
    (c.admitQ = [] → answersOn (.admitCopy ch) ch s fun t => t.chan ch = c.emptied) ∧
    (∀ r rest f x, c.admitQ = r :: rest → c.copyOf r = some (f, x) →
      let y := { x with sub := tierOf (bits (c.wget 0x4903 (x.q / 8)) 62 56) == x.tier }
      let d := { c with admitQ := rest }.modCopy r fun _ => y
      let goes := fun (e : Channel) => answersOn (.admitCopy ch) ch s fun t => t.chan ch = e.emptied
      let size := bits (d.poolCfg (d.chargePool f y)) 255 224
      let lim := d.limits cx f y
      ((c.tier x.tier).down = true → goes (((d.inc 0x4922 x.tier).flag 0x490F 1 2).dropCopy cx r 0x81)) ∧
      ((c.tier x.tier).down = false → size = 0 → goes (d.refuseCopy cx r f y 0x70)) ∧
      (∀ code, (c.tier x.tier).down = false → size ≠ 0 → lim.1 = some code → goes (lim.2.refuseCopy cx r f y code)) ∧
      ((c.tier x.tier).down = false → size ≠ 0 → lim.1 = none → f.charged = true → goes (lim.2.enqueue cx r f y)) ∧
      (∀ code, (c.tier x.tier).down = false → size ≠ 0 → lim.1 = none → f.charged = false → lim.2.charge cx f y = .inl code →
        goes (lim.2.refuseCopy cx r f y code)) ∧
      (∀ e, (c.tier x.tier).down = false → size ≠ 0 → lim.1 = none → f.charged = false → lim.2.charge cx f y = .inr e →
        goes (e.enqueue cx r f y))))

/-! ## Admission, copies, sources and turns -/

/-- A copy within its queue's minimum meets no limit; another is refused with 0x74, 0x75 or 0x73 by the limits of its class, queue and port in this order, a PUSH-OUT port evicting from the queue of lower rank with the most unselected cells (which queues: log entry 92), and RED drops it with 0x76 to 0x78 by the average of its queue, the profile of its colour and the next value of the generator (whose form is log entry 33). The three lengths follow an admitted copy and the average follows the length of its queue. The first admitted copy splits the charge of its frame between the minimum of its queue, that of its port and shared use, unless that would pass HARD (0x79) or SIZE (0x7A), and pool 15 gives the frame's cells up. The level of a pool rises where shared use reaches WARNi and falls below WARNi - HYST, each rise setting its event, as HARD does. A port asserts PAUSE or the PFC priorities by the levels of the pools that it has a share in, and sends what is newly asserted with its quanta and what is released with quanta 0; that the levels alone decide is log entry 133. -/
def Obligations.AdmissionAndLevels : Prop :=
  (∀ (c : Channel) (cx : Ctx) (f : Frame) (x : Copy),
    let a := c.classCfg x.tier (x.q % 8)
    let n := f.cellCount
    let q := c.queue x.queue
    let b := c.hw 0x4811 x.tier
    let l := c.limits cx f x
    let past := bits a 63 48 < q.cells + n
    let inClass := (c.tier x.tier).cells.getD (x.q % 8) 0 + n ≤ bits a 127 96
    let inQueue := q.cells + n ≤ bits a 95 64
    let inPort := (c.tier x.tier).total + n ≤ bits b 63 32
    (¬past → l = (none, c)) ∧ (past → ¬inClass → l = (some 0x74, c)) ∧ (past → inClass → ¬inQueue → l = (some 0x75, c)) ∧
    (past → inClass → inQueue → ¬inPort → bits b 1 0 ≠ 1 ∨ c.victim x.tier (bits a 26 24) = none → l = (some 0x73, c)) ∧
    (∀ v r, past → inClass → inQueue → ¬inPort → bits b 1 0 = 1 → c.victim x.tier (bits a 26 24) = some v →
      (c.queue v.1).items.getLast? = some r → l.1 ≠ some 0x73) ∧
    (past → inClass → inQueue → inPort → bitOf a 31 = false → l = (none, c)) ∧
    (past → inClass → inQueue → inPort → bitOf a 31 = true →
      let p := c.redCfg x.tier (x.q % 8)
      let mn := bits p (255 - 64 * f.colour) (224 - 64 * f.colour)
      let mx := bits p (223 - 64 * f.colour) (192 - 64 * f.colour)
      let mp := bits p (63 - 8 * f.colour) (56 - 8 * f.colour)
      let y := (q.avg / 65536).toNat
      l.2 = { c with lfsr := lfsrNext c.lfsr } ∧ (mx = 0 ∨ y < mn → l.1 = none) ∧
      (0 < mx → mn ≤ y → mx ≤ y → l.1 = some (0x76 + f.colour)) ∧
      (mn ≤ y → y < mx → l.1 = if lfsrNext c.lfsr < mp * (y - mn) * 256 / (mx - mn) then some (0x76 + f.colour) else none))) ∧
  (∀ (c : Channel) (e rank : Nat) (v : Nat × Nat), c.victim e rank = some v →
    let can := fun (k : Nat × QueueSt) => ∃ r f x, k.2.items.head? = some r ∧ c.copyOf r = some (f, x) ∧ x.tier = e ∧
      bits (c.classCfg e (x.q % 8)) 26 24 < rank ∧ bits (c.classCfg e (x.q % 8)) 63 48 < c.unselected k.2 ∧
      bits (c.classCfg e (x.q % 8)) 63 48 + ((k.2.items.getLast?.bind c.copyOf).map fun z => z.1.cellCount).getD 0 ≤ k.2.cells
    (∃ k, k ∈ c.queues ∧ can k ∧ v = (k.1, c.unselected k.2)) ∧
    ∀ k, k ∈ c.queues → can k → c.unselected k.2 ≤ v.2) ∧
  (∀ (c : Channel) (x : Copy) (n : Nat) (grow : Bool), x.q % 8 < (c.tier x.tier).cells.length →
    let d := c.lengths x n grow
    let was := (c.queue x.queue).cells
    let now := if grow then was + n else was - n
    let len := (c.tier x.tier).cells.getD (x.q % 8) 0
    let w := bits (c.redCfg x.tier (x.q % 8)) 3 0
    let avg := (c.queue x.queue).avg
    d.queue x.queue = { c.queue x.queue with cells := now, avg := avg + (((now * 65536 : Nat) : Int) - avg) / ((2 ^ w : Nat) : Int) } ∧
    (d.tier x.tier).cells.getD (x.q % 8) 0 = (if grow then len + n else len - n) ∧
    (∀ k, k < 8 → k ≠ x.q % 8 → (d.tier x.tier).cells.getD k 0 = (c.tier x.tier).cells.getD k 0) ∧
    (∀ k, k ≠ x.queue → d.queue k = c.queue k) ∧ (∀ e, e ≠ x.tier → d.tier e = c.tier e) ∧ d.pools = c.pools) ∧
  (∀ (c : Channel) (cx : Ctx) (f : Frame) (x : Copy),
    let a := c.classCfg x.tier (x.q % 8)
    let k := c.chargePool f x
    let p := c.pool k
    let n := f.cellCount
    let held := fun (t : Store) => tabGet (fun _ => 0) t f.inPort
    let rq := min n (bits a 63 48 - (c.queue x.queue).cells)
    let rp := min (n - rq) (bits (c.hw 0x4811 f.inPort) 31 8 - held p.portReserved)
    let use := n - rq - rp
    let hard := bits (c.poolCfg k) 223 192
    let size := bits (c.poolCfg k) 255 224
    k < 15 → c.frame f.id = some f → f.pool = 15 → f.cells.length = n → (∀ i, i ∈ f.cells → c.cellRec i < 256) → p.waiting = [] →
    (∀ h, h ∈ c.requesters → h.for_ ≠ .pass f.id) →
    (hard < p.shared + use → c.charge cx f x = .inl 0x79) ∧
    (p.shared + use ≤ hard → size < p.reserved + p.shared + n → c.charge cx f x = .inl 0x7A) ∧
    (p.shared + use ≤ hard → p.reserved + p.shared + n ≤ size → ∃ d, c.charge cx f x = .inr d ∧
      d.frame f.id = some { f with pool := k, rq := rq, rp := rp, rs := use, charged := true } ∧
      (d.pool k).shared = p.shared + use ∧ (d.pool k).reserved = p.reserved + rq + rp ∧
      held (d.pool k).portShared = held p.portShared + use ∧ held (d.pool k).portReserved = held p.portReserved + rp ∧
      (d.pool 15).shared = (c.pool 15).shared - n ∧ ∀ j, j ≠ k → j ≠ 15 → d.pool j = c.pool j)) ∧
  (∀ (c : Channel) (cx : Ctx) (k : Nat) (p : PoolSt), k < 15 →
    let cfg := c.poolCfg k
    let old := c.pool k
    let d := c.account cx k p
    let warn := fun (i : Nat) => bits cfg (95 + 32 * i) (64 + 32 * i)
    let hyst := bits cfg 95 64
    bits cfg 255 224 ≠ 0 → old.level ≤ 3 → warn 1 ≤ warn 2 → warn 2 ≤ warn 3 →
    d.pool k = { p with level := (d.pool k).level, atHard := Nat.ble (bits cfg 223 192) p.shared } ∧ (d.pool k).level ≤ 3 ∧
    (∀ i, 1 ≤ i → i ≤ 3 →
      (warn i ≤ p.shared → i ≤ (d.pool k).level) ∧ (p.shared < warn i - hyst → (d.pool k).level < i) ∧
      (p.shared < warn i → warn i - hyst ≤ p.shared → (i ≤ (d.pool k).level ↔ i ≤ old.level)) ∧
      (bitOf (d.reg 0x4804 (k + 1)) (i - 1) = true ↔ bitOf (c.reg 0x4804 (k + 1)) (i - 1) = true ∨ (old.level < i ∧ warn i ≤ p.shared))) ∧
    (bitOf (d.reg 0x4804 (k + 1)) 3 = true ↔
      bitOf (c.reg 0x4804 (k + 1)) 3 = true ∨ (old.atHard = false ∧ bits cfg 223 192 ≤ p.shared))) ∧
  (∀ (c : Channel) (cx : Ctx) (p : Nat), 1 ≤ p → p ≤ 52 →
    let d := c.backPressure cx p
    let was := c.reg 0x4805 p
    let now := d.reg 0x4805 p
    let shares := fun (k : Nat) => k < 15 ∧ tabGet (fun _ => 0) (c.pool k).portShared p ≠ 0 ∧ bits (c.poolCfg k) 1 0 = 0
    let quanta := bits (c.flowCtl p) 15 0
    let old := bits was 15 8
    let gone := old - (old &&& bits now 15 8)
    let out := (if bits now 15 8 ||| old = old then [] else [Sent.pause cx.ch p true (bits now 15 8) quanta]) ++
      (if gone = 0 then [] else [Sent.pause cx.ch p true gone 0]) ++
      (if bitOf now 0 && !bitOf was 0 then [Sent.pause cx.ch p false 0 quanta] else []) ++
      (if !bitOf now 0 && bitOf was 0 then [Sent.pause cx.ch p false 0 0] else [])
    (bitOf now 0 = true ↔ ∃ k, shares k ∧ c.flowMode p = 1 ∧ bits (c.poolCfg k) 5 4 ≠ 0 ∧ bits (c.poolCfg k) 5 4 ≤ (c.pool k).level) ∧
    (∀ i, i < 8 → (bitOf now (8 + i) = true ↔ ∃ k, shares k ∧ c.flowMode p = 2 ∧ bitOf (c.flowCtl p) (16 + i) = true ∧
      ∃ l, 1 ≤ l ∧ l ≤ 3 ∧ l ≤ (c.pool k).level ∧ bitOf (c.poolCfg k) (8 + 8 * l + i) = true)) ∧
    (c.linkUp p = false → d.box.out = c.box.out ∧ d.ports = c.ports) ∧
    (c.linkUp p = true → c.inProgress p = false → d.box.out = c.box.out ++ out) ∧
    (c.linkUp p = true → c.inProgress p = true → d.box.out = c.box.out ∧
      d.port p = { c.port p with due := (c.port p).due ++ out.map fun y => (y, false) }))

/-- A frame goes to the port, the module, the members of its group and the fabric, port 53 or port 54 that its record names, with its QUEUE and launch time, the members in increasing port number, each but the port of its first pass, and ahead of the fabric copies, whose HOPS are those of a line or a ring; a group without a member or a direction drops it with 0x40, a module without a path with 0x3D. A tag holds its fields where R143 has them. A module that stands alone sends no group copies (log entry 112), a module under DOMAIN_CONFIG none either (log entry 81), and a frame that came over the fabric makes no fabric copies of a group (log entry 86). The direction and HOPS of a unicast frame are those of R158. A session takes a frame that qualifies by its source, passes its filter and completes its sample, once at every point but that of transmission; a capture that is not enabled takes and counts nothing. Its copy goes to the capture engine with the next record number, to a port or over the fabric with the session's queue; one of which no cells remain, or which R94 bars, is skipped and counted. -/
def Obligations.CopiesAndSessions : Prop :=
  (∀ (c : Channel) (cx : Ctx) (f : Frame), c.frame f.id = some f → f.nextNo + 90 ≤ 255 →
    let dest := f.field 0
    let q := f.field 1
    let port := bits dest 6 0
    let t := bits dest 26 24
    let la := f.field 9
    let launch := if bitOf (f.field 6) 2 then some (bits la 61 30 * 1000000000 + bits la 29 0) else none
    let shape := fun (x : Copy) => (x.kind, x.pos, x.tier, x.q, x.tag, x.launch)
    let makes := fun (l : List (Nat × Option Nat)) => ∃ d g, c.replicate cx f = .inr d ∧ d.frame f.id = some g ∧
      g.copies.map shape = f.copies.map shape ++ l.map (fun z => (.fwd, .arrived, z.1, q, z.2, launch)) ∧
      d.admitQ = c.admitQ ++ (List.range l.length).map fun i => (f.id, f.nextNo + i)
    let tag := fun (mc : Bool) (dst hops : Nat) => some (mkTag mc false cx f.inPort dst q f.colour f.pass hops)
    let m := bits dest 22 16
    let g := bits dest 15 0
    let local_ := (upFrom 1 80).filter fun p => bitOf (c.wget 0x4259 g) ((15 - p / 8) * 8 + p % 8) && p != f.inPort
    let dirs := c.wget 0x4257 g
    let n := bits (c.hw 0x4252 1) 22 16
    let s := cx.moduleId
    let ring := if bitOf dirs 0 = true ∧ bitOf dirs 1 = true then
        if (c.selected 49).isSome = (c.selected 51).isSome then [(49, (n - 1) / 2), (51, n / 2)]
        else if (c.selected 49).isSome then [(49, n - 1)] else [(51, n - 1)]
      else (if bitOf dirs 0 then [(49, n - 1)] else []) ++ (if bitOf dirs 1 then [(51, n - 1)] else [])
    let line := (if bitOf dirs 0 then [(49, s - 1)] else []) ++ (if bitOf dirs 1 then [(51, n - s)] else [])
    let away := if f.tag.isSome = true ∨ c.domainBad cx = true ∨ c.topology = 0 then [] else
      (if c.topology = 1 then line else ring).filter fun z => z.2 != 0
    (t = 1 → ¬(49 ≤ port ∧ port ≤ 52) → makes [(port, none)]) ∧
    (∀ w, t = 1 → 49 ≤ port → port ≤ 52 → f.tag = some w → 0 < bits w 51 46 → ∃ v, makes [(tierOf port, some v)] ∧
      bits v 51 46 = bits w 51 46 - 1 ∧ (f.colour < 4 → bits v 55 54 = f.colour) ∧ bitOf v 106 = false ∧
      bits v 105 56 = bits w 105 56 ∧ bits v 53 52 = bits w 53 52 ∧ bits v 111 107 = bits w 111 107) ∧
    (t = 2 → m = s → makes [(tierOf port, none)]) ∧
    (t = 2 → m ≠ s → f.field 11 = 0 → (c.way cx m = .none → c.replicate cx f = .inl 0x3D) ∧
      ∀ tier hops, c.way cx m = .to tier hops → makes [(tier, tag false (tagDest m port) hops)]) ∧
    (t = 3 → local_ = [] → f.transit = none → bitOf dirs 0 = false → bitOf dirs 1 = false → c.replicate cx f = .inl 0x40) ∧
    (t = 3 → local_ ≠ [] ∨ f.transit ≠ none ∨ bitOf dirs 0 = true ∨ bitOf dirs 1 = true →
      makes (local_.map (fun p => (p, none)) ++ away.map fun z => (z.1, tag true g z.2))) ∧
    (t = 4 → makes [(53, none)]) ∧ (t = 5 → makes [(54, none)])) ∧
  (∀ (mc relay : Bool) (cx : Ctx) (port dest q colour pass hops : Nat), 1 ≤ cx.moduleId → cx.moduleId ≤ 64 → port < 2 ^ 7 → dest < 2 ^ 16 →
    q < 2 ^ 18 → colour < 4 → pass < 4 → hops < 64 →
    let v := mkTag mc relay cx port dest q colour pass hops
    v < 2 ^ 112 ∧ bits v 111 108 = 1 ∧ bitOf v 107 = mc ∧ bitOf v 106 = false ∧ bitOf v 105 = false ∧ bitOf v 104 = relay ∧
    bits v 103 98 + 1 = cx.moduleId ∧ bits v 97 91 = port ∧ bits v 90 90 = cx.ch.num ∧ bits v 89 74 = dest ∧ bits v 73 56 = q ∧
    bits v 55 54 = colour ∧ bits v 53 52 = pass ∧ bits v 51 46 = hops ∧ bits v 45 0 = 0) ∧
  (∀ (c : Channel) (cx : Ctx) (d : Nat), c.domainBad cx = false → cx.moduleId ≤ c.modules → 1 ≤ cx.moduleId →
    let n := c.modules
    let s := cx.moduleId
    let r := (d + n - s) % n
    let up := fun (tier : Nat) => (c.selected tier).isSome = true
    (c.topology = 0 ∨ d < 1 ∨ n < d → c.way cx d = .none) ∧
    (c.topology ≠ 0 → 1 ≤ d → d ≤ n →
      (d = s → c.way cx d = .here) ∧
      (c.topology = 1 → s < d → c.way cx d = if (c.selected 51).isSome then .to 51 (d - s) else .none) ∧
      (c.topology = 1 → d < s → c.way cx d = if (c.selected 49).isSome then .to 49 (s - d) else .none) ∧
      (c.topology ≠ 1 → d ≠ s → r ≤ n - r → up 51 → c.way cx d = .to 51 r) ∧
      (c.topology ≠ 1 → d ≠ s → r ≤ n - r → ¬up 51 → up 49 → c.way cx d = .to 49 (n - r)) ∧
      (c.topology ≠ 1 → d ≠ s → n - r < r → up 49 → c.way cx d = .to 49 (n - r)) ∧
      (c.topology ≠ 1 → d ≠ s → n - r < r → ¬up 49 → up 51 → c.way cx d = .to 51 r) ∧
      (c.topology ≠ 1 → d ≠ s → ¬up 49 → ¬up 51 → c.way cx d = .none))) ∧
  (∀ (c : Channel) (f : Frame) (m : Moment) (s : Nat), f.inPort < 128 → m.drop < 256 → (∀ p, m.tx = some p → p < 128) →
    let src := bits (c.hw 0x4C10 (s + 1)) 63 60
    let inSet := fun (p : Nat) => bitOf (c.hw 0x4C11 (s + 1)) ((15 - p / 8) * 8 + p % 8) = true
    c.qualifies f m s = true ↔
      (src = 1 ∧ m.rx = true ∧ inSet f.inPort ∧ m.drop ≠ 0x0C ∧ m.drop ≠ 0x0D) ∨ (src = 2 ∧ ∃ p, m.tx = some p ∧ inSet p) ∨
      (src = 3 ∧ ∃ q, m.queue = some q ∧ bits (c.hw 0x4C13 (s + 1)) 49 32 ≤ q ∧ q ≤ bits (c.hw 0x4C13 (s + 1)) 17 0) ∨
      (src = 4 ∧ m.drop ≠ 0 ∧ m.tx = none ∧ bitOf (c.hw 0x4C12 (s + 1)) ((31 - m.drop / 8) * 8 + m.drop % 8) = true) ∨
      (src = 5 ∧ m.act = true ∧ bitOf (f.field 5) s = true)) ∧
  (∀ (c : Channel) (cx : Ctx) (fid s : Nat) (m : Moment) (f : Frame), s < 16 → c.frame fid = some f →
    (∀ k, k < 16 → k ≠ s → bits (c.hw 0x4C10 (k + 1)) 63 60 = 0) →
    let cfg := c.hw 0x4C10 (s + 1)
    let once := bits cfg 63 60 ≠ 2
    let capture := 1 ≤ bits cfg 58 56 ∧ bits cfg 58 56 ≤ 2
    let passes := c.qualifies f m s = true ∧ (bitOf cfg 59 = true → bitOf (f.field 5) s = true) ∧ bits cfg 23 0 ≠ 0 ∧
      (once → s ∉ f.taken) ∧ (capture → c.hwBit 0x4C00 1 0 = true)
    let n := tabGet (fun _ => 0) c.cap.samples s + 1
    let marked := if once then c.modFrame fid fun f => { f with taken := f.taken ++ [s] } else c
    let count := fun (k : Nat) => { marked with cap := { c.cap with samples := tabSet (fun _ => 0) c.cap.samples s k } }
    (¬passes → c.mirror cx fid m = c) ∧ (passes → n < bits cfg 23 0 → c.mirror cx fid m = count n) ∧
    (passes → bits cfg 23 0 ≤ n →
      c.mirror cx fid m = (count 0).sessionCopy cx f m s)) ∧
  (∀ (c : Channel) (cx : Ctx) (f : Frame) (m : Moment) (s : Nat), s < 16 → c.frame f.id = some f → f.nextNo < 255 →
    let cfg := c.hw 0x4C10 (s + 1)
    let dest := bits cfg 58 56
    let port := bits cfg 55 49
    let q := bits cfg 41 24
    let d := c.sessionCopy cx f m s
    let gone := f.cells = [] ∨ m.drop = 0x94 ∨ m.drop = 0x95 ∨ m.bytes = some []
    let barred := (m.drop ≠ 0 ∧ m.drop < 0x20) ∨ f.oversize = true
    let skipped := counts c d 0x4C54 (s + 1) 1 ∧ bitOf (d.reg 0x4C0F 1) 0 = true ∧ d.frames = c.frames ∧ d.admitQ = c.admitQ ∧ d.cap = c.cap
    let placed := fun (tier : Nat) (tag : Option Nat) => counts c d 0x4C53 (s + 1) 1 ∧ d.admitQ = c.admitQ ++ [(f.id, f.nextNo)] ∧
      ∃ g x, d.frame f.id = some g ∧ g.copies = f.copies ++ [x] ∧ x.kind = .mirror s ∧ x.no = f.nextNo ∧ x.pos = .arrived ∧
        x.tier = tier ∧ x.q = q ∧ x.tag = tag ∧ x.launch = none ∧ x.bytes = m.bytes
    (dest = 0 → d = c) ∧ (1 ≤ dest → dest ≤ 2 → cx.night ≠ .awake → d = c) ∧
    (1 ≤ dest → dest ≤ 2 → cx.night = .awake → gone ∨ c.capStopped = true → skipped) ∧
    (1 ≤ dest → dest ≤ 2 → cx.night = .awake → ¬gone → c.capStopped = false →
      counts c d 0x4C53 (s + 1) 1 ∧ d.cap.nextRec = (c.cap.nextRec + 1) % 2 ^ 32 ∧ d.reg 0x4C01 3 = (c.cap.nextRec + 1) % 2 ^ 32 ∧
      (c.cap.hold = true → d.cap.intake = c.cap.intake ∧ counts c d 0x4C52 3 1) ∧
      (c.cap.hold = false → 4096 ≤ c.cap.intake.length → d.cap.intake = c.cap.intake ∧ counts c d 0x4C52 1 1) ∧
      (c.cap.hold = false → c.cap.intake.length < 4096 →
        d.cap.intake = c.cap.intake ++ [(f.id, f.nextNo, c.cap.nextRec)] ∧
        ∃ g x, d.frame f.id = some g ∧ g.copies = f.copies ++ [x] ∧ x.kind = .mirror s ∧ x.owner = 0x81 ∧ x.pos = .intake)) ∧
    (3 ≤ dest → gone ∨ (barred ∧ (dest = 4 ∨ port ≠ 53)) → skipped) ∧
    (dest = 3 → ¬gone → (barred → port = 53) → ¬(49 ≤ port ∧ port ≤ 52) → placed (tierOf port) none) ∧
    (∀ tier hops, dest = 4 → ¬gone → ¬barred → c.way cx (bits cfg 48 42) = .to tier hops →
      placed tier (some (mkTag false false cx f.inPort (tagDest (bits cfg 48 42) port) q f.colour f.pass hops))))

/-- A source that is unknown is asked to be learned on a front port or over the fabric; on a multidrop port it is counted and UNKNOWN_ACTION learns, drops it with 0x3A, traps it, or learns it and sends a copy to the host path. A known source with the same destination refreshes the stamp of its entry; with another one it is dropped with 0x3C under MOVE_LOCK, left alone where the entry is static, and asked to move otherwise. A group resolves to the entry that the hash picks, or to its fallback, counted by its reason, where the group is empty, the entry invalid or a member down; an invalid fallback drops the frame with 0x38. A route hit is resolved by its kind, and its next hop drops the frame with 0x34 where it is invalid and 0x36 where its parity fails. A DRR node gains its quantum once a turn and sends while its deficit lasts, and the classes 3 to 7 of a node take turns by their weights, background classes last. A selection charges the shapers that apply, and a refill tops the buckets of a meter up to their bursts. -/
def Obligations.SourcesRoutesAndTurns : Prop :=
  (∀ (c : Channel) (cx : Ctx) (f : Frame) (fid sub : Nat) (sa : List Byte),
    let key := fid * 2 ^ 48 + beNat sa % 2 ^ 48
    let at_ := c.findKey .bridge key
    let r := c.sourceLookup cx f fid sub sa
    let req := fun (mv : Bool) => (⟨key, f.sourceDest, sub, mv, f.tag.isSome⟩ : LearnReq)
    let missed := c.inc 0x4431 1
    let k := f.inPort - 64
    let seen := (missed.inc 0x4221 k).flag 0x4206 k 2
    let act := bits (c.hw 0x4203 k) 1 0
    let lock := if f.inPort ≤ 48 then c.bit 0x4404 f.inPort 29 else decide (65 ≤ f.inPort) && c.hwBit 0x4203 k 7
    f.inPort < 128 → (∀ a, a ∈ candidates .bridge key → slotGood .bridge (c.slot .bridge a) = true) →
    (at_ = none → f.inPort < 65 → r = ((missed.ask cx f.inPort (req false)).1, false, none, (missed.ask cx f.inPort (req false)).2)) ∧
    (at_ = none → 65 ≤ f.inPort → (act = 1 → r = (.drop 0x3A, false, none, seen)) ∧ (act = 2 → r = (.trap, false, none, seen)) ∧
      (act = 0 ∨ act = 3 →
        let a := seen.ask cx f.inPort (req false)
        r = (a.1, decide (act = 3 ∧ a.1 = .on), none, a.2))) ∧
    (∀ a, at_ = some a →
      let e := c.slot .bridge a
      let same := bitOf e 43 = false ∧ bits e 13 0 = f.sourceDest
      (same → r = (.on, false, some e, c.refresh cx key e)) ∧
      (¬same → lock = true → r.1 = .drop 0x3C ∧ r.2.1 = false ∧ r.2.2.1 = some e ∧
        (65 ≤ f.inPort → r.2.2.2 = c.inc 0x4223 k) ∧ (f.inPort < 65 → r.2.2.2 = c)) ∧
      (¬same → lock = false → bitOf e 126 = true → r = (.on, false, some e, c)) ∧
      (¬same → lock = false → bitOf e 126 = false →
        r = (((c.refresh cx key e).ask cx f.inPort (req true)).1, false, some e, ((c.refresh cx key e).ask cx f.inPort (req true)).2)))) ∧
  (∀ (c : Channel) (cx : Ctx) (key : Nat) (e : Nat),
    let d := c.refresh cx key e
    (cx.holder = false ∨ bitOf e 126 = true ∨ bits e 59 44 = c.ageClock → d = c) ∧
    (cx.holder = true → bitOf e 126 = false → bits e 59 44 ≠ c.ageClock → ∀ a, a ∈ candidates .bridge key → c.ageClock < 65536 →
      slotValid .bridge (c.slot .bridge a) = true → slotKey .bridge (c.slot .bridge a) = key →
      slotGood .bridge (c.slot .bridge a) = true →
      bits (d.slot .bridge a) 59 44 = c.ageClock ∧ slotGood .bridge (d.slot .bridge a) = true ∧
      bits (d.slot .bridge a) 43 0 = bits (c.slot .bridge a) 43 0 ∧ slotKey .bridge (d.slot .bridge a) = key)) ∧
  (∀ (c : Channel) (cx : Ctx) (f : Frame) (g : Nat), g < 4096 →
    let d := c.wget 0x4311 g
    let size := bits d 44 32
    let i := bits d 15 0 + (crc32c (bits d 127 96) f.hashBytes % 65536) * size / 65536
    let e := c.wget 0x4310 i
    let kind := bits e 63 60
    let up := c.memberUp cx (bits e 6 0)
    let back := fun (reason : Nat) =>
      let x := c.wget 0x4310 (bits d 79 64)
      c.resolve cx f g = (if bits x 63 60 = 0 then .inl 0x38 else .inr x, c.inc 0x4323 reason)
    (∀ k, c.damage.objs.contains (winKey 0x4310 k) = false) →
    (size = 0 → back 1) ∧ (size ≠ 0 → kind = 0 → back 2) ∧
    (size ≠ 0 → kind = 2 → bitOf d 80 = true → up = false → back 3) ∧
    (size ≠ 0 → kind ≠ 0 → kind ≠ 2 ∨ bitOf d 80 = false ∨ up = true → c.resolve cx f g = (.inr e, c))) ∧
  (∀ (c : Channel) (cx : Ctx) (fid len data : Nat) (f : Frame), c.frame fid = some f →
    let d := c.modFrame fid fun f => { f with look := { f.look with route := some (len, data), routed := true } }
    let r := c.routeFound cx fid len data
    let kind := bits data 31 30
    let hop := fun (d r : Channel) (i : Nat) =>
      let e := d.wget 0x4506 i
      let good := bits e 123 120 = parityBits 120 32 e
      (bits e 127 124 = 0 → r = (d.inc 0x4525 1).dropFrame cx fid 0x34 false) ∧
      (bits e 127 124 ≠ 0 → ¬good → r = ((d.inc 0x4525 2).flag 0x451F 1 8).dropFrame cx fid 0x36 false) ∧
      (bits e 127 124 ≠ 0 → good → r = d.modFrame fid fun f => { f with look := { f.look with nextHop := e } })
    (kind = 0 → hop d r (bits data 15 0)) ∧ (2 ≤ kind → r = d) ∧
    (kind = 1 →
      let d := d.modFrame fid fun f => { f with look := { f.look with resolves := f.look.resolves + 1 } }
      (∀ code e, d.resolve cx f (bits data 15 0) = (.inl code, e) → r = (e.countIndirect code).dropFrame cx fid code false) ∧
      (∀ x e, d.resolve cx f (bits data 15 0) = (.inr x, e) →
        let e := e.modFrame fid fun f => { f with look := { f.look with indirect := x } }
        (bits x 63 60 ≠ 3 → r = e) ∧ (bits x 63 60 = 3 → hop e r (bits x 15 0))))) ∧
  (∀ (c : Channel) (e port fuel n : Nat) (rest : List Nat), (c.tier e).dlist = n :: rest →
    let ok := fun (m : Nat) => c.express e m = false ∧ c.nodeEligible e m port = true
    let turned := fun (d : Channel) => d.setTier e { c.tier e with dlist := rest ++ [n] }
    let st := c.node e n
    let st := if st.fresh then { st with deficit := st.deficit + c.quantum n e, fresh := false } else st
    let d := c.setNode e n st
    ((∀ m, m ∈ n :: rest → ¬ok m) → c.drr e port (fuel + 1) = (none, c)) ∧
    (¬ok n → (∃ m, m ∈ rest ∧ ok m) → c.drr e port (fuel + 1) = (turned c).drr e port fuel) ∧
    (∀ cls next, ok n → d.offer e n port = some (cls, next) →
      let len := d.headLen (nodeQueue e n cls)
      (len ≤ next.deficit → c.drr e port (fuel + 1) = (some (n, cls, { next with deficit := next.deficit - len }), d)) ∧
      (next.deficit < len → c.drr e port (fuel + 1) = (turned (d.setNode e n { st with fresh := true })).drr e port fuel))) ∧
  (∀ (c : Channel) (e n port : Nat),
    let st := c.node e n
    let ok := fun (k : Nat) => c.eligible (nodeQueue e n k) k port = true
    let w := c.weight e n
    let after := fun (k : Nat) => if k = 7 then 3 else k + 1
    let first := fun (p : Nat → Prop) (k : Nat) => ∃ i, i < 5 ∧ k = 3 + (st.ptr - 3 + i) % 5 ∧ p k ∧
      ∀ j, j < i → ¬p (3 + (st.ptr - 3 + j) % 5)
    let left := fun (k : Nat) => ok k ∧ 0 < w k ∧ st.sent.getD (k - 3) 0 < w k
    let heavy := fun (k : Nat) => ok k ∧ 0 < w k
    let none_ := fun (p : Nat → Prop) => ∀ k, 3 ≤ k → k ≤ 7 → ¬p k
    (∀ k, k ≤ 2 → ¬ok k) → 3 ≤ st.ptr →
    (∀ k, first left k → c.offer e n port = some (k, { st with
      sent := setAt st.sent (k - 3) (st.sent.getD (k - 3) 0 + 1), ptr := after k })) ∧
    (∀ k, none_ left → first heavy k → c.offer e n port = some (k, { st with sent := setAt [0, 0, 0, 0, 0] (k - 3) 1, ptr := after k })) ∧
    (∀ k, none_ heavy → first (fun j => ok j ∧ w j = 0) k → c.offer e n port = some (k, { st with ptr := after k })) ∧
    (none_ ok → c.offer e n port = none)) ∧
  (∀ (c : Channel) (x : Copy) (port len : Nat), port ≤ 54 →
    let d := c.chargeShapers x port len
    let less := fun (cfg was now : Nat) => (bitOf cfg 63 = false → now = was) ∧
      (bitOf cfg 63 = true → -(2 ^ 63 : Int) ≤ signedOf 64 was - ((len * 31250 : Nat) : Int) →
        signedOf 64 now = signedOf 64 was - ((len * 31250 : Nat) : Int))
    less (c.portShaper port) (c.reg 0x4907 port) (d.reg 0x4907 port) ∧
    (x.sub = true → less (c.queueShaper x.q) (c.wget 0x4909 x.q) (d.wget 0x4909 x.q) ∧
      less (c.subShaper (x.q / 8)) (c.wget 0x4908 (x.q / 8)) (d.wget 0x4908 (x.q / 8))) ∧
    (x.sub = false → d.win = c.win)) ∧
  (∀ (s : State) (ch : Ch) (i : Nat), s.present ch = true → i < 2 ^ 40 →
    let c := s.chan ch
    let cfg := c.wget 0x4A10 i
    let was := c.inForce (winKey 0x4A10 i) cfg
    let cap1 := bits cfg 95 72 * 31250
    let cap2 := bits cfg 119 96 * 31250
    let lv := c.wget 0x4A11 i
    let tc := bits lv 127 64 + bits cfg 31 0
    let tx := bits lv 63 0
    let mode := bits cfg 127 126
    tabWf winDflt c.win = true → answersOn (.shaperRefill ch) ch s fun t =>
      let now := (t.chan ch).wget 0x4A11 i
      (mode = 0 → now = lv) ∧ (mode ≠ 0 → bits was 127 126 = 0 → now = cap1 * 2 ^ 64 + cap2) ∧
      (mode = 1 → bits was 127 126 ≠ 0 → now = min tc cap1 * 2 ^ 64 + min (tx + (tc - min tc cap1)) cap2) ∧
      (2 ≤ mode → bits was 127 126 ≠ 0 → now = min tc cap1 * 2 ^ 64 + min (tx + bits cfg 63 32) cap2))

/-! ## Scheduling and transmission -/

/-- A tier selects by its rules, express nodes before the others and a node's classes 0 to 2 in strict order, and moves the frame from its queue to its selected frames; a tier that may not select leaves all as it is. A matching round moves at most two cells of each pipeline. A copy whose cells have moved is edited and loaded; one for port 54 enters the parser again with its next pass in the cells it keeps, under the requester's charge (log entry 91), and a fourth pass is dropped with 0x20. A MAC first sends the control frames that wait, then starts the frame whose turn it is unless the line, PAUSE or the launch guard holds it, and drops it with 0x90, 0x92, 0x93, 0x97 or 0x98; a launch-time frame starts at its time in the same way. A frame that has been sent leaves, and the control frames that waited for its end go out. -/
def Obligations.SchedulersAndTransmission : Prop :=
  (∀ (s : State) (ch : Ch) (e : Nat), pipeRuns s ch → tierOk e = true →
    let c := s.chan ch
    let cx := s.ctx ch
    (c.maySelect cx e = none → answersOn (.selectFrame ch e) ch s fun t => t.chan ch = c.emptied) ∧
    (∀ port, c.maySelect cx e = some port → cx.await = false → (c.choose e port).1 = none →
      answersOn (.selectFrame ch e) ch s fun t => t.chan ch = c.emptied) ∧
    (∀ port n cls st c' r rest f x, c.maySelect cx e = some port → cx.await = false →
      c.choose e port = (some (n, cls, st), c') → (c'.queue (nodeQueue e n cls)).items = r :: rest → c'.copyOf r = some (f, x) →
      e ≠ 53 ∨ x.req = true → answersOn (.selectFrame ch e) ch s fun t =>
        ((t.chan ch).queue (nodeQueue e n cls)).items = rest ∧ ((t.chan ch).tier e).picked = (c.tier e).picked ++ [r] ∧
        (t.chan ch).selNo = c.selNo + 1 ∧
        ∃ g y, (t.chan ch).copyOf r = some (g, y) ∧ y.pos = .selected ∧ y.port = port ∧ y.sel = c.selNo)) ∧
  (∀ (c : Channel) (e port n cls : Nat) (st : NodeSt), (c.choose e port).1 = some (n, cls, st) →
    (∃ m, m ∈ (c.tier e).dlist ∧ c.express e m = true ∧ c.nodeEligible e m port = true) → c.express e n = true) ∧
  (∀ (c : Channel) (e n port k : Nat), k ≤ 2 → c.eligible (nodeQueue e n k) k port = true →
    (∀ j, j < k → c.eligible (nodeQueue e n j) j port = false) → c.offer e n port = some (k, c.node e n)) ∧
  (∀ (s : State) (ch : Ch), pipeRuns s ch →
    let c := s.chan ch
    (∀ i, i < 8 → answersOn (.matchingRound ch) ch s fun t =>
      (t.chan ch).reg 0x4923 (i + 1) = c.reg 0x4923 (i + 1) ∨ counts c (t.chan ch) 0x4923 (i + 1) 1 ∨
        counts c (t.chan ch) 0x4923 (i + 1) 2) ∧
    (∀ i p sel host r f x, i < 8 → 1 ≤ p → p ≤ 54 → c.due = [(i, p, sel, host, r)] → c.copyOf r = some (f, x) →
      answersOn (.matchingRound ch) ch s fun t => counts c (t.chan ch) 0x4923 (i + 1) 1 ∧
        ∃ g, (t.chan ch).copyOf r = some (g, { x with
          moved := x.moved + 1
          pos := if f.cellCount ≤ x.moved + 1 then .moved else .selected })) ∧
    (let ready := (c.tier 54).picked.find? fun r => match c.copyOf r with
       | some (_, x) => x.pos == .edited
       | none => false
     (ready = none → answersOn (.recirculate ch) ch s fun t => t.chan ch = c.emptied) ∧
     (∀ r f x, ready = some r → c.copyOf r = some (f, x) → 3 ≤ f.pass → answersOn (.recirculate ch) ch s fun t =>
       t.chan ch = (((c.inc 0x4322 1).flag 0x432F 1 2).discard (s.ctx ch) r 0x20).emptied) ∧
     (∀ r f x, ready = some r → c.copyOf r = some (f, x) → f.pass < 3 →
       let got := if x.req then (true, c) else c.request (s.ctx ch) (.recirc r.1 r.2)
       let body := x.bytes.getD []
       let body := body ++ List.replicate (60 - body.length) 0
       let new := { Frame.fresh 0 (body ++ fcsBytes body) 54 f.rx f.rxSum with
         tag := f.tag, inPort := f.inPort, pass := f.pass + 1, taken := f.taken, colour := f.colour }
       let d := (got.2.countQueue x (egressLen f x) true).hear 54 new.bytes.length
       (got.1 = false → answersOn (.recirculate ch) ch s fun t =>
         t.chan ch = (got.2.modCopy r fun x => { x with pos := .waiting }).emptied) ∧
       (∀ h, got.1 = true → got.2.holdOf 2 (.copy r.1 r.2) = some h → answersOn (.recirculate ch) ch s fun t =>
         t.chan ch = (((({ d with requesters := d.requesters.erase h } : Channel).leave (s.ctx ch) r).storeAgain (s.ctx ch) new
           f.cells h).inc 0x4321 f.pass).emptied) ∧
       (got.1 = true → got.2.holdOf 2 (.copy r.1 r.2) = none → answersOn (.recirculate ch) ch s fun t =>
         t.chan ch = (d.leave (s.ctx ch) r).emptied))) ∧
    (∀ fid no, c.copyOf (fid, no) = none → answersOn (.egressEdit ch fid no) ch s fun t => t.chan ch = c.emptied) ∧
    (∀ fid no f x, c.copyOf (fid, no) = some (f, x) →
      (x.pos ≠ .moved → answersOn (.egressEdit ch fid no) ch s fun t => t.chan ch = c.emptied) ∧
      (x.pos = .moved → x.tier ≠ 53 → answersOn (.egressEdit ch fid no) ch s fun t =>
        let body := match x.kind with
          | .fwd => f.edited
          | _ => match x.bytes with
            | some b => b.take (b.length - 4)
            | none => f.bytes.take (f.bytes.length - 4)
        t.chan ch = (c.modCopy (fid, no) fun x => { x with pos := .edited, bytes := some (withTag body x.tag) }).emptied) ∧
      (x.pos = .moved → x.tier = 53 → answersOn (.egressEdit ch fid no) ch s fun t =>
        t.chan ch = (c.modCopy (fid, no) fun x => { x with pos := .edited }).emptied))) ∧
  (∀ (s : State) (ch : Ch) (p : Nat), s.present ch = true → linePortOk p = true →
    let c := s.chan ch
    let cx := s.ctx ch
    let same := fun (i : Instr) => answersOn i ch s fun t => t.chan ch = c.emptied
    let goes := fun (d : Channel) => answersOn (.transmitStart ch p) ch s fun t => t.chan ch = d.emptied
    let d := c.sendDue p
    (p ≤ 52 → c.ready p = none → same (.launchStart ch p)) ∧
    (∀ r x, p ≤ 52 → c.ready p = some (r, x) →
      (x.launch.isSome = true → answersOn (.launchStart ch p) ch s fun t => t.chan ch = (c.tryStart cx p r x).emptied) ∧
      (x.launch = none → same (.launchStart ch p))) ∧
    (52 < p ∨ c.inProgress p = true ∨ (c.port p).due = [] → d = c) ∧
    (d.ready p = none → goes d) ∧
    (∀ r x, d.ready p = some (r, x) →
      let judged := (d.copyOf r).bind fun q => d.txCheck p q.1 x
      (∀ code, judged = some code → goes ((d.macDrop cx r p code).sendDue p)) ∧
      (judged = none →
        let may := d.lineFree cx p = true ∧ d.heldClass p (x.q % 8) = false
        let clear := d.guardAllows p r (x.q % 8) ((x.bytes.getD []).length + 4) = true
        (¬may → goes d) ∧
        (may → d.lateness p x = 2 → goes ((d.macDrop cx r p 0x97).sendDue p)) ∧
        (may → d.lateness p x ≠ 2 → ¬clear → d.guardHolds p = true ∧ (x.guarded = true → goes d) ∧
          (x.guarded = false → goes ((d.inc 0x4B24 p).modCopy r fun x => { x with guarded := true }))) ∧
        (may → d.lateness p x ≠ 2 → clear → (d.copyOf r).isSome = true → answersOn (.transmitStart ch p) ch s fun t =>
          (t.chan ch).onLine p = some r ∧
          t.chan ch = ((d.startCopy cx r p (d.lateness p x == 1)).ownCopy cx r p).emptied))) ∧
    (∀ (f : Frame) (x : Copy),
      let check := c.txCheck p f x
      let len := (x.bytes.getD []).length + 4 - (if 49 ≤ p ∧ p ≤ 52 then 16 else 0)
      let silent := p ≤ 48 ∧ c.hwBit 0x4100 p 26 = true ∧ c.bit 0x4102 p 20 = false
      let again := 65 ≤ p ∧ (c.mdrop (p - 64)).hand = some (f.id, x.no)
      let fits := ¬again ∧ len ≤ c.maxLen p
      let whole := ∀ k, k ∈ f.cells → k ∉ c.damage.cells
      (again → check = none) ∧ (¬again → c.maxLen p < len → check = some 0x90) ∧ (fits → ¬whole → check = some 0x92) ∧
      (fits → whole → silent → check = some 0x93) ∧ (fits → whole → ¬silent → x.launch = none → check = none) ∧
      (∀ tl, fits → whole → ¬silent → p ≤ 52 → x.launch = some tl →
        check = if ((bits (c.launchCfg p) 45 32 * 1000000 * 2 ^ 32 : Nat) : Int) < c.time.ahead tl then some 0x98 else none) ∧
      (∀ tl, p ≤ 52 → x.launch = some tl →
        let late := -(c.time.ahead tl)
        let ns := fun (n : Nat) => ((n * 2 ^ 32 : Nat) : Int)
        (late ≤ ns 8 → c.lateness p x = 0) ∧
        (ns 8 < late → late ≤ ns (8 + bits (c.launchCfg p) 63 48) ∨ bitOf (c.launchCfg p) 47 = true → c.lateness p x = 1) ∧
        (ns 8 < late → ns (8 + bits (c.launchCfg p) 63 48) < late → bitOf (c.launchCfg p) 47 = false → c.lateness p x = 2))) ∧
    (p ≤ 52 →
      let past := (c.loaded p).find? fun a => match a.2.2.launch with
        | some tl => decide ((((8 + bits (c.launchCfg p) 63 48) * 2 ^ 32 : Nat) : Int) < -(c.time.ahead tl))
        | none => false
      (past = none → same (.lateLaunch ch p)) ∧
      (∀ r f x, past = some (r, f, x) → bitOf (c.launchCfg p) 47 = false →
        answersOn (.lateLaunch ch p) ch s fun t => t.chan ch = ((c.macDrop cx r p 0x97).sendDue p).emptied) ∧
      (∀ r f x, past = some (r, f, x) → bitOf (c.launchCfg p) 47 = true →
        answersOn (.lateLaunch ch p) ch s fun t => t.chan ch = (c.tryStart cx p r x).emptied)) ∧
    (c.onLine p = none → same (.frameSent ch p)) ∧
    (∀ r f x, c.onLine p = some r → c.copyOf r = some (f, x) → answersOn (.frameSent ch p) ch s fun t =>
      let b := x.bytes.getD []
      (t.chan ch).onLine p = none ∧ (∃ more, putsOut s t (c.box.out ++ Sent.frame ch p b true :: more)) ∧
      let d := (c.countOut p b.length).emit (.frame ch p b true)
      let d := if 49 ≤ p ∧ bitOf (field b 14 14) 104 = true then d.inc 0x4278 (p - 48) else d
      (p ≤ 52 → t.chan ch = ((((d.countQueue x (egressLen f x) true).setLine p none).leave cx r).sendDue p).emptied) ∧
      (64 < p →
        let y := (t.chan ch).mdrop (p - 64)
        let m := c.mdrop (p - 64)
        y.attempts = 0 ∧ y.hand = none ∧ y.burst = m.burst + 1 ∧
          (y.turn = true ↔ m.turn = true ∧ m.burst < bits (c.hw 0x4201 (p - 64)) 23 16))))

/-- A release outside its range or with a misaligned pointer is refused, sets the event and counts a pointer fault by its kind; one that the share count does not allow counts a share fault; one of a requester ends its holding, another takes one share, and the copy counts in the lengths no more. The request at the head of a pool is granted when there is room, within its minimum or up to HARD and the pool's size, in a free block where the pool is strided, and when it has waited 10 ms it is given up with WAIT_TIMEOUT, counted, and its frame dropped with 0x7B. A refill adds RATE to every port shaper whose SHAPE_EN is set, up to its depth, and the others are full. Settings written since the last refill taking effect with it is log entry 26. -/
def Obligations.BufferCells : Prop :=
  (∀ (s : State) (ch : Ch) (fid no owner ptr pool : Nat), s.present ch = true →
    let c := s.chan ch
    let cx := s.ctx ch
    let cell := ptr / 256
    let z := strideCells (bits (c.poolCfg pool) 1 0)
    let at_ := c.rangeOf s.unit.variant pool
    let range := pool < 16 ∧ cell < managedCells s.unit.variant ∧ c.cellRec cell = pool + 1 ∧ (at_ = none → z = 1) ∧
      ∀ lo hi, at_ = some (lo, hi) → lo ≤ cell ∧ cell < hi
    let even := ptr % 256 = 0 ∧ (cell - (at_.map (·.1)).getD 0) % z = 0
    let held := c.requesters.find? fun h => h.who + 0x80 == owner && h.cells.head? == some cell
    let ok := fun (d : State → Prop) => answersOn (.releaseCells ch fid no owner ptr pool) ch s d
    let refused := fun (n : Nat) (t : State) => counts c (t.chan ch) 0x4822 n 1 ∧ bitOf ((t.chan ch).reg 0x480F 1) 0 = true
    (¬range → ok (refused 1)) ∧ (range → ¬even → ok (refused 2)) ∧
    (∀ h, range → even → held = some h → ok fun t => t.chan ch = (c.endReq cx h).emptied) ∧
    (range → even → held = none → c.frame fid = none → ok (refused 1)) ∧
    (∀ f, range → even → held = none → c.frame fid = some f →
      let step := shareStep f.share f.parked (f.owner == (owner, no))
      let given := fun (d : Channel) => match c.copyOf (fid, no) with
        | none => d
        | some (g, x) => if x.owner = owner then
            (if x.counted && !x.freed then d.lengths x g.cellCount false else d).modCopy (fid, no) fun x => { x with freed := true }
          else d
      let gone := c.modFrame fid fun f => { f with share := 0, parked := false }
      (∀ n q, step = .keep n q → ok fun t =>
        t.chan ch = (given (c.modFrame fid fun f => { f with share := n, parked := q })).emptied) ∧
      (step = .fault → ok fun t => counts c (t.chan ch) 0x4823 1 1 ∧ bitOf ((t.chan ch).reg 0x480F 1) 1 = true) ∧
      (step = .last → f.pos ≠ .live → ok fun t => t.chan ch = (given gone).emptied) ∧
      (step = .last → f.pos = .live → ok fun t => t.chan ch = (given (gone.freeFrame cx f)).emptied))) ∧
  (∀ (share : Nat) (parked last : Bool),
    let r := shareStep share parked last
    (last = false → 3 ≤ share ∨ (share = 2 ∧ parked = false) → r = .keep (share - 1) parked) ∧
    (last = false → share = 2 → parked = true → r = .last) ∧ (last = false → share ≤ 1 → r = .fault) ∧
    (last = true → 2 ≤ share → r = if parked then .fault else .keep share true) ∧ (last = true → share = 1 → r = .last)) ∧
  (∀ (s : State) (ch : Ch) (k : Nat), s.present ch = true → k < 15 →
    let c := s.chan ch
    let cx := s.ctx ch
    let same := fun (i : Instr) => answersOn i ch s fun t => t.chan ch = c.emptied
    ((c.pool k).waiting = [] → same (.requesterGrant ch k) ∧ same (.requesterWaitTimeout ch k)) ∧
    (∀ w rest, (c.pool k).waiting = w :: rest →
      let n := c.waitFor w
      let left := c.setPool k { c.pool k with waiting := rest }
      let late := (left.flag 0x4804 (k + 1) 16).inc 0x4824 n.1
      (n.2 = 0 → answersOn (.requesterGrant ch k) ch s fun t => t.chan ch = left.emptied) ∧
      (n.2 ≠ 0 → c.serve cx w = none → same (.requesterGrant ch k)) ∧
      (∀ d, n.2 ≠ 0 → c.serve cx w = some d → answersOn (.requesterGrant ch k) ch s fun t =>
        t.chan ch = ((d.setPool k { d.pool k with waiting := rest }).granted w).emptied) ∧
      (w = .capture → answersOn (.requesterWaitTimeout ch k) ch s fun t => t.chan ch = (late.dropIntake cx 2).emptied) ∧
      (∀ u, w = .scan u → answersOn (.requesterWaitTimeout ch k) ch s fun t =>
        t.chan ch = (if late.jobBusy u then late.endJob cx u 3 0 else late).emptied) ∧
      (∀ fid no, w = .recirc fid no ∨ w = .host fid no → answersOn (.requesterWaitTimeout ch k) ch s fun t =>
        t.chan ch = ((late.inc 0x4820 12).discard cx (fid, no) 0x7B).emptied))) ∧
  (∀ (c : Channel) (cx : Ctx) (i n : Nat) (key : HeldFor),
    let k := c.reqPool i
    let p := c.pool k
    let own := min n (bits (c.hw 0x4803 i) 31 0 - c.reqUse i)
    let fits := (own = n ∨ p.shared + (n - own) ≤ bits (c.poolCfg k) 223 192) ∧
      p.shared + p.reserved + n ≤ bits (c.poolCfg k) 255 224 ∧
      (bits (c.poolCfg k) 1 0 = 0 ∨ (c.freeBlock cx.variant k).isSome = true)
    (c.reqTake cx i n key).isSome = true ↔ fits) ∧
  (∀ (c d : Channel) (cx : Ctx) (i n : Nat) (key : HeldFor), c.reqTake cx i n key = some d →
    ∃ h, d.requesters = c.requesters ++ [h] ∧ h.who = i ∧ h.for_ = key ∧ h.pool = c.reqPool i ∧ h.reserved + h.shared = n ∧
      (d.pool h.pool).shared + (d.pool h.pool).reserved = (c.pool h.pool).shared + (c.pool h.pool).reserved + n) ∧
  (∀ (s : State) (ch : Ch) (p : Nat), s.present ch = true → 1 ≤ p → p ≤ 54 →
    let c := s.chan ch
    let cfg := c.reg 0x4902 p
    let was := c.inForce (objKey 0x4902 p) cfg
    let full := bits cfg 55 32 * 31250
    let level := signedOf 64 (c.reg 0x4907 p)
    let sum := level + ((bits cfg 31 0 : Nat) : Int)
    answersOn (.shaperRefill ch) ch s fun t =>
      (t.chan ch).pend = [] ∧
      (bitOf cfg 63 = false ∨ bitOf was 63 = false → (t.chan ch).reg 0x4907 p = full) ∧
      (bitOf cfg 63 = true → bitOf was 63 = true →
        signedOf 64 ((t.chan ch).reg 0x4907 p) = if sum ≤ ((full : Nat) : Int) then sum else ((full : Nat) : Int)))

/-! ## Tables, capture, check units -/

/-- The engine takes learns and moves from the head of its queue: an absent key is inserted with the charges that stand in the entry, a full table gives them back and sets TABLE_FULL, a static entry stays, an entry with another destination moves. The stash empties into free ways while the engine has no other work. The age clock counts; the sweep hands aged entries to the engine, which deletes one only under the lease, while its stamp is unchanged and after all learns. A command that walks a table takes a bucket with each read and deletes the entries that it names (log entry 18). A command that is done clears BUSY and its opcode; one of the search waits for its updates. An engine that a drill holds does nothing, and a command that came then has its effect with its end. An update writes its entry whole, and the scrubber clears an entry whose check fails. -/
def Obligations.TableEngines : Prop :=
  (∀ (s : State) (ch : Ch), s.present ch = true →
    let c := s.chan ch
    let cx := s.ctx ch
    let same := fun (i : Instr) => answersOn i ch s fun t => t.chan ch = c.emptied
    let late := fun (n : Nat) => (tabGet (fun _ => CmdSt.empty) c.cmds n).late
    let free := c.halted 0 = false
    (c.bridge.learns = [] ∨ ¬free → same (.learn ch) ∧ same (.move ch)) ∧
    (∀ r rest, free → c.bridge.learns = r :: rest →
      let i := if r.move then Instr.move ch else .learn ch
      let d := { c with bridge := { c.bridge with learns := rest } }
      let back := fun (x : Channel) => r.charges.foldl (fun c w => c.creditOne w) x
      let goes := fun (x : Channel) => answersOn i ch s fun t => t.chan ch = x.emptied
      let made := d.learnedEntry r false
      let put := d.insertSlot .bridge made
      same (if r.move then .learn ch else .move ch) ∧
      (cx.holder = false → goes (back d)) ∧
      (cx.holder = true → c.findKey .bridge r.key = none →
        (put.1 = true → goes ((put.2.settle made).inc 0x4433 1)) ∧
        (put.1 = false → goes (((back put.2).inc 0x4437 1).flag 0x4402 0 2))) ∧
      (∀ a, cx.holder = true → c.findKey .bridge r.key = some a →
        let old := c.slot .bridge a
        (bitOf old 126 = true → goes (back d)) ∧
        (bitOf old 126 = false → bitOf old 43 = false → bits old 13 0 = r.dest → goes ((back d).refresh cx r.key old)) ∧
        (bitOf old 126 = false → bitOf old 43 = true ∨ bits old 13 0 ≠ r.dest →
          goes (((((d.creditEntry old).rewrite .bridge r.key fun _ => d.learnedEntry r true).settle (d.learnedEntry r true)).inc
            0x4434 1).flag 0x4402 0 1)))) ∧
    (∀ tb,
      let at_ := (upFrom (stashOf tb) 64).find? fun a => slotValid tb (c.slot tb a)
      let side := fun (k : Nat) (a : Nat) => c.emptyWay tb k (bucketOf tb k (slotKey tb (c.slot tb a)))
      let goes := fun (k w a : Nat) => answersOn (.stashMigration ch tb) ch s fun t => t.chan ch =
        ((c.writeSlot tb (slotAddr tb k (bucketOf tb k (slotKey tb (c.slot tb a))) w) (c.slot tb a)).writeSlot tb a 0).emptied
      let idle := c.bit (cmdOf tb) 5 16 = false ∧ (tb = .bridge → c.bridge.learns = [] ∧ c.bridge.ages = []) ∧ c.halted (tableNo tb) = false
      (¬idle ∨ at_ = none → same (.stashMigration ch tb)) ∧
      (∀ a, idle → at_ = some a →
        (∀ w, side 0 a = some w → goes 0 w a) ∧ (∀ w, side 0 a = none → side 1 a = some w → goes 1 w a) ∧
        (side 0 a = none → side 1 a = none → same (.stashMigration ch tb)))) ∧
    (s.mode.night = .asleep → same (.ageTick ch)) ∧
    (s.mode.night ≠ .asleep → answersOn (.ageTick ch) ch s fun t =>
      bits ((t.chan ch).reg 0x4401 0) 63 48 = (bits (c.reg 0x4401 0) 63 48 + 1) % 65536 ∧
      t.chan ch = { c.emptied with dict := (t.chan ch).dict, bridge := { c.bridge with clock := c.bridge.clock + 1 } } ∧
      keepsRegs c (t.chan ch) [(0x4401, 0)]) ∧
    (let w := ((c.walkStep 0x4410 0).walkStep 0x4420 1).walkStep 0x4510 2
     let l := sweepAddrs w.bridge.sweep
     let old := l.filter fun a => w.aged (w.slot .bridge a)
     (cx.holder = false ∨ s.mode.night = .asleep → answersOn (.sweepRead ch) ch s fun t => t.chan ch = w.emptied) ∧
     ((∀ i, i < 3 → c.walking i = none) → w = c) ∧
     (cx.holder = true → s.mode.night ≠ .asleep → (∀ a ∈ l, slotGood .bridge (w.slot .bridge a) = true) →
      answersOn (.sweepRead ch) ch s fun t => t.chan ch = { w.emptied with bridge := { w.bridge with
        sweep := (w.bridge.sweep + 1) % 262145
        ages := w.bridge.ages ++ old.map fun a => (slotKey .bridge (w.slot .bridge a), bits (w.slot .bridge a) 59 44) } })) ∧
    (c.bridge.ages = [] ∨ c.bridge.learns ≠ [] ∨ ¬free ∨ s.mode.night = .asleep → same (.ageDelete ch)) ∧
    (∀ k st rest, free → s.mode.night ≠ .asleep → c.bridge.ages = (k, st) :: rest → c.bridge.learns = [] →
      let d := { c with bridge := { c.bridge with ages := rest } }
      (cx.holder = false ∨ c.findKey .bridge k = none → answersOn (.ageDelete ch) ch s fun t => t.chan ch = d.emptied) ∧
      (∀ a, c.findKey .bridge k = some a → bits (c.slot .bridge a) 59 44 ≠ st →
        answersOn (.ageDelete ch) ch s fun t => t.chan ch = d.emptied) ∧
      (∀ a, cx.holder = true → c.findKey .bridge k = some a → bits (c.slot .bridge a) 59 44 = st → answersOn (.ageDelete ch) ch s fun t =>
        (t.chan ch).slot .bridge a = 0 ∧ counts c (t.chan ch) 0x4435 1 1 ∧ (t.chan ch).bridge.ages = rest)) ∧
    (∀ tb, tb ≠ .search → c.halted (c.commandTable (commandObject tb)) = true ∨
      (c.bit (commandObject tb) 5 16 = false ∧ late (cmdNo (commandObject tb)) = false) → same (.tableCommandDone ch tb)) ∧
    (∀ tb, tb ≠ .search → c.halted (c.commandTable (commandObject tb)) = false → c.bit (commandObject tb) 5 16 = true → answersOn (.tableCommandDone ch tb) ch s fun t =>
      (t.chan ch).bit (commandObject tb) 5 16 = false ∧ bits ((t.chan ch).reg (commandObject tb) 1) 3 0 = 0) ∧
    (let done := fun (r : Channel) => r.search.clearing = false ∧ (r.search.updates.any fun u => !u.2.2) = false
     let ended := answersOn (.tableCommandDone ch .search) ch s fun t =>
       (t.chan ch).bit 0x4620 5 16 = false ∧ bits ((t.chan ch).reg 0x4620 1) 3 0 = 0
     (c.halted 4 = true ∨ (late 3 = false ∧ (c.bit 0x4620 5 16 = false ∨ ¬done c)) → same (.tableCommandDone ch .search)) ∧
     (c.halted 4 = false → late 3 = false → c.bit 0x4620 5 16 = true → done c → ended) ∧
     (c.halted 4 = false → late 3 = true → c.bit 0x4620 5 16 = true → done c.runSearch → ended) ∧
     (c.halted 4 = false → late 3 = true → ¬done c.runSearch → answersOn (.tableCommandDone ch .search) ch s fun t =>
       t.chan ch = c.runSearch.emptied)) ∧
    (c.halted 4 = true → same (.searchUpdateApply ch)) ∧
    (∀ i e relayed rest, c.halted 4 = false → c.search.updates = (i, e, relayed) :: rest → i < 32768 → answersOn (.searchUpdateApply ch) ch s fun t =>
      (t.chan ch).wget 0x4610 i = e ∧ (t.chan ch).search = { c.search with updates := rest } ∧
      counts c (t.chan ch) 0x4634 1 1 ∧
      ((cx.st = .active ∨ cx.st = .draining) → c.bit 0x4600 1 0 = true → flagged c (t.chan ch) 0x461F 1 8)) ∧
    (c.search.updates = [] → c.search.clearing = false → same (.searchUpdateApply ch)) ∧
    (c.halted 4 = false → c.search.updates = [] → c.search.clearing = true →
      let l := (listedIn c.win 0x4610).filter fun i => bitOf (c.wget 0x4610 i) 127
      (l = [] → answersOn (.searchUpdateApply ch) ch s fun t => t.chan ch = { c.emptied with search := { c.search with clearing := false } }) ∧
      (∀ i rest, l = i :: rest → answersOn (.searchUpdateApply ch) ch s fun t =>
        (t.chan ch).wget 0x4610 i = 0 ∧ counts c (t.chan ch) 0x4634 1 1 ∧
        (t.chan ch).search = { c.search with cleared := c.search.cleared + 1, clearing := !rest.isEmpty })) ∧
    (c.bit 0x4600 1 1 = false → same (.searchScrub ch)) ∧
    (c.bit 0x4600 1 1 = true →
      let e := c.wget 0x4610 c.search.scrub
      let d := { c with search := { c.search with scrub := (c.search.scrub + 1) % 32768 } }
      (bitOf e 127 = false ∨ searchGood e = true → answersOn (.searchScrub ch) ch s fun t => t.chan ch = d.emptied) ∧
      (bitOf e 127 = true → searchGood e = false → c.search.scrub < 32768 → answersOn (.searchScrub ch) ch s fun t =>
        (t.chan ch).wget 0x4610 c.search.scrub = 0 ∧ (t.chan ch).search = d.search ∧
        counts c (t.chan ch) 0x4635 1 1 ∧ flagged c (t.chan ch) 0x461F 1 1))) ∧
  (∀ (c : Channel) (idx n at_ count : Nat), (idx, n) ∈ [(0x4410, 0), (0x4420, 1), (0x4510, 2)] → c.walking n = some (at_, count) →
    let w := c.walkOf idx
    let d := c.walkStep idx n
    let named := (upFrom (4 * at_) 4).filter fun a => slotValid w.1 (c.slot w.1 a) && slotGood w.1 (c.slot w.1 a) && w.2 (c.slot w.1 a)
    (stashOf w.1 ≤ 4 * at_ ∨ c.halted (tableNo w.1) = true → d = c) ∧
    (4 * at_ < stashOf w.1 → c.halted (tableNo w.1) = false → d.walking n = some (at_ + 1, count + named.length) ∧
      (∀ a, a ∈ named → d.slot w.1 a = 0) ∧
      ∀ a, a ∉ named → slotGood w.1 (c.slot w.1 a) = true → d.slot w.1 a = c.slot w.1 a)) ∧
  (∀ (c : Channel) (r : LearnReq) (mv : Bool), r.key < 2 ^ 60 → r.sub < 2 ^ 15 → r.dest < 2 ^ 14 →
    let e := c.learnedEntry r mv
    slotValid .bridge e = true ∧ slotKey .bridge e = r.key ∧ bits e 59 44 = c.ageClock ∧ bits e 13 0 = r.dest ∧ bitOf e 126 = false ∧
    bitOf e 31 = true ∧ bitOf e 32 = !r.remote ∧ (r.remote = false → bits e 30 16 = r.sub) ∧ bitOf e 125 = mv) ∧
  (∀ (c : Channel) (e : Nat),
    let limit := bits (c.reg 0x4400 0) 30 16
    c.aged e = true ↔ limit ≠ 0 ∧ slotValid .bridge e = true ∧ bitOf e 126 = false ∧ limit ≤ c.bridge.clock ∧
      limit ≤ (c.ageClock + 65536 - bits e 59 44) % 65536)

/-- Outside NIGHT the oldest capture copy becomes a record of 192 bytes of the open block, which the 341st closes, and an event that meets the 341st takes it in; a block that must be opened first takes its cells or waits. A stopped engine seals and writes none. An aged block is sealed with its CHECK and staged; a block that has been written counts with its records, a failed write retires the slot and is tried once more elsewhere, and a second failure loses the block's records with CAPTURE's event, which enter LOST of the block that follows. The units take their turns in rotating order; the one whose turn it is takes its cells and consumes the next chunk of at most 4,096 bytes; a read error, a damaged cell or a control store word that cannot be corrected ends the job with READ_ERROR, and a job whose bytes are consumed ends OK with its value, which a job of the module's own on unit 0 keeps. -/
def Obligations.CaptureAndCheck : Prop :=
  (∀ (s : State) (ch : Ch), s.present ch = true →
    let c := s.chan ch
    let k := c.cap
    let cx := s.ctx ch
    let a := s.unit.variant = .A
    let same := fun (i : Instr) => answersOn i ch s fun t => t.chan ch = c.emptied
    (k.intake = [] ∨ k.hold = true ∨ c.capStopped = true ∨ s.mode.night ≠ .awake → same (.captureIntake ch)) ∧
    (∀ fid no seq rest, k.intake = (fid, no, seq) :: rest → k.hold = false → c.capStopped = false → s.mode.night = .awake → k.openBlk = none → k.ready = false →
      (c.request cx .capture).1 = false → answersOn (.captureIntake ch) ch s fun t =>
        t.chan ch = (c.request cx .capture).2.emptied) ∧
    (∀ fid no seq rest f x, k.intake = (fid, no, seq) :: rest → k.hold = false → c.capStopped = false → s.mode.night = .awake →
      c.copyOf (fid, no) = some (f, x) →
      let lost := (seq + 2 ^ 32 - k.recEnd) % 2 ^ 32
      let bytes := match x.bytes with
        | some b => b
        | none => withTag f.bytes f.tag
      let taken := fun (t : State) => (t.chan ch).cap.intake = rest ∧ (t.chan ch).cap.recEnd = (seq + 1) % 2 ^ 32 ∧
        (t.chan ch).cap.nextRec = k.nextRec
      (∀ b, k.openBlk = some b → b.records.length < 340 → answersOn (.captureIntake ch) ch s fun t => taken t ∧
        (t.chan ch).cap.openBlk = some { b with records := b.records ++ [recordBytes x.info seq bytes], lost := b.lost + lost }) ∧
      (∀ b, k.openBlk = some b → b.records.length = 340 → answersOn (.captureIntake ch) ch s fun t => taken t ∧
        (t.chan ch).cap.openBlk = none ∧ (t.chan ch).cap.staged.length = k.staged.length + 1 ∧
        (t.chan ch).cap.nextSeq = (k.nextSeq + 1) % 2 ^ 64) ∧
      (k.openBlk = none → k.ready = true ∨ (c.request cx .capture).1 = true → answersOn (.captureIntake ch) ch s fun t => taken t ∧
        ∃ b, (t.chan ch).cap.openBlk = some b ∧ b.records = [recordBytes x.info seq bytes] ∧ b.first = seq ∧
          b.opened = c.time.stamp ∧ b.lost = k.lostBlks + lost)) ∧
    (k.openBlk = none ∨ c.capStopped = true → same (.blockAged ch)) ∧
    (∀ b fid no seq rest, k.openBlk = some b → c.capStopped = false → b.records.length = 340 → k.intake = (fid, no, seq) :: rest → k.hold = false →
      (c.copyOf (fid, no)).isSome = true → answersOn (.blockAged ch) ch s fun t => t.chan ch = (c.recordNext cx 2).emptied ∧
        (t.chan ch).cap.openBlk = none ∧ (t.chan ch).cap.intake = rest ∧ (t.chan ch).cap.nextSeq = (k.nextSeq + 1) % 2 ^ 64 ∧
        ∃ z, (t.chan ch).cap.staged = k.staged ++ [z] ∧ z.count = 341 ∧ z.seq = k.nextSeq) ∧
    (∀ b, k.openBlk = some b → c.capStopped = false → b.records.length ≠ 340 ∨ k.intake = [] ∨ k.hold = true →
      let flags := 2 + (if k.resumed then 8 else 0) + (if s.unit.variant = .A then 0 else 16)
      let body := blockBody cx b k.nextSeq flags c.time.stamp b.lost k.prevCheck b.slot
      let chk := crc32c 0xFFFFFFFF (leBytes 8 k.nextSeq ++ body)
      answersOn (.blockAged ch) ch s fun t =>
        (t.chan ch).cap.openBlk = none ∧ (t.chan ch).cap.nextSeq = (k.nextSeq + 1) % 2 ^ 64 ∧ (t.chan ch).cap.prevCheck = chk ∧
        (t.chan ch).cap.staged = k.staged ++ [⟨k.nextSeq, b.slot, b.records.length, body ++ leBytes 4 chk, 0⟩] ∧
        (t.chan ch).reg 0x4C01 1 = (k.nextSeq + 1) % 2 ^ 64 ∧ (t.chan ch).reg 0x4C01 2 = b.slot) ∧
    (∀ ok, k.staged = [] ∨ c.capStopped = true → same (.blockWriteDone ch ok)) ∧
    (∀ ok b rest, k.staged = b :: rest → c.capStopped = false →
      (ok = true ∨ ¬a → answersOn (.blockWriteDone ch ok) ch s fun t => (t.chan ch).cap.staged = rest ∧
        tabGet (fun _ => 0) (t.chan ch).cap.slotSeq b.slot = b.seq + 1 ∧ counts c (t.chan ch) 0x4C51 1 1 ∧
        counts c (t.chan ch) 0x4C50 1 b.count) ∧
      (ok = false → a → b.tries = 0 → answersOn (.blockWriteDone ch ok) ch s fun t => counts c (t.chan ch) 0x4C55 1 1 ∧
        (t.chan ch).cap.retired = k.retired ++ [b.slot] ∧ (t.chan ch).cap.staged.length = k.staged.length ∧
        ∃ z more, (t.chan ch).cap.staged = z :: more ∧ z.seq = b.seq ∧ z.count = b.count ∧ z.tries = 1) ∧
      (ok = false → a → b.tries ≠ 0 → answersOn (.blockWriteDone ch ok) ch s fun t => counts c (t.chan ch) 0x4C55 1 1 ∧
        (t.chan ch).cap.retired = k.retired ++ [b.slot] ∧ (t.chan ch).cap.staged.length = rest.length ∧
        (rest = [] → k.openBlk = none → (t.chan ch).cap.lostBlks = k.lostBlks + (b.count + b.lost)) ∧
        (∀ o, rest = [] → k.openBlk = some o → (t.chan ch).cap.openBlk = some { o with lost := o.lost + (b.count + b.lost) }) ∧
        (∀ y l, rest = y :: l → y.bytes.length = 65536 → ∃ z m, (t.chan ch).cap.staged = z :: m ∧ z.seq = y.seq ∧
          z.lost = min (y.lost + (b.count + b.lost)) (2 ^ 32 - 1)) ∧
        bitOf ((t.chan ch).reg 0x4C0F 1) 3 = true ∧ (b.count ≠ 0 → counts c (t.chan ch) 0x4C52 4 b.count))) ∧
    (c.bit 0x4C20 5 16 = false → same (.captureCommandDone ch)) ∧
    (c.bit 0x4C20 5 16 = true → answersOn (.captureCommandDone ch) ch s fun t =>
      (t.chan ch).bit 0x4C20 5 16 = false ∧ bits ((t.chan ch).reg 0x4C20 1) 3 0 = 0)) ∧
  (∀ (info bytes : List Byte) (seq : Nat), info.length = 24 → (recordBytes info seq bytes).length = 192 ∧
    leNat (slice (recordBytes info seq bytes) 24 4) = seq % 2 ^ 32 ∧ (recordBytes info seq bytes).take 24 = info ∧
    slice (recordBytes info seq bytes) 32 (min 160 bytes.length) = bytes.take 160) ∧
  (∀ (s : State) (ch : Ch) (unit : Nat), s.present ch = true → unit < 4 →
    let c := s.chan ch
    let cx := s.ctx ch
    let u := unit + 1
    let j := c.job u
    let len := c.reg 0x4D07 u
    let n := min 4096 (len - j.pos)
    let same := fun (i : Instr) => answersOn i ch s fun t => t.chan ch = c.emptied
    let got := ({ c with scan := u } : Channel).request cx (.scan u)
    let turn := c.chunkTurn = some u
    let host := u ≠ 1 ∨ c.own.todo = []
    let a := c.reg 0x4D06 u + j.pos
    let torn := bits (c.reg 0x4D01 u) 21 20 = 0 ∧ ∃ k, k ∈ c.damage.cells ∧ a ≤ 256 * k + 255 ∧ 256 * k < a + n
    let ends := fun (res value : Nat) (t : State) => (t.chan ch).bit 0x4D09 u 16 = false ∧ bits ((t.chan ch).reg 0x4D09 u) 7 0 = res ∧
      (t.chan ch).reg 0x4D0A u = value ∧ counts c (t.chan ch) 0x4D20 u 1 ∧ (t.chan ch).job u = JobSt.empty
    (∀ e, ¬turn → same (.checkChunk ch unit e)) ∧ (c.jobBusy u = false ∨ len ≤ j.pos → ¬turn) ∧
    (∀ e, turn → j.granted = false → got.1 = false →
      answersOn (.checkChunk ch unit e) ch s fun t => t.chan ch = got.2.emptied) ∧
    (turn → host → j.granted = true ∨ got.1 = true → answersOn (.checkChunk ch unit true) ch s (ends 2 0)) ∧
    (turn → j.granted = true ∨ got.1 = true →
      ¬torn → (∀ w ∈ c.spanFaults u a n, w.2 = false) → answersOn (.checkChunk ch unit false) ch s fun t =>
        (t.chan ch).reg 0x4D0B u = j.pos + n ∧ counts c (t.chan ch) 0x4D22 u n ∧ ((t.chan ch).job u).pos = j.pos + n ∧
        ((t.chan ch).job u).granted = false ∧ (t.chan ch).scan = u) ∧
    (turn → host → j.granted = true ∨ got.1 = true →
      (torn ∨ ∃ w ∈ c.spanFaults u a n, w.2 = true) → answersOn (.checkChunk ch unit false) ch s (ends 2 0)) ∧
    (c.jobBusy u = false ∨ j.pos < len → same (.checkJobEnd ch unit)) ∧
    (∀ o again, u = 1 → c.own.running = true → c.own.todo = [(o, again)] → c.bit 0x4D09 u 10 = false → c.jobBusy u = true → len ≤ j.pos →
      answersOn (.checkJobEnd ch unit) ch s fun t => (t.chan ch).own.todo = [] ∧ (t.chan ch).own.running = false ∧
        (t.chan ch).own.got = c.own.got ++ [some (c.jobValue u)]) ∧
    (c.jobBusy u = true → host → len ≤ j.pos → answersOn (.checkJobEnd ch unit) ch s (ends 0 (c.jobValue u)))) ∧
  (∀ (c : Channel) (u : Nat), c.chunkTurn = some u →
    let ready := fun (v : Nat) => c.jobBusy v = true ∧ (c.job v).pos < c.reg 0x4D07 v ∧
      ((c.job v).granted = true ∨ .scan v ∉ (c.pool (c.reqPool 3)).waiting)
    1 ≤ u ∧ u ≤ 4 ∧ ready u ∧ ∀ i k, i < k → k < 4 → u = 1 + (c.scan + k) % 4 → ¬ready (1 + (c.scan + i) % 4)) ∧
  (∀ (c : Channel) (u : Nat), c.jobValue u = if c.bit 0x4D01 u 16 then (c.job u).sum else crcOut (c.crcOf u) (c.job u).reg)
end

