-- ==== Sys2Proof/Laws/Tab.lean ====
section
/-! SUPPORT. Laws of sparse tables: what a write leaves to read, and that every operation keeps the canonical form. -/

namespace Sys2Proof.Machine

/-- An erased key reads as its default. -/
theorem tabGet_tabErase_self {α : Type} (d : Nat → α) (t : Tab α) (k : Nat) : tabGet d (tabErase t k) k = d k := by
  induction t with
  | nil => rfl
  | cons p t ih =>
    obtain ⟨j, v⟩ := p
    by_cases h : k = j
    · simpa [tabErase, h] using (h ▸ ih)
    · simp [tabErase, tabGet, h, ih]

/-- Erasing a key leaves the others. -/
theorem tabGet_tabErase_ne {α : Type} (d : Nat → α) (t : Tab α) {k i : Nat} (hi : i ≠ k) :
    tabGet d (tabErase t k) i = tabGet d t i := by
  induction t with
  | nil => rfl
  | cons p t ih =>
    obtain ⟨j, v⟩ := p
    by_cases h : k = j
    · subst h; simp [tabErase, tabGet, hi, ih]
    · simp only [tabErase, h, if_false, tabGet, ih]

/-- A listed key reads as its value. -/
theorem tabGet_tabPut_self {α : Type} (d : Nat → α) (v : α) (t : Tab α) (k : Nat) : tabGet d (tabPut v t k) k = v := by
  induction t with
  | nil => simp [tabPut, tabGet]
  | cons p t ih =>
    obtain ⟨j, w⟩ := p
    by_cases h : k = j
    · simp [tabPut, tabGet, h]
    · by_cases h' : k < j <;> simp [tabPut, tabGet, h, h', ih]

/-- Listing a key leaves the others. -/
theorem tabGet_tabPut_ne {α : Type} (d : Nat → α) (v : α) (t : Tab α) {k i : Nat} (hi : i ≠ k) :
    tabGet d (tabPut v t k) i = tabGet d t i := by
  induction t with
  | nil => simp [tabPut, tabGet, hi]
  | cons p t ih =>
    obtain ⟨j, w⟩ := p
    by_cases h : k = j
    · subst h; simp [tabPut, tabGet, hi]
    · by_cases h' : k < j
      · simp [tabPut, tabGet, h, h', hi]
      · simp only [tabPut, h, h', if_false, tabGet, ih]

/-- A read after a write. -/
theorem tabGet_tabSet {α : Type} [DecidableEq α] (d : Nat → α) (t : Tab α) (k i : Nat) (v : α) :
    tabGet d (tabSet d t k v) i = if i = k then v else tabGet d t i := by
  by_cases hv : v = d k
  · by_cases hi : i = k
    · subst hi; simp [tabSet, hv, tabGet_tabErase_self]
    · simp [tabSet, hv, hi, tabGet_tabErase_ne]
  · by_cases hi : i = k
    · subst hi; simp [tabSet, hv, tabGet_tabPut_self]
    · simp [tabSet, hv, hi, tabGet_tabPut_ne]

/-- Below which key a table starts. -/
def tabAbove (lo : Option Nat) (k : Nat) : Prop :=
  match lo with
  | none => True
  | some l => l < k

/-- A lower bound may be lowered. -/
theorem tabWfFrom_mono {α : Type} [DecidableEq α] (d : Nat → α) {lo lo' : Option Nat} {t : Tab α}
    (h : ∀ k, tabAbove lo k → tabAbove lo' k) (ht : tabWfFrom d lo t = true) : tabWfFrom d lo' t = true := by
  cases t with
  | nil => rfl
  | cons p t =>
    obtain ⟨j, v⟩ := p
    simp only [tabWfFrom, Bool.and_eq_true] at ht ⊢
    refine ⟨⟨?_, ht.1.2⟩, ht.2⟩
    have hj : tabAbove lo j := by cases lo <;> simp_all [tabAbove]
    have := h j hj
    cases lo' <;> simp_all [tabAbove]

/-- Erasing keeps the form. -/
theorem tabWfFrom_tabErase {α : Type} [DecidableEq α] (d : Nat → α) (k : Nat) {lo : Option Nat} {t : Tab α}
    (ht : tabWfFrom d lo t = true) : tabWfFrom d lo (tabErase t k) = true := by
  induction t generalizing lo with
  | nil => rfl
  | cons p t ih =>
    obtain ⟨j, v⟩ := p
    have ht' := ht
    simp only [tabWfFrom, Bool.and_eq_true] at ht
    by_cases h : k = j
    · simp only [tabErase, h, if_true]
      subst h
      refine ih (tabWfFrom_mono d (lo := some k) (fun i hi => ?_) ht.2)
      cases lo with
      | none => trivial
      | some l =>
        have := ht.1.1
        simp [tabAbove] at this hi ⊢
        omega
    · simp only [tabErase, h, if_false, tabWfFrom, Bool.and_eq_true]
      exact ⟨ht.1, ih ht.2⟩

/-- Listing a value that is not the default keeps the form. -/
theorem tabWfFrom_tabPut {α : Type} [DecidableEq α] (d : Nat → α) {v : α} {k : Nat} (hv : v ≠ d k) (t : Tab α) :
    ∀ lo : Option Nat, tabAbove lo k → tabWfFrom d lo t = true → tabWfFrom d lo (tabPut v t k) = true := by
  induction t with
  | nil => intro lo hk _; cases lo <;> simp_all [tabPut, tabWfFrom, tabAbove]
  | cons p t ih =>
    intro lo hk ht
    obtain ⟨j, w⟩ := p
    simp only [tabWfFrom, Bool.and_eq_true] at ht
    by_cases h : k = j
    · subst h
      simp only [tabPut, if_true, tabWfFrom, Bool.and_eq_true]
      exact ⟨⟨ht.1.1, by simp [hv]⟩, ht.2⟩
    · by_cases h' : k < j
      · simp only [tabPut, h, h', if_false, if_true, tabWfFrom, Bool.and_eq_true]
        refine ⟨⟨?_, by simp [hv]⟩, ⟨by simp, ht.1.2⟩, ht.2⟩
        cases lo <;> simp_all [tabAbove]
      · simp only [tabPut, h, h', if_false, tabWfFrom, Bool.and_eq_true]
        exact ⟨ht.1, ih (some j) (by simp only [tabAbove]; omega) ht.2⟩

/-- Every write keeps the canonical form. -/
theorem tabWf_tabSet {α : Type} [DecidableEq α] (d : Nat → α) {t : Tab α} (k : Nat) (v : α) (ht : tabWf d t = true) :
    tabWf d (tabSet d t k v) = true := by
  unfold tabSet tabWf
  split
  · exact tabWfFrom_tabErase d k ht
  · exact tabWfFrom_tabPut d ‹_› t none trivial ht

/-- Keeping some of the entries keeps the form. -/
theorem tabWfFrom_filter {α : Type} [DecidableEq α] (d : Nat → α) (f : Nat × α → Bool) {lo : Option Nat} {t : Tab α}
    (ht : tabWfFrom d lo t = true) : tabWfFrom d lo (t.filter f) = true := by
  induction t generalizing lo with
  | nil => rfl
  | cons p t ih =>
    obtain ⟨j, v⟩ := p
    simp only [tabWfFrom, Bool.and_eq_true] at ht
    by_cases h : f (j, v) = true
    · simp only [List.filter_cons, h, if_true, tabWfFrom, Bool.and_eq_true]
      exact ⟨ht.1, ih ht.2⟩
    · simp only [List.filter_cons, h, if_false]
      refine ih (tabWfFrom_mono d (lo := some j) (fun i hi => ?_) ht.2)
      cases lo with
      | none => trivial
      | some l =>
        have := ht.1.1
        simp [tabAbove] at this hi ⊢
        omega

/-- Keeping some of the entries keeps the canonical form. -/
theorem tabWf_filter {α : Type} [DecidableEq α] (d : Nat → α) (f : Nat × α → Bool) {t : Tab α} (ht : tabWf d t = true) :
    tabWf d (t.filter f) = true := tabWfFrom_filter d f ht

end Sys2Proof.Machine
end

