-- ==== Sys2Proof/Laws/State.lean ====
section
/-! SUPPORT. What each update of the state leaves as it was: one lemma a field, each true by computation. -/

namespace Sys2Proof.Machine

/-! ## The module -/

@[simp] theorem State.setChan_unit (s : State) (ch : Ch) (c : Channel) : (s.setChan ch c).unit = s.unit := by cases ch <;> rfl
@[simp] theorem State.setChan_mdict (s : State) (ch : Ch) (c : Channel) : (s.setChan ch c).mdict = s.mdict := by cases ch <;> rfl
@[simp] theorem State.setChan_mwin (s : State) (ch : Ch) (c : Channel) : (s.setChan ch c).mwin = s.mwin := by cases ch <;> rfl
@[simp] theorem State.setChan_host (s : State) (ch : Ch) (c : Channel) : (s.setChan ch c).host = s.host := by cases ch <;> rfl
@[simp] theorem State.setChan_bring (s : State) (ch : Ch) (c : Channel) : (s.setChan ch c).bring = s.bring := by cases ch <;> rfl
@[simp] theorem State.setChan_roleA (s : State) (ch : Ch) (c : Channel) : (s.setChan ch c).roleA = s.roleA := by cases ch <;> rfl
@[simp] theorem State.setChan_roleB (s : State) (ch : Ch) (c : Channel) : (s.setChan ch c).roleB = s.roleB := by cases ch <;> rfl
@[simp] theorem State.setChan_arb (s : State) (ch : Ch) (c : Channel) : (s.setChan ch c).arb = s.arb := by cases ch <;> rfl
@[simp] theorem State.setChan_relay (s : State) (ch : Ch) (c : Channel) : (s.setChan ch c).relay = s.relay := by cases ch <;> rfl
@[simp] theorem State.setChan_power (s : State) (ch : Ch) (c : Channel) : (s.setChan ch c).power = s.power := by cases ch <;> rfl
@[simp] theorem State.setChan_mode (s : State) (ch : Ch) (c : Channel) : (s.setChan ch c).mode = s.mode := by cases ch <;> rfl
@[simp] theorem State.setChan_flash (s : State) (ch : Ch) (c : Channel) : (s.setChan ch c).flash = s.flash := by cases ch <;> rfl
@[simp] theorem State.setChan_log (s : State) (ch : Ch) (c : Channel) : (s.setChan ch c).log = s.log := by cases ch <;> rfl
@[simp] theorem State.setChan_pending (s : State) (ch : Ch) (c : Channel) : (s.setChan ch c).pending = s.pending := by cases ch <;> rfl
@[simp] theorem State.setChan_sent (s : State) (ch : Ch) (c : Channel) : (s.setChan ch c).sent = s.sent := by cases ch <;> rfl
@[simp] theorem State.setChan_sbTime (s : State) (ch : Ch) (c : Channel) : (s.setChan ch c).sbTime = s.sbTime := by cases ch <;> rfl
@[simp] theorem State.setChan_free (s : State) (ch : Ch) (c : Channel) : (s.setChan ch c).free = s.free := by cases ch <;> rfl

@[simp] theorem State.setRole_unit (s : State) (ch : Ch) (r : ChanRole) : (s.setRole ch r).unit = s.unit := by cases ch <;> rfl
@[simp] theorem State.setRole_mdict (s : State) (ch : Ch) (r : ChanRole) : (s.setRole ch r).mdict = s.mdict := by cases ch <;> rfl
@[simp] theorem State.setRole_mwin (s : State) (ch : Ch) (r : ChanRole) : (s.setRole ch r).mwin = s.mwin := by cases ch <;> rfl
@[simp] theorem State.setRole_host (s : State) (ch : Ch) (r : ChanRole) : (s.setRole ch r).host = s.host := by cases ch <;> rfl
@[simp] theorem State.setRole_bring (s : State) (ch : Ch) (r : ChanRole) : (s.setRole ch r).bring = s.bring := by cases ch <;> rfl
@[simp] theorem State.setRole_arb (s : State) (ch : Ch) (r : ChanRole) : (s.setRole ch r).arb = s.arb := by cases ch <;> rfl
@[simp] theorem State.setRole_relay (s : State) (ch : Ch) (r : ChanRole) : (s.setRole ch r).relay = s.relay := by cases ch <;> rfl
@[simp] theorem State.setRole_power (s : State) (ch : Ch) (r : ChanRole) : (s.setRole ch r).power = s.power := by cases ch <;> rfl
@[simp] theorem State.setRole_mode (s : State) (ch : Ch) (r : ChanRole) : (s.setRole ch r).mode = s.mode := by cases ch <;> rfl
@[simp] theorem State.setRole_flash (s : State) (ch : Ch) (r : ChanRole) : (s.setRole ch r).flash = s.flash := by cases ch <;> rfl
@[simp] theorem State.setRole_log (s : State) (ch : Ch) (r : ChanRole) : (s.setRole ch r).log = s.log := by cases ch <;> rfl
@[simp] theorem State.setRole_chA (s : State) (ch : Ch) (r : ChanRole) : (s.setRole ch r).chA = s.chA := by cases ch <;> rfl
@[simp] theorem State.setRole_chB (s : State) (ch : Ch) (r : ChanRole) : (s.setRole ch r).chB = s.chB := by cases ch <;> rfl
@[simp] theorem State.setRole_pending (s : State) (ch : Ch) (r : ChanRole) : (s.setRole ch r).pending = s.pending := by cases ch <;> rfl
@[simp] theorem State.setRole_sent (s : State) (ch : Ch) (r : ChanRole) : (s.setRole ch r).sent = s.sent := by cases ch <;> rfl
@[simp] theorem State.setRole_sbTime (s : State) (ch : Ch) (r : ChanRole) : (s.setRole ch r).sbTime = s.sbTime := by cases ch <;> rfl
@[simp] theorem State.setRole_free (s : State) (ch : Ch) (r : ChanRole) : (s.setRole ch r).free = s.free := by cases ch <;> rfl

@[simp] theorem State.modRole_unit (s : State) (ch : Ch) (g : ChanRole → ChanRole) : (s.modRole ch g).unit = s.unit := by cases ch <;> rfl
@[simp] theorem State.modRole_mdict (s : State) (ch : Ch) (g : ChanRole → ChanRole) : (s.modRole ch g).mdict = s.mdict := by cases ch <;> rfl
@[simp] theorem State.modRole_mwin (s : State) (ch : Ch) (g : ChanRole → ChanRole) : (s.modRole ch g).mwin = s.mwin := by cases ch <;> rfl
@[simp] theorem State.modRole_host (s : State) (ch : Ch) (g : ChanRole → ChanRole) : (s.modRole ch g).host = s.host := by cases ch <;> rfl
@[simp] theorem State.modRole_bring (s : State) (ch : Ch) (g : ChanRole → ChanRole) : (s.modRole ch g).bring = s.bring := by cases ch <;> rfl
@[simp] theorem State.modRole_arb (s : State) (ch : Ch) (g : ChanRole → ChanRole) : (s.modRole ch g).arb = s.arb := by cases ch <;> rfl
@[simp] theorem State.modRole_relay (s : State) (ch : Ch) (g : ChanRole → ChanRole) : (s.modRole ch g).relay = s.relay := by cases ch <;> rfl
@[simp] theorem State.modRole_power (s : State) (ch : Ch) (g : ChanRole → ChanRole) : (s.modRole ch g).power = s.power := by cases ch <;> rfl
@[simp] theorem State.modRole_mode (s : State) (ch : Ch) (g : ChanRole → ChanRole) : (s.modRole ch g).mode = s.mode := by cases ch <;> rfl
@[simp] theorem State.modRole_flash (s : State) (ch : Ch) (g : ChanRole → ChanRole) : (s.modRole ch g).flash = s.flash := by cases ch <;> rfl
@[simp] theorem State.modRole_log (s : State) (ch : Ch) (g : ChanRole → ChanRole) : (s.modRole ch g).log = s.log := by cases ch <;> rfl
@[simp] theorem State.modRole_chA (s : State) (ch : Ch) (g : ChanRole → ChanRole) : (s.modRole ch g).chA = s.chA := by cases ch <;> rfl
@[simp] theorem State.modRole_chB (s : State) (ch : Ch) (g : ChanRole → ChanRole) : (s.modRole ch g).chB = s.chB := by cases ch <;> rfl
@[simp] theorem State.modRole_pending (s : State) (ch : Ch) (g : ChanRole → ChanRole) : (s.modRole ch g).pending = s.pending := by cases ch <;> rfl
@[simp] theorem State.modRole_sent (s : State) (ch : Ch) (g : ChanRole → ChanRole) : (s.modRole ch g).sent = s.sent := by cases ch <;> rfl
@[simp] theorem State.modRole_sbTime (s : State) (ch : Ch) (g : ChanRole → ChanRole) : (s.modRole ch g).sbTime = s.sbTime := by cases ch <;> rfl
@[simp] theorem State.modRole_free (s : State) (ch : Ch) (g : ChanRole → ChanRole) : (s.modRole ch g).free = s.free := by cases ch <;> rfl

@[simp] theorem State.mput_unit (s : State) (i k v : Nat) : (s.mput i k v).unit = s.unit := rfl
@[simp] theorem State.mput_mwin (s : State) (i k v : Nat) : (s.mput i k v).mwin = s.mwin := rfl
@[simp] theorem State.mput_host (s : State) (i k v : Nat) : (s.mput i k v).host = s.host := rfl
@[simp] theorem State.mput_bring (s : State) (i k v : Nat) : (s.mput i k v).bring = s.bring := rfl
@[simp] theorem State.mput_roleA (s : State) (i k v : Nat) : (s.mput i k v).roleA = s.roleA := rfl
@[simp] theorem State.mput_roleB (s : State) (i k v : Nat) : (s.mput i k v).roleB = s.roleB := rfl
@[simp] theorem State.mput_arb (s : State) (i k v : Nat) : (s.mput i k v).arb = s.arb := rfl
@[simp] theorem State.mput_relay (s : State) (i k v : Nat) : (s.mput i k v).relay = s.relay := rfl
@[simp] theorem State.mput_power (s : State) (i k v : Nat) : (s.mput i k v).power = s.power := rfl
@[simp] theorem State.mput_mode (s : State) (i k v : Nat) : (s.mput i k v).mode = s.mode := rfl
@[simp] theorem State.mput_flash (s : State) (i k v : Nat) : (s.mput i k v).flash = s.flash := rfl
@[simp] theorem State.mput_log (s : State) (i k v : Nat) : (s.mput i k v).log = s.log := rfl
@[simp] theorem State.mput_chA (s : State) (i k v : Nat) : (s.mput i k v).chA = s.chA := rfl
@[simp] theorem State.mput_chB (s : State) (i k v : Nat) : (s.mput i k v).chB = s.chB := rfl
@[simp] theorem State.mput_pending (s : State) (i k v : Nat) : (s.mput i k v).pending = s.pending := rfl
@[simp] theorem State.mput_sent (s : State) (i k v : Nat) : (s.mput i k v).sent = s.sent := rfl
@[simp] theorem State.mput_sbTime (s : State) (i k v : Nat) : (s.mput i k v).sbTime = s.sbTime := rfl
@[simp] theorem State.mput_free (s : State) (i k v : Nat) : (s.mput i k v).free = s.free := rfl

@[simp] theorem State.mputBits_unit (s : State) (i k hi lo x : Nat) : (s.mputBits i k hi lo x).unit = s.unit := rfl
@[simp] theorem State.mputBits_mwin (s : State) (i k hi lo x : Nat) : (s.mputBits i k hi lo x).mwin = s.mwin := rfl
@[simp] theorem State.mputBits_host (s : State) (i k hi lo x : Nat) : (s.mputBits i k hi lo x).host = s.host := rfl
@[simp] theorem State.mputBits_bring (s : State) (i k hi lo x : Nat) : (s.mputBits i k hi lo x).bring = s.bring := rfl
@[simp] theorem State.mputBits_roleA (s : State) (i k hi lo x : Nat) : (s.mputBits i k hi lo x).roleA = s.roleA := rfl
@[simp] theorem State.mputBits_roleB (s : State) (i k hi lo x : Nat) : (s.mputBits i k hi lo x).roleB = s.roleB := rfl
@[simp] theorem State.mputBits_arb (s : State) (i k hi lo x : Nat) : (s.mputBits i k hi lo x).arb = s.arb := rfl
@[simp] theorem State.mputBits_relay (s : State) (i k hi lo x : Nat) : (s.mputBits i k hi lo x).relay = s.relay := rfl
@[simp] theorem State.mputBits_power (s : State) (i k hi lo x : Nat) : (s.mputBits i k hi lo x).power = s.power := rfl
@[simp] theorem State.mputBits_mode (s : State) (i k hi lo x : Nat) : (s.mputBits i k hi lo x).mode = s.mode := rfl
@[simp] theorem State.mputBits_flash (s : State) (i k hi lo x : Nat) : (s.mputBits i k hi lo x).flash = s.flash := rfl
@[simp] theorem State.mputBits_log (s : State) (i k hi lo x : Nat) : (s.mputBits i k hi lo x).log = s.log := rfl
@[simp] theorem State.mputBits_chA (s : State) (i k hi lo x : Nat) : (s.mputBits i k hi lo x).chA = s.chA := rfl
@[simp] theorem State.mputBits_chB (s : State) (i k hi lo x : Nat) : (s.mputBits i k hi lo x).chB = s.chB := rfl
@[simp] theorem State.mputBits_pending (s : State) (i k hi lo x : Nat) : (s.mputBits i k hi lo x).pending = s.pending := rfl
@[simp] theorem State.mputBits_sent (s : State) (i k hi lo x : Nat) : (s.mputBits i k hi lo x).sent = s.sent := rfl
@[simp] theorem State.mputBits_sbTime (s : State) (i k hi lo x : Nat) : (s.mputBits i k hi lo x).sbTime = s.sbTime := rfl
@[simp] theorem State.mputBits_free (s : State) (i k hi lo x : Nat) : (s.mputBits i k hi lo x).free = s.free := rfl

@[simp] theorem State.minc_unit (s : State) (i k : Nat) : (s.minc i k).unit = s.unit := rfl
@[simp] theorem State.minc_mwin (s : State) (i k : Nat) : (s.minc i k).mwin = s.mwin := rfl
@[simp] theorem State.minc_host (s : State) (i k : Nat) : (s.minc i k).host = s.host := rfl
@[simp] theorem State.minc_bring (s : State) (i k : Nat) : (s.minc i k).bring = s.bring := rfl
@[simp] theorem State.minc_roleA (s : State) (i k : Nat) : (s.minc i k).roleA = s.roleA := rfl
@[simp] theorem State.minc_roleB (s : State) (i k : Nat) : (s.minc i k).roleB = s.roleB := rfl
@[simp] theorem State.minc_arb (s : State) (i k : Nat) : (s.minc i k).arb = s.arb := rfl
@[simp] theorem State.minc_relay (s : State) (i k : Nat) : (s.minc i k).relay = s.relay := rfl
@[simp] theorem State.minc_power (s : State) (i k : Nat) : (s.minc i k).power = s.power := rfl
@[simp] theorem State.minc_mode (s : State) (i k : Nat) : (s.minc i k).mode = s.mode := rfl
@[simp] theorem State.minc_flash (s : State) (i k : Nat) : (s.minc i k).flash = s.flash := rfl
@[simp] theorem State.minc_log (s : State) (i k : Nat) : (s.minc i k).log = s.log := rfl
@[simp] theorem State.minc_chA (s : State) (i k : Nat) : (s.minc i k).chA = s.chA := rfl
@[simp] theorem State.minc_chB (s : State) (i k : Nat) : (s.minc i k).chB = s.chB := rfl
@[simp] theorem State.minc_pending (s : State) (i k : Nat) : (s.minc i k).pending = s.pending := rfl
@[simp] theorem State.minc_sent (s : State) (i k : Nat) : (s.minc i k).sent = s.sent := rfl
@[simp] theorem State.minc_sbTime (s : State) (i k : Nat) : (s.minc i k).sbTime = s.sbTime := rfl
@[simp] theorem State.minc_free (s : State) (i k : Nat) : (s.minc i k).free = s.free := rfl

@[simp] theorem State.noteFlags_unit (s : State) (i k v : Nat) : (s.noteFlags i k v).unit = s.unit := rfl
@[simp] theorem State.noteFlags_mdict (s : State) (i k v : Nat) : (s.noteFlags i k v).mdict = s.mdict := rfl
@[simp] theorem State.noteFlags_mwin (s : State) (i k v : Nat) : (s.noteFlags i k v).mwin = s.mwin := rfl
@[simp] theorem State.noteFlags_bring (s : State) (i k v : Nat) : (s.noteFlags i k v).bring = s.bring := rfl
@[simp] theorem State.noteFlags_roleA (s : State) (i k v : Nat) : (s.noteFlags i k v).roleA = s.roleA := rfl
@[simp] theorem State.noteFlags_roleB (s : State) (i k v : Nat) : (s.noteFlags i k v).roleB = s.roleB := rfl
@[simp] theorem State.noteFlags_arb (s : State) (i k v : Nat) : (s.noteFlags i k v).arb = s.arb := rfl
@[simp] theorem State.noteFlags_relay (s : State) (i k v : Nat) : (s.noteFlags i k v).relay = s.relay := rfl
@[simp] theorem State.noteFlags_power (s : State) (i k v : Nat) : (s.noteFlags i k v).power = s.power := rfl
@[simp] theorem State.noteFlags_mode (s : State) (i k v : Nat) : (s.noteFlags i k v).mode = s.mode := rfl
@[simp] theorem State.noteFlags_flash (s : State) (i k v : Nat) : (s.noteFlags i k v).flash = s.flash := rfl
@[simp] theorem State.noteFlags_log (s : State) (i k v : Nat) : (s.noteFlags i k v).log = s.log := rfl
@[simp] theorem State.noteFlags_chA (s : State) (i k v : Nat) : (s.noteFlags i k v).chA = s.chA := rfl
@[simp] theorem State.noteFlags_chB (s : State) (i k v : Nat) : (s.noteFlags i k v).chB = s.chB := rfl
@[simp] theorem State.noteFlags_pending (s : State) (i k v : Nat) : (s.noteFlags i k v).pending = s.pending := rfl
@[simp] theorem State.noteFlags_sent (s : State) (i k v : Nat) : (s.noteFlags i k v).sent = s.sent := rfl
@[simp] theorem State.noteFlags_sbTime (s : State) (i k v : Nat) : (s.noteFlags i k v).sbTime = s.sbTime := rfl
@[simp] theorem State.noteFlags_free (s : State) (i k v : Nat) : (s.noteFlags i k v).free = s.free := rfl

@[simp] theorem State.mflag_unit (s : State) (i k v : Nat) : (s.mflag i k v).unit = s.unit := by unfold State.mflag; dsimp only; split <;> rfl
@[simp] theorem State.mflag_mwin (s : State) (i k v : Nat) : (s.mflag i k v).mwin = s.mwin := by unfold State.mflag; dsimp only; split <;> rfl
@[simp] theorem State.mflag_bring (s : State) (i k v : Nat) : (s.mflag i k v).bring = s.bring := by unfold State.mflag; dsimp only; split <;> rfl
@[simp] theorem State.mflag_roleA (s : State) (i k v : Nat) : (s.mflag i k v).roleA = s.roleA := by unfold State.mflag; dsimp only; split <;> rfl
@[simp] theorem State.mflag_roleB (s : State) (i k v : Nat) : (s.mflag i k v).roleB = s.roleB := by unfold State.mflag; dsimp only; split <;> rfl
@[simp] theorem State.mflag_arb (s : State) (i k v : Nat) : (s.mflag i k v).arb = s.arb := by unfold State.mflag; dsimp only; split <;> rfl
@[simp] theorem State.mflag_relay (s : State) (i k v : Nat) : (s.mflag i k v).relay = s.relay := by unfold State.mflag; dsimp only; split <;> rfl
@[simp] theorem State.mflag_power (s : State) (i k v : Nat) : (s.mflag i k v).power = s.power := by unfold State.mflag; dsimp only; split <;> rfl
@[simp] theorem State.mflag_mode (s : State) (i k v : Nat) : (s.mflag i k v).mode = s.mode := by unfold State.mflag; dsimp only; split <;> rfl
@[simp] theorem State.mflag_flash (s : State) (i k v : Nat) : (s.mflag i k v).flash = s.flash := by unfold State.mflag; dsimp only; split <;> rfl
@[simp] theorem State.mflag_log (s : State) (i k v : Nat) : (s.mflag i k v).log = s.log := by unfold State.mflag; dsimp only; split <;> rfl
@[simp] theorem State.mflag_chA (s : State) (i k v : Nat) : (s.mflag i k v).chA = s.chA := by unfold State.mflag; dsimp only; split <;> rfl
@[simp] theorem State.mflag_chB (s : State) (i k v : Nat) : (s.mflag i k v).chB = s.chB := by unfold State.mflag; dsimp only; split <;> rfl
@[simp] theorem State.mflag_pending (s : State) (i k v : Nat) : (s.mflag i k v).pending = s.pending := by unfold State.mflag; dsimp only; split <;> rfl
@[simp] theorem State.mflag_sent (s : State) (i k v : Nat) : (s.mflag i k v).sent = s.sent := by unfold State.mflag; dsimp only; split <;> rfl
@[simp] theorem State.mflag_sbTime (s : State) (i k v : Nat) : (s.mflag i k v).sbTime = s.sbTime := by unfold State.mflag; dsimp only; split <;> rfl
@[simp] theorem State.mflag_free (s : State) (i k v : Nat) : (s.mflag i k v).free = s.free := by unfold State.mflag; dsimp only; split <;> rfl

@[simp] theorem State.logEvent_unit (s : State) (a b d : Nat) : (s.logEvent a b d).unit = s.unit := by unfold State.logEvent; dsimp only; (repeat' split) <;> rfl
@[simp] theorem State.logEvent_mwin (s : State) (a b d : Nat) : (s.logEvent a b d).mwin = s.mwin := by unfold State.logEvent; dsimp only; (repeat' split) <;> rfl
@[simp] theorem State.logEvent_host (s : State) (a b d : Nat) : (s.logEvent a b d).host = s.host := by unfold State.logEvent; dsimp only; (repeat' split) <;> rfl
@[simp] theorem State.logEvent_bring (s : State) (a b d : Nat) : (s.logEvent a b d).bring = s.bring := by unfold State.logEvent; dsimp only; (repeat' split) <;> rfl
@[simp] theorem State.logEvent_roleA (s : State) (a b d : Nat) : (s.logEvent a b d).roleA = s.roleA := by unfold State.logEvent; dsimp only; (repeat' split) <;> rfl
@[simp] theorem State.logEvent_roleB (s : State) (a b d : Nat) : (s.logEvent a b d).roleB = s.roleB := by unfold State.logEvent; dsimp only; (repeat' split) <;> rfl
@[simp] theorem State.logEvent_arb (s : State) (a b d : Nat) : (s.logEvent a b d).arb = s.arb := by unfold State.logEvent; dsimp only; (repeat' split) <;> rfl
@[simp] theorem State.logEvent_relay (s : State) (a b d : Nat) : (s.logEvent a b d).relay = s.relay := by unfold State.logEvent; dsimp only; (repeat' split) <;> rfl
@[simp] theorem State.logEvent_power (s : State) (a b d : Nat) : (s.logEvent a b d).power = s.power := by unfold State.logEvent; dsimp only; (repeat' split) <;> rfl
@[simp] theorem State.logEvent_mode (s : State) (a b d : Nat) : (s.logEvent a b d).mode = s.mode := by unfold State.logEvent; dsimp only; (repeat' split) <;> rfl
@[simp] theorem State.logEvent_flash (s : State) (a b d : Nat) : (s.logEvent a b d).flash = s.flash := by unfold State.logEvent; dsimp only; (repeat' split) <;> rfl
@[simp] theorem State.logEvent_chA (s : State) (a b d : Nat) : (s.logEvent a b d).chA = s.chA := by unfold State.logEvent; dsimp only; (repeat' split) <;> rfl
@[simp] theorem State.logEvent_chB (s : State) (a b d : Nat) : (s.logEvent a b d).chB = s.chB := by unfold State.logEvent; dsimp only; (repeat' split) <;> rfl
@[simp] theorem State.logEvent_pending (s : State) (a b d : Nat) : (s.logEvent a b d).pending = s.pending := by unfold State.logEvent; dsimp only; (repeat' split) <;> rfl
@[simp] theorem State.logEvent_sent (s : State) (a b d : Nat) : (s.logEvent a b d).sent = s.sent := by unfold State.logEvent; dsimp only; (repeat' split) <;> rfl
@[simp] theorem State.logEvent_sbTime (s : State) (a b d : Nat) : (s.logEvent a b d).sbTime = s.sbTime := by unfold State.logEvent; dsimp only; (repeat' split) <;> rfl
@[simp] theorem State.logEvent_free (s : State) (a b d : Nat) : (s.logEvent a b d).free = s.free := by unfold State.logEvent; dsimp only; (repeat' split) <;> rfl

@[simp] theorem State.orderLog_unit (s : State) (s₀ : State) : (s₀.orderLog s).unit = s.unit := rfl
@[simp] theorem State.orderLog_mdict (s : State) (s₀ : State) : (s₀.orderLog s).mdict = s.mdict := rfl
@[simp] theorem State.orderLog_mwin (s : State) (s₀ : State) : (s₀.orderLog s).mwin = s.mwin := rfl
@[simp] theorem State.orderLog_host (s : State) (s₀ : State) : (s₀.orderLog s).host = s.host := rfl
@[simp] theorem State.orderLog_bring (s : State) (s₀ : State) : (s₀.orderLog s).bring = s.bring := rfl
@[simp] theorem State.orderLog_roleA (s : State) (s₀ : State) : (s₀.orderLog s).roleA = s.roleA := rfl
@[simp] theorem State.orderLog_roleB (s : State) (s₀ : State) : (s₀.orderLog s).roleB = s.roleB := rfl
@[simp] theorem State.orderLog_arb (s : State) (s₀ : State) : (s₀.orderLog s).arb = s.arb := rfl
@[simp] theorem State.orderLog_relay (s : State) (s₀ : State) : (s₀.orderLog s).relay = s.relay := rfl
@[simp] theorem State.orderLog_power (s : State) (s₀ : State) : (s₀.orderLog s).power = s.power := rfl
@[simp] theorem State.orderLog_mode (s : State) (s₀ : State) : (s₀.orderLog s).mode = s.mode := rfl
@[simp] theorem State.orderLog_flash (s : State) (s₀ : State) : (s₀.orderLog s).flash = s.flash := rfl
@[simp] theorem State.orderLog_chA (s : State) (s₀ : State) : (s₀.orderLog s).chA = s.chA := rfl
@[simp] theorem State.orderLog_chB (s : State) (s₀ : State) : (s₀.orderLog s).chB = s.chB := rfl
@[simp] theorem State.orderLog_pending (s : State) (s₀ : State) : (s₀.orderLog s).pending = s.pending := rfl
@[simp] theorem State.orderLog_sent (s : State) (s₀ : State) : (s₀.orderLog s).sent = s.sent := rfl
@[simp] theorem State.orderLog_sbTime (s : State) (s₀ : State) : (s₀.orderLog s).sbTime = s.sbTime := rfl
@[simp] theorem State.orderLog_free (s : State) (s₀ : State) : (s₀.orderLog s).free = s.free := rfl

@[simp] theorem State.emit_unit (s : State) (x : Sent) : (s.emit x).unit = s.unit := rfl
@[simp] theorem State.emit_mdict (s : State) (x : Sent) : (s.emit x).mdict = s.mdict := rfl
@[simp] theorem State.emit_mwin (s : State) (x : Sent) : (s.emit x).mwin = s.mwin := rfl
@[simp] theorem State.emit_host (s : State) (x : Sent) : (s.emit x).host = s.host := rfl
@[simp] theorem State.emit_bring (s : State) (x : Sent) : (s.emit x).bring = s.bring := rfl
@[simp] theorem State.emit_roleA (s : State) (x : Sent) : (s.emit x).roleA = s.roleA := rfl
@[simp] theorem State.emit_roleB (s : State) (x : Sent) : (s.emit x).roleB = s.roleB := rfl
@[simp] theorem State.emit_arb (s : State) (x : Sent) : (s.emit x).arb = s.arb := rfl
@[simp] theorem State.emit_relay (s : State) (x : Sent) : (s.emit x).relay = s.relay := rfl
@[simp] theorem State.emit_power (s : State) (x : Sent) : (s.emit x).power = s.power := rfl
@[simp] theorem State.emit_mode (s : State) (x : Sent) : (s.emit x).mode = s.mode := rfl
@[simp] theorem State.emit_flash (s : State) (x : Sent) : (s.emit x).flash = s.flash := rfl
@[simp] theorem State.emit_log (s : State) (x : Sent) : (s.emit x).log = s.log := rfl
@[simp] theorem State.emit_chA (s : State) (x : Sent) : (s.emit x).chA = s.chA := rfl
@[simp] theorem State.emit_chB (s : State) (x : Sent) : (s.emit x).chB = s.chB := rfl
@[simp] theorem State.emit_pending (s : State) (x : Sent) : (s.emit x).pending = s.pending := rfl
@[simp] theorem State.emit_sbTime (s : State) (x : Sent) : (s.emit x).sbTime = s.sbTime := rfl
@[simp] theorem State.emit_free (s : State) (x : Sent) : (s.emit x).free = s.free := rfl

@[simp] theorem State.draw_unit (s : State) : s.draw.2.unit = s.unit := rfl
@[simp] theorem State.draw_mdict (s : State) : s.draw.2.mdict = s.mdict := rfl
@[simp] theorem State.draw_mwin (s : State) : s.draw.2.mwin = s.mwin := rfl
@[simp] theorem State.draw_host (s : State) : s.draw.2.host = s.host := rfl
@[simp] theorem State.draw_bring (s : State) : s.draw.2.bring = s.bring := rfl
@[simp] theorem State.draw_roleA (s : State) : s.draw.2.roleA = s.roleA := rfl
@[simp] theorem State.draw_roleB (s : State) : s.draw.2.roleB = s.roleB := rfl
@[simp] theorem State.draw_arb (s : State) : s.draw.2.arb = s.arb := rfl
@[simp] theorem State.draw_relay (s : State) : s.draw.2.relay = s.relay := rfl
@[simp] theorem State.draw_power (s : State) : s.draw.2.power = s.power := rfl
@[simp] theorem State.draw_mode (s : State) : s.draw.2.mode = s.mode := rfl
@[simp] theorem State.draw_flash (s : State) : s.draw.2.flash = s.flash := rfl
@[simp] theorem State.draw_log (s : State) : s.draw.2.log = s.log := rfl
@[simp] theorem State.draw_chA (s : State) : s.draw.2.chA = s.chA := rfl
@[simp] theorem State.draw_chB (s : State) : s.draw.2.chB = s.chB := rfl
@[simp] theorem State.draw_pending (s : State) : s.draw.2.pending = s.pending := rfl
@[simp] theorem State.draw_sent (s : State) : s.draw.2.sent = s.sent := rfl
@[simp] theorem State.draw_sbTime (s : State) : s.draw.2.sbTime = s.sbTime := rfl

@[simp] theorem State.chan_a (s : State) : s.chan .a = s.chA := rfl
@[simp] theorem State.chan_b (s : State) : s.chan .b = s.chB := rfl
@[simp] theorem State.role_a (s : State) : s.role .a = s.roleA := rfl
@[simp] theorem State.role_b (s : State) : s.role .b = s.roleB := rfl
@[simp] theorem State.setChan_chan (s : State) (ch : Ch) (c : Channel) : (s.setChan ch c).chan ch = c := by cases ch <;> rfl
@[simp] theorem State.setChan_chan_other (s : State) (ch : Ch) (c : Channel) : (s.setChan ch c).chan ch.other = s.chan ch.other := by
  cases ch <;> rfl
@[simp] theorem State.setChan_role (s : State) (ch o : Ch) (c : Channel) : (s.setChan ch c).role o = s.role o := by
  cases ch <;> cases o <;> rfl
@[simp] theorem State.setRole_role (s : State) (ch : Ch) (r : ChanRole) : (s.setRole ch r).role ch = r := by cases ch <;> rfl
@[simp] theorem State.setRole_role_other (s : State) (ch : Ch) (r : ChanRole) : (s.setRole ch r).role ch.other = s.role ch.other := by
  cases ch <;> rfl
@[simp] theorem State.setRole_chan (s : State) (ch o : Ch) (r : ChanRole) : (s.setRole ch r).chan o = s.chan o := by
  cases ch <;> cases o <;> rfl
@[simp] theorem State.modRole_role (s : State) (ch : Ch) (g : ChanRole → ChanRole) : (s.modRole ch g).role ch = g (s.role ch) := by
  cases ch <;> rfl
@[simp] theorem State.modRole_role_other (s : State) (ch : Ch) (g : ChanRole → ChanRole) :
    (s.modRole ch g).role ch.other = s.role ch.other := by cases ch <;> rfl
@[simp] theorem State.modRole_chan (s : State) (ch o : Ch) (g : ChanRole → ChanRole) : (s.modRole ch g).chan o = s.chan o := by
  cases ch <;> cases o <;> rfl

/-! ## One channel -/

@[simp] theorem Channel.put_win (c : Channel) (i k v : Nat) : (c.put i k v).win = c.win := rfl
@[simp] theorem Channel.put_posted (c : Channel) (i k v : Nat) : (c.put i k v).posted = c.posted := rfl
@[simp] theorem Channel.put_core (c : Channel) (i k v : Nat) : (c.put i k v).core = c.core := rfl
@[simp] theorem Channel.put_time (c : Channel) (i k v : Nat) : (c.put i k v).time = c.time := rfl
@[simp] theorem Channel.put_drops (c : Channel) (i k v : Nat) : (c.put i k v).drops = c.drops := rfl
@[simp] theorem Channel.put_box (c : Channel) (i k v : Nat) : (c.put i k v).box = c.box := rfl
@[simp] theorem Channel.put_frames (c : Channel) (i k v : Nat) : (c.put i k v).frames = c.frames := rfl
@[simp] theorem Channel.put_nextId (c : Channel) (i k v : Nat) : (c.put i k v).nextId = c.nextId := rfl
@[simp] theorem Channel.put_admitQ (c : Channel) (i k v : Nat) : (c.put i k v).admitQ = c.admitQ := rfl
@[simp] theorem Channel.put_selNo (c : Channel) (i k v : Nat) : (c.put i k v).selNo = c.selNo := rfl
@[simp] theorem Channel.put_pend (c : Channel) (i k v : Nat) : (c.put i k v).pend = c.pend := rfl
@[simp] theorem Channel.put_queues (c : Channel) (i k v : Nat) : (c.put i k v).queues = c.queues := rfl
@[simp] theorem Channel.put_nodes (c : Channel) (i k v : Nat) : (c.put i k v).nodes = c.nodes := rfl
@[simp] theorem Channel.put_tiers (c : Channel) (i k v : Nat) : (c.put i k v).tiers = c.tiers := rfl
@[simp] theorem Channel.put_matching (c : Channel) (i k v : Nat) : (c.put i k v).matching = c.matching := rfl
@[simp] theorem Channel.put_lfsr (c : Channel) (i k v : Nat) : (c.put i k v).lfsr = c.lfsr := rfl
@[simp] theorem Channel.put_pools (c : Channel) (i k v : Nat) : (c.put i k v).pools = c.pools := rfl
@[simp] theorem Channel.put_requesters (c : Channel) (i k v : Nat) : (c.put i k v).requesters = c.requesters := rfl
@[simp] theorem Channel.put_cells (c : Channel) (i k v : Nat) : (c.put i k v).cells = c.cells := rfl
@[simp] theorem Channel.put_ports (c : Channel) (i k v : Nat) : (c.put i k v).ports = c.ports := rfl
@[simp] theorem Channel.put_mdrops (c : Channel) (i k v : Nat) : (c.put i k v).mdrops = c.mdrops := rfl
@[simp] theorem Channel.put_links (c : Channel) (i k v : Nat) : (c.put i k v).links = c.links := rfl
@[simp] theorem Channel.put_cuts (c : Channel) (i k v : Nat) : (c.put i k v).cuts = c.cuts := rfl
@[simp] theorem Channel.put_seqs (c : Channel) (i k v : Nat) : (c.put i k v).seqs = c.seqs := rfl
@[simp] theorem Channel.put_disp (c : Channel) (i k v : Nat) : (c.put i k v).disp = c.disp := rfl
@[simp] theorem Channel.put_vendor (c : Channel) (i k v : Nat) : (c.put i k v).vendor = c.vendor := rfl
@[simp] theorem Channel.put_engines (c : Channel) (i k v : Nat) : (c.put i k v).engines = c.engines := rfl
@[simp] theorem Channel.put_bridge (c : Channel) (i k v : Nat) : (c.put i k v).bridge = c.bridge := rfl
@[simp] theorem Channel.put_cmds (c : Channel) (i k v : Nat) : (c.put i k v).cmds = c.cmds := rfl
@[simp] theorem Channel.put_search (c : Channel) (i k v : Nat) : (c.put i k v).search = c.search := rfl
@[simp] theorem Channel.put_cap (c : Channel) (i k v : Nat) : (c.put i k v).cap = c.cap := rfl
@[simp] theorem Channel.put_jobs (c : Channel) (i k v : Nat) : (c.put i k v).jobs = c.jobs := rfl
@[simp] theorem Channel.put_scan (c : Channel) (i k v : Nat) : (c.put i k v).scan = c.scan := rfl
@[simp] theorem Channel.put_own (c : Channel) (i k v : Nat) : (c.put i k v).own = c.own := rfl
@[simp] theorem Channel.put_held (c : Channel) (i k v : Nat) : (c.put i k v).held = c.held := rfl
@[simp] theorem Channel.put_damage (c : Channel) (i k v : Nat) : (c.put i k v).damage = c.damage := rfl

@[simp] theorem Channel.putBits_win (c : Channel) (i k hi lo x : Nat) : (c.putBits i k hi lo x).win = c.win := rfl
@[simp] theorem Channel.putBits_posted (c : Channel) (i k hi lo x : Nat) : (c.putBits i k hi lo x).posted = c.posted := rfl
@[simp] theorem Channel.putBits_core (c : Channel) (i k hi lo x : Nat) : (c.putBits i k hi lo x).core = c.core := rfl
@[simp] theorem Channel.putBits_time (c : Channel) (i k hi lo x : Nat) : (c.putBits i k hi lo x).time = c.time := rfl
@[simp] theorem Channel.putBits_drops (c : Channel) (i k hi lo x : Nat) : (c.putBits i k hi lo x).drops = c.drops := rfl
@[simp] theorem Channel.putBits_box (c : Channel) (i k hi lo x : Nat) : (c.putBits i k hi lo x).box = c.box := rfl
@[simp] theorem Channel.putBits_frames (c : Channel) (i k hi lo x : Nat) : (c.putBits i k hi lo x).frames = c.frames := rfl
@[simp] theorem Channel.putBits_nextId (c : Channel) (i k hi lo x : Nat) : (c.putBits i k hi lo x).nextId = c.nextId := rfl
@[simp] theorem Channel.putBits_admitQ (c : Channel) (i k hi lo x : Nat) : (c.putBits i k hi lo x).admitQ = c.admitQ := rfl
@[simp] theorem Channel.putBits_selNo (c : Channel) (i k hi lo x : Nat) : (c.putBits i k hi lo x).selNo = c.selNo := rfl
@[simp] theorem Channel.putBits_pend (c : Channel) (i k hi lo x : Nat) : (c.putBits i k hi lo x).pend = c.pend := rfl
@[simp] theorem Channel.putBits_queues (c : Channel) (i k hi lo x : Nat) : (c.putBits i k hi lo x).queues = c.queues := rfl
@[simp] theorem Channel.putBits_nodes (c : Channel) (i k hi lo x : Nat) : (c.putBits i k hi lo x).nodes = c.nodes := rfl
@[simp] theorem Channel.putBits_tiers (c : Channel) (i k hi lo x : Nat) : (c.putBits i k hi lo x).tiers = c.tiers := rfl
@[simp] theorem Channel.putBits_matching (c : Channel) (i k hi lo x : Nat) : (c.putBits i k hi lo x).matching = c.matching := rfl
@[simp] theorem Channel.putBits_lfsr (c : Channel) (i k hi lo x : Nat) : (c.putBits i k hi lo x).lfsr = c.lfsr := rfl
@[simp] theorem Channel.putBits_pools (c : Channel) (i k hi lo x : Nat) : (c.putBits i k hi lo x).pools = c.pools := rfl
@[simp] theorem Channel.putBits_requesters (c : Channel) (i k hi lo x : Nat) : (c.putBits i k hi lo x).requesters = c.requesters := rfl
@[simp] theorem Channel.putBits_cells (c : Channel) (i k hi lo x : Nat) : (c.putBits i k hi lo x).cells = c.cells := rfl
@[simp] theorem Channel.putBits_ports (c : Channel) (i k hi lo x : Nat) : (c.putBits i k hi lo x).ports = c.ports := rfl
@[simp] theorem Channel.putBits_mdrops (c : Channel) (i k hi lo x : Nat) : (c.putBits i k hi lo x).mdrops = c.mdrops := rfl
@[simp] theorem Channel.putBits_links (c : Channel) (i k hi lo x : Nat) : (c.putBits i k hi lo x).links = c.links := rfl
@[simp] theorem Channel.putBits_cuts (c : Channel) (i k hi lo x : Nat) : (c.putBits i k hi lo x).cuts = c.cuts := rfl
@[simp] theorem Channel.putBits_seqs (c : Channel) (i k hi lo x : Nat) : (c.putBits i k hi lo x).seqs = c.seqs := rfl
@[simp] theorem Channel.putBits_disp (c : Channel) (i k hi lo x : Nat) : (c.putBits i k hi lo x).disp = c.disp := rfl
@[simp] theorem Channel.putBits_vendor (c : Channel) (i k hi lo x : Nat) : (c.putBits i k hi lo x).vendor = c.vendor := rfl
@[simp] theorem Channel.putBits_engines (c : Channel) (i k hi lo x : Nat) : (c.putBits i k hi lo x).engines = c.engines := rfl
@[simp] theorem Channel.putBits_bridge (c : Channel) (i k hi lo x : Nat) : (c.putBits i k hi lo x).bridge = c.bridge := rfl
@[simp] theorem Channel.putBits_cmds (c : Channel) (i k hi lo x : Nat) : (c.putBits i k hi lo x).cmds = c.cmds := rfl
@[simp] theorem Channel.putBits_search (c : Channel) (i k hi lo x : Nat) : (c.putBits i k hi lo x).search = c.search := rfl
@[simp] theorem Channel.putBits_cap (c : Channel) (i k hi lo x : Nat) : (c.putBits i k hi lo x).cap = c.cap := rfl
@[simp] theorem Channel.putBits_jobs (c : Channel) (i k hi lo x : Nat) : (c.putBits i k hi lo x).jobs = c.jobs := rfl
@[simp] theorem Channel.putBits_scan (c : Channel) (i k hi lo x : Nat) : (c.putBits i k hi lo x).scan = c.scan := rfl
@[simp] theorem Channel.putBits_own (c : Channel) (i k hi lo x : Nat) : (c.putBits i k hi lo x).own = c.own := rfl
@[simp] theorem Channel.putBits_held (c : Channel) (i k hi lo x : Nat) : (c.putBits i k hi lo x).held = c.held := rfl
@[simp] theorem Channel.putBits_damage (c : Channel) (i k hi lo x : Nat) : (c.putBits i k hi lo x).damage = c.damage := rfl

@[simp] theorem Channel.putBit_win (c : Channel) (i k n : Nat) (b : Bool) : (c.putBit i k n b).win = c.win := rfl
@[simp] theorem Channel.putBit_posted (c : Channel) (i k n : Nat) (b : Bool) : (c.putBit i k n b).posted = c.posted := rfl
@[simp] theorem Channel.putBit_core (c : Channel) (i k n : Nat) (b : Bool) : (c.putBit i k n b).core = c.core := rfl
@[simp] theorem Channel.putBit_time (c : Channel) (i k n : Nat) (b : Bool) : (c.putBit i k n b).time = c.time := rfl
@[simp] theorem Channel.putBit_drops (c : Channel) (i k n : Nat) (b : Bool) : (c.putBit i k n b).drops = c.drops := rfl
@[simp] theorem Channel.putBit_box (c : Channel) (i k n : Nat) (b : Bool) : (c.putBit i k n b).box = c.box := rfl
@[simp] theorem Channel.putBit_frames (c : Channel) (i k n : Nat) (b : Bool) : (c.putBit i k n b).frames = c.frames := rfl
@[simp] theorem Channel.putBit_nextId (c : Channel) (i k n : Nat) (b : Bool) : (c.putBit i k n b).nextId = c.nextId := rfl
@[simp] theorem Channel.putBit_admitQ (c : Channel) (i k n : Nat) (b : Bool) : (c.putBit i k n b).admitQ = c.admitQ := rfl
@[simp] theorem Channel.putBit_selNo (c : Channel) (i k n : Nat) (b : Bool) : (c.putBit i k n b).selNo = c.selNo := rfl
@[simp] theorem Channel.putBit_pend (c : Channel) (i k n : Nat) (b : Bool) : (c.putBit i k n b).pend = c.pend := rfl
@[simp] theorem Channel.putBit_queues (c : Channel) (i k n : Nat) (b : Bool) : (c.putBit i k n b).queues = c.queues := rfl
@[simp] theorem Channel.putBit_nodes (c : Channel) (i k n : Nat) (b : Bool) : (c.putBit i k n b).nodes = c.nodes := rfl
@[simp] theorem Channel.putBit_tiers (c : Channel) (i k n : Nat) (b : Bool) : (c.putBit i k n b).tiers = c.tiers := rfl
@[simp] theorem Channel.putBit_matching (c : Channel) (i k n : Nat) (b : Bool) : (c.putBit i k n b).matching = c.matching := rfl
@[simp] theorem Channel.putBit_lfsr (c : Channel) (i k n : Nat) (b : Bool) : (c.putBit i k n b).lfsr = c.lfsr := rfl
@[simp] theorem Channel.putBit_pools (c : Channel) (i k n : Nat) (b : Bool) : (c.putBit i k n b).pools = c.pools := rfl
@[simp] theorem Channel.putBit_requesters (c : Channel) (i k n : Nat) (b : Bool) : (c.putBit i k n b).requesters = c.requesters := rfl
@[simp] theorem Channel.putBit_cells (c : Channel) (i k n : Nat) (b : Bool) : (c.putBit i k n b).cells = c.cells := rfl
@[simp] theorem Channel.putBit_ports (c : Channel) (i k n : Nat) (b : Bool) : (c.putBit i k n b).ports = c.ports := rfl
@[simp] theorem Channel.putBit_mdrops (c : Channel) (i k n : Nat) (b : Bool) : (c.putBit i k n b).mdrops = c.mdrops := rfl
@[simp] theorem Channel.putBit_links (c : Channel) (i k n : Nat) (b : Bool) : (c.putBit i k n b).links = c.links := rfl
@[simp] theorem Channel.putBit_cuts (c : Channel) (i k n : Nat) (b : Bool) : (c.putBit i k n b).cuts = c.cuts := rfl
@[simp] theorem Channel.putBit_seqs (c : Channel) (i k n : Nat) (b : Bool) : (c.putBit i k n b).seqs = c.seqs := rfl
@[simp] theorem Channel.putBit_disp (c : Channel) (i k n : Nat) (b : Bool) : (c.putBit i k n b).disp = c.disp := rfl
@[simp] theorem Channel.putBit_vendor (c : Channel) (i k n : Nat) (b : Bool) : (c.putBit i k n b).vendor = c.vendor := rfl
@[simp] theorem Channel.putBit_engines (c : Channel) (i k n : Nat) (b : Bool) : (c.putBit i k n b).engines = c.engines := rfl
@[simp] theorem Channel.putBit_bridge (c : Channel) (i k n : Nat) (b : Bool) : (c.putBit i k n b).bridge = c.bridge := rfl
@[simp] theorem Channel.putBit_cmds (c : Channel) (i k n : Nat) (b : Bool) : (c.putBit i k n b).cmds = c.cmds := rfl
@[simp] theorem Channel.putBit_search (c : Channel) (i k n : Nat) (b : Bool) : (c.putBit i k n b).search = c.search := rfl
@[simp] theorem Channel.putBit_cap (c : Channel) (i k n : Nat) (b : Bool) : (c.putBit i k n b).cap = c.cap := rfl
@[simp] theorem Channel.putBit_jobs (c : Channel) (i k n : Nat) (b : Bool) : (c.putBit i k n b).jobs = c.jobs := rfl
@[simp] theorem Channel.putBit_scan (c : Channel) (i k n : Nat) (b : Bool) : (c.putBit i k n b).scan = c.scan := rfl
@[simp] theorem Channel.putBit_own (c : Channel) (i k n : Nat) (b : Bool) : (c.putBit i k n b).own = c.own := rfl
@[simp] theorem Channel.putBit_held (c : Channel) (i k n : Nat) (b : Bool) : (c.putBit i k n b).held = c.held := rfl
@[simp] theorem Channel.putBit_damage (c : Channel) (i k n : Nat) (b : Bool) : (c.putBit i k n b).damage = c.damage := rfl

@[simp] theorem Channel.add_win (c : Channel) (i k n : Nat) : (c.add i k n).win = c.win := rfl
@[simp] theorem Channel.add_posted (c : Channel) (i k n : Nat) : (c.add i k n).posted = c.posted := rfl
@[simp] theorem Channel.add_core (c : Channel) (i k n : Nat) : (c.add i k n).core = c.core := rfl
@[simp] theorem Channel.add_time (c : Channel) (i k n : Nat) : (c.add i k n).time = c.time := rfl
@[simp] theorem Channel.add_drops (c : Channel) (i k n : Nat) : (c.add i k n).drops = c.drops := rfl
@[simp] theorem Channel.add_box (c : Channel) (i k n : Nat) : (c.add i k n).box = c.box := rfl
@[simp] theorem Channel.add_frames (c : Channel) (i k n : Nat) : (c.add i k n).frames = c.frames := rfl
@[simp] theorem Channel.add_nextId (c : Channel) (i k n : Nat) : (c.add i k n).nextId = c.nextId := rfl
@[simp] theorem Channel.add_admitQ (c : Channel) (i k n : Nat) : (c.add i k n).admitQ = c.admitQ := rfl
@[simp] theorem Channel.add_selNo (c : Channel) (i k n : Nat) : (c.add i k n).selNo = c.selNo := rfl
@[simp] theorem Channel.add_pend (c : Channel) (i k n : Nat) : (c.add i k n).pend = c.pend := rfl
@[simp] theorem Channel.add_queues (c : Channel) (i k n : Nat) : (c.add i k n).queues = c.queues := rfl
@[simp] theorem Channel.add_nodes (c : Channel) (i k n : Nat) : (c.add i k n).nodes = c.nodes := rfl
@[simp] theorem Channel.add_tiers (c : Channel) (i k n : Nat) : (c.add i k n).tiers = c.tiers := rfl
@[simp] theorem Channel.add_matching (c : Channel) (i k n : Nat) : (c.add i k n).matching = c.matching := rfl
@[simp] theorem Channel.add_lfsr (c : Channel) (i k n : Nat) : (c.add i k n).lfsr = c.lfsr := rfl
@[simp] theorem Channel.add_pools (c : Channel) (i k n : Nat) : (c.add i k n).pools = c.pools := rfl
@[simp] theorem Channel.add_requesters (c : Channel) (i k n : Nat) : (c.add i k n).requesters = c.requesters := rfl
@[simp] theorem Channel.add_cells (c : Channel) (i k n : Nat) : (c.add i k n).cells = c.cells := rfl
@[simp] theorem Channel.add_ports (c : Channel) (i k n : Nat) : (c.add i k n).ports = c.ports := rfl
@[simp] theorem Channel.add_mdrops (c : Channel) (i k n : Nat) : (c.add i k n).mdrops = c.mdrops := rfl
@[simp] theorem Channel.add_links (c : Channel) (i k n : Nat) : (c.add i k n).links = c.links := rfl
@[simp] theorem Channel.add_cuts (c : Channel) (i k n : Nat) : (c.add i k n).cuts = c.cuts := rfl
@[simp] theorem Channel.add_seqs (c : Channel) (i k n : Nat) : (c.add i k n).seqs = c.seqs := rfl
@[simp] theorem Channel.add_disp (c : Channel) (i k n : Nat) : (c.add i k n).disp = c.disp := rfl
@[simp] theorem Channel.add_vendor (c : Channel) (i k n : Nat) : (c.add i k n).vendor = c.vendor := rfl
@[simp] theorem Channel.add_engines (c : Channel) (i k n : Nat) : (c.add i k n).engines = c.engines := rfl
@[simp] theorem Channel.add_bridge (c : Channel) (i k n : Nat) : (c.add i k n).bridge = c.bridge := rfl
@[simp] theorem Channel.add_cmds (c : Channel) (i k n : Nat) : (c.add i k n).cmds = c.cmds := rfl
@[simp] theorem Channel.add_search (c : Channel) (i k n : Nat) : (c.add i k n).search = c.search := rfl
@[simp] theorem Channel.add_cap (c : Channel) (i k n : Nat) : (c.add i k n).cap = c.cap := rfl
@[simp] theorem Channel.add_jobs (c : Channel) (i k n : Nat) : (c.add i k n).jobs = c.jobs := rfl
@[simp] theorem Channel.add_scan (c : Channel) (i k n : Nat) : (c.add i k n).scan = c.scan := rfl
@[simp] theorem Channel.add_own (c : Channel) (i k n : Nat) : (c.add i k n).own = c.own := rfl
@[simp] theorem Channel.add_held (c : Channel) (i k n : Nat) : (c.add i k n).held = c.held := rfl
@[simp] theorem Channel.add_damage (c : Channel) (i k n : Nat) : (c.add i k n).damage = c.damage := rfl

@[simp] theorem Channel.inc_win (c : Channel) (i k : Nat) : (c.inc i k).win = c.win := rfl
@[simp] theorem Channel.inc_posted (c : Channel) (i k : Nat) : (c.inc i k).posted = c.posted := rfl
@[simp] theorem Channel.inc_core (c : Channel) (i k : Nat) : (c.inc i k).core = c.core := rfl
@[simp] theorem Channel.inc_time (c : Channel) (i k : Nat) : (c.inc i k).time = c.time := rfl
@[simp] theorem Channel.inc_drops (c : Channel) (i k : Nat) : (c.inc i k).drops = c.drops := rfl
@[simp] theorem Channel.inc_box (c : Channel) (i k : Nat) : (c.inc i k).box = c.box := rfl
@[simp] theorem Channel.inc_frames (c : Channel) (i k : Nat) : (c.inc i k).frames = c.frames := rfl
@[simp] theorem Channel.inc_nextId (c : Channel) (i k : Nat) : (c.inc i k).nextId = c.nextId := rfl
@[simp] theorem Channel.inc_admitQ (c : Channel) (i k : Nat) : (c.inc i k).admitQ = c.admitQ := rfl
@[simp] theorem Channel.inc_selNo (c : Channel) (i k : Nat) : (c.inc i k).selNo = c.selNo := rfl
@[simp] theorem Channel.inc_pend (c : Channel) (i k : Nat) : (c.inc i k).pend = c.pend := rfl
@[simp] theorem Channel.inc_queues (c : Channel) (i k : Nat) : (c.inc i k).queues = c.queues := rfl
@[simp] theorem Channel.inc_nodes (c : Channel) (i k : Nat) : (c.inc i k).nodes = c.nodes := rfl
@[simp] theorem Channel.inc_tiers (c : Channel) (i k : Nat) : (c.inc i k).tiers = c.tiers := rfl
@[simp] theorem Channel.inc_matching (c : Channel) (i k : Nat) : (c.inc i k).matching = c.matching := rfl
@[simp] theorem Channel.inc_lfsr (c : Channel) (i k : Nat) : (c.inc i k).lfsr = c.lfsr := rfl
@[simp] theorem Channel.inc_pools (c : Channel) (i k : Nat) : (c.inc i k).pools = c.pools := rfl
@[simp] theorem Channel.inc_requesters (c : Channel) (i k : Nat) : (c.inc i k).requesters = c.requesters := rfl
@[simp] theorem Channel.inc_cells (c : Channel) (i k : Nat) : (c.inc i k).cells = c.cells := rfl
@[simp] theorem Channel.inc_ports (c : Channel) (i k : Nat) : (c.inc i k).ports = c.ports := rfl
@[simp] theorem Channel.inc_mdrops (c : Channel) (i k : Nat) : (c.inc i k).mdrops = c.mdrops := rfl
@[simp] theorem Channel.inc_links (c : Channel) (i k : Nat) : (c.inc i k).links = c.links := rfl
@[simp] theorem Channel.inc_cuts (c : Channel) (i k : Nat) : (c.inc i k).cuts = c.cuts := rfl
@[simp] theorem Channel.inc_seqs (c : Channel) (i k : Nat) : (c.inc i k).seqs = c.seqs := rfl
@[simp] theorem Channel.inc_disp (c : Channel) (i k : Nat) : (c.inc i k).disp = c.disp := rfl
@[simp] theorem Channel.inc_vendor (c : Channel) (i k : Nat) : (c.inc i k).vendor = c.vendor := rfl
@[simp] theorem Channel.inc_engines (c : Channel) (i k : Nat) : (c.inc i k).engines = c.engines := rfl
@[simp] theorem Channel.inc_bridge (c : Channel) (i k : Nat) : (c.inc i k).bridge = c.bridge := rfl
@[simp] theorem Channel.inc_cmds (c : Channel) (i k : Nat) : (c.inc i k).cmds = c.cmds := rfl
@[simp] theorem Channel.inc_search (c : Channel) (i k : Nat) : (c.inc i k).search = c.search := rfl
@[simp] theorem Channel.inc_cap (c : Channel) (i k : Nat) : (c.inc i k).cap = c.cap := rfl
@[simp] theorem Channel.inc_jobs (c : Channel) (i k : Nat) : (c.inc i k).jobs = c.jobs := rfl
@[simp] theorem Channel.inc_scan (c : Channel) (i k : Nat) : (c.inc i k).scan = c.scan := rfl
@[simp] theorem Channel.inc_own (c : Channel) (i k : Nat) : (c.inc i k).own = c.own := rfl
@[simp] theorem Channel.inc_held (c : Channel) (i k : Nat) : (c.inc i k).held = c.held := rfl
@[simp] theorem Channel.inc_damage (c : Channel) (i k : Nat) : (c.inc i k).damage = c.damage := rfl

@[simp] theorem Channel.wput_dict (c : Channel) (i k v : Nat) : (c.wput i k v).dict = c.dict := rfl
@[simp] theorem Channel.wput_posted (c : Channel) (i k v : Nat) : (c.wput i k v).posted = c.posted := rfl
@[simp] theorem Channel.wput_core (c : Channel) (i k v : Nat) : (c.wput i k v).core = c.core := rfl
@[simp] theorem Channel.wput_time (c : Channel) (i k v : Nat) : (c.wput i k v).time = c.time := rfl
@[simp] theorem Channel.wput_drops (c : Channel) (i k v : Nat) : (c.wput i k v).drops = c.drops := rfl
@[simp] theorem Channel.wput_box (c : Channel) (i k v : Nat) : (c.wput i k v).box = c.box := rfl
@[simp] theorem Channel.wput_frames (c : Channel) (i k v : Nat) : (c.wput i k v).frames = c.frames := rfl
@[simp] theorem Channel.wput_nextId (c : Channel) (i k v : Nat) : (c.wput i k v).nextId = c.nextId := rfl
@[simp] theorem Channel.wput_admitQ (c : Channel) (i k v : Nat) : (c.wput i k v).admitQ = c.admitQ := rfl
@[simp] theorem Channel.wput_selNo (c : Channel) (i k v : Nat) : (c.wput i k v).selNo = c.selNo := rfl
@[simp] theorem Channel.wput_pend (c : Channel) (i k v : Nat) : (c.wput i k v).pend = c.pend := rfl
@[simp] theorem Channel.wput_queues (c : Channel) (i k v : Nat) : (c.wput i k v).queues = c.queues := rfl
@[simp] theorem Channel.wput_nodes (c : Channel) (i k v : Nat) : (c.wput i k v).nodes = c.nodes := rfl
@[simp] theorem Channel.wput_tiers (c : Channel) (i k v : Nat) : (c.wput i k v).tiers = c.tiers := rfl
@[simp] theorem Channel.wput_matching (c : Channel) (i k v : Nat) : (c.wput i k v).matching = c.matching := rfl
@[simp] theorem Channel.wput_lfsr (c : Channel) (i k v : Nat) : (c.wput i k v).lfsr = c.lfsr := rfl
@[simp] theorem Channel.wput_pools (c : Channel) (i k v : Nat) : (c.wput i k v).pools = c.pools := rfl
@[simp] theorem Channel.wput_requesters (c : Channel) (i k v : Nat) : (c.wput i k v).requesters = c.requesters := rfl
@[simp] theorem Channel.wput_cells (c : Channel) (i k v : Nat) : (c.wput i k v).cells = c.cells := rfl
@[simp] theorem Channel.wput_ports (c : Channel) (i k v : Nat) : (c.wput i k v).ports = c.ports := rfl
@[simp] theorem Channel.wput_mdrops (c : Channel) (i k v : Nat) : (c.wput i k v).mdrops = c.mdrops := rfl
@[simp] theorem Channel.wput_links (c : Channel) (i k v : Nat) : (c.wput i k v).links = c.links := rfl
@[simp] theorem Channel.wput_cuts (c : Channel) (i k v : Nat) : (c.wput i k v).cuts = c.cuts := rfl
@[simp] theorem Channel.wput_seqs (c : Channel) (i k v : Nat) : (c.wput i k v).seqs = c.seqs := rfl
@[simp] theorem Channel.wput_disp (c : Channel) (i k v : Nat) : (c.wput i k v).disp = c.disp := rfl
@[simp] theorem Channel.wput_vendor (c : Channel) (i k v : Nat) : (c.wput i k v).vendor = c.vendor := rfl
@[simp] theorem Channel.wput_engines (c : Channel) (i k v : Nat) : (c.wput i k v).engines = c.engines := rfl
@[simp] theorem Channel.wput_bridge (c : Channel) (i k v : Nat) : (c.wput i k v).bridge = c.bridge := rfl
@[simp] theorem Channel.wput_cmds (c : Channel) (i k v : Nat) : (c.wput i k v).cmds = c.cmds := rfl
@[simp] theorem Channel.wput_search (c : Channel) (i k v : Nat) : (c.wput i k v).search = c.search := rfl
@[simp] theorem Channel.wput_cap (c : Channel) (i k v : Nat) : (c.wput i k v).cap = c.cap := rfl
@[simp] theorem Channel.wput_jobs (c : Channel) (i k v : Nat) : (c.wput i k v).jobs = c.jobs := rfl
@[simp] theorem Channel.wput_scan (c : Channel) (i k v : Nat) : (c.wput i k v).scan = c.scan := rfl
@[simp] theorem Channel.wput_own (c : Channel) (i k v : Nat) : (c.wput i k v).own = c.own := rfl
@[simp] theorem Channel.wput_held (c : Channel) (i k v : Nat) : (c.wput i k v).held = c.held := rfl
@[simp] theorem Channel.wput_damage (c : Channel) (i k v : Nat) : (c.wput i k v).damage = c.damage := rfl

@[simp] theorem Channel.log_dict (c : Channel) (a b : Nat) : (c.log a b).dict = c.dict := rfl
@[simp] theorem Channel.log_win (c : Channel) (a b : Nat) : (c.log a b).win = c.win := rfl
@[simp] theorem Channel.log_posted (c : Channel) (a b : Nat) : (c.log a b).posted = c.posted := rfl
@[simp] theorem Channel.log_core (c : Channel) (a b : Nat) : (c.log a b).core = c.core := rfl
@[simp] theorem Channel.log_time (c : Channel) (a b : Nat) : (c.log a b).time = c.time := rfl
@[simp] theorem Channel.log_drops (c : Channel) (a b : Nat) : (c.log a b).drops = c.drops := rfl
@[simp] theorem Channel.log_frames (c : Channel) (a b : Nat) : (c.log a b).frames = c.frames := rfl
@[simp] theorem Channel.log_nextId (c : Channel) (a b : Nat) : (c.log a b).nextId = c.nextId := rfl
@[simp] theorem Channel.log_admitQ (c : Channel) (a b : Nat) : (c.log a b).admitQ = c.admitQ := rfl
@[simp] theorem Channel.log_selNo (c : Channel) (a b : Nat) : (c.log a b).selNo = c.selNo := rfl
@[simp] theorem Channel.log_pend (c : Channel) (a b : Nat) : (c.log a b).pend = c.pend := rfl
@[simp] theorem Channel.log_queues (c : Channel) (a b : Nat) : (c.log a b).queues = c.queues := rfl
@[simp] theorem Channel.log_nodes (c : Channel) (a b : Nat) : (c.log a b).nodes = c.nodes := rfl
@[simp] theorem Channel.log_tiers (c : Channel) (a b : Nat) : (c.log a b).tiers = c.tiers := rfl
@[simp] theorem Channel.log_matching (c : Channel) (a b : Nat) : (c.log a b).matching = c.matching := rfl
@[simp] theorem Channel.log_lfsr (c : Channel) (a b : Nat) : (c.log a b).lfsr = c.lfsr := rfl
@[simp] theorem Channel.log_pools (c : Channel) (a b : Nat) : (c.log a b).pools = c.pools := rfl
@[simp] theorem Channel.log_requesters (c : Channel) (a b : Nat) : (c.log a b).requesters = c.requesters := rfl
@[simp] theorem Channel.log_cells (c : Channel) (a b : Nat) : (c.log a b).cells = c.cells := rfl
@[simp] theorem Channel.log_ports (c : Channel) (a b : Nat) : (c.log a b).ports = c.ports := rfl
@[simp] theorem Channel.log_mdrops (c : Channel) (a b : Nat) : (c.log a b).mdrops = c.mdrops := rfl
@[simp] theorem Channel.log_links (c : Channel) (a b : Nat) : (c.log a b).links = c.links := rfl
@[simp] theorem Channel.log_cuts (c : Channel) (a b : Nat) : (c.log a b).cuts = c.cuts := rfl
@[simp] theorem Channel.log_seqs (c : Channel) (a b : Nat) : (c.log a b).seqs = c.seqs := rfl
@[simp] theorem Channel.log_disp (c : Channel) (a b : Nat) : (c.log a b).disp = c.disp := rfl
@[simp] theorem Channel.log_vendor (c : Channel) (a b : Nat) : (c.log a b).vendor = c.vendor := rfl
@[simp] theorem Channel.log_engines (c : Channel) (a b : Nat) : (c.log a b).engines = c.engines := rfl
@[simp] theorem Channel.log_bridge (c : Channel) (a b : Nat) : (c.log a b).bridge = c.bridge := rfl
@[simp] theorem Channel.log_cmds (c : Channel) (a b : Nat) : (c.log a b).cmds = c.cmds := rfl
@[simp] theorem Channel.log_search (c : Channel) (a b : Nat) : (c.log a b).search = c.search := rfl
@[simp] theorem Channel.log_cap (c : Channel) (a b : Nat) : (c.log a b).cap = c.cap := rfl
@[simp] theorem Channel.log_jobs (c : Channel) (a b : Nat) : (c.log a b).jobs = c.jobs := rfl
@[simp] theorem Channel.log_scan (c : Channel) (a b : Nat) : (c.log a b).scan = c.scan := rfl
@[simp] theorem Channel.log_own (c : Channel) (a b : Nat) : (c.log a b).own = c.own := rfl
@[simp] theorem Channel.log_held (c : Channel) (a b : Nat) : (c.log a b).held = c.held := rfl
@[simp] theorem Channel.log_damage (c : Channel) (a b : Nat) : (c.log a b).damage = c.damage := rfl

@[simp] theorem Channel.emit_dict (c : Channel) (x : Sent) : (c.emit x).dict = c.dict := rfl
@[simp] theorem Channel.emit_win (c : Channel) (x : Sent) : (c.emit x).win = c.win := rfl
@[simp] theorem Channel.emit_posted (c : Channel) (x : Sent) : (c.emit x).posted = c.posted := rfl
@[simp] theorem Channel.emit_core (c : Channel) (x : Sent) : (c.emit x).core = c.core := rfl
@[simp] theorem Channel.emit_time (c : Channel) (x : Sent) : (c.emit x).time = c.time := rfl
@[simp] theorem Channel.emit_drops (c : Channel) (x : Sent) : (c.emit x).drops = c.drops := rfl
@[simp] theorem Channel.emit_frames (c : Channel) (x : Sent) : (c.emit x).frames = c.frames := rfl
@[simp] theorem Channel.emit_nextId (c : Channel) (x : Sent) : (c.emit x).nextId = c.nextId := rfl
@[simp] theorem Channel.emit_admitQ (c : Channel) (x : Sent) : (c.emit x).admitQ = c.admitQ := rfl
@[simp] theorem Channel.emit_selNo (c : Channel) (x : Sent) : (c.emit x).selNo = c.selNo := rfl
@[simp] theorem Channel.emit_pend (c : Channel) (x : Sent) : (c.emit x).pend = c.pend := rfl
@[simp] theorem Channel.emit_queues (c : Channel) (x : Sent) : (c.emit x).queues = c.queues := rfl
@[simp] theorem Channel.emit_nodes (c : Channel) (x : Sent) : (c.emit x).nodes = c.nodes := rfl
@[simp] theorem Channel.emit_tiers (c : Channel) (x : Sent) : (c.emit x).tiers = c.tiers := rfl
@[simp] theorem Channel.emit_matching (c : Channel) (x : Sent) : (c.emit x).matching = c.matching := rfl
@[simp] theorem Channel.emit_lfsr (c : Channel) (x : Sent) : (c.emit x).lfsr = c.lfsr := rfl
@[simp] theorem Channel.emit_pools (c : Channel) (x : Sent) : (c.emit x).pools = c.pools := rfl
@[simp] theorem Channel.emit_requesters (c : Channel) (x : Sent) : (c.emit x).requesters = c.requesters := rfl
@[simp] theorem Channel.emit_cells (c : Channel) (x : Sent) : (c.emit x).cells = c.cells := rfl
@[simp] theorem Channel.emit_ports (c : Channel) (x : Sent) : (c.emit x).ports = c.ports := rfl
@[simp] theorem Channel.emit_mdrops (c : Channel) (x : Sent) : (c.emit x).mdrops = c.mdrops := rfl
@[simp] theorem Channel.emit_links (c : Channel) (x : Sent) : (c.emit x).links = c.links := rfl
@[simp] theorem Channel.emit_cuts (c : Channel) (x : Sent) : (c.emit x).cuts = c.cuts := rfl
@[simp] theorem Channel.emit_seqs (c : Channel) (x : Sent) : (c.emit x).seqs = c.seqs := rfl
@[simp] theorem Channel.emit_disp (c : Channel) (x : Sent) : (c.emit x).disp = c.disp := rfl
@[simp] theorem Channel.emit_vendor (c : Channel) (x : Sent) : (c.emit x).vendor = c.vendor := rfl
@[simp] theorem Channel.emit_engines (c : Channel) (x : Sent) : (c.emit x).engines = c.engines := rfl
@[simp] theorem Channel.emit_bridge (c : Channel) (x : Sent) : (c.emit x).bridge = c.bridge := rfl
@[simp] theorem Channel.emit_cmds (c : Channel) (x : Sent) : (c.emit x).cmds = c.cmds := rfl
@[simp] theorem Channel.emit_search (c : Channel) (x : Sent) : (c.emit x).search = c.search := rfl
@[simp] theorem Channel.emit_cap (c : Channel) (x : Sent) : (c.emit x).cap = c.cap := rfl
@[simp] theorem Channel.emit_jobs (c : Channel) (x : Sent) : (c.emit x).jobs = c.jobs := rfl
@[simp] theorem Channel.emit_scan (c : Channel) (x : Sent) : (c.emit x).scan = c.scan := rfl
@[simp] theorem Channel.emit_own (c : Channel) (x : Sent) : (c.emit x).own = c.own := rfl
@[simp] theorem Channel.emit_held (c : Channel) (x : Sent) : (c.emit x).held = c.held := rfl
@[simp] theorem Channel.emit_damage (c : Channel) (x : Sent) : (c.emit x).damage = c.damage := rfl

@[simp] theorem Channel.delta_dict (c : Channel) (d : Delta) : (c.delta d).dict = c.dict := rfl
@[simp] theorem Channel.delta_win (c : Channel) (d : Delta) : (c.delta d).win = c.win := rfl
@[simp] theorem Channel.delta_posted (c : Channel) (d : Delta) : (c.delta d).posted = c.posted := rfl
@[simp] theorem Channel.delta_core (c : Channel) (d : Delta) : (c.delta d).core = c.core := rfl
@[simp] theorem Channel.delta_time (c : Channel) (d : Delta) : (c.delta d).time = c.time := rfl
@[simp] theorem Channel.delta_drops (c : Channel) (d : Delta) : (c.delta d).drops = c.drops := rfl
@[simp] theorem Channel.delta_frames (c : Channel) (d : Delta) : (c.delta d).frames = c.frames := rfl
@[simp] theorem Channel.delta_nextId (c : Channel) (d : Delta) : (c.delta d).nextId = c.nextId := rfl
@[simp] theorem Channel.delta_admitQ (c : Channel) (d : Delta) : (c.delta d).admitQ = c.admitQ := rfl
@[simp] theorem Channel.delta_selNo (c : Channel) (d : Delta) : (c.delta d).selNo = c.selNo := rfl
@[simp] theorem Channel.delta_pend (c : Channel) (d : Delta) : (c.delta d).pend = c.pend := rfl
@[simp] theorem Channel.delta_queues (c : Channel) (d : Delta) : (c.delta d).queues = c.queues := rfl
@[simp] theorem Channel.delta_nodes (c : Channel) (d : Delta) : (c.delta d).nodes = c.nodes := rfl
@[simp] theorem Channel.delta_tiers (c : Channel) (d : Delta) : (c.delta d).tiers = c.tiers := rfl
@[simp] theorem Channel.delta_matching (c : Channel) (d : Delta) : (c.delta d).matching = c.matching := rfl
@[simp] theorem Channel.delta_lfsr (c : Channel) (d : Delta) : (c.delta d).lfsr = c.lfsr := rfl
@[simp] theorem Channel.delta_pools (c : Channel) (d : Delta) : (c.delta d).pools = c.pools := rfl
@[simp] theorem Channel.delta_requesters (c : Channel) (d : Delta) : (c.delta d).requesters = c.requesters := rfl
@[simp] theorem Channel.delta_cells (c : Channel) (d : Delta) : (c.delta d).cells = c.cells := rfl
@[simp] theorem Channel.delta_ports (c : Channel) (d : Delta) : (c.delta d).ports = c.ports := rfl
@[simp] theorem Channel.delta_mdrops (c : Channel) (d : Delta) : (c.delta d).mdrops = c.mdrops := rfl
@[simp] theorem Channel.delta_links (c : Channel) (d : Delta) : (c.delta d).links = c.links := rfl
@[simp] theorem Channel.delta_cuts (c : Channel) (d : Delta) : (c.delta d).cuts = c.cuts := rfl
@[simp] theorem Channel.delta_seqs (c : Channel) (d : Delta) : (c.delta d).seqs = c.seqs := rfl
@[simp] theorem Channel.delta_disp (c : Channel) (d : Delta) : (c.delta d).disp = c.disp := rfl
@[simp] theorem Channel.delta_vendor (c : Channel) (d : Delta) : (c.delta d).vendor = c.vendor := rfl
@[simp] theorem Channel.delta_engines (c : Channel) (d : Delta) : (c.delta d).engines = c.engines := rfl
@[simp] theorem Channel.delta_bridge (c : Channel) (d : Delta) : (c.delta d).bridge = c.bridge := rfl
@[simp] theorem Channel.delta_cmds (c : Channel) (d : Delta) : (c.delta d).cmds = c.cmds := rfl
@[simp] theorem Channel.delta_search (c : Channel) (d : Delta) : (c.delta d).search = c.search := rfl
@[simp] theorem Channel.delta_cap (c : Channel) (d : Delta) : (c.delta d).cap = c.cap := rfl
@[simp] theorem Channel.delta_jobs (c : Channel) (d : Delta) : (c.delta d).jobs = c.jobs := rfl
@[simp] theorem Channel.delta_scan (c : Channel) (d : Delta) : (c.delta d).scan = c.scan := rfl
@[simp] theorem Channel.delta_own (c : Channel) (d : Delta) : (c.delta d).own = c.own := rfl
@[simp] theorem Channel.delta_held (c : Channel) (d : Delta) : (c.delta d).held = c.held := rfl
@[simp] theorem Channel.delta_damage (c : Channel) (d : Delta) : (c.delta d).damage = c.damage := rfl

@[simp] theorem Channel.draw_dict (c : Channel) (n : Nat) : (c.draw n).2.dict = c.dict := rfl
@[simp] theorem Channel.draw_win (c : Channel) (n : Nat) : (c.draw n).2.win = c.win := rfl
@[simp] theorem Channel.draw_posted (c : Channel) (n : Nat) : (c.draw n).2.posted = c.posted := rfl
@[simp] theorem Channel.draw_core (c : Channel) (n : Nat) : (c.draw n).2.core = c.core := rfl
@[simp] theorem Channel.draw_time (c : Channel) (n : Nat) : (c.draw n).2.time = c.time := rfl
@[simp] theorem Channel.draw_drops (c : Channel) (n : Nat) : (c.draw n).2.drops = c.drops := rfl
@[simp] theorem Channel.draw_frames (c : Channel) (n : Nat) : (c.draw n).2.frames = c.frames := rfl
@[simp] theorem Channel.draw_nextId (c : Channel) (n : Nat) : (c.draw n).2.nextId = c.nextId := rfl
@[simp] theorem Channel.draw_admitQ (c : Channel) (n : Nat) : (c.draw n).2.admitQ = c.admitQ := rfl
@[simp] theorem Channel.draw_selNo (c : Channel) (n : Nat) : (c.draw n).2.selNo = c.selNo := rfl
@[simp] theorem Channel.draw_pend (c : Channel) (n : Nat) : (c.draw n).2.pend = c.pend := rfl
@[simp] theorem Channel.draw_queues (c : Channel) (n : Nat) : (c.draw n).2.queues = c.queues := rfl
@[simp] theorem Channel.draw_nodes (c : Channel) (n : Nat) : (c.draw n).2.nodes = c.nodes := rfl
@[simp] theorem Channel.draw_tiers (c : Channel) (n : Nat) : (c.draw n).2.tiers = c.tiers := rfl
@[simp] theorem Channel.draw_matching (c : Channel) (n : Nat) : (c.draw n).2.matching = c.matching := rfl
@[simp] theorem Channel.draw_lfsr (c : Channel) (n : Nat) : (c.draw n).2.lfsr = c.lfsr := rfl
@[simp] theorem Channel.draw_pools (c : Channel) (n : Nat) : (c.draw n).2.pools = c.pools := rfl
@[simp] theorem Channel.draw_requesters (c : Channel) (n : Nat) : (c.draw n).2.requesters = c.requesters := rfl
@[simp] theorem Channel.draw_cells (c : Channel) (n : Nat) : (c.draw n).2.cells = c.cells := rfl
@[simp] theorem Channel.draw_ports (c : Channel) (n : Nat) : (c.draw n).2.ports = c.ports := rfl
@[simp] theorem Channel.draw_mdrops (c : Channel) (n : Nat) : (c.draw n).2.mdrops = c.mdrops := rfl
@[simp] theorem Channel.draw_links (c : Channel) (n : Nat) : (c.draw n).2.links = c.links := rfl
@[simp] theorem Channel.draw_cuts (c : Channel) (n : Nat) : (c.draw n).2.cuts = c.cuts := rfl
@[simp] theorem Channel.draw_seqs (c : Channel) (n : Nat) : (c.draw n).2.seqs = c.seqs := rfl
@[simp] theorem Channel.draw_disp (c : Channel) (n : Nat) : (c.draw n).2.disp = c.disp := rfl
@[simp] theorem Channel.draw_vendor (c : Channel) (n : Nat) : (c.draw n).2.vendor = c.vendor := rfl
@[simp] theorem Channel.draw_engines (c : Channel) (n : Nat) : (c.draw n).2.engines = c.engines := rfl
@[simp] theorem Channel.draw_bridge (c : Channel) (n : Nat) : (c.draw n).2.bridge = c.bridge := rfl
@[simp] theorem Channel.draw_cmds (c : Channel) (n : Nat) : (c.draw n).2.cmds = c.cmds := rfl
@[simp] theorem Channel.draw_search (c : Channel) (n : Nat) : (c.draw n).2.search = c.search := rfl
@[simp] theorem Channel.draw_cap (c : Channel) (n : Nat) : (c.draw n).2.cap = c.cap := rfl
@[simp] theorem Channel.draw_jobs (c : Channel) (n : Nat) : (c.draw n).2.jobs = c.jobs := rfl
@[simp] theorem Channel.draw_scan (c : Channel) (n : Nat) : (c.draw n).2.scan = c.scan := rfl
@[simp] theorem Channel.draw_own (c : Channel) (n : Nat) : (c.draw n).2.own = c.own := rfl
@[simp] theorem Channel.draw_held (c : Channel) (n : Nat) : (c.draw n).2.held = c.held := rfl
@[simp] theorem Channel.draw_damage (c : Channel) (n : Nat) : (c.draw n).2.damage = c.damage := rfl

@[simp] theorem Channel.flag_win (c : Channel) (i k m : Nat) : (c.flag i k m).win = c.win := by unfold Channel.flag; dsimp only; split <;> rfl
@[simp] theorem Channel.flag_posted (c : Channel) (i k m : Nat) : (c.flag i k m).posted = c.posted := by unfold Channel.flag; dsimp only; split <;> rfl
@[simp] theorem Channel.flag_core (c : Channel) (i k m : Nat) : (c.flag i k m).core = c.core := by unfold Channel.flag; dsimp only; split <;> rfl
@[simp] theorem Channel.flag_time (c : Channel) (i k m : Nat) : (c.flag i k m).time = c.time := by unfold Channel.flag; dsimp only; split <;> rfl
@[simp] theorem Channel.flag_drops (c : Channel) (i k m : Nat) : (c.flag i k m).drops = c.drops := by unfold Channel.flag; dsimp only; split <;> rfl
@[simp] theorem Channel.flag_frames (c : Channel) (i k m : Nat) : (c.flag i k m).frames = c.frames := by unfold Channel.flag; dsimp only; split <;> rfl
@[simp] theorem Channel.flag_nextId (c : Channel) (i k m : Nat) : (c.flag i k m).nextId = c.nextId := by unfold Channel.flag; dsimp only; split <;> rfl
@[simp] theorem Channel.flag_admitQ (c : Channel) (i k m : Nat) : (c.flag i k m).admitQ = c.admitQ := by unfold Channel.flag; dsimp only; split <;> rfl
@[simp] theorem Channel.flag_selNo (c : Channel) (i k m : Nat) : (c.flag i k m).selNo = c.selNo := by unfold Channel.flag; dsimp only; split <;> rfl
@[simp] theorem Channel.flag_pend (c : Channel) (i k m : Nat) : (c.flag i k m).pend = c.pend := by unfold Channel.flag; dsimp only; split <;> rfl
@[simp] theorem Channel.flag_queues (c : Channel) (i k m : Nat) : (c.flag i k m).queues = c.queues := by unfold Channel.flag; dsimp only; split <;> rfl
@[simp] theorem Channel.flag_nodes (c : Channel) (i k m : Nat) : (c.flag i k m).nodes = c.nodes := by unfold Channel.flag; dsimp only; split <;> rfl
@[simp] theorem Channel.flag_tiers (c : Channel) (i k m : Nat) : (c.flag i k m).tiers = c.tiers := by unfold Channel.flag; dsimp only; split <;> rfl
@[simp] theorem Channel.flag_matching (c : Channel) (i k m : Nat) : (c.flag i k m).matching = c.matching := by unfold Channel.flag; dsimp only; split <;> rfl
@[simp] theorem Channel.flag_lfsr (c : Channel) (i k m : Nat) : (c.flag i k m).lfsr = c.lfsr := by unfold Channel.flag; dsimp only; split <;> rfl
@[simp] theorem Channel.flag_pools (c : Channel) (i k m : Nat) : (c.flag i k m).pools = c.pools := by unfold Channel.flag; dsimp only; split <;> rfl
@[simp] theorem Channel.flag_requesters (c : Channel) (i k m : Nat) : (c.flag i k m).requesters = c.requesters := by unfold Channel.flag; dsimp only; split <;> rfl
@[simp] theorem Channel.flag_cells (c : Channel) (i k m : Nat) : (c.flag i k m).cells = c.cells := by unfold Channel.flag; dsimp only; split <;> rfl
@[simp] theorem Channel.flag_ports (c : Channel) (i k m : Nat) : (c.flag i k m).ports = c.ports := by unfold Channel.flag; dsimp only; split <;> rfl
@[simp] theorem Channel.flag_mdrops (c : Channel) (i k m : Nat) : (c.flag i k m).mdrops = c.mdrops := by unfold Channel.flag; dsimp only; split <;> rfl
@[simp] theorem Channel.flag_links (c : Channel) (i k m : Nat) : (c.flag i k m).links = c.links := by unfold Channel.flag; dsimp only; split <;> rfl
@[simp] theorem Channel.flag_cuts (c : Channel) (i k m : Nat) : (c.flag i k m).cuts = c.cuts := by unfold Channel.flag; dsimp only; split <;> rfl
@[simp] theorem Channel.flag_seqs (c : Channel) (i k m : Nat) : (c.flag i k m).seqs = c.seqs := by unfold Channel.flag; dsimp only; split <;> rfl
@[simp] theorem Channel.flag_disp (c : Channel) (i k m : Nat) : (c.flag i k m).disp = c.disp := by unfold Channel.flag; dsimp only; split <;> rfl
@[simp] theorem Channel.flag_vendor (c : Channel) (i k m : Nat) : (c.flag i k m).vendor = c.vendor := by unfold Channel.flag; dsimp only; split <;> rfl
@[simp] theorem Channel.flag_engines (c : Channel) (i k m : Nat) : (c.flag i k m).engines = c.engines := by unfold Channel.flag; dsimp only; split <;> rfl
@[simp] theorem Channel.flag_bridge (c : Channel) (i k m : Nat) : (c.flag i k m).bridge = c.bridge := by unfold Channel.flag; dsimp only; split <;> rfl
@[simp] theorem Channel.flag_cmds (c : Channel) (i k m : Nat) : (c.flag i k m).cmds = c.cmds := by unfold Channel.flag; dsimp only; split <;> rfl
@[simp] theorem Channel.flag_search (c : Channel) (i k m : Nat) : (c.flag i k m).search = c.search := by unfold Channel.flag; dsimp only; split <;> rfl
@[simp] theorem Channel.flag_cap (c : Channel) (i k m : Nat) : (c.flag i k m).cap = c.cap := by unfold Channel.flag; dsimp only; split <;> rfl
@[simp] theorem Channel.flag_jobs (c : Channel) (i k m : Nat) : (c.flag i k m).jobs = c.jobs := by unfold Channel.flag; dsimp only; split <;> rfl
@[simp] theorem Channel.flag_scan (c : Channel) (i k m : Nat) : (c.flag i k m).scan = c.scan := by unfold Channel.flag; dsimp only; split <;> rfl
@[simp] theorem Channel.flag_own (c : Channel) (i k m : Nat) : (c.flag i k m).own = c.own := by unfold Channel.flag; dsimp only; split <;> rfl
@[simp] theorem Channel.flag_held (c : Channel) (i k m : Nat) : (c.flag i k m).held = c.held := by unfold Channel.flag; dsimp only; split <;> rfl
@[simp] theorem Channel.flag_damage (c : Channel) (i k m : Nat) : (c.flag i k m).damage = c.damage := by unfold Channel.flag; dsimp only; split <;> rfl

@[simp] theorem Channel.dropCode_dict (c : Channel) (k : Nat) : (c.dropCode k).dict = c.dict := rfl
@[simp] theorem Channel.dropCode_win (c : Channel) (k : Nat) : (c.dropCode k).win = c.win := rfl
@[simp] theorem Channel.dropCode_posted (c : Channel) (k : Nat) : (c.dropCode k).posted = c.posted := rfl
@[simp] theorem Channel.dropCode_core (c : Channel) (k : Nat) : (c.dropCode k).core = c.core := rfl
@[simp] theorem Channel.dropCode_time (c : Channel) (k : Nat) : (c.dropCode k).time = c.time := rfl
@[simp] theorem Channel.dropCode_box (c : Channel) (k : Nat) : (c.dropCode k).box = c.box := rfl
@[simp] theorem Channel.dropCode_frames (c : Channel) (k : Nat) : (c.dropCode k).frames = c.frames := rfl
@[simp] theorem Channel.dropCode_nextId (c : Channel) (k : Nat) : (c.dropCode k).nextId = c.nextId := rfl
@[simp] theorem Channel.dropCode_admitQ (c : Channel) (k : Nat) : (c.dropCode k).admitQ = c.admitQ := rfl
@[simp] theorem Channel.dropCode_selNo (c : Channel) (k : Nat) : (c.dropCode k).selNo = c.selNo := rfl
@[simp] theorem Channel.dropCode_pend (c : Channel) (k : Nat) : (c.dropCode k).pend = c.pend := rfl
@[simp] theorem Channel.dropCode_queues (c : Channel) (k : Nat) : (c.dropCode k).queues = c.queues := rfl
@[simp] theorem Channel.dropCode_nodes (c : Channel) (k : Nat) : (c.dropCode k).nodes = c.nodes := rfl
@[simp] theorem Channel.dropCode_tiers (c : Channel) (k : Nat) : (c.dropCode k).tiers = c.tiers := rfl
@[simp] theorem Channel.dropCode_matching (c : Channel) (k : Nat) : (c.dropCode k).matching = c.matching := rfl
@[simp] theorem Channel.dropCode_lfsr (c : Channel) (k : Nat) : (c.dropCode k).lfsr = c.lfsr := rfl
@[simp] theorem Channel.dropCode_pools (c : Channel) (k : Nat) : (c.dropCode k).pools = c.pools := rfl
@[simp] theorem Channel.dropCode_requesters (c : Channel) (k : Nat) : (c.dropCode k).requesters = c.requesters := rfl
@[simp] theorem Channel.dropCode_cells (c : Channel) (k : Nat) : (c.dropCode k).cells = c.cells := rfl
@[simp] theorem Channel.dropCode_ports (c : Channel) (k : Nat) : (c.dropCode k).ports = c.ports := rfl
@[simp] theorem Channel.dropCode_mdrops (c : Channel) (k : Nat) : (c.dropCode k).mdrops = c.mdrops := rfl
@[simp] theorem Channel.dropCode_links (c : Channel) (k : Nat) : (c.dropCode k).links = c.links := rfl
@[simp] theorem Channel.dropCode_cuts (c : Channel) (k : Nat) : (c.dropCode k).cuts = c.cuts := rfl
@[simp] theorem Channel.dropCode_seqs (c : Channel) (k : Nat) : (c.dropCode k).seqs = c.seqs := rfl
@[simp] theorem Channel.dropCode_disp (c : Channel) (k : Nat) : (c.dropCode k).disp = c.disp := rfl
@[simp] theorem Channel.dropCode_vendor (c : Channel) (k : Nat) : (c.dropCode k).vendor = c.vendor := rfl
@[simp] theorem Channel.dropCode_engines (c : Channel) (k : Nat) : (c.dropCode k).engines = c.engines := rfl
@[simp] theorem Channel.dropCode_bridge (c : Channel) (k : Nat) : (c.dropCode k).bridge = c.bridge := rfl
@[simp] theorem Channel.dropCode_cmds (c : Channel) (k : Nat) : (c.dropCode k).cmds = c.cmds := rfl
@[simp] theorem Channel.dropCode_search (c : Channel) (k : Nat) : (c.dropCode k).search = c.search := rfl
@[simp] theorem Channel.dropCode_cap (c : Channel) (k : Nat) : (c.dropCode k).cap = c.cap := rfl
@[simp] theorem Channel.dropCode_jobs (c : Channel) (k : Nat) : (c.dropCode k).jobs = c.jobs := rfl
@[simp] theorem Channel.dropCode_scan (c : Channel) (k : Nat) : (c.dropCode k).scan = c.scan := rfl
@[simp] theorem Channel.dropCode_own (c : Channel) (k : Nat) : (c.dropCode k).own = c.own := rfl
@[simp] theorem Channel.dropCode_held (c : Channel) (k : Nat) : (c.dropCode k).held = c.held := rfl
@[simp] theorem Channel.dropCode_damage (c : Channel) (k : Nat) : (c.dropCode k).damage = c.damage := rfl

end Sys2Proof.Machine
end

