-- ==== Sys2Proof/Laws/Frame.lean ====
section
/-! SUPPORT. What a command of one channel, and the end of every command, leave as it was outside that channel: one lemma for each
shared operation. -/

namespace Sys2Proof.Machine

/-- A role record but its MIRROR_STALE. -/
def ChanRole.unstale (r : ChanRole) : ChanRole := { r with stale := false }

/-- The host port but the watches' new bits and the relay frames that have come in. -/
def HostPort.still (h : HostPort) : HostPort := { h with watchNew := [], relayIn := [] }

/-- `t` differs from `s` at most in the channels, the log, the relay, what was sent, the free values, MIRROR_STALE, the watches'
new bits and the relay frames come in; of the module dictionary only the count of lost log entries may differ. -/
structure Beside (s t : State) : Prop where
  unit : t.unit = s.unit
  mwin : t.mwin = s.mwin
  bring : t.bring = s.bring
  arb : t.arb = s.arb
  power : t.power = s.power
  mode : t.mode = s.mode
  flash : t.flash = s.flash
  pending : t.pending = s.pending
  sbTime : t.sbTime = s.sbTime
  roleA : t.roleA.unstale = s.roleA.unstale
  roleB : t.roleB.unstale = s.roleB.unstale
  host : t.host.still = s.host.still
  mreg : ∀ k, k ≠ 0x160002 → tabGet mDflt t.mdict k = tabGet mDflt s.mdict k
  wf : tabWf mDflt s.mdict = true → tabWf mDflt t.mdict = true

theorem Beside.refl (s : State) : Beside s s :=
  ⟨rfl, rfl, rfl, rfl, rfl, rfl, rfl, rfl, rfl, rfl, rfl, rfl, fun _ _ => rfl, id⟩

theorem Beside.trans {s t u : State} (a : Beside s t) (b : Beside t u) : Beside s u :=
  ⟨b.unit.trans a.unit, b.mwin.trans a.mwin, b.bring.trans a.bring, b.arb.trans a.arb, b.power.trans a.power,
    b.mode.trans a.mode, b.flash.trans a.flash, b.pending.trans a.pending, b.sbTime.trans a.sbTime, b.roleA.trans a.roleA,
    b.roleB.trans a.roleB, b.host.trans a.host, fun k h => (b.mreg k h).trans (a.mreg k h), fun h => b.wf (a.wf h)⟩

theorem Beside.role {s t : State} (h : Beside s t) (ch : Ch) : (t.role ch).unstale = (s.role ch).unstale := by
  cases ch
  · exact h.roleA
  · exact h.roleB

/-- Folding an operation that stays beside. -/
theorem Beside.foldl {α : Type} (f : State → α → State) (hf : ∀ s a, Beside s (f s a)) (l : List α) (s : State) :
    Beside s (l.foldl f s) := by
  induction l generalizing s with
  | nil => exact Beside.refl s
  | cons a l ih => exact (hf s a).trans (ih (f s a))

theorem beside_noteFlags (s : State) (i k v : Nat) : Beside s (s.noteFlags i k v) :=
  ⟨rfl, rfl, rfl, rfl, rfl, rfl, rfl, rfl, rfl, rfl, rfl, rfl, fun _ _ => rfl, id⟩

theorem beside_setChan (s : State) (ch : Ch) (c : Channel) : Beside s (s.setChan ch c) := by
  cases ch <;> exact ⟨rfl, rfl, rfl, rfl, rfl, rfl, rfl, rfl, rfl, rfl, rfl, rfl, fun _ _ => rfl, id⟩

/-- The module dictionary after a log entry: unchanged, or a lost entry counted. -/
theorem logEvent_mdict (s : State) (a b d : Nat) :
    (s.logEvent a b d).mdict = s.mdict ∨ (s.logEvent a b d).mdict = (s.minc 0x1600 2).mdict := by
  unfold State.logEvent
  dsimp only
  (repeat' split) <;> first | exact .inl rfl | exact .inr rfl

theorem beside_logEvent (s : State) (a b d : Nat) : Beside s (s.logEvent a b d) := by
  refine ⟨by simp, by simp, by simp, by simp, by simp, by simp, by simp, by simp, by simp, by simp, by simp, by simp, ?_, ?_⟩
  · intro k hk
    rcases logEvent_mdict s a b d with h | h <;> rw [h]
    exact (tabGet_tabSet _ _ _ _ _).trans (if_neg (by simpa [objKey] using hk))
  · intro hw
    rcases logEvent_mdict s a b d with h | h <;> rw [h]
    · exact hw
    · exact tabWf_tabSet _ _ _ hw

theorem beside_modRole_stale (s : State) (ch : Ch) : Beside s (s.modRole ch fun r => { r with stale := true }) := by
  cases ch <;> exact ⟨rfl, rfl, rfl, rfl, rfl, rfl, rfl, rfl, rfl, rfl, rfl, rfl, fun _ _ => rfl, id⟩

theorem beside_relayDelta (s : State) (ch : Ch) (d : Delta) : Beside s (s.relayDelta ch d) := by
  have h : ∀ r : Relay, Beside s { s with relay := r } := fun r =>
    ⟨rfl, rfl, rfl, rfl, rfl, rfl, rfl, rfl, rfl, rfl, rfl, rfl, fun _ _ => rfl, id⟩
  unfold State.relayDelta
  dsimp only
  (repeat' split) <;> first | exact Beside.refl s | exact beside_modRole_stale s _ | exact h _

theorem relayDelta_chan (s : State) (ch o : Ch) (d : Delta) : (s.relayDelta ch d).chan o = s.chan o := by
  unfold State.relayDelta
  dsimp only
  (repeat' split) <;> first | rfl | exact State.modRole_chan s _ _ _ | cases o <;> rfl

theorem noteFlags_chan (s : State) (i k v : Nat) (o : Ch) : (s.noteFlags i k v).chan o = s.chan o := by cases o <;> rfl

theorem logEvent_chan (s : State) (a b d : Nat) (o : Ch) : (s.logEvent a b d).chan o = s.chan o := by
  cases o <;> simp

/-- A fold that leaves the channels. -/
theorem foldl_chan {α : Type} (f : State → α → State) (o : Ch) (hf : ∀ s a, (f s a).chan o = s.chan o) (l : List α) (s : State) :
    (l.foldl f s).chan o = s.chan o := by
  induction l generalizing s with
  | nil => rfl
  | cons a l ih => exact (ih (f s a)).trans (hf s a)

theorem beside_drainBox (s : State) (ch : Ch) : Beside s (s.drainBox ch) := by
  unfold State.drainBox
  dsimp only
  refine Beside.trans (Beside.trans (Beside.trans ?_ (Beside.foldl _ (fun s e => beside_logEvent s _ _ _) _ _))
    (Beside.foldl _ (fun s e => beside_noteFlags s _ _ _) _ _)) (Beside.foldl _ (fun s d => beside_relayDelta s _ _) _ _)
  cases ch <;> exact ⟨rfl, rfl, rfl, rfl, rfl, rfl, rfl, rfl, rfl, rfl, rfl, rfl, fun _ _ => rfl, id⟩

theorem drainBox_chan (s : State) (ch : Ch) : (s.drainBox ch).chan ch = (s.chan ch).emptied := by
  unfold State.drainBox
  dsimp only
  rw [foldl_chan _ _ (fun s d => relayDelta_chan s _ _ _), foldl_chan _ _ (fun s e => noteFlags_chan s _ _ _ _),
    foldl_chan _ _ (fun s e => logEvent_chan s _ _ _ _)]
  cases ch <;> rfl

theorem drainBox_chan_other (s : State) (ch : Ch) : (s.drainBox ch).chan ch.other = s.chan ch.other := by
  unfold State.drainBox
  dsimp only
  rw [foldl_chan _ _ (fun s d => relayDelta_chan s _ _ _), foldl_chan _ _ (fun s e => noteFlags_chan s _ _ _ _),
    foldl_chan _ _ (fun s e => logEvent_chan s _ _ _ _)]
  cases ch <;> rfl

/-! ## An operation of one channel -/

/-- It leaves the module beside it. -/
theorem beside_onChan (s : State) (ch : Ch) (f : Ctx → Channel → Channel) : Beside s (s.onChan ch f) :=
  (beside_setChan s ch _).trans (beside_drainBox _ ch)

/-- The channel after it. -/
theorem onChan_chan (s : State) (ch : Ch) (f : Ctx → Channel → Channel) :
    (s.onChan ch f).chan ch = (f (s.ctx ch) (s.chan ch)).emptied := by
  unfold State.onChan
  rw [drainBox_chan, State.setChan_chan]

/-- The other channel after it. -/
theorem onChan_chan_other (s : State) (ch : Ch) (f : Ctx → Channel → Channel) :
    (s.onChan ch f).chan ch.other = s.chan ch.other := by
  unfold State.onChan
  rw [drainBox_chan_other, State.setChan_chan_other]

/-- A step that stays beside and leaves the other channel. -/
structure OnlyChan (ch : Ch) (s t : State) : Prop where
  beside : Beside s t
  other : t.chan ch.other = s.chan ch.other

theorem onlyChan_onChan (s : State) (ch : Ch) (f : Ctx → Channel → Channel) : OnlyChan ch s (s.onChan ch f) :=
  ⟨beside_onChan s ch f, onChan_chan_other s ch f⟩

theorem beside_orderLog (b s : State) : Beside s (b.orderLog s) :=
  ⟨rfl, rfl, rfl, rfl, rfl, rfl, rfl, rfl, rfl, rfl, rfl, rfl, fun _ _ => rfl, id⟩

@[simp] theorem State.orderLog_chan (b s : State) (o : Ch) : (b.orderLog s).chan o = s.chan o := by cases o <;> rfl

/-- A command of a channel that exists answers a next state: the channel is what the operation gives, with its outbox handed over. -/
theorem onCh_next {s : State} {ch : Ch} {part : Bool} (f : Ctx → Channel → Channel) (hc : s.present ch = true) (hp : part = true) :
    ∃ t, onCh s ch part f = .next t ∧ t.chan ch = (f (s.ctx ch) (s.chan ch)).emptied ∧ OnlyChan ch s t := by
  refine ⟨s.orderLog (s.onChan ch f), ?_, ?_, ?_, ?_⟩
  · simp [onCh, hc, hp]
  · rw [State.orderLog_chan, onChan_chan]
  · exact (beside_onChan s ch f).trans (beside_orderLog _ _)
  · rw [State.orderLog_chan, onChan_chan_other]

/-- What a command of one channel can answer. -/
theorem onCh_cases {s t : State} {ch : Ch} {part : Bool} {f : Ctx → Channel → Channel} (h : onCh s ch part f = .next t) :
    t = s.orderLog (s.onChan ch f) ∧ s.present ch = true ∧ part = true := by
  unfold onCh at h
  cases hc : s.present ch <;> cases hp : part <;> simp_all

/-- Its frame. -/
theorem onCh_only {s t : State} {ch : Ch} {part : Bool} {f : Ctx → Channel → Channel} (h : onCh s ch part f = .next t) :
    OnlyChan ch s t := by
  obtain ⟨rfl, -, -⟩ := onCh_cases h
  exact ⟨(beside_onChan s ch f).trans (beside_orderLog _ _), by rw [State.orderLog_chan, onChan_chan_other]⟩

/-! ## The end of a command of the module -/

/-- `t` differs from `s` at most in the channels, the modes, the contacts, the log, the relay, what was sent, the free values,
MIRROR_STALE, the watches' new bits, the relay frames come in, the mode flags and counters and the count of lost entries. -/
structure Around (s t : State) : Prop where
  unit : t.unit = s.unit
  mwin : t.mwin = s.mwin
  bring : t.bring = s.bring
  arb : t.arb = s.arb
  power : { t.power with fault := s.power.fault, role := s.power.role } = s.power
  flash : t.flash = s.flash
  pending : t.pending = s.pending
  sbTime : t.sbTime = s.sbTime
  roleA : t.roleA.unstale = s.roleA.unstale
  roleB : t.roleB.unstale = s.roleB.unstale
  host : t.host.still = s.host.still
  mreg : ∀ k, k ≠ 0x160002 → k ≠ 0x110600 → k ≠ 0x110802 → tabGet mDflt t.mdict k = tabGet mDflt s.mdict k
  wf : tabWf mDflt s.mdict = true → tabWf mDflt t.mdict = true

theorem Beside.around {s t : State} (h : Beside s t) : Around s t :=
  ⟨h.unit, h.mwin, h.bring, h.arb, by rw [h.power], h.flash, h.pending, h.sbTime, h.roleA, h.roleB, h.host,
    fun k a _ _ => h.mreg k a, h.wf⟩

theorem Around.trans {s t u : State} (a : Around s t) (b : Around t u) : Around s u := by
  refine ⟨b.unit.trans a.unit, b.mwin.trans a.mwin, b.bring.trans a.bring, b.arb.trans a.arb, ?_, b.flash.trans a.flash,
    b.pending.trans a.pending, b.sbTime.trans a.sbTime, b.roleA.trans a.roleA, b.roleB.trans a.roleB, b.host.trans a.host,
    fun k h i j => (b.mreg k h i j).trans (a.mreg k h i j), fun h => b.wf (a.wf h)⟩
  have ha := a.power
  have hb := b.power
  rw [← ha, ← hb]

theorem Around.role {s t : State} (h : Around s t) (ch : Ch) : (t.role ch).unstale = (s.role ch).unstale := by
  cases ch
  · exact h.roleA
  · exact h.roleB

theorem beside_eachChan (s : State) (f : Ctx → Channel → Channel) : Beside s (s.eachChan f) :=
  Beside.foldl _ (fun s ch => beside_onChan s ch f) _ s

theorem beside_crossCheck (s : State) (i : Nat) : Beside s (s.crossCheck i) := by
  have both : ∀ (s : State) (i sub m : Nat),
      Beside s ((s.onChan .a fun _ c => c.flag i sub m).onChan .b fun _ c => c.flag i sub m) :=
    fun s _ _ _ => (beside_onChan s _ _).trans (beside_onChan _ _ _)
  unfold State.crossCheck
  dsimp only
  split
  · exact Beside.refl s
  · split
    · split
      · exact Beside.refl s
      · exact both s _ _ _
    · split
      · exact Beside.foldl _ (fun s k => by split; exact Beside.refl s; exact both s _ _ _) _ s
      · split
        · split
          · exact Beside.refl s
          · exact both s _ _ _
        · exact Beside.refl s

theorem beside_followRoles (b s : State) : Beside s (State.followRoles b s) :=
  Beside.foldl _ (fun s ch => by
    split
    · exact Beside.refl s
    · exact (beside_onChan s ch _).trans (Beside.foldl _ beside_crossCheck _ _)) _ s

theorem beside_leaveNoon (s : State) : Beside s s.leaveNoon := by
  unfold State.leaveNoon
  split
  · exact Beside.refl s
  · exact Beside.foldl _ (fun s d => beside_relayDelta s _ _) _ s

/-- The module dictionary after a flag is set: the object gets the bits, or nothing is new. -/
theorem mflag_mdict (s : State) (i k m : Nat) :
    (s.mflag i k m).mdict = s.mdict ∨ (s.mflag i k m).mdict = (s.mput i k (s.mreg i k ||| m)).mdict := by
  unfold State.mflag
  dsimp only
  split
  · exact .inl rfl
  · exact .inr rfl

theorem mflag_get (s : State) (i k m key : Nat) (h : key ≠ objKey i k) :
    tabGet mDflt (s.mflag i k m).mdict key = tabGet mDflt s.mdict key := by
  rcases mflag_mdict s i k m with e | e <;> rw [e]
  exact (tabGet_tabSet _ _ _ _ _).trans (if_neg h)

theorem mflag_wf (s : State) (i k m : Nat) (h : tabWf mDflt s.mdict = true) : tabWf mDflt (s.mflag i k m).mdict = true := by
  rcases mflag_mdict s i k m with e | e <;> rw [e]
  · exact h
  · exact tabWf_tabSet _ _ _ h

theorem mflag_still (s : State) (i k m : Nat) : (s.mflag i k m).host.still = s.host.still := by
  unfold State.mflag
  dsimp only
  split <;> rfl

theorem mflag_chan (s : State) (i k m : Nat) (o : Ch) : (s.mflag i k m).chan o = s.chan o := by cases o <;> simp

theorem around_mode (s : State) (m : ModeSt) : Around s { s with mode := m } :=
  ⟨rfl, rfl, rfl, rfl, rfl, rfl, rfl, rfl, rfl, rfl, rfl, fun _ _ _ _ => rfl, id⟩

theorem around_mflag (s : State) (m : Nat) : Around s (s.mflag 0x1106 0 m) :=
  ⟨by simp, by simp, by simp, by simp, by simp, by simp, by simp, by simp, by simp, by simp, mflag_still s _ _ _,
    fun k _ h _ => mflag_get s _ _ _ k (by simpa [objKey] using h), mflag_wf s _ _ _⟩

theorem around_minc (s : State) : Around s (s.minc 0x1108 2) :=
  ⟨rfl, rfl, rfl, rfl, rfl, rfl, rfl, rfl, rfl, rfl, rfl,
    fun k _ _ h => (tabGet_tabSet _ _ _ _ _).trans (if_neg (by simpa [objKey] using h)), tabWf_tabSet _ _ _⟩

theorem around_enterNight (s : State) : Around s s.enterNight := by
  unfold State.enterNight
  split
  · exact (Beside.refl s).around
  · exact ((around_mode s _).trans (around_minc _)).trans (beside_eachChan _ _).around

theorem around_leaveDawn (s : State) : Around s s.leaveDawn := by
  unfold State.leaveDawn
  split
  · dsimp only
    split
    · exact (around_mode s _).trans (around_enterNight _)
    · exact around_mode s _
  · exact (Beside.refl s).around

theorem around_endDusk (s : State) : Around s s.endDusk := by
  unfold State.endDusk
  split
  · exact ((around_mode s _).trans (around_mflag _ _)).trans (beside_eachChan _ _).around
  · exact (Beside.refl s).around

theorem around_noteMode (s : State) : Around s s.noteMode := by
  unfold State.noteMode
  dsimp only
  split
  · exact (Beside.refl s).around
  · split
    · exact ((around_mode s _).trans (beside_leaveNoon _).around).trans
        ((around_mflag _ _).trans (beside_logEvent _ _ _ _).around)
    · exact (around_mode s _).trans ((around_mflag _ _).trans (beside_logEvent _ _ _ _).around)

theorem around_followContacts (s : State) : Around s s.followContacts := by
  unfold State.followContacts
  split <;> exact ⟨rfl, rfl, rfl, rfl, rfl, rfl, rfl, rfl, rfl, rfl, rfl, fun _ _ _ _ => rfl, id⟩

/-- The end of a command. -/
theorem around_finish (b s : State) : Around s (State.finish b s) :=
  ((around_leaveDawn s).trans (beside_followRoles b _).around).trans
    (((around_endDusk _).trans (around_noteMode _)).trans ((around_followContacts _).trans (beside_orderLog b _).around))

/-! ## What the ports of a channel follow -/

theorem Beside.portView {s t : State} (h : Beside s t) (ch : Ch) : t.portView ch = s.portView ch := by
  have hr := h.role ch
  have h1 : (t.role ch).st = (s.role ch).st := by simpa [ChanRole.unstale] using congrArg ChanRole.st hr
  have h2 : (t.role ch).silent = (s.role ch).silent := by simpa [ChanRole.unstale] using congrArg ChanRole.silent hr
  have h3 : (t.role ch).fence = (s.role ch).fence := by simpa [ChanRole.unstale] using congrArg ChanRole.fence hr
  simp only [State.portView, State.ctx, State.forwards, h1, h2, h3, h.arb, h.mode]

/-- Where no channel's view has changed the ports stay as they are. -/
theorem followRoles_same (b s : State) (h : ∀ ch, b.portView ch = s.portView ch) : State.followRoles b s = s := by
  unfold State.followRoles
  have : ∀ l : List Ch, l.foldl (fun s ch =>
      if b.portView ch = s.portView ch then s
      else [0x410C, 0x4200, 0x4252].foldl State.crossCheck
        (s.onChan ch fun cx c => c.roleChanged cx false)) s = s := by
    intro l
    induction l with
    | nil => rfl
    | cons a l ih => simp only [List.foldl_cons, h a, if_true]; exact ih
  exact this _

theorem leaveNoon_chan (s : State) (o : Ch) : s.leaveNoon.chan o = s.chan o := by
  unfold State.leaveNoon
  split
  · rfl
  · exact foldl_chan _ _ (fun s d => relayDelta_chan s _ _ _) _ _

theorem noteMode_chan (s : State) (o : Ch) : s.noteMode.chan o = s.chan o := by
  have hm : ∀ (u : State) (m : ModeSt), ({ u with mode := m } : State).chan o = u.chan o := fun u m => by cases o <;> rfl
  unfold State.noteMode
  dsimp only
  split
  · rfl
  · split
    · rw [logEvent_chan, mflag_chan, leaveNoon_chan, hm]
    · rw [logEvent_chan, mflag_chan, hm]

theorem followContacts_chan (s : State) (o : Ch) : s.followContacts.chan o = s.chan o := by
  unfold State.followContacts
  split <;> cases o <;> rfl

/-- Outside DAWN, where no channel's view has changed and DUSK does not end, the end of a command leaves the channels. -/
theorem finish_chan (b s : State) (o : Ch) (hd : s.mode.dawn = false) (hk : (s.mode.dusk && s.modeCode != 3) = false)
    (h : ∀ ch, b.portView ch = s.portView ch) : (State.finish b s).chan o = s.chan o := by
  have hl : s.leaveDawn = s := by unfold State.leaveDawn; simp [hd]
  unfold State.finish
  have hu : s.endDusk = s := by unfold State.endDusk; simp [hk]
  rw [State.orderLog_chan, followContacts_chan, noteMode_chan, hl, followRoles_same b s h, hu]

end Sys2Proof.Machine
end

