-- ==== Sys2Proof/Laws/Ops.lean ====
section
/-! SUPPORT. What the operations on the objects of a channel and of the module give to read, and the frames of Safety in terms of them. -/

namespace Sys2Proof.Machine

/-! ## Keys -/

theorem objKey_eq {i j k l : Nat} (hk : k < 256) (hl : l < 256) : objKey i k = objKey j l ↔ i = j ∧ k = l := by
  unfold objKey
  omega

theorem winKey_eq {i j k l : Nat} (hk : k < 2 ^ 40) (hl : l < 2 ^ 40) : winKey i k = winKey j l ↔ i = j ∧ k = l := by
  unfold winKey
  omega

/-! ## Objects of a channel -/

theorem reg_put (c : Channel) (i k v j l : Nat) :
    (c.put i k v).reg j l = if objKey j l = objKey i k then v else c.reg j l := tabGet_tabSet _ _ _ _ _

@[simp] theorem reg_put_self (c : Channel) (i k v : Nat) : (c.put i k v).reg i k = v := by simp [reg_put]

theorem reg_put_ne (c : Channel) {i k v j l : Nat} (hk : k < 256) (hl : l < 256) (h : (j, l) ≠ (i, k)) :
    (c.put i k v).reg j l = c.reg j l := by
  rw [reg_put, if_neg]
  rw [objKey_eq hl hk]
  simpa using h

@[simp] theorem reg_add_self (c : Channel) (i k n : Nat) : (c.add i k n).reg i k = (c.reg i k + n) % 2 ^ 64 := reg_put_self _ _ _ _

@[simp] theorem reg_inc_self (c : Channel) (i k : Nat) : (c.inc i k).reg i k = (c.reg i k + 1) % 2 ^ 64 := reg_put_self _ _ _ _

@[simp] theorem reg_putBit_self (c : Channel) (i k n : Nat) (b : Bool) :
    (c.putBit i k n b).reg i k = setBit (c.reg i k) n b := reg_put_self _ _ _ _

@[simp] theorem reg_putBits_self (c : Channel) (i k hi lo x : Nat) :
    (c.putBits i k hi lo x).reg i k = setBits (c.reg i k) hi lo x := reg_put_self _ _ _ _

theorem reg_add_ne (c : Channel) {i k n j l : Nat} (hk : k < 256) (hl : l < 256) (h : (j, l) ≠ (i, k)) :
    (c.add i k n).reg j l = c.reg j l := reg_put_ne c hk hl h

theorem reg_inc_ne (c : Channel) {i k j l : Nat} (hk : k < 256) (hl : l < 256) (h : (j, l) ≠ (i, k)) :
    (c.inc i k).reg j l = c.reg j l := reg_put_ne c hk hl h

theorem reg_putBit_ne (c : Channel) {i k n j l : Nat} {b : Bool} (hk : k < 256) (hl : l < 256) (h : (j, l) ≠ (i, k)) :
    (c.putBit i k n b).reg j l = c.reg j l := reg_put_ne c hk hl h

theorem reg_putBits_ne (c : Channel) {i k hi lo x j l : Nat} (hk : k < 256) (hl : l < 256) (h : (j, l) ≠ (i, k)) :
    (c.putBits i k hi lo x).reg j l = c.reg j l := reg_put_ne c hk hl h

/-- A mask all of whose bits are set adds nothing. -/
theorem or_of_sub_and {old mask : Nat} (h : mask - (mask &&& old) = 0) : old ||| mask = old := by
  have h1 : mask &&& old = mask := Nat.le_antisymm Nat.and_le_left (by omega)
  apply Nat.eq_of_testBit_eq
  intro i
  have h2 : (mask &&& old).testBit i = mask.testBit i := by rw [h1]
  rw [Nat.testBit_and] at h2
  rw [Nat.testBit_or]
  cases hm : mask.testBit i <;> cases ho : old.testBit i <;> simp_all

@[simp] theorem reg_flag_self (c : Channel) (i k m : Nat) : (c.flag i k m).reg i k = c.reg i k ||| m := by
  unfold Channel.flag
  dsimp only
  split
  · exact (or_of_sub_and ‹_›).symm
  · exact reg_put_self _ _ _ _

theorem reg_flag_ne (c : Channel) {i k m j l : Nat} (hk : k < 256) (hl : l < 256) (h : (j, l) ≠ (i, k)) :
    (c.flag i k m).reg j l = c.reg j l := by
  unfold Channel.flag
  dsimp only
  split
  · rfl
  · exact reg_put_ne c hk hl h

@[simp] theorem reg_emptied (c : Channel) (i k : Nat) : c.emptied.reg i k = c.reg i k := rfl
@[simp] theorem wget_emptied (c : Channel) (i k : Nat) : c.emptied.wget i k = c.wget i k := rfl

theorem wget_wput (c : Channel) (i k v j l : Nat) :
    (c.wput i k v).wget j l = if winKey j l = winKey i k then v else c.wget j l := tabGet_tabSet _ _ _ _ _

@[simp] theorem wget_wput_self (c : Channel) (i k v : Nat) : (c.wput i k v).wget i k = v := by simp [wget_wput]

@[simp] theorem wget_put (c : Channel) (i k v j l : Nat) : (c.put i k v).wget j l = c.wget j l := rfl
@[simp] theorem reg_wput (c : Channel) (i k v j l : Nat) : (c.wput i k v).reg j l = c.reg j l := rfl

/-! ## Objects of the module -/

theorem mreg_mput (s : State) (i k v j l : Nat) :
    (s.mput i k v).mreg j l = if objKey j l = objKey i k then v else s.mreg j l := tabGet_tabSet _ _ _ _ _

@[simp] theorem mreg_mput_self (s : State) (i k v : Nat) : (s.mput i k v).mreg i k = v := by simp [mreg_mput]

theorem mreg_mput_ne (s : State) {i k v j l : Nat} (hk : k < 256) (hl : l < 256) (h : (j, l) ≠ (i, k)) :
    (s.mput i k v).mreg j l = s.mreg j l := by
  rw [mreg_mput, if_neg]
  rw [objKey_eq hl hk]
  simpa using h

@[simp] theorem mreg_mflag_self (s : State) (i k m : Nat) : (s.mflag i k m).mreg i k = s.mreg i k ||| m := by
  unfold State.mflag
  dsimp only
  split
  · exact (or_of_sub_and ‹_›).symm
  · exact mreg_mput_self s i k _

theorem mreg_mflag_ne (s : State) {i k m j l : Nat} (hk : k < 256) (hl : l < 256) (h : (j, l) ≠ (i, k)) :
    (s.mflag i k m).mreg j l = s.mreg j l :=
  mflag_get s i k m _ (by rw [Ne, objKey_eq hl hk]; simpa using h)

/-! ## Only some objects -/

theorem onlyRegs_refl (c : Channel) (l : List (Nat × Nat)) : onlyRegs c c l := ⟨rfl, fun _ _ _ _ => rfl⟩

theorem onlyRegs_put {c d : Channel} {l : List (Nat × Nat)} {i k : Nat} (v : Nat) (hk : k < 256) (h : onlyRegs c d l)
    (hm : (i, k) ∈ l) : onlyRegs c (d.put i k v) l := by
  refine ⟨h.1, fun idx sub hs hn => ?_⟩
  rw [reg_put_ne d hk hs (fun e => hn (e ▸ hm))]
  exact h.2 idx sub hs hn

theorem onlyRegs_add {c d : Channel} {l : List (Nat × Nat)} {i k : Nat} (n : Nat) (hk : k < 256) (h : onlyRegs c d l)
    (hm : (i, k) ∈ l) : onlyRegs c (d.add i k n) l := onlyRegs_put _ hk h hm

theorem onlyRegs_inc {c d : Channel} {l : List (Nat × Nat)} {i k : Nat} (hk : k < 256) (h : onlyRegs c d l)
    (hm : (i, k) ∈ l) : onlyRegs c (d.inc i k) l := onlyRegs_put _ hk h hm

theorem onlyRegs_putBit {c d : Channel} {l : List (Nat × Nat)} {i k : Nat} (n : Nat) (b : Bool) (hk : k < 256)
    (h : onlyRegs c d l) (hm : (i, k) ∈ l) : onlyRegs c (d.putBit i k n b) l := onlyRegs_put _ hk h hm

theorem onlyRegs_putBits {c d : Channel} {l : List (Nat × Nat)} {i k : Nat} (hi lo x : Nat) (hk : k < 256)
    (h : onlyRegs c d l) (hm : (i, k) ∈ l) : onlyRegs c (d.putBits i k hi lo x) l := onlyRegs_put _ hk h hm

theorem onlyRegs_box {c d : Channel} {l : List (Nat × Nat)} (b : Outbox) (h : onlyRegs c d l) :
    onlyRegs c { d with box := b } l := ⟨h.1, h.2⟩

theorem onlyRegs_flag {c d : Channel} {l : List (Nat × Nat)} {i k : Nat} (m : Nat) (hk : k < 256) (h : onlyRegs c d l)
    (hm : (i, k) ∈ l) : onlyRegs c (d.flag i k m) l := by
  unfold Channel.flag
  dsimp only
  split
  · exact h
  · exact onlyRegs_box _ (onlyRegs_put _ hk h hm)

theorem onlyRegs_emptied {c d : Channel} {l : List (Nat × Nat)} (h : onlyRegs c d l) : onlyRegs c d.emptied l := ⟨h.1, h.2⟩

theorem onlyRegs_log {c d : Channel} {l : List (Nat × Nat)} (a b : Nat) (h : onlyRegs c d l) : onlyRegs c (d.log a b) l := ⟨h.1, h.2⟩

theorem onlyRegs_emit {c d : Channel} {l : List (Nat × Nat)} (x : Sent) (h : onlyRegs c d l) : onlyRegs c (d.emit x) l := ⟨h.1, h.2⟩

/-! ## Objects that keep their values -/

theorem keepsRegs_refl (c : Channel) (l : List (Nat × Nat)) : keepsRegs c c l := fun _ _ _ _ => rfl

theorem keepsRegs_put {c d : Channel} {l : List (Nat × Nat)} {i k : Nat} (v : Nat) (hk : k < 256) (h : keepsRegs c d l)
    (hm : (i, k) ∈ l) : keepsRegs c (d.put i k v) l := by
  intro idx sub hs hn
  rw [reg_put_ne d hk hs (fun e => hn (e ▸ hm))]
  exact h idx sub hs hn

theorem keepsRegs_add {c d : Channel} {l : List (Nat × Nat)} {i k : Nat} (n : Nat) (hk : k < 256) (h : keepsRegs c d l)
    (hm : (i, k) ∈ l) : keepsRegs c (d.add i k n) l := keepsRegs_put _ hk h hm

theorem keepsRegs_inc {c d : Channel} {l : List (Nat × Nat)} {i k : Nat} (hk : k < 256) (h : keepsRegs c d l)
    (hm : (i, k) ∈ l) : keepsRegs c (d.inc i k) l := keepsRegs_put _ hk h hm

theorem keepsRegs_putBits {c d : Channel} {l : List (Nat × Nat)} {i k : Nat} (hi lo x : Nat) (hk : k < 256)
    (h : keepsRegs c d l) (hm : (i, k) ∈ l) : keepsRegs c (d.putBits i k hi lo x) l := keepsRegs_put _ hk h hm

theorem keepsRegs_flag {c d : Channel} {l : List (Nat × Nat)} {i k : Nat} (m : Nat) (hk : k < 256) (h : keepsRegs c d l)
    (hm : (i, k) ∈ l) : keepsRegs c (d.flag i k m) l := by
  intro idx sub hs hn
  rw [reg_flag_ne d hk hs (fun e => hn (e ▸ hm))]
  exact h idx sub hs hn

/-- Only the dictionary counts. -/
theorem keepsRegs_same {c d : Channel} {l : List (Nat × Nat)} (e : Channel) (he : e.dict = d.dict) (h : keepsRegs c d l) :
    keepsRegs c e l := by
  intro idx sub hs hn
  rw [← h idx sub hs hn]
  unfold Channel.reg
  rw [he]

theorem onlyRegs.keeps {c d : Channel} {l : List (Nat × Nat)} (h : onlyRegs c d l) : keepsRegs c d l := h.2

/-! ## The frames of Safety -/

theorem Beside.sameModule {s t : State} (h : Beside s t) : sameModule s t := by
  refine ⟨h.unit, h.mwin, h.bring, h.arb, h.power, h.mode, h.flash, h.pending, h.sbTime, fun ch => ?_, ?_, fun i k hk hn => ?_⟩
  · have hr := congrArg (fun r : ChanRole => { r with stale := (s.role ch).stale }) (h.role ch)
    exact hr
  · have hh := congrArg (fun x : HostPort => { x with watchNew := s.host.watchNew, relayIn := s.host.relayIn }) h.host
    exact hh
  · exact h.mreg _ (fun e => hn (by
      have := (objKey_eq (i := i) (j := 0x1600) (k := k) (l := 2) hk (by decide)).1 (by simpa [objKey] using e)
      rw [this.1, this.2]))

theorem OnlyChan.sameOutside {ch : Ch} {s t : State} (h : OnlyChan ch s t) : sameOutside ch s t := ⟨h.other, h.beside.sameModule⟩

theorem Around.sameBoard {s t : State} (h : Around s t) : sameBoard s t := by
  refine ⟨h.unit, h.mwin, h.bring, h.arb, h.flash, h.pending, h.sbTime, h.power, fun ch => ?_⟩
  have hr := congrArg (fun r : ChanRole => { r with stale := (s.role ch).stale }) (h.role ch)
  exact hr

/-- A command of a channel that exists answers a next state, in the terms of Safety. -/
theorem onCh_answers {s : State} {ch : Ch} {part : Bool} (f : Ctx → Channel → Channel) (hc : s.present ch = true)
    (hp : part = true) :
    ∃ t, onCh s ch part f = .next t ∧ sameOutside ch s t ∧ t.chan ch = (f (s.ctx ch) (s.chan ch)).emptied := by
  obtain ⟨t, h, hch, ho⟩ := onCh_next f hc hp
  exact ⟨t, h, ho.sameOutside, hch⟩

/-! ## What is put out -/

theorem foldl_sent {α : Type} (f : State → α → State) (hf : ∀ s a, (f s a).sent = s.sent) (l : List α) (s : State) :
    (l.foldl f s).sent = s.sent := by
  induction l generalizing s with
  | nil => rfl
  | cons a l ih => exact (ih (f s a)).trans (hf s a)

theorem relayDelta_sent (s : State) (ch : Ch) (d : Delta) : (s.relayDelta ch d).sent = s.sent := by
  unfold State.relayDelta
  dsimp only
  (repeat' split) <;> first | rfl | exact State.modRole_sent s _ _

theorem drainBox_sent (s : State) (ch : Ch) : (s.drainBox ch).sent = s.sent ++ (s.chan ch).box.out := by
  unfold State.drainBox
  dsimp only
  rw [foldl_sent _ (fun s d => relayDelta_sent s _ _), foldl_sent _ (fun s e => State.noteFlags_sent s _ _ _),
    foldl_sent _ (fun s e => State.logEvent_sent s _ _ _)]
  cases ch <;> rfl

theorem onChan_sent (s : State) (ch : Ch) (f : Ctx → Channel → Channel) :
    (s.onChan ch f).sent = s.sent ++ (f (s.ctx ch) (s.chan ch)).box.out := by
  unfold State.onChan
  rw [drainBox_sent, State.setChan_chan]
  cases ch <;> rfl

/-- The same with what came out. -/
theorem onCh_answers_sent {s : State} {ch : Ch} {part : Bool} (f : Ctx → Channel → Channel) (hc : s.present ch = true)
    (hp : part = true) :
    ∃ t, onCh s ch part f = .next t ∧ sameOutside ch s t ∧ t.chan ch = (f (s.ctx ch) (s.chan ch)).emptied ∧
      t.sent = s.sent ++ (f (s.ctx ch) (s.chan ch)).box.out := by
  refine ⟨s.orderLog (s.onChan ch f), ?_, ?_, ?_, ?_⟩
  · simp [onCh, hc, hp]
  · have h : OnlyChan ch s (s.orderLog (s.onChan ch f)) :=
      ⟨(beside_onChan s ch f).trans (beside_orderLog _ _), by rw [State.orderLog_chan, onChan_chan_other]⟩
    exact h.sameOutside
  · rw [State.orderLog_chan, onChan_chan]
  · rw [State.orderLog_sent, onChan_sent]

end Sys2Proof.Machine
end

