-- ==== Sys2Proof/Laws/Host.lean ====
section
/-! SUPPORT. A signed WRITE, from its arrival to its execution. -/

namespace Sys2Proof.Machine

/-! ## Bytes of a message -/

theorem leBytes_length (n v : Nat) : (leBytes n v).length = n := by
  induction n generalizing v with
  | zero => rfl
  | succ n ih => simp [leBytes, ih]

theorem leNat_leBytes (n v : Nat) : leNat (leBytes n v) = v % 2 ^ (8 * n) := by
  induction n generalizing v with
  | zero => simp [leBytes, leNat, Nat.mod_one]
  | succ n ih =>
    simp only [leBytes, leNat, ih, BitVec.toNat_ofNat, Nat.shiftRight_eq_div_pow]
    have h : 2 ^ (8 * (n + 1)) = 2 ^ 8 * 2 ^ (8 * n) := by rw [Nat.mul_add, Nat.pow_add, Nat.mul_comm]
    rw [h, Nat.mod_mul]
    rfl

/-- The message of a WRITE row as its head and its rest. -/
theorem writeRequest_msg (h : AuthHdr) (idx sub : Nat) (data : List Byte) :
    (writeRequest h idx sub data).msg = signedBody h idx sub data ++ h.mac := by
  simp [writeRequest, signedBody]

/-- The ten bytes before DATA. -/
theorem signedBody_head (h : AuthHdr) (idx sub : Nat) (data : List Byte) :
    ∃ c0 c1 c2 c3 : Byte, leBytes 4 h.counter = [c0, c1, c2, c3] ∧
      signedBody h idx sub data = BitVec.ofNat 8 idx :: BitVec.ofNat 8 (idx >>> 8) :: BitVec.ofNat 8 sub :: 1#8 :: c0 :: c1 :: c2 ::
        c3 :: BitVec.ofNat 8 data.length :: BitVec.ofNat 8 (data.length >>> 8) :: data :=
  ⟨_, _, _, _, rfl, rfl⟩

theorem le2 (v : Nat) (hv : v < 65536) : leNat [BitVec.ofNat 8 v, BitVec.ofNat 8 (v >>> 8)] = v := by
  have := leNat_leBytes 2 v
  simp only [leBytes] at this
  rw [this]
  omega

/-- What the fields of a WRITE row's message say. -/
structure WriteFields (m : List Byte) (h : AuthHdr) (idx sub : Nat) (data : List Byte) : Prop where
  len : m.length = 18 + data.length
  index : leNat (slice m 0 2) = idx
  subIndex : byteAt m 2 = sub
  flags : byteAt m 3 = 1
  counter : leNat (slice m 4 4) = h.counter
  dataLen : leNat (slice m 8 2) = data.length
  payload : slice m 10 data.length = data
  body : m.take (m.length - 8) = signedBody h idx sub data
  mac : m.drop (m.length - 8) = h.mac

theorem writeRequest_fields (h : AuthHdr) (idx sub : Nat) (data : List Byte) (hi : idx < 65536) (hs : sub < 256)
    (hd : data.length < 65536) (hc : h.counter < 2 ^ 32) (hm : h.mac.length = 8) :
    WriteFields (writeRequest h idx sub data).msg h idx sub data := by
  obtain ⟨c0, c1, c2, c3, e4, eb⟩ := signedBody_head h idx sub data
  have hlen : (signedBody h idx sub data).length = 10 + data.length := by rw [eb]; simp; omega
  rw [writeRequest_msg]
  have hl : (signedBody h idx sub data ++ h.mac).length = 18 + data.length := by simp [hlen, hm]; omega
  have hk : (signedBody h idx sub data ++ h.mac).length - 8 = (signedBody h idx sub data).length := by rw [hl, hlen]; omega
  refine ⟨hl, ?_, ?_, ?_, ?_, ?_, ?_, ?_, ?_⟩
  · rw [eb]; exact le2 idx hi
  · rw [eb]; simp [byteAt]; omega
  · rw [eb]; rfl
  · have := leNat_leBytes 4 h.counter
    rw [e4] at this
    rw [eb]
    show leNat [c0, c1, c2, c3] = _
    rw [this]
    omega
  · rw [eb]; exact le2 _ hd
  · rw [eb]
    show ((data ++ h.mac).take data.length) = data
    simp
  · rw [hk, List.take_left]
  · rw [hk, List.drop_left]

/-! ## Arrival -/

/-- What the arrival of a signed WRITE may change: counters of the host port, sessions, the marks of R615. -/
def vouched (s : State) (m : Store) (l : List Session) (r : List Nat) : State :=
  { s with mdict := m, host := { s.host with sessions := l, refuse := r } }

theorem keyHi (k : Nat) (h : k / 256 ≠ 0x1430) (j : Nat) (hj : j < 256) : k ≠ objKey 0x1430 j := by
  unfold objKey
  omega

/-- A signed WRITE is executed on the state with its session's counter used up (R597, R606). -/
theorem signed_serve {s : State} {h : AuthHdr} {idx sub : Nat} {data : List Byte} (hi : idx < 65536) (hs : sub < 256)
    (hd : data.length < 65536) (ok : signedOk s h idx sub data) (hp : ∀ st, s.place idx sub ≠ .unknown st) :
    ∃ m l r, (∀ k, k / 256 ≠ 0x1430 → tabGet mDflt m k = tabGet mDflt s.mdict k) ∧
      hostRow (writeRequest h idx sub data) 2 s =
        (let q := writeRequest h idx sub data
         let w := (vouched s m l r).writeObject idx sub data false
         .next (s.finish ((w.2.keepDup q 2 (statusAnswer 2 w.1 q.msg)).answer q 2 (statusAnswer 2 w.1 q.msg)))) := by
  obtain ⟨h1, h2, h3, h4, h5, h6, h7, h8, h9, h10, h11, x, hx, hv1, hv2, hv3⟩ := ok
  have F := writeRequest_fields h idx sub data hi hs hd h7 h8
  generalize hQ : writeRequest h idx sub data = q at *
  have e1 : q.bus = h.bus := by rw [← hQ]; rfl
  have e2 : q.src = h.src := by rw [← hQ]; rfl
  have e3 : q.dest = h.dest := by rw [← hQ]; rfl
  have e4 : q.tag = h.tag := by rw [← hQ]; rfl
  have hbu : s.takePlace.2.busUp h.bus = true := h3
  obtain ⟨k, hk, ha⟩ : ∃ k, k < 256 ∧ s.takePlace.2.arrived q 2 = some (s.takePlace.2.minc 0x1430 k) := by
    unfold State.arrived
    rw [e1]
    cases hb : h.bus with
    | canA => exact ⟨1, by decide, by simp only [State.countRx]; rw [← hb, hbu]; rfl⟩
    | canB => exact ⟨2, by decide, by simp only [State.countRx]; rw [← hb, hbu]; rfl⟩
    | eth mac => exact ⟨3, by decide, by simp only [State.countRx]; rw [← hb, hbu]; rfl⟩
    | relay m => exact absurd hb (h2 m)
  have hq : (s.takePlace.2.minc 0x1430 k).node = s.node := rfl
  have hdup : (State.recentDups (s.takePlace.2.minc 0x1430 k) q.src).find?
      (fun d => d.tag == q.tag && d.func == 2 && d.msg == q.msg) = none := by
    have : State.recentDups (s.takePlace.2.minc 0x1430 k) q.src = s.recentDups h.src := by rw [e2]; rfl
    rw [this, e4, List.find?_eq_none]
    intro d hd
    simpa using (List.any_eq_false.1 h10) d hd
  have hme : s.takePlace.1 = false := h9
  have hpl : (s.takePlace.2.minc 0x1430 k).place idx sub = s.place idx sub := rfl
  have hdw : (s.takePlace.2.minc 0x1430 k).inDawn idx = s.inDawn idx := rfl
  generalize hb : s.takePlace.2.minc 0x1430 k = b at *
  have hses : b.sessionOf h.src = s.sessionOf h.src := by rw [← hb]; rfl
  refine ⟨b.mdict, (b.putSession { x with since := b.sbTime, counter := h.counter }).host.sessions, b.host.refuse, ?_, ?_⟩
  · intro j hj
    rw [← hb]
    exact (tabGet_tabSet _ _ _ _ _).trans (if_neg (keyHi j hj k hk))
  · have hv : vouched s b.mdict (b.putSession { x with since := b.sbTime, counter := h.counter }).host.sessions b.host.refuse =
        b.putSession { x with since := b.sbTime, counter := h.counter } := by rw [← hb]; rfl
    dsimp only
    rw [hv]
    have hj : b.judge q 2 true = (0, some x.slot, b.putSession { x with since := b.sbTime, counter := h.counter }) := by
      have f1 : flagsOf 2 q.msg = 1 := by simpa [flagsOf] using F.flags
      have f2 : counterOf 2 q.msg = h.counter := by simpa [counterOf, hasAuth] using F.counter
      have f3 : ¬ h.counter ≤ x.counter := Nat.not_le.2 hv1
      unfold State.judge
      simp only [f1, f2, e2, hses, hx, F.body, F.mac, ← hv3, f3, ne_eq, not_true, if_false]
      rfl
    have hw : b.doWrite q false = (statusAnswer 2 ((b.putSession { x with since := b.sbTime, counter := h.counter }).writeObject idx sub
        data false).1 q.msg, ((b.putSession { x with since := b.sbTime, counter := h.counter }).writeObject idx sub data false).2) := by
      have r12 : b.rows12 idx sub = 0 := by
        unfold State.rows12
        rw [hpl, hdw, h11]
        cases hpc : s.place idx sub with
        | unknown st => exact absurd hpc (hp st)
        | _ => rfl
      have hd2 : dataLen 2 q.msg = data.length := by simpa [dataLen] using F.dataLen
      have wr : b.writeRows idx sub (0, some x.slot, b.putSession { x with since := b.sbTime, counter := h.counter }) = 0 := by
        unfold State.writeRows
        rw [r12]
        cases hz : slotZeroOnly idx sub with
        | false => simp
        | true => simp [hv2 hz]
      unfold State.doWrite
      simp only [F.index, F.subIndex, hj, wr, hd2, F.payload, ne_eq, not_true, if_false]
    have hserve : b.serve q 2 false = ((b.doWrite q false).2.keepDup q 2 (b.doWrite q false).1).answer q 2 (b.doWrite q false).1 := by
      have hl : ¬ 65600 < q.msg.length := by rw [F.len]; omega
      have hv0 : lengthVerdict 2 q.msg = 0 := by
        have a1 : fixedLen 2 q.msg = 18 := rfl
        have a2 : dataLen 2 q.msg = data.length := by simpa [dataLen] using F.dataLen
        unfold lengthVerdict
        rw [a1, a2, F.len]
        simp
      unfold State.serve
      simp only [hdup, hl, hv0, if_false, State.perform, State.noteFull, Bool.false_and, Bool.false_eq_true]
      rfl
    have c3 : canOnly q.bus 2 = false := rfl
    have hex : s.executes q 2 = true := by
      unfold State.executes
      rw [c3, e2, e3, h6]
      simp [isRequest, h4, h5]
    have hh : s.handle q 2 = b.serve q 2 false := by
      have c1 : (decide (q.src < 65) || decide (126 < q.src) || canOnly q.bus 2 || !isRequest 2) = false := by
        rw [e2, c3]
        have h4' : ¬ h.src < 65 := by omega
        have h5' : ¬ 126 < h.src := by omega
        simp [isRequest, h4', h5']
      have c2 : ¬ 32 ≤ 2 := by omega
      have up : s.takePlace.2.hostUp = true := h1
      have nr : s.takePlace.2.judged q.bus = s.takePlace.2 := by
        rw [e1]
        cases hb : h.bus with
        | relay m => exact absurd hb (h2 m)
        | _ => rfl
      unfold State.handle
      simp only [hex, if_true, up, Bool.not_true, Bool.false_eq_true, if_false, nr, ha, hme]
      rw [e3, h6]
      simp only [c2, c1, Bool.false_eq_true, if_false, hq, if_true]
    unfold hostRow
    rw [hh, hserve, hw]

end Sys2Proof.Machine
end

