-- ==== Sys2Proof/Laws/Rows.lean ====
section
/-! SUPPORT. What a row that is a signed WRITE answers: the write executed, the status sent, the rest as it was. -/

namespace Sys2Proof.Machine

/-! ## What has been sent stays sent -/

theorem onChan_sent_mem {s : State} {ch : Ch} {f : Ctx → Channel → Channel} {x : Sent} (h : x ∈ s.sent) :
    x ∈ (s.onChan ch f).sent := by
  rw [onChan_sent]
  exact List.mem_append_left _ h

theorem foldl_sent_mem {α : Type} (f : State → α → State) {x : Sent} (hf : ∀ s a, x ∈ s.sent → x ∈ (f s a).sent) (l : List α)
    (s : State) (h : x ∈ s.sent) : x ∈ (l.foldl f s).sent := by
  induction l generalizing s with
  | nil => exact h
  | cons a l ih => exact ih _ (hf s a h)

theorem crossCheck_sent_mem {s : State} {i : Nat} {x : Sent} (h : x ∈ s.sent) : x ∈ (s.crossCheck i).sent := by
  have both : ∀ (s : State) (i sub m : Nat), x ∈ s.sent →
      x ∈ ((s.onChan .a fun _ c => c.flag i sub m).onChan .b fun _ c => c.flag i sub m).sent :=
    fun s _ _ _ h => onChan_sent_mem (onChan_sent_mem h)
  unfold State.crossCheck
  dsimp only
  split
  · exact h
  · split
    · split
      · exact h
      · exact both s _ _ _ h
    · split
      · exact foldl_sent_mem _ (fun s k hs => by split; exact hs; exact both s _ _ _ hs) _ s h
      · split
        · split
          · exact h
          · exact both s _ _ _ h
        · exact h

theorem mflag_sent (s : State) (i k m : Nat) : (s.mflag i k m).sent = s.sent := by
  unfold State.mflag
  dsimp only
  split <;> rfl

theorem enterNight_sent_mem {s : State} {x : Sent} (h : x ∈ s.sent) : x ∈ s.enterNight.sent := by
  unfold State.enterNight
  split
  · exact h
  · exact foldl_sent_mem _ (fun s a => onChan_sent_mem) _ _ h

theorem endDusk_sent_mem {s : State} {x : Sent} (h : x ∈ s.sent) : x ∈ s.endDusk.sent := by
  unfold State.endDusk
  split
  · exact foldl_sent_mem _ (fun s a => onChan_sent_mem) _ _ (by rw [mflag_sent]; exact h)
  · exact h

theorem finish_sent_mem {b s : State} {x : Sent} (h : x ∈ s.sent) : x ∈ (State.finish b s).sent := by
  have h1 : x ∈ s.leaveDawn.sent := by
    unfold State.leaveDawn
    split
    · dsimp only
      split
      · exact enterNight_sent_mem h
      · exact h
    · exact h
  have h2 : ∀ u : State, x ∈ u.sent → x ∈ (State.followRoles b u).sent := fun u hu =>
    foldl_sent_mem _ (fun s a hs => by
      split
      · exact hs
      · exact foldl_sent_mem _ (fun s i => crossCheck_sent_mem) _ _ (onChan_sent_mem hs)) _ _ hu
  have h3 : ∀ u : State, u.noteMode.sent = u.sent := by
    intro u
    have hn : ∀ u : State, u.leaveNoon.sent = u.sent := by
      intro u
      unfold State.leaveNoon
      split
      · rfl
      · exact foldl_sent _ (fun s d => relayDelta_sent s _ _) _ _
    unfold State.noteMode
    dsimp only
    split
    · rfl
    · split
      · rw [State.logEvent_sent, mflag_sent, hn]
      · rw [State.logEvent_sent, mflag_sent]
  have h4 : ∀ u : State, u.followContacts.sent = u.sent := by
    intro u
    unfold State.followContacts
    split <;> rfl
  unfold State.finish
  rw [State.orderLog_sent, h4, h3]
  exact endDusk_sent_mem (h2 _ h1)

/-! ## Frames -/

theorem sameBoard_trans {s t u : State} (a : sameBoard s t) (b : sameBoard t u) : sameBoard s u := by
  obtain ⟨a1, a2, a3, a4, a5, a6, a7, a8, a9⟩ := a
  obtain ⟨b1, b2, b3, b4, b5, b6, b7, b8, b9⟩ := b
  refine ⟨b1.trans a1, b2.trans a2, b3.trans a3, b4.trans a4, b5.trans a5, b6.trans a6, b7.trans a7, ?_, fun ch => ?_⟩
  · rw [← a8, ← b8]
  · rw [← a9 ch, ← b9 ch]

theorem Beside.sameBoard {s t : State} (h : Beside s t) : sameBoard s t := h.around.sameBoard

/-! ## The answer -/

/-- The parts of the state that the end of a WRITE leaves. -/
structure Told (s t : State) : Prop where
  chA : t.chA = s.chA
  chB : t.chB = s.chB
  arb : t.arb = s.arb
  mode : t.mode = s.mode
  role : ∀ ch, t.role ch = s.role ch
  unit : t.unit = s.unit
  relay : t.relay = s.relay
  mreg : ∀ k, k / 256 ≠ 0x1430 → tabGet mDflt t.mdict k = tabGet mDflt s.mdict k
  board : sameBoard s t

/-- Frames that go out follow those that have. -/
theorem foldl_emit (l : List Sent) (s : State) : l.foldl State.emit s = { s with sent := s.sent ++ l } := by
  induction l generalizing s with
  | nil => simp
  | cons a l ih => simp [ih, State.emit]

/-- A status is sent back on a bus or port that is up. -/
theorem told_answer {s : State} {q : Request} {func : Nat} {a b : Option (List Byte)} {msg : List Byte}
    (hr : ∀ m, q.bus ≠ .relay m) (hu : s.busUp q.bus = true) (ha : b = some msg) :
    Told s ((s.keepDup q func a).answer q func b) ∧
      ∀ f ∈ framesOf s.unit.mac q.bus (answerIdent q func) msg, f ∈ ((s.keepDup q func a).answer q func b).sent := by
  subst ha
  have hu' : (s.keepDup q func a).busUp q.bus = true := by
    cases hb : q.bus <;> rw [hb] at hu <;> first | exact hu | rfl
  have key : (s.keepDup q func a).answer q func (some msg) =
      { (s.keepDup q func a).minc 0x1430 4 with
        sent := s.sent ++ framesOf s.unit.mac q.bus (answerIdent q func) msg } := by
    unfold State.answer State.send
    cases hb : q.bus with
    | relay m => exact absurd hb (hr m)
    | _ => rw [hb] at hu'; simp only [hu', if_true, foldl_emit]; rfl
  rw [key]
  refine ⟨⟨rfl, rfl, rfl, rfl, fun ch => by cases ch <;> rfl, rfl, rfl, fun k hk => ?_, ?_⟩, ?_⟩
  · exact (tabGet_tabSet _ _ _ _ _).trans (if_neg (keyHi k hk 4 (by decide)))
  · exact ⟨rfl, rfl, rfl, rfl, rfl, rfl, rfl, rfl, fun ch => by cases ch <;> rfl⟩
  · exact fun f hf => List.mem_append_right _ hf

/-- Whatever is answered, the parts of `Told` stay. -/
theorem told_any {s : State} {q : Request} {func : Nat} {a b : Option (List Byte)} (hr : ∀ m, q.bus ≠ .relay m) :
    Told s ((s.keepDup q func a).answer q func b) := by
  have hk : Told s (s.keepDup q func a) :=
    ⟨rfl, rfl, rfl, rfl, fun ch => by cases ch <;> rfl, rfl, rfl, fun _ _ => rfl,
      ⟨rfl, rfl, rfl, rfl, rfl, rfl, rfl, rfl, fun ch => by cases ch <;> rfl⟩⟩
  cases b with
  | none => exact hk
  | some msg =>
    by_cases hu : s.busUp q.bus = true
    · exact (told_answer hr hu rfl).1
    · have hu' : (s.keepDup q func a).busUp q.bus = false := by
        cases hb : q.bus with
        | relay m => exact absurd hb (hr m)
        | _ => rw [hb] at hu; exact (by simpa using hu : s.busUp _ = false)
      have key : (s.keepDup q func a).answer q func (some msg) = s.keepDup q func a := by
        unfold State.answer State.send
        cases hb : q.bus with
        | relay m => exact absurd hb (hr m)
        | _ => rw [hb] at hu'; simp only [hu', Bool.false_eq_true, if_false]
      rw [key]
      exact hk

/-- The answer of status OK to a WRITE row. -/
theorem statusOk_write (h : AuthHdr) (idx sub : Nat) (data : List Byte) (hi : idx < 65536) (hs : sub < 256)
    (hd : data.length < 65536) (hc : h.counter < 2 ^ 32) (hm : h.mac.length = 8) :
    statusAnswer 2 0 (writeRequest h idx sub data).msg =
      some (leBytes 2 0 ++ leBytes 2 idx ++ leBytes 1 sub ++ [0] ++ leBytes 4 h.counter) := by
  have F := writeRequest_fields h idx sub data hi hs hd hc hm
  have f2 : counterOf 2 (writeRequest h idx sub data).msg = h.counter := by simpa [counterOf, hasAuth] using F.counter
  obtain ⟨c0, c1, c2, c3, e4, eb⟩ := signedBody_head h idx sub data
  have hsl : slice ((writeRequest h idx sub data).msg ++ List.replicate 3 0#8) 0 3 = leBytes 2 idx ++ leBytes 1 sub := by
    rw [writeRequest_msg, eb]
    rfl
  unfold statusAnswer
  simp only [f2, hsl]
  rfl

/-! ## Rows -/

/-- The place of an object of a present channel, by closed facts of the dictionary. -/
theorem place_chan {s : State} {ch : Ch} {idx sub hi : Nat} {o : Obj} (hd : documented (idx + 0x2000 * ch.num) = true)
    (hw : channelScope (idx + 0x2000 * ch.num) = true) (hc : chanOf (idx + 0x2000 * ch.num) = (ch, idx))
    (hh : highestSub channelObjs idx = some hi) (hl : sub ≤ hi) (ho : objIn channelObjs idx sub = some o)
    (hp : s.present ch = true) (hs : storeOnly idx = false) : s.place (idx + 0x2000 * ch.num) sub = .chan ch idx o := by
  unfold State.place
  simp [hd, hw, hc, hh, Nat.not_lt.2 hl, ho, hp, hs]

/-- A WRITE row of a channel object that the host port executes and no check turns away: what the write does, the status sent, and
what stays. -/
theorem channelRow_answers {s : State} {h : AuthHdr} {ch : Ch} {idx sub v : Nat} {o : Obj} (sg : signedChannel s h ch idx sub v)
    (hi : 0x4000 ≤ idx ∧ idx < 0x6000) (hs : sub < 256) (hpl : s.place (idx + 0x2000 * ch.num) sub = .chan ch idx o)
    (hw : (o.ty.isWindow || o.acc = .ro || o.acc = .roh) = false) (hv : valueSize idx sub = o.ty.readSize)
    (hn : (carryObj idx sub (valueSize idx sub) v).length = o.ty.readSize) (hb : o.ty.readSize < 65536)
    (hr : objOf idx sub (carryObj idx sub (valueSize idx sub) v) = v)
    (hst : (s.chan ch).objStatus (s.ctx ch) (s.partnerTime ch) o idx sub v = 0)
    (hx : idx ∉ [0x410C, 0x410D, 0x4200, 0x4206, 0x4252, 0x425D, 0x4232]) :
    ∃ t, channelRow h ch idx sub v s = .next t ∧ answeredOk t h (idx + 0x2000 * ch.num) sub ∧ sameBoard s t ∧
      t.chan ch.other = s.chan ch.other ∧ t.chan ch = ((s.chan ch).storeObj (s.ctx ch) o idx sub v).emptied := by
  obtain ⟨ok, hp, hh, hnight, hdusk⟩ := sg
  have hI : idx + 0x2000 * ch.num < 65536 := by cases ch <;> simp [Ch.num] <;> omega
  simp only [List.mem_cons, List.not_mem_nil, or_false, not_or] at hx
  have hD : (carryObj idx sub (valueSize idx sub) v).length < 65536 := by omega
  obtain ⟨m, l, r, hm, hrow⟩ := signed_serve hI hs hD ok (fun st => by rw [hpl]; simp)
  have dawn : s.mode.dawn = false := by
    have hd := ok.2.2.2.2.2.2.2.2.2.2.1
    unfold State.inDawn at hd
    have hg : ¬ (idx + 0x2000 * ch.num) ≤ 0x11FF := by omega
    simpa [hg] using hd
  -- the state that executes the write sees the channel as before
  have vc : ∀ c, (vouched s m l r).chan c = s.chan c := fun c => by cases c <;> rfl
  have vm : ∀ i k, k < 256 → i ≠ 0x1430 → (vouched s m l r).mreg i k = s.mreg i k := fun i k hk hik => by
    refine hm _ ?_
    unfold objKey
    omega
  have vmc : (vouched s m l r).modeCode = s.modeCode := by
    unfold State.modeCode
    rw [vm 0x1101 0 (by decide) (by decide)]
    rfl
  have vx : ∀ c, (vouched s m l r).ctx c = s.ctx c := fun c => by
    unfold State.ctx
    rw [vmc, vm 0x1104 0 (by decide) (by decide)]
    rfl
  have vp : (vouched s m l r).partnerTime ch = s.partnerTime ch := by
    unfold State.partnerTime
    rw [vc]
    rfl
  have vpl : (vouched s m l r).place (idx + 0x2000 * ch.num) sub = .chan ch idx o := by rw [← hpl]; rfl
  have hwrite : (vouched s m l r).writeObject (idx + 0x2000 * ch.num) sub (carryObj idx sub (valueSize idx sub) v) false =
      (0, (vouched s m l r).onChan ch fun cx c => c.storeObj cx o idx sub v) := by
    unfold State.writeObject
    rw [vpl]
    dsimp only
    rw [hr, vc, vx, vp, hst, if_neg (by simpa using hw), if_neg (by simpa using hn)]
    simp only [Bool.false_and, Bool.false_eq_true, if_false, if_true]
    unfold State.chStore
    have hcc : ∀ u : State, u.crossCheck idx = u := by
      intro u
      unfold State.crossCheck
      simp [hx.1, hx.2.1, hx.2.2.1, hx.2.2.2.1, hx.2.2.2.2.1, hx.2.2.2.2.2.1]
    simp only [hcc, hx.2.2.2.2.2.2, if_false]
  have ⟨h2, h3, hcnt, hmac⟩ := (⟨ok.2.1, ok.2.2.1, ok.2.2.2.2.2.2.1, ok.2.2.2.2.2.2.2.1⟩ :
    (∀ m, h.bus ≠ .relay m) ∧ s.busUp h.bus = true ∧ h.counter < 2 ^ 32 ∧ h.mac.length = 8)
  have hdata : (writeRequest h (idx + 0x2000 * ch.num) sub (carryObj idx sub (valueSize idx sub) v)).bus = h.bus := rfl
  set u := (vouched s m l r).onChan ch fun cx c => c.storeObj cx o idx sub v with hu
  have B : Beside (vouched s m l r) u := beside_onChan _ _ _
  have ubus : u.busUp h.bus = true := by
    have hh1 := congrArg HostPort.canA B.host
    have hh2 := congrArg HostPort.canB B.host
    have hh3 := congrArg HostPort.ethLink B.host
    have hreg : u.mreg 0x1400 1 = s.mreg 0x1400 1 :=
      (B.mreg _ (by decide)).trans (vm 0x1400 1 (by decide) (by decide))
    rw [← h3]
    cases h.bus with
    | canA => exact congrArg (fun x => x == CanState.active || x == CanState.passive) hh1
    | canB => exact congrArg (fun x => x == CanState.active || x == CanState.passive) hh2
    | eth mac =>
      show (bitOf (u.mreg 0x1400 1) 3 && u.host.ethLink) = (bitOf (s.mreg 0x1400 1) 3 && s.host.ethLink)
      rw [hreg]
      exact congrArg (fun x => bitOf (s.mreg 0x1400 1) 3 && x) hh3
    | relay m => rfl
  have A := told_answer (func := 2) (a := statusAnswer 2 0 (writeRequest h (idx + 0x2000 * ch.num) sub
    (carryObj idx sub (valueSize idx sub) v)).msg) (q := writeRequest h (idx + 0x2000 * ch.num) sub
    (carryObj idx sub (valueSize idx sub) v)) (fun m => h2 m) ubus (statusOk_write h _ sub _ hI hs hD hcnt hmac)
  rw [hwrite] at hrow
  dsimp only at hrow
  set y := (u.keepDup (writeRequest h (idx + 0x2000 * ch.num) sub (carryObj idx sub (valueSize idx sub) v)) 2
    (statusAnswer 2 0 (writeRequest h (idx + 0x2000 * ch.num) sub (carryObj idx sub (valueSize idx sub) v)).msg)).answer
    (writeRequest h (idx + 0x2000 * ch.num) sub (carryObj idx sub (valueSize idx sub) v)) 2
    (statusAnswer 2 0 (writeRequest h (idx + 0x2000 * ch.num) sub (carryObj idx sub (valueSize idx sub) v)).msg) with hy
  have yc : ∀ c, y.chan c = u.chan c := fun c => by cases c; exact A.1.chA; exact A.1.chB
  have ydawn : y.mode.dawn = false := by rw [A.1.mode, B.mode]; exact dawn
  have yk : (y.mode.dusk && y.modeCode != 3) = false := by
    have hr : ∀ c, (y.role c).st = (s.role c).st := fun c => by
      have h1 : (u.role c).st = ((vouched s m l r).role c).st := by simpa [ChanRole.unstale] using congrArg ChanRole.st (B.role c)
      have v1 : (vouched s m l r).role c = s.role c := by cases c <;> rfl
      rw [A.1.role, h1, v1]
    have hreg : y.mreg 0x1101 0 = s.mreg 0x1101 0 :=
      (A.1.mreg _ (by decide)).trans ((B.mreg _ (by decide)).trans (vm 0x1101 0 (by decide) (by decide)))
    have hm2 : y.mode = s.mode := by rw [A.1.mode, B.mode]; rfl
    have hmc : y.modeCode = s.modeCode := by
      unfold State.modeCode
      rw [hm2, hreg]
      have htw : y.twilight = s.twilight := by
        have hp : y.present .b = s.present .b := by unfold State.present; rw [A.1.unit, B.unit]; rfl
        have ha : y.roleA.st = s.roleA.st := hr .a
        have hb : y.roleB.st = s.roleB.st := hr .b
        unfold State.twilight
        rw [hp, ha, hb]
      rw [htw]
    rw [hm2, hmc]
    exact hdusk
  have pv : ∀ c, s.portView c = y.portView c := fun c => by
    have hr := B.role c
    have h1 : (u.role c).st = ((vouched s m l r).role c).st := by simpa [ChanRole.unstale] using congrArg ChanRole.st hr
    have h2 : (u.role c).silent = ((vouched s m l r).role c).silent := by
      simpa [ChanRole.unstale] using congrArg ChanRole.silent hr
    have h3 : (u.role c).fence = ((vouched s m l r).role c).fence := by
      simpa [ChanRole.unstale] using congrArg ChanRole.fence hr
    have v1 : (vouched s m l r).role c = s.role c := by cases c <;> rfl
    simp only [State.portView, State.ctx, State.forwards, A.1.role, h1, h2, h3, v1, A.1.arb, A.1.mode, B.arb, B.mode]
    rfl
  have hun : (State.finish s y).unit = u.unit := (around_finish s y).unit.trans A.1.unit
  refine ⟨_, hrow, fun f hf => finish_sent_mem (A.2 f (by rw [hun] at hf; exact hf)), ?_, ?_, ?_⟩
  · refine sameBoard_trans (t := vouched s m l r) ?_ (sameBoard_trans B.sameBoard (sameBoard_trans A.1.board
      (around_finish s y).sameBoard))
    exact ⟨rfl, rfl, rfl, rfl, rfl, rfl, rfl, rfl, fun ch => by cases ch <;> rfl⟩
  · rw [finish_chan s y ch.other ydawn yk pv, yc, hu, onChan_chan_other, vc]
  · rw [finish_chan s y ch ydawn yk pv, yc, hu, onChan_chan, vx, vc]

/-- The place of a module object, by closed facts of the dictionary. -/
theorem place_module {s : State} {idx sub hi : Nat} {o : Obj} (hd : documented idx = true) (hw : channelScope idx = false)
    (hh : highestSub moduleObjs idx = some hi) (hl : sub ≤ hi) (ho : objIn moduleObjs idx sub = some o)
    (hb : channelBOnly idx sub = false) : s.place idx sub = .module o := by
  unfold State.place
  simp [hd, hw, hh, Nat.not_lt.2 hl, ho, hb]

/-- A WRITE row of a module object that the host port executes and rows 5.4 to 5.6 let pass: the write, on the state with the
session's counter used up, then the answer and the end of the command. -/
theorem moduleRow_answers {s : State} {h : AuthHdr} {idx sub v : Nat} {o : Obj} (sg : signedModule s h idx sub v)
    (hi : idx < 0x2000 ∧ idx ≠ 0x1430) (hs : sub < 256) (hpl : s.place idx sub = .module o)
    (hw : (o.ty.isWindow || o.acc = .ro || o.acc = .roh) = false)
    (hn : (carryObj idx sub (valueSize idx sub) v).length = o.ty.readSize) (hb : o.ty.readSize < 65536)
    (hr : objOf idx sub (carryObj idx sub (valueSize idx sub) v) = v) (hst : s.mStatus o idx sub v = 0) :
    ∃ m l r t y, (∀ k, k / 256 ≠ 0x1430 → tabGet mDflt m k = tabGet mDflt s.mdict k) ∧ moduleRow h idx sub v s = .next t ∧
      t = State.finish s y ∧ Told ((vouched s m l r).mStore o idx sub v).2 y ∧
      (((vouched s m l r).mStore o idx sub v).1 = 0 → ((vouched s m l r).mStore o idx sub v).2.busUp h.bus = true →
        answeredOk t h idx sub) := by
  have hI : idx < 65536 := by omega
  have hD : (carryObj idx sub (valueSize idx sub) v).length < 65536 := by omega
  obtain ⟨m, l, r, hm, hrow⟩ := signed_serve hI hs hD sg (fun st => by rw [hpl]; simp)
  have vm : ∀ i k, k < 256 → i ≠ 0x1430 → (vouched s m l r).mreg i k = s.mreg i k := fun i k hk hik => by
    refine hm _ ?_
    unfold objKey
    omega
  have vst : (vouched s m l r).mStatus o idx sub v = 0 := by
    rw [← hst]
    have e1 : (vouched s m l r).mBusy idx sub = s.mBusy idx sub := by
      unfold State.mBusy
      rw [vm 0x1109 0 (by decide) (by decide)]
      rfl
    have e2 : ∀ w, (vouched s m l r).mBad idx sub w v = s.mBad idx sub w v := fun _ => rfl
    have e3 : (vouched s m l r).mNotNow idx sub v = s.mNotNow idx sub v := rfl
    unfold State.mStatus
    rw [vm idx sub hs hi.2]
    simp only [e1, e2, e3]
  have hwrite : (vouched s m l r).writeObject idx sub (carryObj idx sub (valueSize idx sub) v) false =
      (vouched s m l r).mStore o idx sub v := by
    unfold State.writeObject
    have vpl : (vouched s m l r).place idx sub = .module o := by rw [← hpl]; rfl
    rw [vpl]
    dsimp only
    rw [hr, vst, if_neg (by simpa using hw), if_neg (by simpa using hn)]
    simp only [Bool.false_and, Bool.false_eq_true, if_false, if_true]
  rw [hwrite] at hrow
  refine ⟨m, l, r, _, _, hm, hrow, rfl, told_any sg.2.1, fun h0 hu f hf => ?_⟩
  rw [h0] at hf ⊢
  have T := told_answer (func := 2) (a := statusAnswer 2 0 (writeRequest h idx sub (carryObj idx sub (valueSize idx sub) v)).msg)
    (q := writeRequest h idx sub (carryObj idx sub (valueSize idx sub) v)) (fun m => sg.2.1 m) hu
    (statusOk_write h _ sub _ hI hs hD sg.2.2.2.2.2.2.1 sg.2.2.2.2.2.2.2.1)
  rw [(around_finish s _).unit.trans T.1.unit] at hf
  exact finish_sent_mem (T.2 f hf)

end Sys2Proof.Machine
end

