-- ==== Sys2Proof/Laws/Seq.lean ====
section
/-! SUPPORT. What a microword row does to a sequencer whose next word is at hand. -/

namespace Sys2Proof.Machine

/-- A word at hand executes, after its RESOLVE, and its SEQ is applied; a RESOLVE that gives a drop code ends the routine (R186, R302). -/
theorem runWord_atWord (c : Channel) (cx : Ctx) (n row : Nat) (m : MicroWord) (h : atWord c n m) (hr : m.seq = row) :
    c.runWord cx n row =
      (let x := resolved c cx (c.seq n) m
       if x.1 ≠ 0 then x.2.2.abortSeq cx n ((c.seq n).steps + 3) x.1
       else
         let e := x.2.2.execute (c.seq n) m x.2.1
         x.2.2.applySeq cx n e.1 m e.2) := by
  obtain ⟨h1, h2, h3, h4, h5, h6, h7, h8, d, h9, h10⟩ := h
  have a : (!(c.seq n).busy || (c.seq n).inReset || c.expired (c.seq n)) = false := by simp [h1, h2, h3]
  have b : ¬ 0x10000 ≤ (c.seq n).pc := by omega
  subst h10
  unfold Channel.runWord
  have k : ((c.seq n).pc == 0 || (c.seq n).pc == 0x18 || (c.seq n).pc == 0x19) = false := by simp [h5, h6, h7]
  simp only [a, Bool.false_eq_true, if_false, b, k, h9, h8, hr, Nat.add_zero]
  unfold resolved
  simp only [ite_not]
  rfl

/-- The side operation leaves the place of a sequencer. -/
theorem side_place (q : SeqSt) (m : MicroWord) (len : Nat) :
    (q.side m len).pc = q.pc ∧ (q.side m len).stack = q.stack ∧ (q.side m len).frame = q.frame ∧
      (q.side m len).regs = q.regs ∧ (q.side m len).res = q.res ∧ (q.side m len).item = q.item := by
  unfold SeqSt.side
  dsimp only
  (repeat' split) <;> try exact ⟨rfl, rfl, rfl, rfl, rfl, rfl⟩
  unfold SeqSt.store
  split <;> exact ⟨rfl, rfl, rfl, rfl, rfl, rfl⟩

/-- The first four steps of R302 leave the place of a sequencer. -/
theorem execute_place (c : Channel) (q : SeqSt) (m : MicroWord) (e : Option Nat) :
    (c.execute q m e).1.pc = q.pc ∧ (c.execute q m e).1.stack = q.stack ∧ (c.execute q m e).1.frame = q.frame ∧
      (c.execute q m e).1.item = q.item := by
  have h := side_place { q with flags := (aluRun m (q.w m.srcA) (m.opB q) q.flags).flags } m (c.seqLen q)
  exact ⟨h.1, h.2.1, h.2.2.1, h.2.2.2.2.2⟩

end Sys2Proof.Machine
end

