-- ==== Sys2Proof/Laws/Time.lean ====
section
/-! SUPPORT. What a tick does to the time base. -/

namespace Sys2Proof.Machine

/-- All that a tick does to the time base (R415). -/
theorem tick_spec (b : TimeSt) (inc : Nat) (u : Bool) (d : TimeSt) (hd : d = { (b.tick inc) with pps := u }) : let sum := b.ns * 2 ^ 32 + b.frac + inc
       d.frac = sum % 2 ^ 32 ∧
       (sum < 1000000000 * 2 ^ 32 → d.ns = sum / 2 ^ 32 ∧ d.sec = b.sec) ∧
       (1000000000 * 2 ^ 32 ≤ sum → d.ns + 1000000000 = sum / 2 ^ 32 ∧ d.sec = (b.sec + 1) % 2 ^ 48) ∧
       d.stepSum = b.stepSum ∧ d.valid = b.valid ∧ d.copied = b.copied ∧ d.copyDue = b.copyDue := by
  intro sum
  have hs : sum = b.ns * 2 ^ 32 + b.frac + inc := rfl
  clear_value sum
  simp only [TimeSt.tick, ← hs] at hd
  split at hd
  · subst hd
    refine ⟨by simp only, fun h => ?_, fun h => ⟨?_, by simp only⟩, rfl, rfl, rfl, rfl⟩
    · omega
    · dsimp only; omega
  · subst hd
    refine ⟨by simp only, fun h => ⟨by simp only, by simp only⟩, fun h => ?_, rfl, rfl, rfl, rfl⟩
    omega

/-- Without a shift the pulse falls on the carry of the seconds (R422). -/
theorem pulse_at_carry (b new : TimeSt) (inc : Nat) (h : new.sec ≠ b.sec) : b.pulse new inc 0 = (true, none) := by
  simp [TimeSt.pulse, h]

/-- A shift forward puts the pulse off until so much time has passed since the carry (R422). -/
theorem pulse_delayed (b new : TimeSt) (inc : Nat) (off : Int) (h0 : 0 ≤ off) (h : new.sec ≠ b.sec)
    (hp : new.ns * 2 ^ 32 + new.frac < off.natAbs * 2 ^ 32) :
    b.pulse new inc off = (false, some (off.natAbs * 2 ^ 32 - (new.ns * 2 ^ 32 + new.frac))) := by
  have h1 : ¬ off < 0 := by omega
  simp only [TimeSt.pulse, if_neg h1, bne_iff_ne, ne_eq, h, not_false_eq_true, if_true, if_neg (Nat.not_le.mpr hp)]

/-- Between carries a pulse that is put off comes when its time has passed, and else none comes (R422). -/
theorem pulse_between (b new : TimeSt) (inc : Nat) (off : Int) (h0 : 0 ≤ off) (h : new.sec = b.sec) :
    (b.pulse new inc off).1 = true ↔ ∃ w, b.ppsWait = some w ∧ w ≤ inc := by
  have h1 : ¬ off < 0 := by omega
  have h2 : (new.sec != b.sec) = false := by simp [h]
  simp only [TimeSt.pulse, if_neg h1, h2, Bool.false_eq_true, if_false]
  cases b.ppsWait with
  | none => simp
  | some w => by_cases hw : w ≤ inc <;> simp [hw]

end Sys2Proof.Machine
end

