-- ==== Sys2Proof/Tests/Slice0.lean ====
section
/-! SUPPORT. Tests of the model, and for every obligation a concrete state and operands that meet its hypotheses. -/

namespace Sys2Proof.Tests
open Sys2Proof Sys2Proof.Machine

set_option maxRecDepth 100000
set_option Elab.async false

/-! ## Sample states -/

/-- A started channel. -/
def started (r : ChanRole) (st : ChState) : ChanRole :=
  { r with
    st := st, stage := 14, outputOn := true, fence := false, fenceDone := true, hbSeen := true, ready := true, epoch := 1
    health := 255 * 2 ^ 24 + 1, goodRun := 5 }

/-- Objects written into a channel, as (index, subindex, value). -/
def puts (c : Channel) (l : List (Nat × Nat × Nat)) : Channel := l.foldl (fun c x => c.put x.1 x.2.1 x.2.2) c

/-- Window entries written into a channel. -/
def wputs (c : Channel) (l : List (Nat × Nat × Nat)) : Channel := l.foldl (fun c x => c.wput x.1 x.2.1 x.2.2) c

/-- All 29 islands locked. -/
def locked : Nat := 2 ^ 29 - 1

/-- The module in operation: A holds the lease, B is its standby, both are healthy, node 70 has proven session 1. -/
def running : State :=
  let r := State.reset
  let good := fun (c : Channel) => puts c [(0x4000, 0x20, locked), (0x4701, 1, 1)]
  { r with
    bring := { r.bring with stage := 15, moduleId := 1 }
    power := { r.power with sbOut := true, inA := ⟨.ac, .ac⟩, inB := ⟨.ac, .ac⟩ }
    mode := { r.mode with dawn := false, last := 2 }
    arb := { r.arb with ok := true, holder := some .a, epoch := 1, last := some .a }
    chA := good r.chA, chB := good r.chB
    roleA := started r.roleA .active, roleB := started r.roleB .standby
    relay := { r.relay with up := true }
    host := { r.host with
      canA := .active, canB := .active, ethLink := true, sessions := [⟨1, 70, 0, true, 0, 1, List.replicate 32 7, 3, 0⟩] } }

/-- The same with channel A changed. -/
def withA (f : Channel → Channel) : State := { running with chA := f running.chA }

/-- The same with objects of channel A written. -/
def withRegs (l : List (Nat × Nat × Nat)) : State := withA (puts · l)

/-- The state after a command, where it answers one. -/
def after (i : Instr) (s : State) : State :=
  match exec i s with
  | .next t => t
  | _ => s

/-- The state after several commands. -/
def run (s : State) (l : List Instr) : State := l.foldl (fun s i => after i s) s

/-- Whether a command answers a next state that passes a check. -/
def ends (i : Instr) (s : State) (ok : State → Bool) : Bool :=
  match exec i s with
  | .next t => ok t
  | _ => false

theorem ends_next {i : Instr} {s : State} {ok : State → Bool} (h : ends i s ok = true) : ∃ t, exec i s = .next t ∧ ok t = true := by
  unfold ends at h
  split at h
  · exact ⟨_, ‹_›, h⟩
  · cases h

/-- The key of session 1. -/
def sessionKey : List Byte := List.replicate 32 7

/-- A header of node 70 before its MAC. -/
def plainHdr : AuthHdr := ⟨.canA, 1, 1, 70, 5, 10, List.replicate 8 0⟩

/-- The header of a signed WRITE of `data`, with the MAC that R606 gives. -/
def hdrOf (idx sub : Nat) (data : List Byte) : AuthHdr :=
  { plainHdr with mac := (hmac sessionKey (leBytes 4 (requestIdent (writeRequest plainHdr idx sub data) 2) ++
      signedBody plainHdr idx sub data)).take 8 }

/-- The same for a value of a module object, and of an object of a channel. -/
def hdr (idx sub v : Nat) : AuthHdr := hdrOf idx sub (carryObj idx sub (valueSize idx sub) v)

def hdrCh (ch : Ch) (idx sub v : Nat) : AuthHdr := hdrOf (idx + 0x2000 * ch.num) sub (carryObj idx sub (valueSize idx sub) v)

/-! The MAC has its 8 bytes, so no sample header needs evaluating. -/

theorem shaRound_length (v : List Nat) (kw : Nat × Nat) (h : v.length = 8) : (shaRound v kw).length = 8 := by
  unfold shaRound
  split
  · rfl
  · exact h

theorem foldl_shaRound_length (l : List (Nat × Nat)) : ∀ v : List Nat, v.length = 8 → (l.foldl shaRound v).length = 8 := by
  induction l with
  | nil => exact fun _ h => h
  | cons a l ih => exact fun v h => ih _ (shaRound_length v a h)

theorem foldl_shaBlock_length (l : List (List Byte)) : ∀ h : List Nat, h.length = 8 → (l.foldl shaBlock h).length = 8 := by
  induction l with
  | nil => exact fun _ h => h
  | cons a l ih =>
    exact fun v h => ih _ (by simp [shaBlock, h, foldl_shaRound_length _ v h])

theorem sha256_length (msg : List Byte) : (sha256 msg).length = 32 := by
  have h := foldl_shaBlock_length (shaBlocks msg)
    [0x6a09e667, 0xbb67ae85, 0x3c6ef372, 0xa54ff53a, 0x510e527f, 0x9b05688c, 0x1f83d9ab, 0x5be0cd19] rfl
  simp [sha256, List.length_flatMap, beBytes, leBytes, h]

theorem hmac_take_length (key msg : List Byte) : ((hmac key msg).take 8).length = 8 := by
  simp [hmac, sha256_length]

/-- What `signedOk` asks of the state, for a header of node 70 on CAN A and an object. -/
def takes (s : State) (idx : Nat) : Bool :=
  s.hostUp && s.busUp .canA && s.node == 1 && !s.host.refuse.contains 0 && (s.recentDups 70).isEmpty && !s.inDawn idx &&
    decide (s.sessionOf 70 = some ⟨1, 70, 0, true, 0, 1, sessionKey, 3, 0⟩)

theorem signedOk_of_takes {s : State} {idx : Nat} (sub : Nat) (data : List Byte) (h : takes s idx = true) :
    signedOk s (hdrOf idx sub data) idx sub data := by
  simp only [takes, Bool.and_eq_true, beq_iff_eq, Bool.not_eq_true', decide_eq_true_eq, List.isEmpty_iff] at h
  obtain ⟨⟨⟨⟨⟨⟨h1, h2⟩, h3⟩, h4⟩, h5⟩, h6⟩, h7⟩ := h
  refine ⟨h1, fun m hm => by simp [hdrOf, plainHdr] at hm, h2, by simp [hdrOf, plainHdr], by simp [hdrOf, plainHdr],
    by rw [h3]; rfl, by simp [hdrOf, plainHdr], hmac_take_length _ _, h4, ?_, h6, _, h7, by simp [hdrOf, plainHdr], fun _ => rfl, rfl⟩
  show ((s.recentDups 70).any _) = false
  rw [h5]
  rfl

theorem signedModule_of_takes {s : State} {idx sub v : Nat} (h : takes s idx = true) : signedModule s (hdr idx sub v) idx sub v :=
  signedOk_of_takes _ _ h

/-- The same with what `signedChannel` adds. -/
def takesOn (s : State) (ch : Ch) (idx : Nat) : Bool :=
  takes s (idx + 0x2000 * ch.num) && s.present ch && !(s.role ch).st.holdsWrites && s.mode.night == .awake &&
    !(s.mode.dusk && s.modeCode != 3)

theorem signedChannel_of_takes {s : State} {ch : Ch} {idx sub v : Nat} (h : takesOn s ch idx = true) :
    signedChannel s (hdrCh ch idx sub v) ch idx sub v := by
  simp only [takesOn, Bool.and_eq_true, beq_iff_eq, Bool.not_eq_true'] at h
  exact ⟨signedOk_of_takes _ _ h.1.1.1.1, h.1.1.1.2, h.1.1.2, h.1.2, h.2⟩

/-! ## Well-formed commands: each check refuses a term -/

/-- A request whose fields fit. -/
def goodRequest : Request := ⟨.canA, 3, 12, 70, 1, [1, 0, 0, 0]⟩

theorem test_wellFormed_accepts : wellFormed .C (.read goodRequest) = true ∧ wellFormed .A (.timeTick .b) = true ∧
    wellFormed .A (.selectFrame .a 80) = true ∧ wellFormed .B (.sequenceError (.eth 2) (2 ^ 29 - 1) .last 63 0 0) = true := by
  decide +kernel

theorem test_wellFormed_refuses_requests :
    wellFormed .A (.read { goodRequest with prio := 8 }) = false ∧ wellFormed .A (.read { goodRequest with dest := 128 }) = false ∧
    wellFormed .A (.read { goodRequest with src := 128 }) = false ∧ wellFormed .A (.read { goodRequest with tag := 64 }) = false ∧
    wellFormed .A (.read { goodRequest with bus := .relay 65 }) = false ∧
    wellFormed .A (.relayRequest 32 goodRequest) = false ∧ wellFormed .A (.segmentTimeout .canA 128 1) = false ∧
    wellFormed .A (.sequenceError .canA (2 ^ 29) .first 0 8 8) = false ∧ wellFormed .A (.busOff ⟨.eth 2, .off⟩) = false := by
  decide +kernel

theorem test_wellFormed_refuses_headers :
    wellFormed .A (.erase { plainHdr with counter := 2 ^ 32 }) = false ∧ wellFormed .A (.erase { plainHdr with mac := [] }) = false ∧
    wellFormed .A (.moduleReset plainHdr (2 ^ 16)) = false ∧ wellFormed .A (.incrementWrite plainHdr .a (2 ^ 64)) = false ∧
    wellFormed .A (.nextMatch plainHdr .a 16) = false ∧ wellFormed .A (.checkStart plainHdr .a 4) = false := by
  decide +kernel

theorem test_wellFormed_refuses_parts :
    wellFormed .C (.timeTick .b) = false ∧ wellFormed .C (.outputTrip (.chan .b)) = false ∧ wellFormed .A (.notify 17) = false ∧
    wellFormed .A (.challengeExpire 9) = false ∧ wellFormed .A (.lpiEnter .a 49) = false ∧ wellFormed .A (.lockLoss .a 53) = false ∧
    wellFormed .A (.selectFrame .a 50) = false ∧ wellFormed .A (.frameSent .a 53) = false ∧ wellFormed .A (.plcaBeacon .a 17) = false ∧
    wellFormed .A (.beaconSend .a 5) = false ∧ wellFormed .A (.endWord .a 256) = false ∧ wellFormed .A (.wordRepair .a 8 0) = false ∧
    wellFormed .A (.wordRepair .a 0 16384) = false ∧ wellFormed .A (.resultRelease .a 8) = false ∧
    wellFormed .A (.requesterGrant .a 15) = false ∧ wellFormed .A (.islandRelock .a 29) = false ∧
    wellFormed .A (.stageFail .sb 0) = false ∧ wellFormed .A (.postedWriteApply .a (.portMacro 13)) = false ∧
    wellFormed .A (.junctionOvertemp .a (2 ^ 16)) = false ∧ wellFormed .A (.setPointUpdate .a [1500] [] 0 0) = false ∧
    wellFormed .A (.setPointUpdate .a (List.replicate 8 1500) [8] 0 0) = false := by
  decide +kernel

/-- No row of the table has bits. -/
theorem test_no_word_spells_a_command : decodeTableWord 16 0 = none ∧ State.reset.withFetchWord 16 0 = State.reset := by decide +kernel

/-! ## The spec's worked examples -/

/-- The ASCII characters 123456789. -/
def digits : List Byte := [0x31, 0x32, 0x33, 0x34, 0x35, 0x36, 0x37, 0x38, 0x39]

/-- The example of 03_front_ports.md (R112) and the one of 06_parser_and_hashing.md (R182). -/
theorem test_crc_values : crc16 digits = 0x29B1 ∧ crc32c 0xFFFFFFFF digits = 0xE3069283 := by decide +kernel

/-- SHA-256 of the empty message, as FIPS 180-4 has it: its first eight bytes (log entry 11). -/
theorem test_sha256_empty : (sha256 []).take 8 = [0xE3, 0xB0, 0xC4, 0x42, 0x98, 0xFC, 0x1C, 0x14] := by decide +kernel

/-- The example of 00_scope.md: variant B reads 0x79 at 0x1005 and 0x42 at 0x1002. -/
theorem test_variant_b_reads :
    (let s := { running with unit := { running.unit with variant := .B } }
     s.mview 0x1005 0 = 0x79 ∧ s.mview 0x1002 0 = 0x42) := by decide +kernel

/-- The example of 22_electrical_mechanical.md (R641): modules 12, 64 and 63. -/
theorem test_straps :
    readStraps [.low, .low, .high, .high, .low, .low, .low] = (false, 12) ∧ readStraps (List.replicate 7 .low) = (false, 64) ∧
    readStraps [.high, .high, .high, .high, .high, .high, .low] = (false, 63) := by decide +kernel

/-- The identifiers of the example of 19_host_port_protocol.md (R593). -/
theorem test_identifiers :
    mkIdent 3 6 12 70 1 = 0x0C619181 ∧ answerIdent ⟨.canA, 3, 12, 70, 1, []⟩ 6 = 0x0E68C301 ∧ mkIdent 3 2 12 70 5 = 0x0C219185 ∧
    answerIdent ⟨.canA, 3, 12, 70, 5, []⟩ 2 = 0x0E28C305 := by decide +kernel

/-- Its WRITE of NOON: 19 bytes, the first eleven as listed. -/
theorem test_write_message :
    (let m := (writeRequest { plainHdr with dest := 12, counter := 1 } 0x1101 0 (carryObj 0x1101 0 (valueSize 0x1101 0) 6)).msg
     m.length = 19 ∧ m.take 11 = [0x01, 0x11, 0x00, 0x01, 1, 0, 0, 0, 1, 0, 6]) := by decide +kernel

/-- Its answer: a single segment of 14 bytes padded to 16, with status OK and the echo of the object and COUNTER. -/
theorem test_write_answer :
    ends (.requestNoon (hdr 0x1101 0 6)) running (fun t => t.sent.contains
      (.can .canA (answerIdent (writeRequest plainHdr 0x1101 0 []) 2) [0, 10, 0, 0, 0, 0, 0x01, 0x11, 0, 0, 10, 0, 0, 0, 0, 0])) = true := by
  decide +kernel

/-- A ring of 40 modules, this one being `m`, both directions with a selected link unless `right` is false. -/
def ring (right : Bool) : Channel :=
  (((puts running.chA [(0x4252, 1, 40 * 2 ^ 16 + 2 * 2 ^ 14)]).setLink 1 ⟨0, 3, 0, true, true, true⟩).setLink 3
    ⟨0, 3, 0, true, true, right⟩)

/-- The examples of 05_fabric_links.md (R158): module 31 to 5, with and without the right direction, and 1 to 23. -/
theorem test_ring_ways :
    (let at_ := fun (m : Nat) => { running.ctx .a with moduleId := m }
     (ring true).way (at_ 31) 5 = .to 51 14 ∧ (ring false).way (at_ 31) 5 = .to 49 26 ∧ (ring true).way (at_ 1) 23 = .to 49 18) := by
  decide +kernel

/-- The relay tag of the same file (R143). -/
theorem test_relay_tag :
    tagBytes (mkTag false true { running.ctx .a with moduleId := 1 } 53 (tagDest 23 53) 0 0 0 18 + 2 ^ 106) =
      [0x88, 0xB5, 0x15, 0x01, 0xA9, 0x66, 0xA0, 0, 0, 0x04, 0x80, 0, 0, 0, 0, 0] := by decide +kernel

/-- The first example of the file (R152): module 7's link 2 expects module 6. -/
theorem test_neighbour : (ring true).neighbour { running.ctx .b with moduleId := 7 } 2 = 6 := by decide +kernel

/-- The selector entries of the example of 06_parser_and_hashing.md (R172) pick profile 3 for a double-tagged frame, 2 for a
single-tagged one and 1 for an untagged one. -/
theorem test_selectors :
    (let c := puts running.chA [(0x4302, 1, 0x020D020088A80001),
       (0x4302, 2, 2 ^ 57 + 2 * 2 ^ 50 + 0x0800 * 2 ^ 33 + 0x8100 * 2 ^ 16 + 1),
       (0x4302, 3, 2 ^ 57 + 1 * 2 ^ 50 + 2 ^ 49 + 0x0800 * 2 ^ 16 + 1)]
     let frame := fun (et12 et16 : Nat) => Frame.fresh 0 (List.replicate 12 0 ++ beBytes 2 et12 ++ [0, 0] ++ beBytes 2 et16 ++
       List.replicate 46 0) 3 0 0
     c.profileOf (frame 0x88A8 0x8100) = 3 ∧ c.profileOf (frame 0x8100 0x0800) = 2 ∧ c.profileOf (frame 0x0800 0x1234) = 1) := by
  decide +kernel

/-- Group 17 of the same file (R185): a hash of 0xE3069283 reads entry 1,051. -/
theorem test_group_member :
    (let c := wputs (puts running.chA [(0x4307, 1, 1)]) [(0x4304, 0, 0x0E0C * 2 ^ 368),
       (0x4311, 17, 0xFFFFFFFF * 2 ^ 96 + 1072 * 2 ^ 64 + 48 * 2 ^ 32 + 1024), (0x4310, 1051, 2 ^ 60 + 7)]
     let f := Frame.fresh 0 (List.replicate 14 0 ++ digits ++ List.replicate 41 0) 3 0 0
     let f := { f with look := c.lookOf 1 }
     f.hashBytes = digits ∧ (c.resolve (running.ctx .a) f 17).1 = .inr (2 ^ 60 + 7)) := by decide +kernel

/-- The filter index of the example of 08_route_lookup.md (R245): group 1, region 0x0A14. -/
theorem test_filter_index : filterAt false 1 (regionOf false 0x0A140709) = (0x4504, 68116) := by decide +kernel

/-- The loop of the first example of 02_clockless_core.md (R63): 605 mV from 600 mV at 60 % and 1,550 ps, and held at 1,519 ps. -/
theorem test_core_loop :
    (let at_ := fun (v : Nat) => withA fun c => { c with core := { c.core with setMv := v, heard := List.replicate 8 420000 } }
     ends (.setPointUpdate .a (List.replicate 8 1550) [] 600 400) (at_ 600) (fun t =>
       t.chA.core.setMv == 605 && t.chA.reg 0x4000 0x1B == 525 * 2 ^ 16 + 600 && t.chA.reg 0x4000 0x1C == 400) = true ∧
     ends (.setPointUpdate .a (List.replicate 8 1519) [] 605 400) (at_ 605) (fun t => t.chA.core.setMv == 605) = true) := by
  decide +kernel

/-- Port 17 of the example of 03_front_ports.md (R90): 63 bytes with a bad FCS are a fragment, 64 bytes an FCS error. -/
theorem test_port_17 :
    (let s := withRegs [(0x4103, 17, 9216), (0x4102, 17, 0x2001)]
     let bad := fun (n : Nat) => List.replicate (n - 4) (9 : Byte) ++ [1, 2, 3, 4]
     ends (.frameReceive .a 17 (bad 63) .none 0) s (fun t => t.chA.reg 0x4114 17 == 1 && t.chA.reg 0x4112 17 == 0) = true ∧
     ends (.frameReceive .a 17 (bad 64) .none 0) s (fun t => t.chA.reg 0x4114 17 == 0 && t.chA.reg 0x4112 17 == 1) = true) := by
  decide +kernel

/-- The wake frame of the same file (R112): pattern 3 on port 9 matches a 64-byte frame and wakes the sleeping module. -/
theorem test_wake_frame :
    (let s := { withRegs [(0x4102, 9, 0x2001), (0x4230, 3, 0x00C07F * 2 ^ 104), (0x4231, 3, 0x030929B1)] with
       mode := { running.mode with night := .asleep } }
     let b := List.replicate 12 (3 : Byte) ++ [0x88, 0xB6] ++ digits ++ List.replicate 37 (0 : Byte)
     ends (.frameReceive .a 9 (b ++ fcsBytes b) .none 0) s
       (fun t => bitOf (t.chA.reg 0x4232 0) 3 && t.mode.night == .awake) = true) := by decide +kernel

/-- The increment of the example of 13_time_and_launch.md (R415): 601 x 2^-32 ns short of 4 ns. -/
theorem test_increment :
    ends (.timeTick .a) (withRegs [(0x4B03, 0, 0x00000003FFFFFDA7)]) (fun t => t.chA.time.ns == 3 && t.chA.time.frac == 2 ^ 32 - 601) =
      true := by decide +kernel

/-- The example of 16_redundancy.md (R487, R491, R495): with A's third missed slot A is declared and fenced, its reset is deferred, the
recovery window opens and the lease waits for the fence to go to B. -/
theorem test_takeover :
    ends .heartbeatSlot { running with roleA := { running.roleA with hbSeen := false, misses := 2 } } (fun t =>
      t.roleA.st == .failed && t.roleA.fence && t.roleA.deferred && t.arb.window == some ⟨.a, .b, .heartbeat⟩ &&
      t.arb.pending == some ⟨.b, .a, .heartbeat, true, true, false, 1⟩) = true := by decide +kernel

/-- The example of 21_dictionary_channel_objects.md (R655): port 17 lies in macro 5 with port 18, port 21 in macro 6. -/
theorem test_posted_domains :
    postedDomain 0x4103 17 = some (.portMacro 5) ∧ postedDomain 0x4100 18 = some (.portMacro 5) ∧
    postedDomain 0x4100 21 = some (.portMacro 6) := by decide +kernel

/-- The age across the wrap of the example of 07_bridge_table.md (R216): a stamp of 65,500 at 200 is aged at a limit of 236, not of 237. -/
theorem test_age_wrap :
    (let c := fun (limit : Nat) => { puts running.chA [(0x4400, 0, limit * 2 ^ 16), (0x4401, 0, 200 * 2 ^ 48)] with
       bridge := { running.chA.bridge with clock := 1000 } }
     let e := withParity .bridge (2 ^ 127 + 65500 * 2 ^ 44 + 3)
     (c 236).aged e = true ∧ (c 237).aged e = false) := by decide +kernel

/-! ## Reset -/

/-- The state after reset stands before stage 0 in DAWN, with nothing in the queue, no lease and both channels OFF (R561, R577). -/
theorem test_reset :
    State.reset.pending = [] ∧ State.reset.mode.dawn = true ∧ State.reset.arb.holder = none ∧ State.reset.roleA.st = .off ∧
    State.reset.roleB.st = .off ∧ State.reset.mwin = [] ∧ State.reset.chA.dict = [] := by decide +kernel

/-- From reset with one input in use, the three stages of the service block let both channels begin stage 3, and module 64 answers
(all straps wired); then channel A passes stage 3 (R561, R566). -/
theorem test_bring_up :
    (let s := { State.reset with
       power := { State.reset.power with inA := ⟨.ac, .ac⟩, sbOut := true }
       unit := { State.reset.unit with straps := List.replicate 7 .low } }
     let t := run s (List.replicate 3 (.stageComplete .sb true 0) ++ [.stageComplete (.chan .a) true locked])
     t.bring.stage = 15 ∧ t.bring.moduleId = 64 ∧ t.arb.ok = true ∧ t.roleA.stage = 4 ∧ t.roleB.stage = 3 ∧ t.mode.dawn = true) := by
  decide +kernel

/-! ## Every obligation's hypotheses are met

One theorem for each statement with hypotheses; where a statement has several clauses it gives a state for each. -/

theorem meets_StepRunsFront : State.reset.pending = [] ∧ ∃ t, step { running with pending := [.timeTick .a] } = .next t := by
  refine ⟨by decide +kernel, ?_⟩
  obtain ⟨t, h, -⟩ := ends_next (i := .timeTick .a) (s := running) (ok := fun _ => true) (by decide +kernel)
  exact ⟨t, h⟩

theorem meets_QueueAndUnitKept : ∃ t, exec (.timeTick .a) { running with pending := [.coldStart] } = .next t := by
  obtain ⟨t, h, -⟩ := ends_next (i := .timeTick .a) (s := { running with pending := [.coldStart] }) (ok := fun _ => true)
    (by decide +kernel)
  exact ⟨t, h⟩

/-- A module without channel B. -/
def variantC : State := { running with unit := { running.unit with variant := .C } }

theorem meets_OutcomeOfEveryCommand :
    namesAbsent variantC (.timeTick .b) = true ∧
    (namesAbsent running (.lpiEnter .a 49) = false ∧ partExists (.lpiEnter .a 49) = false) ∧
    (namesAbsent running (.plcaBeacon .b 16) = false ∧ partExists (.plcaBeacon .b 16) = true) := by decide +kernel

theorem meets_WellFormedCompletes : wellFormed running.unit.variant (.selectFrame .b 80) = true := by decide +kernel

theorem meets_LeaseInvKept : leaseOk running .a = true ∧ leaseOk running .b = true ∧
    ∃ t, step { running with pending := [.leaseLapse] } = .next t := by
  refine ⟨by decide +kernel, by decide +kernel, ?_⟩
  obtain ⟨t, h, -⟩ := ends_next (i := .leaseLapse) (s := running) (ok := fun _ => true) (by decide +kernel)
  exact ⟨t, h⟩

theorem meets_ModuleStoresKept : tabWf mDflt running.mdict = true ∧ tabWf mwinDflt running.mwin = true ∧
    ∃ t, step { running with pending := [.eventLogWrite] } = .next t := by
  refine ⟨by decide +kernel, by decide +kernel, ?_⟩
  obtain ⟨t, h, -⟩ := ends_next (i := .eventLogWrite) (s := running) (ok := fun _ => true) (by decide +kernel)
  exact ⟨t, h⟩

theorem meets_NoNewHolderWhileLost : ∃ t, exec .leaseLapse { running with arb := { running.arb with ok := false } } = .next t ∧
    t.arb.holder = some .a := by
  obtain ⟨t, h, k⟩ := ends_next (i := .leaseLapse) (s := { running with arb := { running.arb with ok := false } })
    (ok := fun t => t.arb.holder == some .a) (by decide +kernel)
  exact ⟨t, h, by simpa using k⟩

/-- Channel B off, its restart due. -/
def offB : State := { running with roleB := { ChanRole.fresh with restartDue := true } }

/-- No lease: both channels are STANDBY and channel B waits for the fence of A, which is confirmed last. -/
def awaiting : State :=
  { running with
    roleA := { ChanRole.fresh with fenceDone := false }
    arb := { running.arb with holder := none, pending := some ⟨.b, .a, .unfit, false, false, false, 0⟩ } }

theorem meets_ServiceOnlyByGrant :
    (leaseOk offB .a = true ∧ leaseOk offB .b = true ∧ (offB.role .b).st = .off ∧ ∃ t, exec (.channelRestart .b) offB = .next t) ∧
    (leaseOk awaiting .a = true ∧ leaseOk awaiting .b = true ∧ (awaiting.role .b).st = .standby ∧
      ∃ t, exec (.fenceConfirm .a) awaiting = .next t ∧ (t.role .b).st = .active) := by
  refine ⟨⟨by decide +kernel, by decide +kernel, by decide +kernel, ?_⟩, by decide +kernel, by decide +kernel, by decide +kernel, ?_⟩
  · obtain ⟨t, h, -⟩ := ends_next (i := .channelRestart .b) (s := offB) (ok := fun _ => true) (by decide +kernel)
    exact ⟨t, h⟩
  · obtain ⟨t, h, k⟩ := ends_next (i := .fenceConfirm .a) (s := awaiting) (ok := fun t => (t.role .b).st == .active) (by decide +kernel)
    exact ⟨t, h, by simpa using k⟩

theorem meets_TimeTickAddsIncrement :
    running.present .b = true ∧ (running.role .b).st ≠ .off ∧
    (let b := fun (ns : Nat) => ns * 2 ^ 32 + bits (running.chA.hw 0x4B03 0) 39 0
     b 999999995 < 1000000000 * 2 ^ 32 ∧ 1000000000 * 2 ^ 32 ≤ b 999999996) := by decide +kernel

/-- A channel whose time base is VALID, with the 1PPS output and input on. -/
def timed : State :=
  withA fun c => { puts c [(0x4B00, 1, 0x11)] with time := { c.time with valid := true, ns := 999999996, copyDue := true } }

/-- The same at a nanosecond of the second with an OFFSET_NS, a delayed pulse still to come or none. -/
def pulsing (off ns : Nat) (wait : Option Nat) : State :=
  { timed with chA := { puts timed.chA [(0x4B05, 0, off * 2 ^ 32)] with
      time := { timed.chA.time with ns := ns, ppsWait := wait } } }

/-- The pulse at the carry, 4 ns before it, 4 ns after it, and none on the tick before (R422). -/
theorem test_pulse :
    ends (.timeTick .a) (pulsing 0 999999996 none) (fun t => t.chA.time.pps) = true ∧
    ends (.timeTick .a) (pulsing 0 999999992 none) (fun t => !t.chA.time.pps) = true ∧
    ends (.timeTick .a) (pulsing (2 ^ 32 - 4) 999999992 none) (fun t => t.chA.time.pps) = true ∧
    ends (.timeTick .a) (pulsing (2 ^ 32 - 4) 999999996 none) (fun t => !t.chA.time.pps) = true ∧
    ends (.timeTick .a) (pulsing 4 999999996 none) (fun t => !t.chA.time.pps && t.chA.time.ppsWait == some (4 * 2 ^ 32)) = true ∧
    ends (.timeTick .a) (pulsing 4 0 (some (4 * 2 ^ 32))) (fun t => t.chA.time.pps && t.chA.time.ppsWait == none) = true := by
  decide +kernel

theorem meets_PulsesAndTimeCopy :
    (let off := fun (n : Nat) => signedOf 32 (bits ((pulsing n 0 none).chA.hw 0x4B05 0) 63 32)
     off 0 = 0 ∧ off 4 = 4 ∧ off (2 ^ 32 - 4) = -4) ∧
    (timed.role .a).st ≠ .off ∧ (offB.role .b).st = .off ∧ timed.chA.hwBit 0x4B00 1 0 = true ∧ timed.chA.time.valid = true ∧
    timed.chA.hwBit 0x4B00 1 4 = true ∧ running.chA.hwBit 0x4B00 1 4 = false ∧ timed.chA.time.copyDue = true ∧
    running.chA.time.copyDue = false ∧ (timed.present .b && timed.chB.time.valid) = false ∧
    (let s := { timed with chB := { timed.chB with time := { timed.chB.time with valid := true } } }
     s.chA.time.copyDue = true ∧ s.present .b = true ∧ s.chB.time.valid = true) := by decide +kernel

/-! ### Sequencers -/

/-- A microword by SEQ, TARGET, ALU, side operation and its fields. -/
def mw (seq target alu side reg arg : Nat) : Nat :=
  seq * 2 ^ 188 + target * 2 ^ 169 + alu * 2 ^ 163 + 1 * 2 ^ 159 + side * 2 ^ 139 + reg * 2 ^ 135 + arg * 2 ^ 128

/-- Sequencer 37 of channel A, of group 1, about to run the word `d` at 0x3100 for frame 0. -/
def coded (d : Nat) (f : SeqSt → SeqSt) : State :=
  withA fun c =>
    { ((c.writeCopy 1 0x3100 d).setSeq 37 (f { SeqSt.empty with frame := some 0, pc := 0x3100, act := [2 ^ 24 + 5] ++ List.replicate 11 0 }))
      with frames := [{ Frame.fresh 0 (List.replicate 64 1) 3 0 0 with pos := .run }] }

/-- The decidable form of `atWord`. -/
def onWord (c : Channel) (n d : Nat) : Bool :=
  (c.seq n).busy && !(c.seq n).inReset && !c.expired (c.seq n) && Nat.blt (c.seq n).pc 0x10000 && (c.seq n).pc != 0 &&
    (c.seq n).pc != 0x18 && (c.seq n).pc != 0x19 && !(microWord d).reserved &&
    decide (readWord (c.storeWord (n / 32) (c.seq n).pc) = .clean d)

theorem atWord_of_onWord {c : Channel} {n d : Nat} (h : onWord c n d = true) : atWord c n (microWord d) := by
  unfold onWord at h
  simp only [Bool.and_eq_true, Bool.not_eq_true', bne_iff_ne, ne_eq, Nat.blt_eq, decide_eq_true_eq] at h
  obtain ⟨⟨⟨⟨⟨⟨⟨⟨h1, h2⟩, h3⟩, h4⟩, h5⟩, h6⟩, h7⟩, h8⟩, h9⟩ := h
  exact ⟨h1, h2, h3, h4, h5, h6, h7, h8, d, h9, rfl⟩

theorem pipeRuns_of_awake {s : State} {ch : Ch} (h : (s.present ch && s.mode.night == .awake) = true) : pipeRuns s ch := by
  simp only [Bool.and_eq_true, beq_iff_eq] at h
  exact ⟨h.1, by rw [h.2]; decide⟩

/-- Sequencer 37 at a RESOLVE word whose register W1 names group `g`, with the objects and window entries given. -/
def resolving (resolves g : Nat) (l : List (Nat × Nat × Nat)) : State :=
  let s := coded (mw 0 0 2 13 1 0) fun q => { q with regs := q.regs.set 1 (BitVec.ofNat 64 g) }
  { s with chA := wputs (s.chA.modFrame 0 fun f => { f with look := { f.look with resolves := resolves } }) l }

theorem meets_AluOperations : (upFrom 0 15).all (fun k => (microWord (mw 0 0 k 0 0 0)).alu == k) = true := by decide +kernel

/-- A word for each clause, with the sequencer that meets it. -/
def moveSamples : List (Nat × (SeqSt → SeqSt)) :=
  [(0, id), (1, id), (2, id), (3, id), (4, fun q => { q with stack := [1, 2, 3] }), (4, fun q => { q with stack := [1, 2, 3, 4] }),
   (5, fun q => { q with stack := [7] }), (5, id), (9, fun q => { q with flags := 2 ^ 16 }), (9, id)]

theorem meets_MicrowordsMove :
    (moveSamples.all fun x => onWord (coded (mw x.1 0x3200 2 0 0 0) x.2).chA 37 (mw x.1 0x3200 2 0 0 0)) = true ∧
    (microWord (mw 9 0x3200 2 0 0 0)).seq = 9 ∧ (microWord (mw 9 0x3200 2 0 0 0)).side ≠ 13 ∧
    (let c := (coded (mw 9 0 2 0 0 0) fun q => { q with flags := 2 ^ 16 }).chA
     (c.execute (c.seq 37) (microWord (mw 9 0 2 0 0 0)) none).1.inTrap = true) ∧
    (let s := resolving 0 17 [(0x4311, 17, 3 * 2 ^ 64), (0x4310, 3, 2 ^ 60 + 7)]
     let x := fun (s : State) => resolved s.chA (s.ctx .a) (s.chA.seq 37) (microWord (mw 0 0 2 13 1 0))
     onWord s.chA 37 (mw 0 0 2 13 1 0) = true ∧ (x s).1 = 0 ∧ (x s).2.1 = some (2 ^ 60 + 7) ∧ (x (resolving 2 17 [])).1 = 0x37 ∧
       onWord (resolving 2 17 []).chA 37 (mw 0 0 2 13 1 0) = true ∧ s.present .a = true ∧ s.mode.night = .awake) := by decide +kernel

theorem meets_MicrowordsEnd :
    pipeRuns running .a ∧
    (let d := mw 6 0 0 0 0 0
     let s := coded d id
     onWord s.chA 37 d = true ∧ (s.chA.frame 0).isSome = true ∧ (s.chA.seq 37).frame = some 0 ∧
       actionCheck s.unit.variant (s.chA.execute (s.chA.seq 37) (microWord d) none).1.act = 0) ∧
    (let d := mw 6 0 0 0 0 0
     let s := coded d fun q => { q with act := List.replicate 12 0 }
     onWord s.chA 37 d = true ∧ actionCheck s.unit.variant (s.chA.execute (s.chA.seq 37) (microWord d) none).1.act ≠ 0) ∧
    (let d := mw 7 0xC0 0 0 0 0
     onWord (coded d id).chA 37 d = true ∧ 0xC0 ≤ (microWord d).target % 256) ∧
    (let d := mw 7 0x51 0 0 0 0
     onWord (coded d id).chA 37 d = true ∧ 0x3000 ≤ ((coded d id).chA.seq 37).pc ∧ (microWord d).target % 256 < 0xC0) ∧
    (let d := mw 8 3 0 0 0 0
     let c := puts (coded d id).chA [(0x4706, 6, 0x3300)]
     onWord c 37 d = true ∧ (c.execute (c.seq 37) (microWord d) none).1.inTrap = false ∧
       c.reg 0x4706 (3 + (microWord d).target % 8) % 2 ^ 14 ≠ 0) ∧
    ((resolved running.chA (running.ctx .a) SeqSt.empty (microWord (mw 6 0 0 0 0 0))).1 = 0 ∧
      (Frame.fresh 0 (List.replicate 64 1) 3 0 0).look.profile < 256) :=
  ⟨pipeRuns_of_awake (by decide +kernel), by decide +kernel⟩

theorem meets_SequencerWatchdogAndReset :
    pipeRuns running .a ∧
    (let q := fun (s : State) => s.chA.seq 37
     let late := coded 0 fun q => { q with steps := 112 }
     ((q running).busy && !(q running).inReset && running.chA.expired (q running)) = false ∧
       ((q late).busy && !(q late).inReset && late.chA.expired (q late)) = true ∧ (q late).inTrap = false ∧
       (q (coded 0 fun q => { q with inReset := true })).inReset = true) :=
  ⟨pipeRuns_of_awake (by decide +kernel), by decide +kernel⟩

theorem meets_OperandsOfAWord :
    (let m := microWord (mw 0 0 2 3 1 14)
     let q := { SeqSt.empty with frame := some 0, window := List.replicate 128 1 }
     q.regs.length = 16 ∧ m.reserved = false ∧ m.side ≠ 13 ∧ (running.chA.sideLoad q m).isSome = true ∧ m.sideReg < 16 ∧
       (aluRun m (q.regs.getD m.srcA 0) (q.regs.getD m.srcB 0) q.flags).value.isSome = true ∧ m.dst < 16) ∧
    (let m := microWord (mw 0 0 0 0 0 0)
     running.chA.sideLoad SeqSt.empty m = none ∧ (aluRun m 0 0 0).value = none) ∧
    (let m := microWord (mw 0 0 2 13 1 0)
     let one := fun (l : List (Nat × Nat × Nat)) =>
       let c := (resolving 1 17 l).chA
       (c.frame 0).any (fun f => f.look.resolves == 1) && (c.seq 37).frame == some 0 && m.sideReg == 1 && m.side == 13 &&
         ((c.seq 37).regs.getD 1 0).toNat == 17 && !c.damage.objs.contains (winKey 0x4310 0) && !c.damage.objs.contains (winKey 0x4310 3)
     one [(0x4311, 17, 3 * 2 ^ 64)] = true ∧ one [(0x4311, 17, 3 * 2 ^ 64 + 2 ^ 32)] = true ∧
       one [(0x4311, 17, 2 ^ 80 + 3 * 2 ^ 64 + 2 ^ 32), (0x4310, 0, 2 ^ 61 + 9)] = true ∧
       (resolving 0 17 []).chA.memberUp (running.ctx .a) 9 = false ∧
       one [(0x4311, 17, 3 * 2 ^ 64 + 2 ^ 32), (0x4310, 0, 2 ^ 60 + 9)] = true) := by decide +kernel

theorem meets_ControlStoreCode : 2 ^ 192 - 1 < 2 ^ 192 ∧ 199 < 200 ∧ 200 < 201 ∧ 207 < 208 := by decide +kernel

/-- Word 0x3105 as given in each of the eight copies; copy 2 has been found in error. -/
def copies (w : Nat → Nat) : State :=
  withA fun c => { (List.range 8).foldl (fun c k => c.wput 0x14710 (k * 16384 + 0x3105) (w k)) c with
    disp := { c.disp with repair := [(2, 0x3105, false)], scrub := 0x3105 } }

/-- The word 5 with its check. -/
def word5 : Nat := checkOf 5 * 2 ^ 192 + 5

theorem meets_ControlStoreUpkeep :
    (running.chA.disp.repair.all fun r => !(r.1 == 2 && r.2.1 == 0x3105)) = true ∧
    ((copies fun _ => word5).chA.disp.repair.any fun r => r.1 == 2 && r.2.1 == 0x3105) = true ∧
    readWord ((copies fun _ => word5).chA.storeWord 2 0x3105) = .clean 5 ∧
    readWord ((copies fun k => if k = 2 then flipBit word5 200 else word5).chA.storeWord 2 0x3105) = .corrected 5 ∧
    (let c := (copies fun k => if k = 7 then word5 else flipBit word5 207).chA
     readWord (c.storeWord 2 0x3105) = .bad ∧ readWord (c.storeWord 7 0x3105) = .clean 5 ∧
       ((List.range 7).all fun j => readWord (c.storeWord j 0x3105) == .bad) = true) ∧
    ((List.range 8).all fun j => readWord ((copies fun _ => flipBit word5 207).chA.storeWord j 0x3105) == .bad) = true ∧
    (running.chA.put 0x4700 1 0).bit 0x4700 1 1 = false ∧
    (let c := ((copies fun _ => word5).chA.put 0x4700 1 2)
     c.bit 0x4700 1 1 = true ∧ ((List.range 8).all fun k => readWord (c.storeWord k c.disp.scrub) == .clean 5) = true) ∧
    (let c := ((copies fun k => if k = 7 then flipBit word5 0 else word5).chA.put 0x4700 1 2)
     ((List.range 7).all fun k => readWord (c.storeWord k c.disp.scrub) == .clean 5) = true ∧
       readWord (c.storeWord 7 c.disp.scrub) = .corrected 5) := by decide +kernel

/-- A frame in a pipeline. -/
def inPipe (pos : FrameAt) : Frame :=
  let f := Frame.fresh 0 (List.replicate 64 1) 3 0 0
  { f with pos := pos, look := { f.look with probed := true, routed := true, searched := true } }

theorem meets_DispatchAndRelease :
    pipeRuns running .a ∧
    (let c := (withA fun c => { c with frames := [inPipe .look] }).chA
     (c.frame 0).map (·.pos) = some .look ∧ (inPipe .look).look.parity = none ∧ c.freeSeqNo.isSome = true ∧
       ((c.frames.takeWhile fun g => g.id != 0).any fun g => g.pipe == (inPipe .look).pipe && (g.pos == .parse || g.pos == .look)) = false ∧
       (c.frames.filter fun g => g.pipe == (inPipe .look).pipe && (g.pos == .run || g.pos == .done)).length < 64) ∧
    (let c := (withA fun c => { c with frames := [inPipe .done] }).chA
     (c.frames.find? fun f => f.pipe == (inPipe .done).pipe && f.pos != .live && f.pos != .police).map (·.pos) = some .done) ∧
    (let c := (withA fun c => { c with frames := [inPipe .run] }).chA
     (c.frames.find? fun f => f.pipe == (inPipe .run).pipe && f.pos != .live && f.pos != .police).map (·.pos) = some .run) :=
  ⟨pipeRuns_of_awake (by decide +kernel), by decide +kernel⟩

/-- A trigger at time 0, periodic where `us` is not 0; its last routine runs where `busy`. -/
def armed (us : Nat) (busy : Bool) : State :=
  withA fun c =>
    let c := puts c [(0x4708, 1, 2 ^ 63), (0x4708, 2, us)]
    { c with disp := { c.disp with wait := if busy then [(7, 0, 0)] else [] } }

theorem meets_CausesWithoutFrame :
    pipeRuns running .a ∧
    (let c := (withA fun c => { c with disp := { c.disp with wait := [(6, 5, 0)] } }).chA
     c.disp.wait.head? = some (6, 5, 0) ∧ c.freeSeqNo.isSome = true) ∧
    running.chA.disp.wait = [] ∧ bitOf (running.chA.reg 0x4708 1) 63 = false ∧
    (let fires := fun (s : State) => bitOf (s.chA.reg 0x4708 1) 63 && decide (s.chA.time.ahead (triggerTime (s.chA.reg 0x4708 1)) ≤ 0)
     fires (armed 0 false) = true ∧ (armed 0 false).chA.triggerRuns = false ∧ fires (armed 5 true) = true ∧
       (armed 5 true).chA.triggerRuns = true ∧ (armed 5 true).chA.reg 0x4708 2 ≠ 0 ∧ (armed 0 false).chA.reg 0x4708 2 = 0) :=
  ⟨pipeRuns_of_awake (by decide +kernel), by decide +kernel⟩

/-! ### Signed writes -/

/-- Channel A in a drill's digest phase, which holds the engine of table `n`. -/
def halted (n : Nat) : State := withA fun c => { c with own := { c.own with halt := some n } }

theorem meets_TableCommandRows :
    (∀ op, signedChannel running (hdrCh .b 0x4510 1 op) .b 0x4510 1 op ∧ signedChannel running (hdrCh .a 0x4410 1 op) .a 0x4410 1 op ∧
      signedChannel running (hdrCh .a 0x4420 1 op) .a 0x4420 1 op) ∧
    running.chB.bit 0x4510 5 16 = false ∧ running.chA.bit 0x4410 5 16 = false ∧ running.chA.bit 0x4420 5 16 = false ∧
    ((upFrom 1 6).all fun op => !badRouteKey false op (running.chB.reg 0x4510 2) && !badRouteKey true op (running.chB.reg 0x4510 2)) =
      true ∧
    (running.chA.halted 0 = false ∧ (upFrom 0 5).all (fun n => (halted n).chA.halted n && !(halted n).chA.bit 0x4410 5 16) = true) ∧
    (∀ op, signedChannel (halted 0) (hdrCh .a 0x4410 1 op) .a 0x4410 1 op) ∧
    (∀ w, signedChannel running (hdrCh .a 0x4510 1 w) .a 0x4510 1 w) ∧ running.chA.bit 0x4510 5 16 = false ∧
    ((upFrom 0 4).all fun n => !running.chA.halted n) = true ∧
    bits (running.chA.reg 0x4400 0) 30 16 ≠ 0 ∧ bits ((puts running.chA [(0x4400, 0, 0)]).reg 0x4400 0) 30 16 = 0 ∧
    ([0x27, 7, 8, 0x28, 9, 0x29].all fun w => !badRouteKey (bitOf w 5) (w % 16) (running.chA.reg 0x4510 2)) = true :=
  ⟨fun _ => ⟨signedChannel_of_takes (by decide +kernel), signedChannel_of_takes (by decide +kernel),
    signedChannel_of_takes (by decide +kernel)⟩, by decide +kernel, by decide +kernel, by decide +kernel, by decide +kernel,
    by decide +kernel, fun _ => signedChannel_of_takes (by decide +kernel), fun _ => signedChannel_of_takes (by decide +kernel),
    by decide +kernel⟩

/-- Search entry 3 as given, addressed by the command. -/
def searchAt (e : Nat) : State := withA fun c => (c.put 0x4620 4 3).wput 0x4610 3 e

/-- A valid search entry with its parity. -/
def entry5 : Nat := setBits (2 ^ 127 + 5) 123 112 (searchParity (2 ^ 127 + 5))

theorem meets_SearchAndCaptureRows :
    (∀ w, signedChannel (searchAt entry5) (hdrCh .a 0x4620 1 w) .a 0x4620 1 w) ∧ (searchAt entry5).chA.bit 0x4620 5 16 = false ∧
    bitOf (running.chA.wget 0x4610 (running.chA.reg 0x4620 4 % 2 ^ 15)) 127 = false ∧
    (let e := (searchAt entry5).chA.wget 0x4610 ((searchAt entry5).chA.reg 0x4620 4 % 2 ^ 15)
     bitOf e 127 = true ∧ searchGood e = true) ∧
    (let c := (searchAt (entry5 ^^^ 2 ^ 112)).chA
     bitOf (c.wget 0x4610 (c.reg 0x4620 4 % 2 ^ 15)) 127 = true ∧ searchGood (c.wget 0x4610 (c.reg 0x4620 4 % 2 ^ 15)) = false) ∧
    (running.chA.halted 4 = false ∧ (halted 4).chA.bit 0x4620 5 16 = false) ∧
    (∀ w, signedChannel (halted 4) (hdrCh .a 0x4620 1 w) .a 0x4620 1 w) ∧
    (∀ w, signedChannel (withRegs [(0x4C20, 2, 7)]) (hdrCh .a 0x4C20 1 w) .a 0x4C20 1 w) ∧
    (withRegs [(0x4C20, 2, 7)]).chA.bit 0x4C20 5 16 = false ∧ (withRegs [(0x4C20, 2, 7)]).chA.cap.hold = false ∧
    (withRegs [(0x4C20, 2, 7)]).chA.reg 0x4C20 2 ≠ 0 :=
  ⟨fun _ => signedChannel_of_takes (by decide +kernel), by decide +kernel, by decide +kernel, by decide +kernel, by decide +kernel,
    by decide +kernel, fun _ => signedChannel_of_takes (by decide +kernel), fun _ => signedChannel_of_takes (by decide +kernel),
    by decide +kernel⟩

/-- Unit 2 with a job to start: 64 bytes of the customer region. -/
def checking : State := withRegs [(0x4D01, 3, 3 * 2 ^ 20 + 32), (0x4D06, 3, 294912), (0x4D07, 3, 64)]

theorem meets_CheckAndRaiseRows :
    (∀ w, signedChannel checking (hdrCh .a 0x4D08 3 w) .a 0x4D08 3 w ∧ signedChannel checking (hdrCh .a 0x4707 1 w) .a 0x4707 1 w) ∧
    checking.chA.jobBusy 3 = false ∧ checking.chA.misStart 3 = false ∧ checking.chA.badStart checking.unit.variant 3 = false ∧
    checking.chA.reg 0x4D07 3 ≠ 0 ∧ checking.chA.bit 0x4707 1 8 = false :=
  ⟨fun _ => ⟨signedChannel_of_takes (by decide +kernel), signedChannel_of_takes (by decide +kernel)⟩, by decide +kernel⟩

/-- Channel B's time base is VALID. -/
def partnered : State := { running with chB := { running.chB with time := { running.chB.time with valid := true } } }

theorem meets_TimeAndWatermarkRows :
    (∀ v, signedChannel partnered (hdrCh .a 0x4B03 0 v) .a 0x4B03 0 v ∧ signedChannel partnered (hdrCh .a 0x4B04 0 v) .a 0x4B04 0 v ∧
      signedChannel partnered (hdrCh .a 0x4B02 0 v) .a 0x4B02 0 v ∧ signedChannel partnered (hdrCh .a 0x4B00 1 v) .a 0x4B00 1 v ∧
      signedChannel partnered (hdrCh .a 0x4B11 52 v) .a 0x4B11 52 v ∧
      signedChannel partnered (hdrCh .a 0x4000 0x10 v) .a 0x4000 0x10 v) ∧
    (let inc := maskWrite (2 ^ 40 - 1) (running.chA.reg 0x4B03 0) (7 * 2 ^ 31)
     running.chA.domainBusy 0x4B03 0 = false ∧ 7 * 2 ^ 32 ≤ 2 * bits inc 39 0 ∧ 2 * bits inc 39 0 ≤ 9 * 2 ^ 32) ∧
    (running.chA.domainBusy 0x4B04 0 = false ∧
      outOfTime ((running.chA.time.now : Int) + signedOf 64 (maskWrite (2 ^ 64 - 1) (running.chA.reg 0x4B04 0) 1000000000)) = false) ∧
    (let v := 5 * 2 ^ 32 + 999999999
     let set := maskWrite (2 ^ 80 - 1 - 3 * 2 ^ 30) (running.chA.reg 0x4B02 0) v
     bits v 31 30 = 0 ∧ bits set 29 0 ≤ 999999999 ∧
       outOfTime ((bits set 79 32 * 1000000000 + bits set 29 0 : Nat) : Int) = false ∧ running.chA.domainBusy 0x4B02 0 = false) ∧
    (partnered.chA.reg 0x4B00 1 < 2 ^ 32 ∧ partnered.chA.domainBusy 0x4B00 1 = false ∧ partnered.partnerTime .a = true) ∧
    (running.chA.reg 0x4000 0x10 < 2 ^ 32 ∧ bits (running.chA.reg 0x4000 0x10) 5 4 ≠ 3) :=
  ⟨fun _ => ⟨signedChannel_of_takes (by decide +kernel), signedChannel_of_takes (by decide +kernel),
    signedChannel_of_takes (by decide +kernel), signedChannel_of_takes (by decide +kernel), signedChannel_of_takes (by decide +kernel),
    signedChannel_of_takes (by decide +kernel)⟩, by decide +kernel⟩

theorem meets_ResetAndFlashCommandRows :
    (∀ v, signedModule running (hdr 0x1109 0 v) 0x1109 0 v ∧ signedModule running (hdr 0x1500 1 v) 0x1500 1 v ∧
      signedModule running (hdr 0x1500 5 v) 0x1500 5 v) ∧
    running.mreg 0x1109 0 / 2 ^ 15 % 2 = 0 ∧ (running.role .a).st = .active ∧ running.arb.holder = some .a ∧ running.fit .b = true ∧
    (running.role .b).st ≠ .isolated ∧ running.flash.imageJob = none ∧ running.flash.microJob = none ∧ running.power.warn = false ∧
    running.mode.dawn = false ∧ (running.mode.dusk && running.modeCode != 3) = false :=
  ⟨fun _ => ⟨signedModule_of_takes (by decide +kernel), signedModule_of_takes (by decide +kernel),
    signedModule_of_takes (by decide +kernel)⟩, by decide +kernel⟩

/-- Channel B isolated. -/
def isolatedB : State := { running with roleB := { ChanRole.fresh with st := .isolated } }

/-- Channel B stale, the relay down. -/
def staleB : State :=
  { running with roleB := { running.roleB with stale := true }, relay := { running.relay with up := false } }

/-- The module asleep in NIGHT. -/
def asleep : State := { running with mode := { running.mode with night := .asleep } }

theorem meets_RoleAndModeCommandRows :
    (∀ v, signedModule running (hdr 0x1300 4 v) 0x1300 4 v ∧ signedModule running (hdr 0x1101 0 v) 0x1101 0 v ∧
      signedModule isolatedB (hdr 0x1300 4 v) 0x1300 4 v ∧ signedModule asleep (hdr 0x1101 0 v) 0x1101 0 v) ∧
    running.drillReady = true ∧ running.arb.holder = some .a ∧ running.arb.drill = none ∧ running.fit .b = true ∧
    (running.chA.unit0Free = true ∧ running.chB.unit0Free = true ∧ running.relay.deltas = [] ∧
      (running.mode.dusk && running.modeCode != 3) = false ∧ running.chA.own = Channel.fresh.own ∧ running.chB.own = Channel.fresh.own) ∧
    (isolatedB.role .b).st = .isolated ∧ running.relay.up = true ∧ (running.role .b).st = .standby ∧
    ((staleB.role .b).stale = true ∧ staleB.relay.resync = none ∧ staleB.mode.dawn = false) ∧
    awaiting.arb.holder = none ∧ running.arb.window = none ∧ running.arb.hold = none ∧ running.mode.night = .awake ∧
    running.unit.variant ≠ .C :=
  ⟨fun _ => ⟨signedModule_of_takes (by decide +kernel), signedModule_of_takes (by decide +kernel),
    signedModule_of_takes (by decide +kernel), signedModule_of_takes (by decide +kernel)⟩, by decide +kernel⟩

/-! ### The role arbiter -/

/-- The module with the role of channel A changed. -/
def roleA (f : ChanRole → ChanRole) : State := { running with roleA := f running.roleA }

/-- The same with the arbiter changed. -/
def arbiter (f : Arbiter → Arbiter) : State := { running with arb := f running.arb }

/-- Channel A holds the lease after `n` low SCOREs in a row, an enabled front port being down and FAIL_THRESHOLD 255; B as given. -/
def lowA (n : Nat) (b : ChanRole) : State :=
  { (roleA fun r => { r with lowRun := n }).mput 0x1300 1 (255 * 2 ^ 16) with roleB := b, chA := puts running.chA [(0x4100, 1, 1)] }

theorem meets_HeartbeatsAndSlots :
    (bitOf (running.healthWord .a) 7 = false ∧ running.failThreshold ≤ bits (running.healthWord .a) 31 24) ∧
    (arbiter fun a => { a with ok := false }).arb.ok = false ∧
    (let s := roleA fun r => { r with hbSeen := false, misses := 1 }
     s.arb.ok = true ∧ s.arb.pending = none ∧ s.arb.back = none ∧ ([Ch.a, .b].all fun c => (s.role c).hbSeen || Nat.blt (s.role c).misses 2) = true ∧
       (s.role .a).beats = true ∧ (s.role .a).hbSeen = false) ∧
    ([0, 2].all fun n =>
      let s := lowA n ChanRole.fresh
      !bitOf (s.healthWord .a) 7 && Nat.blt (bits (s.healthWord .a) 31 24) s.failThreshold && (s.role .a).beats && s.arb.ok &&
        s.arb.holder == some .a && !s.fit .b) = true := by decide +kernel

/-- The decidable form of `firstFailure`. -/
def canFail (s : State) (c : Ch) : Bool :=
  s.arb.ok && s.present c && s.arb.holder == some c && (s.role c).st == .active && s.arb.window.all fun w => w.new != c

theorem firstFailure_of_canFail {s : State} {c : Ch} (h : canFail s c = true) : firstFailure s c := by
  simp only [canFail, Bool.and_eq_true, beq_iff_eq] at h
  obtain ⟨⟨⟨⟨h1, h2⟩, h3⟩, h4⟩, h5⟩ := h
  refine ⟨h1, h2, h3, h4, fun w hw => ?_⟩
  rw [hw] at h5
  simpa using h5

theorem leaseCanMove_of_canFail {s : State} {c : Ch} (h : canFail s c = true)
    (k : s.arb.drainer = none ∧ s.fit c.other = true ∧ (s.chan c).box.deltas = []) : leaseCanMove s c :=
  ⟨firstFailure_of_canFail h, k⟩

theorem canMove_running : leaseCanMove running .a := leaseCanMove_of_canFail (by decide +kernel) (by decide +kernel)


/-- Channel A holds the lease and has a regulator fault. -/
def unfitA : State := withA fun c => { c with core := { c.core with regFault := true } }

theorem meets_FailureMovesTheLease :
    leaseCanMove running .a ∧ (leaseCanMove unfitA .a ∧ declares unfitA .a (.heartbeatArrival .a) .unfit) ∧
    (leaseCanMove (lowA 2 running.roleB) .a ∧
      declares (lowA 2 running.roleB) .a (.heartbeatArrival .a) .score) ∧ declares running .a (.selfDeclare .a true) .unfit ∧
    (running.arb.holder ≠ some .b ∧ (running.role .b).beats = true ∧ declares running .b (.selfDeclare .b true) .unfit) ∧
    (let s := { running with arb := { running.arb with drainer := some .b, drill := some ⟨2, .b, .a, 8, false, 0, 0, 0, false⟩ } }
     firstFailure s .a ∧ s.arb.drainer = some .b ∧ s.healthy .b = true) ∧
    (let s := { running with roleB := ChanRole.fresh }
     firstFailure s .a ∧ s.fit .b = false ∧ s.arb.drainer = none ∧ s.present .b = true) ∧
    (bitOf (running.healthWord .a) 7 = false ∧ (running.role .a).outputOn = true) ∧
    (let s := roleA fun r => { r with hbSeen := false, misses := 2 }
     leaseCanMove s .a ∧ (s.role .a).hbSeen = false ∧ 2 ≤ (s.role .a).misses ∧ (s.role .b).hbSeen = true ∧ s.arb.pending = none ∧ s.arb.back = none) :=
  ⟨canMove_running, ⟨leaseCanMove_of_canFail (by decide +kernel) (by decide +kernel), rfl, by decide +kernel⟩,
    ⟨leaseCanMove_of_canFail (by decide +kernel) (by decide +kernel), rfl, by decide +kernel, by decide +kernel, by decide +kernel,
      fun _ => by decide +kernel⟩, ⟨rfl, rfl⟩, ⟨by decide +kernel, by decide +kernel, rfl, rfl⟩,
    ⟨firstFailure_of_canFail (by decide +kernel), by decide +kernel⟩, ⟨firstFailure_of_canFail (by decide +kernel), by decide +kernel⟩,
    by decide +kernel, leaseCanMove_of_canFail (by decide +kernel) (by decide +kernel), by decide +kernel⟩

/-- Channel A holds the lease with a regulator fault, the window after B's failure open; B as given. -/
def secondFailure (cause : DeclCause) (r : ChanRole) : State :=
  { unfitA with arb := { unfitA.arb with window := some ⟨.b, .a, cause⟩ }, roleB := r }

/-- Channel B failed by its heartbeats, its reset deferred, heard again for `n` slots. -/
def failedB (n : Nat) : ChanRole := { running.roleB with st := .failed, fence := true, deferred := true, goodRun := n }

def opened (s : State) (w : Window) : Bool :=
  s.arb.ok && s.present .b && s.arb.holder == some .a && (s.role .a).st == .active && s.arb.window == some w && s.arb.drainer == none &&
    bitOf (s.healthWord .a) 7

/-- Channel B returns, with no lease in force; the fence of A is confirmed or not. -/
def returning (starting done : Bool) : State :=
  { arbiter fun a => { a with holder := none, back := some ⟨.b, .a, starting, 0⟩, window := some ⟨.a, .b, .unfit⟩ } with
    roleA := { ChanRole.fresh with fenceDone := done }
    roleB := { running.roleB with st := if starting then .starting else .off, stage := 9 } }

theorem meets_SecondFailureAndReinstatement :
    (let s := secondFailure .heartbeat (failedB 3)
     opened s ⟨.b, .a, .heartbeat⟩ = true ∧ (s.role .b).st = .failed ∧ (s.role .b).deferred = true ∧ s.healthy .b = true ∧
       ends (.heartbeatArrival .a) s (fun t => t.arb.back == some ⟨.b, .a, false, 0⟩ && t.arb.window == some ⟨.a, .b, .unfit⟩) = true) ∧
    (let s := secondFailure .heartbeat (failedB 2)
     opened s ⟨.b, .a, .heartbeat⟩ = true ∧ s.healthy .b = false) ∧
    (opened (secondFailure .unfit running.roleB) ⟨.b, .a, .unfit⟩ = true ∧
      ends (.heartbeatArrival .a) (secondFailure .unfit running.roleB) (fun t => t.arb.hold.isSome && t.arb.window == some ⟨.b, .a, .unfit⟩) = true) ∧
    ([(false, false), (true, true), (true, false)].all fun x =>
      let s := returning x.1 x.2
      s.arb.ok && s.arb.back == some ⟨.b, .a, x.1, 0⟩ && s.arb.holder == none && s.arb.pending == none && s.present .b &&
        (s.role .b).hbSeen && !(s.role .a).beats && s.mayGrant ⟨.b, .a, .reinstatement, true, true, false, 0⟩ == x.2 &&
        s.relay.hold.isEmpty && !fenceWasLate (s.role .a)) = true ∧
    (let s := { returning true true with relay := { running.relay with hold := [.obj (objKey 0x4103 17) 100, .slot .v4 9 1] } }
     let busy := { s with chB := s.chB.put 0x410E 5 1 }
     s.deltaWaits .b (.obj (objKey 0x4103 17) 100) = false ∧ busy.deltaWaits .b (.obj (objKey 0x4103 17) 100) = true) ∧
    ends .heartbeatSlot (returning false false) (fun t => (t.role .b).st == .starting && t.arb.back == some ⟨.b, .a, true, 0⟩) = true ∧
    ends .heartbeatSlot (returning true false) (fun t => (t.role .b).st == .starting && t.arb.pending.isSome) = true := by
  decide +kernel

theorem meets_OrphanWhileArbiterLost :
    (let s := { arbiter fun a => { a with ok := false } with roleA := { running.roleA with orphan := true } }
     s.arb.ok = false ∧ s.arb.holder = some .a ∧ (s.role .a).st = .active ∧ s.present .a = true ∧ (s.role .a).orphan = true ∧
       bitOf (s.healthWord .a) 7 = false ∧ bitOf ({ s with chA := unfitA.chA }.healthWord .a) 7 = true) := by
  decide +kernel

/-- Channel A fenced, its islands not confirmed; the grant that B waits for, as recorded and counted. -/
def fenced (counted record : Bool) : State :=
  { arbiter fun a => { a with holder := none, pending := some ⟨.b, .a, .unfit, record, counted, false, 0⟩ } with
    roleA := { ChanRole.fresh with fenceDone := false } }

theorem meets_FencesAndGrants :
    (running.role .a).fence = false ∧
    ((roleA fun _ => ChanRole.fresh).role .a).fence = true ∧ (roleA fun _ => ChanRole.fresh).arb.pending = none ∧
    ([(true, true), (false, false)].all fun x =>
      let s := fenced x.1 x.2
      (s.role .a).fence && s.arb.pending == some ⟨.b, .a, .unfit, x.2, x.1, false, 0⟩ && s.arb.ok && (s.role .b).st == .standby &&
        !(s.role .a).fenceDone && !(s.role .a).fenceLate) = true ∧
    ([0, 200].all fun now =>
      let s := { fenced true true with
        sbTime := now
        arb := { (fenced true true).arb with pending := some ⟨.b, .a, .unfit, true, true, true, 0⟩ } }
      s.arb.pending.isSome && s.arb.ok && s.arb.back.isNone && ([Ch.a, .b].all fun c => (s.role c).hbSeen || Nat.blt (s.role c).misses 2) &&
        Nat.ble (s.arb.leaseAt + 110) (s.sbTime + 1) == (now == 200) && (s.role .b).st == .standby) = true := by decide +kernel

/-- The arbiter lost, with no lease and both channels as given. -/
def lostWith (a b : ChanRole) : State :=
  { arbiter fun x => { x with ok := false, holder := none } with roleA := a, roleB := b }

theorem meets_WindowHoldAndArbiter :
    (let s := { arbiter fun a => { a with window := some ⟨.b, .a, .unfit⟩ } with
       roleB := { ChanRole.fresh with st := .failed, deferred := true } }
     s.arb.window = some ⟨.b, .a, .unfit⟩ ∧ s.arb.ok = true ∧ (s.role .b).deferred = true ∧ (s.role .a).deferred = false) ∧
    (let s := arbiter fun a => { a with ok := false }
     s.arb.ok = false ∧ s.power.sbOut = true ∧ s.arb.hold = none ∧ s.arb.pending = none ∧ s.arb.window = none ∧
       (s.role .a).deferred = false ∧ (s.role .b).deferred = false ∧ s.arb.holder = some .a ∧ (s.role .a).st = .active) ∧
    (let s := lostWith (started running.roleA .standby) running.roleB
     s.arb.ok = false ∧ s.arb.holder = none ∧ s.candidate .a = true ∧ (s.role .b).st = .standby) ∧
    (let s := lostWith ChanRole.fresh running.roleB
     s.arb.holder = none ∧ s.candidate .b = true ∧ s.candidate .a = false ∧ (s.role .a).st = .off) ∧
    (let s := lostWith ChanRole.fresh ChanRole.fresh
     s.arb.holder = none ∧ (s.role .a).st ≠ .active ∧ (s.role .b).st ≠ .active ∧ s.candidate .a = false ∧ s.candidate .b = false) ∧
    (let s := { lostWith ChanRole.fresh ChanRole.fresh with unit := variantC.unit }
     s.arb.holder = none ∧ s.candidate .a = false ∧ s.present .b = false ∧ s.waitsRole .a = false) ∧
    (let s := { arbiter fun a => { a with holder := none, hold := some .a } with
       roleA := { ChanRole.fresh with st := .starting }, roleB := ChanRole.fresh }
     s.arb.ok = true ∧ s.arb.hold = some .a ∧ (s.present .b && (s.role .b).st != .isolated) = true) ∧
    (let s := { arbiter fun a => { a with holder := none, hold := some .a } with
       roleA := { ChanRole.fresh with st := .starting }, roleB := { ChanRole.fresh with st := .isolated } }
     (s.present .b && (s.role .b).st != .isolated) = false) := by decide +kernel

/-- A drill from A to B in a phase, at an item of the digest. -/
def drilling (phase item : Nat) : State := arbiter fun a => { a with drill := some ⟨phase, .a, .b, item, false, 0, 0, 0, false⟩ }

/-- The digest phase at an item whose jobs on both channels have ended with the results given. -/
def compared (item : Nat) (noon : Bool) (x y : Option Nat) : State :=
  let s := arbiter fun a => { a with drill := some ⟨1, .a, .b, item, noon, 0, 0, 0, false⟩ }
  { s with
    chA := { s.chA with own := { s.chA.own with got := [x], halt := some item } }
    chB := { s.chB with own := { s.chB.own with got := [y] } } }

/-- Channel A's time base is VALID in the drill window, with drills on. -/
def drillTime : State :=
  let s := withA fun c => { c with time := { c.time with valid := true, sec := 3600 * 24 * 400 } }
  (s.mput 0x1300 1 1).mput 0x1300 5 (2 ^ 48 + 1440 * 2 ^ 16)

/-- The exchange of roles: B holds the lease, A drains. -/
def exchanged (st : ChState) : State :=
  { drilling 3 8 with
    arb := { (drilling 3 8).arb with holder := some .b, drainer := some .a }
    roleA := started running.roleA st, roleB := started running.roleB .active }

theorem meets_DrillCourse :
    running.drillDue = false ∧
    (drillTime.drillDue = true ∧ drillTime.arb.holder = some .a ∧ drillTime.drillReady = true ∧ drillTime.arb.suspended = false) ∧
    (let s := { drillTime with arb := { drillTime.arb with suspended := true } }
     s.drillDue = true ∧ s.arb.suspended = true) ∧
    (running.chA.unit0Free = true ∧ running.chB.unit0Free = true) ∧
    ([(some 5, some 5), (some 5, some 6), (none, some 5)].all fun x => (upFrom 0 9).all fun i =>
       let s := compared i false x.1 x.2
       s.arb.drill == some ⟨1, .a, .b, i, false, 0, 0, 0, false⟩ && s.arb.ok && s.arb.holder == some .a &&
         (s.role .b).st == .standby && s.relay.deltas.isEmpty && s.chA.own.got == [x.1] && s.chB.own.got == [x.2] &&
         s.chA.own.todo.isEmpty && s.chB.own.todo.isEmpty && !s.chA.own.running && !s.chB.own.running &&
         s.arb.drill.all (fun d => d.lastItem == 8)) = true ∧
    ((compared 7 true (some 5) (some 5)).arb.drill.map Drill.lastItem = some 7) ∧
    (let s := { drilling 1 0 with chA := (withRegs [(0x4D09, 1, 2 ^ 16)]).chA }
     s.chA.unit0Free = false ∧ s.chA.own.got = [] ∧ s.chA.own.running = false ∧ s.relay.deltas = []) ∧
    ((drilling 2 0).arb.drill.map (fun d => (d.phase, d.released)) = some (2, false)) ∧
    ((exchanged .active).arb.drainer = some .a ∧ ((exchanged .active).role .a).st = .active ∧ (exchanged .active).arb.drill.isSome = true) ∧
    ((exchanged .draining).arb.drainer = some .a ∧ ((exchanged .draining).role .a).st = .draining) := by decide +kernel

/-- The relay with deltas on the way. -/
def relaying (l : List Delta) : State := { running with relay := { running.relay with deltas := l } }

theorem meets_RelayCourse :
    running.arb.holder = some .a ∧ (relaying [.obj (objKey 0x4404 3) 5, .slot .v4 9 1]).relay.deltas.length = 2 ∧
    (let s := relaying [.obj (objKey 0x4103 17) 100]
     s.deltaWaits .b (.obj (objKey 0x4103 17) 100) = false ∧
       { s with chB := s.chB.put 0x410E 5 1 }.deltaWaits .b (.obj (objKey 0x4103 17) 100) = true) ∧
    running.relay.deltas = [] ∧ running.mode.dawn = false ∧ (running.mode.dusk && running.modeCode != 3) = false ∧
    running.present .b = true ∧
    (let s := { running with
       roleB := { ChanRole.fresh with st := .starting, stage := 7 }
       relay := { running.relay with resync := some .b } }
     s.relay.resync = some .b ∧ (s.role .b).st = .starting ∧ s.mode.dawn = false) ∧
    (let s := { running with relay := { running.relay with resync := some .b }, mode := { running.mode with last := running.modeCode } }
     s.relay.resync = some .b ∧ s.relay.copyLeft = 0 ∧ s.mode.last = s.modeCode) ∧ running.relay.resync = none := by decide +kernel

/-! ### The core, the modes, the supply -/

/-- Channel A at a set point, with TRACK_MODE as given. -/
def coreAt (mv track : Nat) (exit : Bool) : State :=
  withA fun c => { puts c [(0x4000, 0x10, track * 2 ^ 4)] with core := { c.core with setMv := mv, exitPend := exit } }

/-- The module in DUSK, allowed by 0x1104. -/
def dusk : State :=
  let s := { running with mode := { running.mode with dusk := true } }
  s.mput 0x1104 0 (setBit (s.mreg 0x1104 0) 0 true)

/-- The module in DUSK, each pipeline of channel A having received `n` bits in this window. -/
def duskHeard (n : Nat) : State :=
  { dusk with chA := { dusk.chA with core := { dusk.chA.core with heard := List.replicate 8 n } } }

/-- What the clauses on an update in range share. -/
def steady (s : State) : Bool :=
  s.power.ctrlOk && s.mode.night != .asleep && !s.chA.core.monFault && Nat.ble (s.chA.pool 15).shared 4096 && !s.chA.core.drain

theorem meets_SetPointUpdate :
    running.present .a = true ∧ running.mode.dawn = false ∧
    ((running.mode.dusk && running.modeCode != 3) = false ∧ (dusk.mode.dusk && dusk.modeCode != 3) = false) ∧
    { running.power with ctrlOk := false }.ctrlOk = false ∧ asleep.mode.night = .asleep ∧
    (∃ q ∈ [399], q < 400 ∨ 4000 < q) ∧ (∀ q ∈ [400, 4000], 400 ≤ q ∧ q ≤ 4000) ∧
    (steady (coreAt 600 1 false) = true ∧ bits ((coreAt 600 1 false).chA.reg 0x4000 0x10) 5 4 = 1) ∧
    bits ((coreAt 600 2 false).chA.reg 0x4000 0x10) 5 4 = 2 ∧
    (let s := duskHeard 245699
     steady s = true ∧ s.modeCode = 3 ∧ s.duskTrigger .a = false ∧ s.chA.core.exitPend = false ∧
       bits (s.chA.reg 0x4000 0x10) 5 4 = 0) ∧
    (steady (coreAt 600 0 false) = true ∧ (coreAt 600 0 false).modeCode ≠ 3 ∧ (coreAt 600 0 false).mode.dusk = false) ∧
    (steady (coreAt 600 0 true) = true ∧ (coreAt 600 0 true).chA.core.exitPend = true) ∧
    ((duskHeard 245700).mode.dusk = true ∧ (duskHeard 245700).duskTrigger .a = true ∧ (duskHeard 245700).power.ctrlOk = true) := by decide +kernel

/-- NIGHT entry, with a wake source that arose or none. -/
def entering (w : Option WakeCause) : State := { running with mode := { running.mode with night := .entering, wake := w } }

/-- Channel A at second 100, the wake time set to a second and enabled, in a stage of NIGHT. -/
def wakeAt (sec : Nat) (n : Night) : State :=
  let s := withA fun c => { c with time := { c.time with sec := 100 } }
  { s with mode := { s.mode with night := n } }.mput 0x1105 0 (2 ^ 63 + sec * 2 ^ 30)

/-- The difference that decides whether a wake time is due. -/
def wakeDiff (s : State) : Nat :=
  (s.chA.time.sec % 2 ^ 32 * 1000000000 + s.chA.time.ns + 2 ^ 32 * 1000000000 -
    (bits (s.mreg 0x1105 0) 61 30 * 1000000000 + bits (s.mreg 0x1105 0) 29 0)) % (2 ^ 32 * 1000000000)

theorem meets_ModeChanges :
    running.duskReady = false ∧
    (let q := fun (c : Channel) => { c with core := { c.core with quietRun := 10000 } }
     ({ running with chA := q running.chA, chB := q running.chB }.mput 0x1104 0 (setBit (running.mreg 0x1104 0) 0 true)).duskReady = true) ∧
    running.mode.night ≠ .entering ∧ (entering none).mode.night = .entering ∧ (entering none).mode.wake = none ∧
    (entering (some .fault)).mode.wake = some .fault ∧ bits (running.mreg 0x1104 0) 7 4 ≠ 4 ∧
    ((entering (some .host)).mput 0x1101 0 4).mreg 0x1101 0 = 4 ∧
    (let f := { Frame.fresh 0 (List.replicate 64 1) 3 0 0 with copies := [Copy.mk0 0 5 .fwd .queued 5 40 none] }
     let s := { entering none with chA := { running.chA with frames := [f], queues := [(40, ⟨[(0, 0)], 1, 0⟩)] } }
     s.channels.any (fun ch => !(s.chan ch).queuesEmpty) = true) ∧
    running.mode.night = .awake ∧ bitOf (running.mreg 0x1105 0) 63 = false ∧
    (let due := fun (s : State) => s.refChan == some .a && bitOf (s.mreg 0x1105 0) 63 && Nat.ble (wakeDiff s) (2 ^ 31 * 1000000000)
     due (wakeAt 100 .asleep) = true ∧ due (wakeAt 99 .entering) = true ∧ due (wakeAt 101 .asleep) = false) := by decide +kernel

theorem meets_JunctionAndIslands :
    signedOf 16 840 = 840 ∧ signedOf 16 839 < 840 ∧ running.chA.bit 0x4000 0x20 26 = true ∧ running.chA.bit 0x4000 0x20 28 = true ∧
    (withRegs [(0x4000, 0x20, 0)]).chA.bit 0x4000 0x20 28 = false := by decide +kernel

theorem meets_SupplyInputs :
    (let m := fun (dc : Bool) (v i f us : Nat) => inputTarget ⟨dc, v, i, f, us⟩
     m true 799 0 0 5000 = some .lost ∧ m true 800 0 0 0 = some .low ∧ m true 999 0 0 0 = some .low ∧ m true 1000 0 0 0 = some .dc ∧
       m true 4400 0 0 0 = some .dc ∧ m true 4401 0 0 1000 = some .overvoltage ∧ m false 2300 599 500 5000 = some .lost ∧
       m false 850 600 430 0 = some .ac ∧ m false 3200 4600 4600 0 = some .ac ∧ m false 700 600 500 0 = some .low ∧
       m false 849 600 500 0 = some .low ∧ m false 700 600 429 100000 = some .frequency) ∧
    running.power.looped = true ∧ { running.power with looped := false }.looped = false ∧
    (let s := { running with power := { running.power with inA := ⟨.lost, .lost⟩ } }
     (s.input .a).st.gone = true ∧ InputState.gone .ac = false ∧ InputState.gone .lost = true ∧ (s.input .b).st ≠ .lost ∧
       s.power.powered = true ∧ s.power.warn = false ∧ s.fed = true ∧ (s.setInput .b ((s.input .b).step .lost)).fed = false ∧
       s.mode.dawn = false) ∧
    (running.input .a).st ≠ .returning ∧
    ({ running with power := { running.power with inA := ⟨.returning, .ac⟩ } }.input .a).st = .returning ∧
    (running.setInput .a ((running.input .a).step .lost)).fed = true := by decide +kernel

theorem meets_SupplyOutputs :
    running.power.ctrlOk = true ∧ { running.power with ctrlOk := false }.ctrlOk = false ∧ running.power.sbOut = true ∧
    { running.power with sbOut := false }.sbOut = false ∧
    (let r := (roleA fun _ => { ChanRole.fresh with st := .starting, stage := 3, attempt := 3, outputOn := true }).role .a
     r.st = .starting ∧ r.stage = 3 ∧ r.outputOn = true ∧ r.waitNight = false ∧ r.waitArb = false ∧ r.attempt < 4) ∧
    (bits (running.mreg 0x1200 7) 15 0 < 65535 ∧ 800 ≤ signedOf 16 800) ∧ running.power.powered = true ∧ running.mode.dawn = false ∧
    running.fed = true ∧
    { running with power := { running.power with inA := ⟨.lost, .lost⟩, inB := ⟨.lost, .lost⟩ } }.fed = false := by decide +kernel

/-! ### Bring-up, resets, persistence -/

/-- The module without power, its event log ending with an entry of the given code at index 0. -/
def unpowered (code : Nat) : State :=
  { running with
    power := { running.power with powered := false }
    log := { running.log with next := 1 }
    mwin := tabSet mwinDflt [] (winKey 0x1601 0) (code * 2 ^ 112) }

theorem meets_BringUpKind :
    (let code := fun (s : State) => bits (tabGet mwinDflt s.mwin (winKey 0x1601 ((s.log.next - 1) % 262144))) 127 112
     (unpowered 2).power.powered = false ∧ (unpowered 2).log.next ≠ 0 ∧ code (unpowered 2) = 2 ∧ code (unpowered 3) ≠ 2) := by
  decide +kernel

/-- An image of variant A without records, of a SEQUENCE. -/
def bareImage (seq : Nat) : List Byte :=
  let head := [0x4B#8, 0x58#8, 0x43#8, 0x49#8] ++ leBytes 4 seq ++ [BitVec.ofNat 8 (variantCode .A), 0] ++ leBytes 2 0 ++ leBytes 4 36 ++
    List.replicate 16 0
  head ++ leBytes 4 (crc32c 0xFFFFFFFF head)

/-- The service block in a stage, one input in use. -/
def blockAt (stage attempt : Nat) : State :=
  { State.reset with
    power := { running.power with powered := true }
    bring := { State.reset.bring with stage := stage, attempt := attempt } }

theorem meets_ResetsAndStages :
    running.power.powered = true ∧ 99 < 100 ∧ running.power.resetLow = false ∧ running.bring.resetDue = false ∧
    { running.bring with resetDue := true }.resetDue = true ∧
    ([0, 1, 2].all fun k => (blockAt k 1).power.powered && (blockAt k 1).power.sbOut && !(blockAt k 1).power.resetLow &&
      (blockAt k 1).bring.backoffEnd.isNone && (blockAt k 1).bring.stage == k && (blockAt k 1).fed) = true ∧
    ((blockAt 2 1).role .a).st = .off ∧ (blockAt 2 1).arb.hold = none ∧ (blockAt 1 3).bring.attempt < 4 ∧
    4 ≤ (blockAt 2 4).bring.attempt ∧ running.bring.backoffEnd = none ∧
    { running.bring with backoffEnd := some 5 }.backoffEnd.isSome = true ∧
    ([([], []), (bareImage 7, []), ([], bareImage 7), (bareImage 7, bareImage 8), (bareImage 7, bareImage 7)].map fun x =>
      { blockAt 2 1 with flash := { State.reset.flash with imageA := x.1, imageB := x.2 } }.selectImage) = [3, 1, 2, 2, 1] := by
  decide +kernel

/-- Channel B in a stage of bring-up beside the lease holder A. -/
def starting (stage attempt : Nat) : State :=
  { running with roleB := { ChanRole.fresh with st := .starting, stage := stage, attempt := attempt, outputOn := true } }

theorem meets_ChannelStages :
    (offB.roleB.restartDue = true ∧ offB.roleB.st = .off ∧ offB.bring.stage = 15 ∧ offB.arb.hold = none) ∧
    running.roleB.restartDue = false ∧ running.roleB.backoffEnd = none ∧
    ({ offB.roleB with backoffEnd := some 7 }.backoffEnd.isSome = true) ∧
    ((upFrom 3 7).all fun k => (starting k 1).roleB.st == .starting && !(starting k 1).roleB.waitNight &&
      !(starting k 1).roleB.waitArb && (starting k 1).roleB.stage == k && (starting k 1).arb.hold.isNone) = true ∧
    (starting 4 1).mode.dawn = false ∧ (starting 7 1).mode.night = .awake ∧
    { (starting 7 1).mode with night := .entering }.night ≠ .awake ∧ (bitOf locked 26 = true ∧ bitOf locked 27 = true ∧ bitOf 0 26 = false) ∧
    { (starting 9 1).arb with ok := false }.ok = false ∧ ((starting 9 1).arb.ok = true ∧ (starting 9 1).arb.holder = some .a) ∧
    (let s := { starting 9 1 with arb := { running.arb with holder := none }, roleA := ChanRole.fresh }
     s.arb.ok = true ∧ s.arb.hold = none ∧ s.arb.holder = none ∧ s.arb.pending = none ∧ s.arb.back = none ∧ (s.role .a).st = .off) ∧
    ([3, 4, 5, 6, 8, 9].all fun k => (upFrom 1 10).any fun cause => stageFails k cause) = true ∧ (starting 5 3).roleB.attempt < 4 ∧
    4 ≤ (starting 5 4).roleB.attempt ∧
    (let v := (starting 5 1).vendorSlot ((starting 5 1).loadSlot .b)
     v.valid = true ∧ v.delivered = true ∧ { v with seq := none }.valid = false) ∧
    (starting 4 1).chB.own = Channel.fresh.own ∧ (puts running.chB [(0x4D09, 1, 2 ^ 16)]).unit0Free = false := by decide +kernel

/-- In stage 5 the eight jobs have ended with the check value, or with another result. -/
theorem vendor_jobs_cases (x : Option Nat) :
    let s := { starting 5 1 with chB := { running.chB with own := { running.chB.own with got := List.replicate 8 x } } }
    s.chB.own.got.length = 8 ∧ s.chB.own.todo = [] ∧ s.chB.own.running = false ∧
      (x = some s.chB.vendorCheck → s.chB.own.got = List.replicate 8 (some s.chB.vendorCheck)) ∧
      (x = none → s.chB.own.got ≠ List.replicate 8 (some s.chB.vendorCheck)) := by
  refine ⟨rfl, rfl, rfl, fun h => by rw [h]; rfl, fun h => ?_⟩
  subst h
  exact fun h => by cases h

/-- The flash with a job. -/
def flashing (f : Flash → Flash) : State := { running with flash := f running.flash }

theorem meets_FlashAndLog :
    (flashing fun f => { f with imageJob := some (.save true [1]) }).flash.imageJob = some (.save true [1]) ∧
    (flashing fun f => { f with imageJob := some (.invalidate false) }).flash.imageJob = some (.invalidate false) ∧
    running.power.warn = false ∧
    (let p := { running.power with warn := true, warnWritten := true }
     p.warn = true ∧ p.warnWritten = true) ∧
    (flashing fun f => { f with microJob := some .erase }).flash.microJob = some .erase ∧
    (flashing fun f => { f with microJob := some .commit }).flash.microJob = some .commit ∧
    (State.reset.log.waiting.length = 1 ∧ State.reset.power.powered = true ∧ State.reset.power.warn = false) ∧
    { running.log with waiting := [] }.waiting = [] := by decide +kernel

/-- A COMMIT finds its image complete and its signature valid, or does not: these are free (log entry 6), so each case is possible. -/
theorem commit_cases (v : VendorSlot) :
    Config.imageComplete v.data = false ∨ (Config.imageComplete v.data = true ∧ Config.signatureValid v.data = false) ∨
      (Config.imageComplete v.data = true ∧ Config.signatureValid v.data = true) := by
  cases Config.imageComplete v.data <;> cases Config.signatureValid v.data <;> simp

/-! ### The host port -/

/-- A request of node 70 on a bus. -/
def ask (bus : Bus) (msg : List Byte) : Request := ⟨bus, 3, 1, 70, 5, msg⟩

/-- Whether a bus brings relay frames. -/
def overRelay : Bus → Bool
  | .relay _ => true
  | _ => false

/-- The decidable form of `taken`. -/
def takesMsg (s : State) (q : Request) (func : Nat) : Bool :=
  !overRelay q.bus && s.hostUp && s.busUp q.bus && within 65 126 q.src && q.dest == s.node &&
    !s.host.refuse.contains 0 && Nat.ble q.msg.length 65600 && lengthVerdict func q.msg == 0 &&
    !((s.recentDups q.src).any fun d => d.tag == q.tag && d.func == func && d.msg == q.msg)

theorem taken_of_takesMsg {s : State} {q : Request} {func : Nat} (h : takesMsg s q func = true) : taken s q func := by
  simp only [takesMsg, within, Bool.and_eq_true, beq_iff_eq, Bool.not_eq_true', Nat.ble_eq] at h
  obtain ⟨⟨⟨⟨⟨⟨⟨⟨hb, h1⟩, h2⟩, h3⟩, h4⟩, h5⟩, h6⟩, h7⟩, h8⟩ := h
  refine ⟨h1, ?_, h2, h3.1, h3.2, h4, h5, h6, h7, h8⟩
  intro m hm
  rw [hm] at hb
  cases hb

/-- Session 1 of node 70, proven with a key slot. -/
def proven (slot : Nat) : Session := ⟨1, 70, slot, true, 0, 1, sessionKey, 3, 0⟩

/-- The decidable form of `signedBy` for session 1, but for the MAC. -/
def counted (s : State) (q : Request) (func slot : Nat) : Bool :=
  bitOf (flagsOf func q.msg) 0 && decide (s.sessionOf q.src = some (proven slot)) && Nat.blt 3 (counterOf func q.msg)

/-- A message body followed by its MAC under session 1. -/
def sign (q : Request) (func : Nat) (body : List Byte) : Request :=
  { q with msg := body ++ (hmac sessionKey (leBytes 4 (requestIdent q func) ++ body)).take 8 }

theorem signedBy_of_counted {s : State} {q : Request} {func slot : Nat} {body : List Byte}
    (h : counted s (sign q func body) func slot = true) : signedBy s (sign q func body) func (proven slot) := by
  simp only [counted, Bool.and_eq_true, decide_eq_true_eq, Nat.blt_eq] at h
  have hl : (sign q func body).msg.length - 8 = body.length := by
    simp only [sign, List.length_append, hmac_take_length]
    omega
  refine ⟨h.1.1, h.1.2, h.2, ?_⟩
  rw [hl]
  simp [sign, requestIdent, proven]

/-- A READ of an object, and a READ-BLOCK of 8 bytes of a window from its start. -/
def readOf (idx sub : Nat) : Request := ask (.eth 2) (leBytes 2 idx ++ leBytes 1 sub ++ [0])
def blockOf (idx : Nat) : Request := ask (.eth 2) (leBytes 2 idx ++ [0, 0] ++ leBytes 8 0 ++ leBytes 4 8)

/-- A WRITE of some bytes, and a WRITE-BLOCK from the start of a window, signed. -/
def writeOf (idx sub : Nat) (data : List Byte) : Request :=
  sign (ask (.eth 2) []) 2 (leBytes 2 idx ++ leBytes 1 sub ++ [1] ++ leBytes 4 9 ++ leBytes 2 data.length ++ data)
def writeBlockOf (idx : Nat) (data : List Byte) : Request :=
  sign (ask (.eth 2) []) 4 (leBytes 2 idx ++ [0, 1] ++ leBytes 4 9 ++ leBytes 8 0 ++ leBytes 4 data.length ++ data)

/-- The object that a request names is one of channel A, and passes a check. -/
def namesA (s : State) (q : Request) (ok : Nat → Obj → Bool) : Bool :=
  !s.inDawn (leNat (slice q.msg 0 2)) &&
  match s.place (leNat (slice q.msg 0 2)) (byteAt q.msg 2) with
  | .chan .a i o => ok i o
  | _ => false

/-- The status of a WRITE to an object of channel A. -/
def statusOf (s : State) (q : Request) (i : Nat) (o : Obj) : Nat :=
  s.chA.objStatus (s.ctx .a) (s.partnerTime .a) o i (byteAt q.msg 2) (objOf i (byteAt q.msg 2) (slice q.msg 10 (leNat (slice q.msg 8 2))))

/-- A signed READ, READ-BLOCK and SNAPSHOT, with HOLDING set or not. -/
def readSigned (idx sub : Nat) (held : Bool) : Request :=
  sign (ask (.eth 2) []) 1 (leBytes 2 idx ++ leBytes 1 sub ++ [BitVec.ofNat 8 (1 + 2 * held.toNat)] ++ leBytes 4 9)
def blockSigned (idx sub : Nat) (held : Bool) (len : Nat) : Request :=
  sign (ask (.eth 2) []) 3 (leBytes 2 idx ++ leBytes 1 sub ++ [BitVec.ofNat 8 (1 + 2 * held.toNat)] ++ leBytes 4 9 ++ leBytes 8 0 ++
    leBytes 4 len)
def snapshotSigned (scope sel : Nat) : Request :=
  sign (ask (.eth 2) []) 5 (leBytes 1 scope ++ leBytes 1 0 ++ [1, 0] ++ leBytes 4 9 ++ leBytes 4 sel)

/-- The object that a request names is one of the module, and passes a check. -/
def namesM (s : State) (q : Request) (ok : Obj → Bool) : Bool :=
  !s.inDawn (leNat (slice q.msg 0 2)) &&
  match s.place (leNat (slice q.msg 0 2)) (byteAt q.msg 2) with
  | .module o => ok o
  | _ => false

/-- Channel A with snapshots of port 3 and of pool 0. -/
def snapped : State := withA fun c => (c.takeSnapshot 1 3).takeSnapshot 3 0

theorem modeStands_running : modeStands running := by
  unfold modeStands
  decide +kernel

theorem meets_ReadsAndWrites :
    (taken running (readOf 0x3000 0) 1 ∧ unsigned (readOf 0x3000 0) 1 ∧ running.readAuth = false) ∧
    (match running.place 0x3000 0 with
      | .unknown _ => true
      | _ => false) = true ∧
    (match variantC.place 0x6101 1 with
      | .empty _ _ => true
      | _ => false) = true ∧
    (match running.place 0x1101 0 with
      | .module o => o.acc != .wo && !o.ty.isWindow && !running.inDawn 0x1101
      | _ => false) = true ∧
    namesA running (readOf 0x4101 3) (fun _ o => o.acc != .wo && !o.ty.isWindow) = true ∧
    namesA running (readOf 0x4B04 0) (fun _ o => o.acc == .wo) = true ∧
    (taken running (blockOf 0x4310) 3 ∧ unsigned (blockOf 0x4310) 3 ∧
      namesA running (blockOf 0x4310) (fun i o => o.ty.isWindow && o.ty.entrySize == 8 && Nat.ble 8 (8 * windowEntries .A i o)) = true) ∧
    (taken running (writeOf 0x4404 3 (leBytes 4 5)) 2 ∧
      signedBy running (writeOf 0x4404 3 (leBytes 4 5)) 2 (proven 0) ∧
      namesA running (writeOf 0x4404 3 (leBytes 4 5)) (fun i o => o.acc != .ro && o.acc != .roh && !o.ty.isWindow && o.ty.readSize == 4 &&
        statusOf running (writeOf 0x4404 3 (leBytes 4 5)) i o == 0) = true) ∧
    namesA running (writeOf 0x4404 3 (leBytes 4 (2 ^ 27 * 3))) (fun i o => o.ty.readSize == 4 &&
        statusOf running (writeOf 0x4404 3 (leBytes 4 (2 ^ 27 * 3))) i o != 0) = true ∧
    namesA running (writeOf 0x4102 3 (leBytes 4 5)) (fun _ o => o.acc == .ro) = true ∧
    (taken running (ask (.eth 2) (leBytes 2 0x4404 ++ 3 :: List.replicate 15 0)) 2 ∧
      unsigned (ask (.eth 2) (leBytes 2 0x4404 ++ 3 :: List.replicate 15 0)) 2) ∧
    (taken running (writeBlockOf 0x4310 (leBytes 8 0)) 4 ∧
      signedBy running (writeBlockOf 0x4310 (leBytes 8 0)) 4 (proven 0) ∧
      namesA running (writeBlockOf 0x4310 (leBytes 8 0)) (fun i o => o.ty.isWindow && o.acc != .ro && o.acc != .roh &&
        o.ty.entrySize == 8 && !running.chA.notNow (running.ctx .a) o i 0 0 && !running.chA.busyNow i 0 0 &&
        !(entryValues i 8 0 (leBytes 8 0)).all (fun p => reservedEntry i p.1) &&
        running.chA.entriesStatus (running.ctx .a) o i (entryValues i 8 0 (leBytes 8 0)) == 0) = true) ∧
    (taken running (ask (.eth 2) ([2, 0, 0, 0] ++ leBytes 4 3)) 5 ∧ unsigned (ask (.eth 2) ([2, 0, 0, 0] ++ leBytes 4 3)) 5 ∧
      selectorOk running.unit.variant 2 3 = true) ∧
    (taken running (snapshotSigned 1 3) 5 ∧ signedBy running (snapshotSigned 1 3) 5 (proven 0) ∧
      selectorOk running.unit.variant 1 3 = true ∧ running.chA.copying = false ∧ (running.chA.takeSnapshot 1 3).copying = true) ∧
    (let s := running.mput 0x1400 1 (setBit (running.mreg 0x1400 1) 0 true)
     taken s (ask (.eth 2) ([2, 0, 0, 0] ++ leBytes 4 3)) 5 ∧ s.readAuth = true) := by
  refine ⟨⟨taken_of_takesMsg ?_, ?_, ?_⟩, ?_, ?_, ?_, ?_, ?_, ⟨taken_of_takesMsg ?_, ?_, ?_⟩,
    ⟨taken_of_takesMsg ?_, signedBy_of_counted ?_, ?_⟩, ?_, ?_, ⟨taken_of_takesMsg ?_, ?_⟩,
    ⟨taken_of_takesMsg ?_, signedBy_of_counted ?_, ?_⟩, ⟨taken_of_takesMsg ?_, ?_, ?_⟩,
    ⟨taken_of_takesMsg ?_, signedBy_of_counted ?_, ?_⟩, taken_of_takesMsg ?_, ?_⟩
  all_goals first
    | decide +kernel
    | (unfold unsigned; decide +kernel)

theorem meets_ReadsAnswered :
    (taken running (readSigned 0x1100 0 false) 1 ∧ signedBy running (readSigned 0x1100 0 false) 1 (proven 0)) ∧
    (taken running (blockSigned 0x1601 0 false 32) 3 ∧ signedBy running (blockSigned 0x1601 0 false 32) 3 (proven 0)) ∧
    modeStands running ∧
    (bitOf (flagsOf 1 (readSigned 0x1100 0 false).msg) 1 = false ∧ bitOf (flagsOf 1 (readSigned 0x1100 0 true).msg) 1 = true ∧
      bitOf (flagsOf 3 (blockSigned 0x1601 0 false 32).msg) 1 = false ∧ bitOf (flagsOf 3 (blockSigned 0x1601 0 true 32).msg) 1 = true) ∧
    ¬((0x1000 ≤ 0x1700 ∧ 0x1700 ≤ 0x16FF) ∨ (0x4000 ≤ 0x1700 ∧ 0x1700 ≤ 0x7FFF)) ∧
    (namesM running (readSigned 0x1400 16 false) (fun o => o.acc == .wo) &&
      namesM running (readSigned 0x1601 0 false) (fun o => o.acc != .wo && o.ty.isWindow) &&
      namesM running (readSigned 0x1100 0 false) (fun o => o.acc != .wo && !o.ty.isWindow) &&
      namesA running (readSigned 0x4310 0 false) (fun _ o => o.acc != .wo && o.ty.isWindow)) = true ∧
    (namesA snapped (readSigned 0x4114 3 true) fun i o => o.acc == .counter && !o.ty.isWindow && counterScope i 3 0 == some (1, 3) &&
      (snapped.chA.holding 1).any fun h => h.selector == 3) = true ∧
    (namesA snapped (readSigned 0x4114 4 true) fun i o => o.acc == .counter && counterScope i 4 0 == some (1, 4) &&
      (snapped.chA.holding 1).all fun h => h.selector != 4) = true ∧
    (namesM running (blockSigned 0x1601 0 false 32) (fun o => o.acc != .wo && o.ty.isWindow && o.ty.entrySize == 32 &&
        Nat.ble 32 (32 * windowEntries .A 0x1601 o)) && namesM running (blockSigned 0x1100 0 false 32) (fun o => !o.ty.isWindow) &&
      namesM running (blockSigned 0x1400 16 false 32) (fun o => o.acc == .wo)) = true ∧
    (namesA running (blockSigned 0x4B04 0 false 8) (fun _ o => o.acc == .wo) &&
      namesA running (blockSigned 0x4101 3 false 8) (fun _ o => o.acc != .wo && !o.ty.isWindow) &&
      namesA running (blockSigned 0x4921 0 true 32) (fun i o => o.acc == .counter && o.ty.isWindow && o.ty.entrySize == 32 &&
        Nat.ble 32 (32 * windowEntries .A i o) && (running.chA.holdingOf o i 0 0).isNone &&
        ((running.chA.takeSnapshot 1 0).holdingOf o i 0 0).isSome)) = true := by
  refine ⟨⟨taken_of_takesMsg ?_, signedBy_of_counted ?_⟩, ⟨taken_of_takesMsg ?_, signedBy_of_counted ?_⟩, modeStands_running, ?_⟩
  all_goals decide +kernel

/-- The running module whose session was proven with key slot 1. -/
def slotOne : State := { running with host := { running.host with sessions := [proven 1] } }

/-- A WRITE-BLOCK of some bytes of the staging window. -/
def stageOf (n : Nat) : Request := writeBlockOf 0x1510 (List.replicate n 5)

theorem meets_ModuleWrites :
    (taken running (writeOf 0x1300 1 (leBytes 4 0)) 2 ∧ signedBy running (writeOf 0x1300 1 (leBytes 4 0)) 2 (proven 0)) ∧
    (taken slotOne (writeOf 0x1400 16 (leBytes 32 5)) 2 ∧ signedBy slotOne (writeOf 0x1400 16 (leBytes 32 5)) 2 (proven 1)) ∧
    (taken running (writeOf 0x1400 16 (leBytes 32 5)) 2 ∧ signedBy running (writeOf 0x1400 16 (leBytes 32 5)) 2 (proven 0)) ∧
    (taken running (stageOf 64) 4 ∧ signedBy running (stageOf 64) 4 (proven 0)) ∧
    (taken slotOne (stageOf 64) 4 ∧ signedBy slotOne (stageOf 64) 4 (proven 1)) ∧ modeStands running ∧
    (namesM running (writeOf 0x1300 1 (leBytes 4 0)) (fun o => o.acc == .rw && !o.ty.isWindow && o.ty.readSize == 4 &&
        running.mStatus o 0x1300 1 (objOf 0x1300 1 (leBytes 4 0)) == 0) &&
      namesM running (writeOf 0x1300 1 (leBytes 3 0)) (fun o => o.ty.readSize != 3) &&
      namesM running (writeOf 0x1100 0 [1]) (fun o => o.acc == .ro) &&
      namesM running (writeOf 0x1430 9 (leBytes 8 1)) (fun o => o.ty.readSize == 8 &&
        running.mStatus o 0x1430 9 (objOf 0x1430 9 (leBytes 8 1)) != 0 && running.mStatus o 0x1430 9 0 == 0) &&
      namesM running (writeOf 0x1400 16 (leBytes 32 5)) (fun o => o.ty.readSize == 32 &&
        running.mStatus o 0x1400 16 (objOf 0x1400 16 (leBytes 32 5)) == 0) &&
      namesM running (writeOf 0x1200 7 (leBytes 4 1)) (fun o => running.mStatus o 0x1200 7 1 == 0)) = true ∧
    (namesM running (stageOf 64) (fun o => o.acc == .rw && o.ty.isWindow && o.ty.entrySize == 64 &&
        Nat.ble 64 (64 * windowEntries .A 0x1510 o)) &&
      namesM running (writeBlockOf 0x1601 (leBytes 32 0)) (fun o => o.acc == .ro) &&
      namesM running (writeBlockOf 0x1104 (leBytes 8 0)) (fun o => o.acc == .rw && !o.ty.isWindow)) = true ∧
    (running.power.warn = false ∧ running.flash.microJob = none ∧ (running.vendorSlot running.staging).written = []) ∧
    (let s := { running with power := { running.power with warn := true, warnWritten := true } }
     s.power.warn = true ∧ s.power.warnWritten = true) ∧
    ({ running with flash := { running.flash with microJob := some .erase } }.flash.microJob.isSome = true) := by
  refine ⟨⟨taken_of_takesMsg ?_, signedBy_of_counted ?_⟩, ⟨taken_of_takesMsg ?_, signedBy_of_counted ?_⟩,
    ⟨taken_of_takesMsg ?_, signedBy_of_counted ?_⟩, ⟨taken_of_takesMsg ?_, signedBy_of_counted ?_⟩,
    ⟨taken_of_takesMsg ?_, signedBy_of_counted ?_⟩, modeStands_running, ?_⟩
  all_goals decide +kernel

/-- The module with a part of the host port changed. -/
def hosted (f : HostPort → HostPort) : State := { running with host := f running.host }

/-- A pending session of node 70 opened at slot 0, and a SESSION-PROVE of it with a proof. -/
def pendingSession : State := hosted fun h => { h with sessions := [⟨2, 70, 0, false, 5, 1, [], 0, 0⟩] }
def prove (proof : List Byte) : Request := ask (.eth 2) ([2, 0, 0, 0] ++ proof)

/-- The proof that R604 asks for. -/
def rightProof : List Byte :=
  (hmac (beBytes 32 (pendingSession.keyOf 0)) ((⟨2, 70, 0, false, 5, 1, [], 0, 0⟩ : Session).seed [0x4B, 0x58, 0x53, 0x50])).take 16

/-- A signed FRAME-FROM-HOST of 60 bytes for channel A. -/
def hostFrame : Request := sign (ask (.eth 2) []) 11 ([1, 0, 0, 0] ++ leBytes 4 9 ++ leBytes 2 60 ++ List.replicate 60 1)

/-- A message of node 70 in progress on CAN A: 60 of 100 bytes. -/
def partly : Partial := ⟨.canA, mkIdent 3 2 1 70 5, 0, 60, 100⟩

theorem meets_SessionsAndSegments :
    (taken running (ask (.eth 2) [0, 0, 0, 0]) 6 ∧ running.host.lockouts.contains 70 = false ∧ running.keyOf 0 ≠ 0 ∧
      (running.host.sessions.filter fun x => x.node != 70).length < 8) ∧
    (taken (hosted fun h => { h with lockouts := [70] }) (ask (.eth 2) [0, 0, 0, 0]) 6 ∧
      taken running (ask (.eth 2) [4, 0, 0, 0]) 6 ∧ taken running (ask (.eth 2) [3, 0, 0, 0]) 6 ∧ running.keyOf 3 = 0) ∧
    (taken pendingSession (prove rightProof) 7 ∧ taken pendingSession (prove (List.replicate 16 0)) 7 ∧
      (pendingSession.host.sessions.find? fun x => x.num == 2 && x.node == 70 && !x.proven).isSome = true ∧
      pendingSession.sbTime ≤ 0 + 100000 ∧ rightProof = slice (prove rightProof).msg 4 16 ∧
      rightProof ≠ slice (prove (List.replicate 16 0)).msg 4 16) ∧
    (taken running (ask .canB [0, 0, 0, 0]) 9 ∧ unsigned (ask .canB [0, 0, 0, 0]) 9) ∧
    (taken running hostFrame 11 ∧ signedBy running hostFrame 11 (proven 0) ∧ running.forwards .a = true ∧
      byteAt hostFrame.msg 1 = Ch.a.num ∧ leNat (slice hostFrame.msg 8 2) = 60) ∧
    (let s := hosted fun h => { h with partials := [partly] }
     s.host.partials.find? (fun p => p.between .canA 70 1) = some partly ∧
       running.host.partials.find? (fun p => p.between .canA 70 1) = none ∧
       running.hostUp = true ∧ running.busUp .canA = true ∧ bits partly.ident 12 6 = 70 ∧ bits partly.ident 19 13 = running.node ∧
       isRequest (identFunc partly.ident) = true ∧ running.mreg 0x1430 9 < 2 ^ 64 ∧ 1 = (partly.seq + 1) % 64 ∧
       partly.got + 39 < partly.total ∧ partly.got + 40 = partly.total ∧ 2 ≠ (partly.seq + 1) % 64) ∧
    (running.mode.night = .awake ∧ modeStands running ∧ segmentCount .canA .middle 39 = 39 ∧ segmentCount .canA .last 40 = 40 ∧
      segmentCount .canA .first 60 = 60 ∧ segmentCount .canA .single 20 = 20 ∧ discardCounter .canA .middle 39 = none ∧
      discardCounter .canA .classic 8 = some 5 ∧ discardCounter (.eth 2) .foreign 0 = some 0x11 ∧ canOnly .canA 11 = true ∧
      identFunc (mkIdent 3 11 1 70 5) = 11 ∧ isRequest 11 = true) := by
  refine ⟨⟨taken_of_takesMsg ?_, ?_⟩, ⟨taken_of_takesMsg ?_, taken_of_takesMsg ?_, taken_of_takesMsg ?_, ?_⟩,
    ⟨taken_of_takesMsg ?_, taken_of_takesMsg ?_, ?_⟩, ⟨taken_of_takesMsg ?_, ?_⟩,
    ⟨taken_of_takesMsg ?_, signedBy_of_counted ?_, ?_⟩, ?_, ?_, modeStands_running, ?_⟩
  all_goals first
    | decide +kernel
    | (unfold unsigned; decide +kernel)

/-- A copy for the host path that has been edited, with its metadata, and the channel that holds it. -/
def hostCopy : Copy := { Copy.mk0 0 53 .fwd .edited 53 0 none with info := leBytes 20 0 ++ leBytes 4 60, port := 53 }
def withHostCopy : Channel → Channel := fun c =>
  { c.setTier 53 { c.tier 53 with picked := [(0, 0)] } with
    frames := [{ Frame.fresh 0 (List.replicate 64 1) 3 0 0 with pos := .live, share := 1, owner := (53, 0), cells := [5], pool := 15,
                                                                copies := [hostCopy] }] }

/-- Watch 16 enabled, with a new bit, and the ways of 0x1400:05. -/
def watching (held : Bool) : State :=
  let s := hosted fun h => { h with watchNew := [(16, 1)], watchHeld := if held then [16] else [] }
  (s.mput 0x1420 16 (0x1106 * 2 ^ 16 + 1)).mput 0x1400 5 (100 * 2 ^ 56)

/-- A relayed READ of module 23 that waits, and its answer that has come back. -/
def relayed : State :=
  let i := mkIdent 3 1 23 70 5
  hosted fun h => { h with
    relayed := [⟨.canA, i, 0⟩]
    relayIn := [⟨.a, 23, leBytes 4 (mkIdent 3 33 70 23 5) ++ [0, 0] ++ leBytes 2 4 ++ leBytes 3 4 ++ [0, 1, 2, 3, 4]⟩] }

theorem meets_HostPortOnItsOwn :
    (running.hostUp = true ∧ bits ((running.mput 0x1400 1 0).mreg 0x1400 1) 31 16 = 0 ∧ bits (running.mreg 0x1400 1) 31 16 ≠ 0) ∧
    (let quiet := fun (s : State) => s.hostUp == false || bitOf (s.mreg 0x1420 16) 0 == false ||
       tabGet (fun _ => 0) s.host.watchNew 16 == 0 || s.notifyWays.isEmpty
     quiet running = true ∧ quiet (watching false) = false ∧ 16 ∉ (watching false).host.watchHeld ∧ 16 ∈ (watching true).host.watchHeld ∧
       quiet (watching true) = false) ∧
    (((withA withHostCopy).chA.readOut ((withA withHostCopy).ctx .a)).1.isSome = true ∧ running.mreg 0x1400 6 = 0 ∧
      (running.mput 0x1400 6 5).mreg 0x1400 6 ≠ 0 ∧ running.busUp (.eth 5) = true ∧
      running.busUp (.eth 0x03004B000003) = true ∧ modeStands running) ∧
    running.host.canA = .active ∧ running.host.canB = .active ∧
    ((hosted fun h => { h with canA := .busOff }).host.canA = .busOff ∧ (hosted fun h => { h with canB := .busOff }).host.canB = .busOff ∧
      (hosted fun h => { h with canA := .passive, canB := .passive }).host.canA = .passive) ∧
    (1 ≠ 23 ∧ running.node ≠ 64 ∧ isRequest 1 = true ∧ canOnly .canA 1 = false ∧ running.host.relayed.length < 64 ∧
      64 ≤ (hosted fun h => { h with relayed := List.replicate 64 ⟨.canA, 1, 0⟩ }).host.relayed.length ∧
      (statusAnswer 1 0x0401 [0, 0x10, 0, 0]).isSome = true) ∧
    (let whole := fun (s : State) => s.host.relayIn.filter fun r =>
       r.back && (relayMessage s.host.relayIn r.sender (leNat (slice r.body 0 4))).isSome
     whole running = [] ∧ (whole relayed).length = 1 ∧
       ((whole relayed).all fun r => (relayed.host.relayed.any fun x => answerOf x.ident == leNat (slice r.body 0 4)) &&
         identFunc (leNat (slice r.body 0 4)) != 8) = true ∧
       (relayed.host.relayIn.all fun r => (relayRun [] (relayed.host.relayIn.filter r.with_)).2.isEmpty) = true) ∧
    (relayed.host.relayed.find? (fun x => x.ident == mkIdent 3 1 23 70 5)).isSome = true ∧ relayed.activeChan = some .a ∧
    running.host.relayed.find? (fun x => x.ident == 5) = none ∧
    (domainOk (.portMacro 12) = true ∧ domainOk .multidrop = true ∧ crossObject (.portMacro 12) = 0 ∧ crossObject .multidrop ≠ 0) := by
  unfold modeStands
  decide +kernel

/-! ### Front ports -/

/-- Port 3 up at 10 Gb/s, with more objects. -/
def port3 (l : List (Nat × Nat × Nat)) : Channel := puts running.chA ((0x4100, 3, 0x04002C01) :: (0x4102, 3, 0x2001) :: l)

/-- A frame with an EtherType, a length and the bytes after the EtherType; a good FCS or a wrong one. -/
def frameOf (et n : Nat) (x : List Byte) (good : Bool) : List Byte :=
  let b := List.replicate 12 (3 : Byte) ++ beBytes 2 et ++ x ++ List.replicate (n - 18 - x.length) 9
  b ++ if good then fcsBytes b else (fcsBytes b).map fun y => y ^^^ 1

theorem meets_FrontFrames :
    running.leaveDawn = running ∧ running.mode.night = .awake ∧ asleep.mode.night = .asleep ∧ (entering none).mode.night = .entering ∧
    running.chA.box.wake = none ∧
    (let c := puts running.chA [(0x4102, 3, 0x2001), (0x4231, 1, 2 ^ 24 + crc16 [3]), (0x4230, 1, 2 ^ 120)]
     let r := c.receivePort (asleep.ctx .a) 3 (frameOf 0x800 64 [] true) .none 0
     let d := puts c [(0x4231, 31, 3 * 2 ^ 24 + crc16 [3]), (0x4230, 31, 2 ^ 120)]
     c.linkUp 3 = true ∧ r.box.wake = some (3, [1]) ∧ c.wakeMatch 3 1 (frameOf 0x800 64 [] true) = true ∧ c.wakeMatch 3 31 [] = false ∧
       (d.receivePort (asleep.ctx .a) 3 (frameOf 0x800 64 [] true) .none 0).box.wake = some (3, [1, 31]) ∧
       { asleep with chA := d }.drivesWake (.pattern .a 3 31) = true ∧ bits (asleep.mreg 0x1104 0) 7 4 ≠ 4 ∧
       bits ((asleep.mput 0x1104 0 0x40).mreg 0x1104 0) 7 4 = 4) ∧
    (let c := (port3 []).setPort 3 { PortSt.empty with holding := true, tail := true }
     let d := running.chA.setPort 3 { PortSt.empty with tail := true }
     ((c.port 3).holding = true ∧ (c.port 3).tail = true) ∧ (d.linkUp 3 = false ∧ (d.port 3).holding = false ∧ (d.port 3).tail = true)) ∧
    (let c := port3 []
     running.chA.linkUp 3 = false ∧ (c.setPort 3 { PortSt.empty with holding := true }).port 3 = { PortSt.empty with holding := true } ∧
       c.linkUp 3 = true ∧ (c.port 3).holding = false ∧ c.maxLen 3 = 1522) ∧
    (let good := fun (b : List Byte) => fcsGood b && Nat.ble 64 b.length && Nat.ble b.length 1522
     good (frameOf 0x800 64 [] true) = true ∧ good (frameOf 0x800 64 [] false) = false ∧
       fcsGood (frameOf 0x800 63 [] true) = true ∧ fcsGood (frameOf 0x800 63 [] false) = false ∧ (frameOf 0x800 1523 [] true).length = 1523 ∧
       good (frameOf 0x8808 64 [0, 1] true) = true ∧ field (frameOf 0x8808 64 [0, 1] true) 12 2 = 0x8808 ∧
       good (frameOf 0x8809 128 [1] true) = true ∧ byteAt (frameOf 0x8809 128 [1] true) 14 = 1 ∧
       byteAt (frameOf 0x8809 128 [2] true) 14 = 2) ∧
    (let cx := running.ctx .a
     let cx' := { cx with forwards := false }
     cx.night = .awake ∧ (port3 [(0x4102, 3, 0x102001)]).collects cx 3 = true ∧ (port3 []).collects cx' 3 = false ∧ (port3 []).rampRoom 3 = true ∧
       ((port3 []).setPool 15 { (port3 []).pool 15 with shared := 131072 }).rampRoom 3 = false) ∧
    (let s := { running with
       chA := (puts running.chA [(0x410B, 3, 5)]).setPort 3 { PortSt.empty with partner := true }
       chB := (puts running.chB [(0x410B, 3, 6)]).setPort 3 { PortSt.empty with partner := true } }
     s.present .b = true ∧ (s.chA.port 3).partner = true ∧ (s.chB.port 3).partner = true ∧ s.chA.reg 0x410B 3 ≠ s.chB.reg 0x410B 3) := by
  decide +kernel

theorem meets_FrontControl :
    (let up := fun (c : Channel) (p : Nat) => c.linkUp p && !(c.port p).holding
     let c := puts running.chA [(0x4250, 4, 0x06000001), (0x4251, 4, 1)]
     up (port3 []) 3 = true ∧ up running.chA 3 = false ∧ up c 52 = true ∧ c.flowMode 52 = 2) ∧
    ((port3 [(0x4100, 3, 0x05002C01)]).flowMode 3 = 1 ∧ (port3 [(0x4100, 3, 0x06002C01)]).flowMode 3 = 2 ∧ (port3 []).flowMode 3 = 0) ∧
    ((PortSt.empty.owed = false) ∧ { PortSt.empty with owed := true }.owed = true) ∧
    (let c := port3 [(0x4805, 3, 0x8101)]
     bitOf (c.reg 0x4805 3) 0 = true ∧ bits (c.reg 0x4805 3) 15 8 ≠ 0 ∧ running.chA.reg 0x4805 3 = 0 ∧ c.linkUp 3 = true) ∧
    (let c := port3 [(0x4100, 3, 0x04002C01), (0x410A, 3, 5)]
     c.runsLacp 3 = true ∧ (port3 [(0x4100, 3, 0x2C01), (0x410A, 3, 5)]).runsLacp 3 = false ∧
       (port3 [(0x4100, 3, 0x04002C01)]).runsLacp 3 = false ∧
       (let d := puts c [(0x4108, 3, 2 ^ 49)]
        (d.linkUp 3 && (d.hwBit 0x4100 3 26 && d.hw 0x410A 3 != 0) && (d.hwBit 0x4108 3 49 || bitOf (d.reg 0x4109 3) 0)) = true) ∧
       (running.chA.linkUp 3 && (running.chA.hwBit 0x4100 3 26 && running.chA.hw 0x410A 3 != 0) && (running.chA.hwBit 0x4108 3 49 || bitOf (running.chA.reg 0x4109 3) 0)) =
         false) ∧
    { PortSt.empty with paused := true }.paused = true ∧ PortSt.empty.partner = false ∧ PortSt.empty.expired = false ∧
    { PortSt.empty with partner := true }.partner = true ∧ { PortSt.empty with expired := true }.expired = true ∧
    ((port3 []).inProgress 3 = false ∧ ((port3 []).setPort 3 { PortSt.empty with line := some (0, 0) }).inProgress 3 = true) ∧
    (let n := fun (x : PortSt) => if x.pduTime = running.sbTime / 100000 then x.sentPdu else 0
     n { PortSt.empty with sentPdu := 1 } < 2 ∧ 2 ≤ n { PortSt.empty with sentPdu := 2 } ∧
       n { PortSt.empty with sentPdu := 2, pduTime := 7 } < 2) ∧
    (running.mode.night = .awake ∧ (port3 []).armed 3 = false ∧ (port3 []).box.wake = none ∧
      (port3 [(0x4231, 1, 2 ^ 24)]).armed 3 = true ∧ (port3 []).guards 3 = [] ∧
      (let c := port3 []
       let x := { Copy.mk0 0 3 .fwd .edited 3 (nodeQueue 3 0 0) none with launch := some 1, bytes := some [] }
       let d := { c.setTier 3 { c.tier 3 with picked := [(0, 0)] } with
         frames := [{ Frame.fresh 0 (List.replicate 64 1) 3 0 0 with copies := [x] }] }
       (d.guards 3).all (fun g => d.fitsBefore 3 128 g.2.1) = false)) := by decide +kernel

theorem meets_FrontLinks :
    (running.chA.linkUp 3 = false ∧ (port3 []).linkUp 3 = true ∧ bits ((port3 [(0x4107, 3, 0)]).hw 0x4107 3) 15 0 = 0 ∧
      bits ((port3 [(0x4107, 3, 100)]).hw 0x4107 3) 15 0 ≠ 0) ∧
    ((PortSt.empty.holding = false) ∧ (let c := (port3 []).setPort 3 { PortSt.empty with holding := true }
      (c.port 3).holding = true ∧ c.linkUp 3 = true ∧ bits (c.reg 0x4102 3) 15 12 = 2) ∧
      (running.chA.setPort 3 { PortSt.empty with holding := true }).linkUp 3 = false) ∧
    (let c := puts running.chA [(0x4100, 3, 0x2001)]
     c.linkUp 3 = false ∧ bits (c.hw 0x4100 3) 15 12 = 2 ∧ c.linkAllowed (running.ctx .a) 3 = true ∧
       c.linkAllowed { running.ctx .a with forwards := false, st := .off } 3 = false) ∧
    (let c := (puts running.chA [(0x4100, 3, 1), (0x4102, 3, 0x800)]).setPort 3 { PortSt.empty with anOp := 2 }
     bits (c.hw 0x4100 3) 15 12 = 0 ∧ c.bit 0x4102 3 11 = true ∧ (c.port 3).anOp = 2) ∧
    (let waits := fun (c : Channel) => bitOf (c.hw 0x4100 3) 0 && bits (c.hw 0x4100 3) 15 12 == 0 && !c.bit 0x4102 3 11
     waits (puts running.chA [(0x4100, 3, 1)]) = true ∧ waits (port3 []) = false) ∧
    (let c := puts running.chA [(0x4100, 3, 1), (0x4101, 3, 2 ^ 12 - 1)]
     bitOf (c.hw 0x4100 3) 0 = true ∧ bits (c.hw 0x4100 3) 15 12 = 0 ∧ c.linkUp 3 = false ∧
       (resolveAn (bits (c.hw 0x4100 3) 11 10) (c.hw 0x4101 3) 64).isSome = true ∧
       resolveAn (bits (c.hw 0x4100 3) 11 10) (c.hw 0x4101 3) 0 = none) ∧
    (let c := port3 [(0x4100, 3, 0x04802001), (0x4101, 3, 2 ^ 11)]
     let enters := fun (c : Channel) => bitOf (c.hw 0x4100 3) 23 && c.bit 0x4102 3 0 &&
       (if bits (c.hw 0x4100 3) 15 12 = 0 then (c.port 3).eee else bitOf (c.hw 0x4101 3) 11) && !c.bit 0x4102 3 22 &&
       (c.port 3).line.isNone && (c.tier 3).picked.isEmpty && (c.queuedAt 3).isEmpty
     enters c = true ∧ enters (port3 []) = false ∧
       enters ((port3 [(0x4100, 3, 0x04800001)]).setPort 3 { PortSt.empty with eee := true }) = true) ∧
    ((port3 []).bit 0x4102 3 21 = false ∧ (port3 [(0x4102, 3, 0x202001)]).bit 0x4102 3 21 = true) ∧
    (tierOk 51 = true ∧ tierOk 80 = true ∧ 4095 < 2 ^ 12) := by decide +kernel

/-! ### Multidrop ports -/

/-- Port 16 of channel A as coordinator of its segment with PLCA on, or a follower, with a port state. -/
def segment (node : Nat) (d : DropSt) : Channel :=
  (puts running.chA [(0x4200, 16, 0x15), (0x4201, 16, node), (0x4202, 16, 0x4001)]).setMdrop 16 d

/-- A frame of pool 15 with one copy on port 80. -/
def dropFrame : Frame :=
  { Frame.fresh 7 (List.replicate 64 1) 3 0 0 with
    pos := .live, share := 1, owner := (80, 0), cells := [5], pool := 15
    copies := [{ Copy.mk0 0 80 .fwd .line 80 0 none with bytes := some (List.replicate 64 2), owner := 80, port := 80 }] }

/-- The port with that frame on the line, after some attempts. -/
def colliding (n : Nat) : Channel :=
  { segment 0 { DropSt.empty with turn := true, line := some (7, 0), attempts := n } with frames := [dropFrame] }

theorem meets_MultidropPorts :
    (let may := fun (c : Channel) => c.bit 0x4202 16 14 && c.token (running.ctx .a) 16
     let c := segment 0 DropSt.empty
     may c = true ∧ may running.chA = false ∧ bits (c.hw 0x4201 16) 7 0 = 0 ∧ (c.mdrop 16).line = none ∧ c.coordinator 16 = true ∧
       (segment 3 DropSt.empty).coordinator 16 = false ∧ (c.mdrop 16).cycle = none ∧
       { DropSt.empty with cycle := some 8 }.cycle = some 8 ∧ bits ((segment (8 * 2 ^ 32) DropSt.empty).hw 0x4201 16) 39 32 = 8) ∧
    (let reached := fun (c : Channel) => !(c.mdrop 16).had &&
       (if bits (c.hw 0x4201 16) 7 0 = 0 then (c.mdrop 16).cycle == some 0 else (c.mdrop 16).cycle != none)
     reached (segment 0 { DropSt.empty with cycle := some 0 }) = true ∧ reached (segment 3 { DropSt.empty with cycle := some 2 }) = true ∧
       reached (segment 0 { DropSt.empty with cycle := some 1 }) = false ∧ reached (segment 3 DropSt.empty) = false ∧
       reached (segment 3 { DropSt.empty with cycle := some 2, had := true }) = false) ∧
    (let c := (segment 0 { DropSt.empty with starved := 9 }).setTier 80 { TierSt.empty with picked := [(7, 0)] }
     c.dropWaits 16 = true ∧ 9 ≤ (c.mdrop 16).starved ∧ (segment 0 DropSt.empty).dropWaits 16 = false) ∧
    ((colliding 0).mdrop 16).line ≠ none ∧
    (let c := segment 3 { DropSt.empty with lost := true }
     c.bit 0x4202 16 0 = true ∧ c.hwBit 0x4200 16 2 = true ∧ c.bit 0x4202 16 14 = true) ∧
    ((segment 0 { DropSt.empty with dup := true }).mdrop 16).dup = true ∧
    (bits ((segment 0 DropSt.empty).hw 0x4200 16) 5 4 = 1 ∧ bits ((puts (segment 0 DropSt.empty) [(0x4200, 16, 5)]).hw 0x4200 16) 5 4 ≠ 1) ∧
    (((colliding 14).mdrop 16).line = some (7, 0) ∧ ((colliding 14).mdrop 16).attempts < 15 ∧ 15 ≤ ((colliding 15).mdrop 16).attempts ∧
      ((colliding 15).copyOf (7, 0)).isSome = true ∧ ((colliding 14).mdrop 16).turn = true ∧ asleep.mode.night = .asleep) ∧
    (let new := fun (s : State) => ((segment 3 { DropSt.empty with lost := true }).setMdrop 16 DropSt.empty).showDrop (s.ctx .a) 16
     (new running).bit 0x4202 16 14 = true ∧ (new { running with roleA := { running.roleA with st := .failed } }).bit 0x4202 16 14 = false) ∧
    running.chA.bit 0x4202 16 0 = false ∧
    (let s := { running with chA := puts running.chA [(0x4200, 16, 0xD)], chB := puts running.chB [(0x4200, 16, 0xD)] }
     s.arb.holder = some .a ∧ s.present .b = true ∧ s.chA.hwBit 0x4200 16 3 = true ∧ s.chB.hwBit 0x4200 16 3 = true ∧
       (s.chA.mdrop 16).line = none ∧ (s.chB.mdrop 16).line = none ∧ s.arb.drainer ≠ some .b ∧ (s.role .b).st ≠ .draining) ∧
    awaiting.arb.holder = none ∧ running.chA.hwBit 0x4200 16 3 = false ∧
    (let s := exchanged .active
     s.arb.holder = some .b ∧ s.arb.drainer = some .a ∧
       ({ s with chA := segment 0 DropSt.empty }.chA.setTier 80 { TierSt.empty with picked := [(7, 0)] }).dropWaits 16 = true) ∧
    ((segment 0 DropSt.empty).maxLen 80 = 1522 ∧ (segment 0 DropSt.empty).token (running.ctx .a) 16 = true ∧
      (puts (segment 0 DropSt.empty) [(0x4200, 16, 0xD)]).token { running.ctx .b with partnerDual := 2 ^ 17 - 1 } 16 = false) := by
  decide +kernel

/-! ### Fabric links -/

/-- Module 4 of a line of 8, links 1 and 3 of channel A up, wired and fresh from an ACTIVE channel. -/
def module4 : State := { running with bring := { running.bring with moduleId := 4 } }
def lined (epoch1 epoch2 : Nat) : Channel :=
  let c := puts running.chA [(0x4250, 1, 3), (0x4250, 2, 3), (0x4250, 3, 3), (0x4251, 1, 1), (0x4251, 2, 1), (0x4251, 3, 1),
    (0x4252, 1, 8 * 2 ^ 16 + 2 ^ 14)]
  ((c.setLink 1 ⟨epoch1, 3, 0, true, true, true⟩).setLink 2 ⟨epoch2, 3, 0, true, true, false⟩).setLink 3 ⟨7, 3, 0, true, true, true⟩

/-- The beacon that a module and channel send on a link. -/
def beaconFrom (m : Nat) (ch : Ch) (l : Nat) : List Byte := running.chA.beacon { running.ctx .a with moduleId := m, ch := ch } l

theorem meets_FabricLinks :
    ((lined 7 7).inProgress 49 = false ∧ ((lined 7 7).setPort 49 { PortSt.empty with line := some (0, 0) }).inProgress 49 = true ∧
      ((lined 7 7).port 49).holding = false ∧ (running.chA.port 49).tail = false) ∧ field (beaconFrom 3 .a 3) 12 2 = 0x88B5 ∧
    (running.chA.linkUp 49 = false ∧ (lined 7 7).linkUp 49 = true ∧ running.chA.linkAllowed (module4.ctx .a) 52 = false ∧
      (puts running.chA [(0x4250, 4, 1)]).linkAllowed (module4.ctx .a) 52 = true ∧ (puts running.chA [(0x4250, 4, 1)]).linkUp 52 = false) ∧
    ((module4.ctx .a).st.code = 3 ∧ ((lined 7 7).link 1).fresh = true ∧ (LinkSt.empty).fresh = false) ∧
    (let b := beaconFrom 3 .a 3
     b.length < 65536 ∧ (fabricRx 1538 b .none).code = 0 ∧ (lined 7 7).maxLen 49 + 16 = 1538 ∧ field b 12 2 ≠ 0x8808 ∧ bitOf (byteAt b 14) 1 = true ∧
       tagBad b = false ∧ bits (field b 14 14) 103 98 + 1 = (lined 7 7).neighbour (module4.ctx .a) 1 ∧
       bits (field b 14 14) 90 90 = 0 ∧ byteAt b 29 = 3) ∧
    bits (field (beaconFrom 3 .b 3) 14 14) 90 90 ≠ 0 ∧
    (let b := (beaconFrom 3 .a 3).take 60
     let b := patch b 14 [0x22]
     tagBad (b ++ fcsBytes b) = true ∧ (fabricRx 1538 (b ++ fcsBytes b) .none).code = 0 ∧ bitOf (byteAt b 14) 1 = true) ∧
    (((lined 7 7).selected 51).isSome = true ∧ running.chA.selected 49 = none) ∧
    (newerEpoch 8 7 = true ∧ newerEpoch 7 7 = false ∧ ((lined 7 8).link 2).wired = true ∧ ((lined 7 8).link 2).state = 3 ∧
      (lined 7 8).linkUp 50 = true) := by decide +kernel

/-- A fabric frame with its tag: destination module and port, MC, RELAY, HOPS. -/
def tagged (mc relay : Bool) (m p hops : Nat) : List Byte :=
  let tag := 2 ^ 108 + mc.toNat * 2 ^ 107 + relay.toNat * 2 ^ 104 + 2 ^ 106 + (m - 1) * 2 ^ 84 + p * 2 ^ 77 + hops * 2 ^ 46 + 6 * 2 ^ 98
  let b := List.replicate 12 (3 : Byte) ++ tagBytes tag ++ List.replicate 52 9
  b ++ fcsBytes b

/-- Channel A with a frame of 600 bytes that link 1 cuts through to link 3, half received. -/
def cutHead : List Byte := (tagged false false 5 7 3).take 28 ++ List.replicate 484 9
def cutting : Channel := { lined 7 7 with cuts := [⟨1, 3, field cutHead 14 14, cutHead, 1538, 1538, 0, [5], 0, 0, 0⟩] }

/-- The head of a Sync message that link 1 would cut through. -/
def syncHead : List Byte := (tagged false false 5 7 3).take 28 ++ [0x88, 0xF7, 0, 2] ++ List.replicate 480 9

theorem meets_FabricRoutes :
    (let c := lined 7 7
     let cx := module4.ctx .a
     let d := running.chA.setPort 49 { PortSt.empty with tail := true }
     (d.linkUp 49 = false ∧ (d.port 49).holding = false ∧ (d.port 49).tail = true) ∧ (c.port 49).holding = false ∧
       (running.chA.link 1).wired = false ∧ c.domainBad cx = false ∧ c.domainBad { cx with moduleId := 9 } = true ∧
       ((c.setPool 15 { c.pool 15 with shared := 131072 }).rampRoom 49) = false ∧
       (c.wput 0x4257 56 5).route cx 1 (field (tagged true false 1 7 2) 14 14) = ⟨0, true, none⟩ ∧
       (c.wput 0x4257 56 6).route cx 1 (field (tagged true false 1 7 2) 14 14) = ⟨0, true, some (51, 1)⟩ ∧
       (c.wput 0x4257 56 1).route cx 1 (field (tagged true false 1 7 1) 14 14) = ⟨0, false, none⟩) ∧
    (cutting.cuts.map (·.fate) = [0] ∧
      ([(⟨1, 3, field cutHead 14 14, cutHead, 1538, 1538, 9, [], 0, 0, 0⟩ : CutSt)].find? fun x => x.ingress == 1).map (·.fate) = some 9 ∧
      cutting.linkUp 49 = true ∧ (cutting.cuts.all fun y => y.egress != 1) = true) := by decide +kernel

theorem meets_FabricFrames :
    (let c := lined 7 7
     let cx := module4.ctx .a
     let ok := fun (b : List Byte) => (fabricRx (c.maxLen 49 + 16) b .none).code == 0 && field b 12 2 != 0x8808 && !bitOf (byteAt b 14) 1 && !tagBad b &&
       (c.link 1).wired && !c.domainBad cx && cx.night == .awake && cx.forwards
     let way := fun (b : List Byte) => c.route cx 1 (field b 14 14)
     c.linkUp 49 = true ∧ running.chA.linkUp 49 = false ∧ ok (tagged false false 4 7 3) = true ∧
       (way (tagged false false 4 7 3) = ⟨0, true, none⟩ ∧ c.rampRoom 49 = true) ∧
       (ok (tagged false true 4 53 3) = true ∧ way (tagged false true 4 53 3) = ⟨0, true, none⟩) ∧
       (ok (tagged false false 5 7 3) = true ∧ way (tagged false false 5 7 3) = ⟨0, false, some (51, 2)⟩) ∧
       (way (tagged false false 5 7 0)).code = 0x16 ∧ (way (tagged false false 5 7 1)).code = 0x16 ∧
       (way (tagged false false 4 54 3)).code = 0x18 ∧ ((running.chA.route cx 1 (field (tagged false false 5 7 2) 14 14)).code = 0x3D) ∧
       (way (tagged true false 1 7 2)).code = 0 ∧ (fabricRx (c.maxLen 49 + 16) (frameOf 0x8808 64 [0, 1, 0, 5] true) .none).code = 0) ∧
    (let code := fun (b : List Byte) => (fabricRx 1538 b .none).code
     code ((tagged false false 4 7 3).take 63) = 3 ∧ code (frameOf 0x800 63 [] true) = 2 ∧
       code (patch (tagged false false 4 7 3) 40 [1]) = 1 ∧
       code ((tagged false false 4 7 3).take 80 ++ ((tagged false false 4 7 3).drop 80).map fun y => ~~~y) = 0x14 ∧
       (fabricRx 1538 [] (.fec 1)).code = 7 ∧ (fabricRx 1538 [] .pcs).code = 6) ∧
    (((lined 7 7).cutTarget (module4.ctx .a) 1 cutHead).isSome = true ∧ running.chA.cutTarget (module4.ctx .a) 1 cutHead = none ∧
      ((puts (lined 7 7) [(0x4B08, 51, 0x101)]).cutTarget (module4.ctx .a) 1 syncHead).isSome = true ∧
      (findPtp true 0x101 syncHead).isSome = true ∧ findPtp true 0x101 cutHead = none) ∧
    (cutting.cuts.all fun x => !x.cells.any cutting.damage.cells.contains &&
      x.cells.any { cutting.damage with cells := [5] }.cells.contains) = true ∧
    ((cutting.cuts.find? fun x => x.ingress == 1).map (·.egress) = some 3 ∧ (running.chA.cuts.all fun x => x.ingress != 1) = true ∧
      (fabricRx 1538 (cutHead ++ [1]) .none).code ≠ 0 ∧
      (fabricRx 1538 (cutHead ++ fcsBytes cutHead) .none).code = 0) := by decide +kernel

/-! ### The pipeline -/

/-- A frame of 80 bytes from port 3 of channel A. -/
def frame0 : Frame := Frame.fresh 0 (patch (frameOf 0x800 80 [0x45] true) 6 [8, 8, 8, 8, 8, 8]) 3 0 0

/-- Channel A with a frame. -/
def holding (f : Frame) : Channel := { running.chA with frames := [f] }

/-- A field descriptor: field `k` at byte `off` with `w` bytes. -/
def fieldAt (k off w : Nat) : Nat :=
  let d := off + (w - 1) * 128
  d % 256 * 2 ^ ((47 - 2 * k) * 8) + d / 256 * 2 ^ ((46 - 2 * k) * 8)

/-- Profile 1 with the destination address in slot 1, the source address in slot 2 and a version 4 destination in slot 0. -/
def profiled : Channel :=
  let c := wputs running.chA [(0x4304, 0, fieldAt 0 30 4 + fieldAt 1 0 6 + fieldAt 2 6 6)]
  let km := setBits (setBits (c.reg 0x4305 1) 4 0 1) 9 5 2
  puts c [(0x4305, 1, setBits (setBits km 24 20 0) 26 25 1)]

/-- The frame at the lookups, its probes made, its routes done and searched or not. -/
def looking (probed routed searched : Bool) : Frame :=
  { frame0 with
    pos := .look, look := { profiled.lookOf 1 with probed := probed, routed := routed, searched := searched }
    window := windowOf frame0.bytes }

/-- The frame with its action: to port 5, with the two meters. -/
def policed : Frame := { looking true true true with pos := .police, act := [2 ^ 24 + 5, 0, 0x80007, 0x80009] ++ List.replicate 8 0 }

/-- The destination of the frame, and channels with route lengths and a route for it. -/
def dstAddr : Nat := beNat (((looking true false false).slotBytes 0).getD [])

def lengths (l : List Nat) : Channel :=
  l.foldl (fun c n => c.setFilter false (c.vrfGroup false 0) n dstAddr) (holding (looking true false false))

def routeOf (n : Nat) : Channel :=
  ((lengths [n]).insertSlot .v4 (withParity .v4 (routeKey 0 n (maskTo false n dstAddr) * 2 ^ 64 + 2 ^ 63 + 3))).2

/-- An associative entry that fits every key, with its parity or without. -/
def searchEnt (m : Nat) : Nat := setBits (2 ^ 127 + m) 123 112 (searchParity (2 ^ 127 + m))

/-- Channel A with the frame at the search and entries. -/
def searching (l : List (Nat × Nat × Nat)) : Channel :=
  wputs (puts (holding (looking true true false)) [(0x4601, 1, 0x100)]) l

/-- Whether an entry is valid and fits the frame's key under the masks. -/
def fitsFrame (c : Channel) (i : Nat) : Bool :=
  let e := c.wget 0x4610 i
  bitOf e 127 && ((looking true true false).searchKey ^^^ bits e 767 448) &&&
    (bits e 447 128 &&& c.reg 0x4602 (bits (c.reg 0x4601 1) 3 0 + 1)) == 0

/-- Meter 7 in a mode with its marks and levels. -/
def metered (mode aware red yellow tc tx : Nat) : Channel :=
  wputs (holding policed) [(0x4A10, 7, mode * 2 ^ 126 + aware * 2 ^ 125 + red * 2 ^ 124 + yellow * 2 ^ 123 + 1000 * 2 ^ 72 + 1000 * 2 ^ 96),
    (0x4A11, 7, tc * 2 ^ 64 + tx)]

/-- The frame waiting for admission with one copy for port 5. -/
def admitting (charged : Bool) : Channel :=
  { holding { frame0 with
      pos := .live, share := 1, owner := (5, 0), charged := charged, pool := 15, cells := [5]
      copies := [Copy.mk0 0 5 .fwd .line 5 40 none] } with admitQ := [(0, 0)] }

/-- The parser with a memory word of a profile in error. -/
def parityError (k : Nat) : Channel :=
  { holding frame0 with damage := { running.chA.damage with objs := [k] } }

/-- What a frame's source lookup answers, on a channel with the objects given and an entry for the source or none. -/
def sourceFate (l : List (Nat × Nat × Nat)) (entry : Bool) : Fate :=
  let c := holding (looking false false false)
  let n := bits (c.wget 0x4403 (bits (c.reg 0x4404 3) 11 0)) 11 0
  let key := n * 2 ^ 48 + beNat (List.replicate 6 (8 : Byte))
  let c := if entry then (c.insertSlot .bridge (withParity .bridge (2 ^ 127 + key * 2 ^ 60 + 5))).2 else c
  ((puts c l).sourceLookup (running.ctx .a) (looking false false false) n 0 (List.replicate 6 8)).1

theorem meets_PipelineLookups :
    pipeRuns running .a ∧
    (let c := parityError (objKey 0x4303 1)
     c.profileBad 1 0x4303 = true ∧ c.profileBad 1 0x4307 = false ∧ (parityError (winKey 0x4304 0)).profileBad 1 0x4304 = true ∧
       (parityError (objKey 0x4306 1)).profileBad 1 0x4306 = true) ∧
    (let f := looking false false false
     (f.pass = 1 ∧ f.inPort = 3 ∧ f.through = false ∧ { f with pass := 2 }.pass ≠ 1 ∧
       { f with transit := some ⟨51, 2, false, false⟩ }.through = true ∧ (f.slotBytes (bits f.look.kmap 9 5)) = some (List.replicate 6 8))) ∧
    (sourceFate [] false = .on ∧ sourceFate [] true = .on ∧ sourceFate [(0x4404, 3, 2 ^ 29)] true = .drop 0x3C ∧
      sourceFate [(0x4404, 3, 2 ^ 27), (0x4406, 3, 0)] false = .drop 0x3B ∧ sourceFate [(0x4404, 3, 2 ^ 28), (0x4406, 3, 0)] false = .trap) ∧
    (let f := looking true false false
     let g := { f with id := 7 }
     let c := { holding f with frames := [f, g] }
     c.roundWaits f = false ∧ c.roundWaits g = true ∧ f.look.rounds = 0 ∧
       (let h := { f with look := { f.look with todo := some [3], rounds := 1 } }
        h.look.todo ≠ none ∧ h.look.rounds = 1)) ∧
    (let c := (candidates .v4 (routeKey 0 24 (maskTo false 24 dstAddr))).foldl (fun c a => c.wput (winOf .v4) a (2 ^ 63 + 1)) (lengths [24])
     ((candidates .v4 (routeKey 0 24 (maskTo false 24 dstAddr))).all fun a => !slotGood .v4 (c.slot .v4 a)) = true) ∧
    (let c := searching [(0x4610, 3, searchEnt 7), (0x4610, 5, searchEnt 9)]
     fitsFrame c 3 = true ∧ fitsFrame c 5 = true ∧ (c.wget 0x4610 32768) = 0) :=
  ⟨pipeRuns_of_awake (by decide +kernel), by decide +kernel⟩

theorem meets_PipelineStages :
    (holding frame0).frame 5 = none ∧
    (holding frame0).frame 0 = some frame0 ∧
    (let c := holding frame0
     frame0.pos = .parse ∧ ((c.frames.takeWhile fun g => g.id != 0).any fun g => g.pipe == frame0.pipe && g.pos == .parse) = false ∧
       c.profileOf frame0 = 1 ∧ bitOf (c.reg 0x4303 1) 24 = true ∧ bitOf ((puts c [(0x4303, 1, 0)]).reg 0x4303 1) 24 = false ∧
       bits (c.reg 0x4303 1) 23 0 = 0 ∧ bitOf (2 ^ 24 + 7) 0 = true ∧ fieldIncomplete 0x180 4 = true ∧ policed.pos ≠ .parse) ∧
    ((puts (holding frame0) [(0x4303, 1, 2 ^ 24 + 1)]).reg 0x4303 1 = 2 ^ 24 + 1 ∧
      fieldIncomplete ((holding frame0).fieldDesc 1 0) (frame0.bytes.take 4).length = true) ∧
    (let e := 2 ^ 57 + 9 * 2 ^ 50 + 1 + 0x800 * 2 ^ 16 + 2 ^ 49
     let c := puts running.chA [(0x4302, 1, e)]
     bitOf (c.reg 0x4302 1) 57 = true ∧ bitOf (c.reg 0x4302 1) (bits (c.reg 0x4301 3) 3 0) = true ∧
       bits e 31 16 = field (windowOf frame0.bytes) 12 2 ∧ bitOf e 49 = true ∧ c.profileOf frame0 = 9 ∧
       bitOf (running.chA.reg 0x4302 5) 57 = false) ∧
    (let c := holding (looking false false false)
     let f := looking false false false
     let n := bits (c.wget 0x4403 (bits (c.reg 0x4404 3) 11 0)) 11 0
     let key := n * 2 ^ 48 + beNat (List.replicate 6 (3 : Byte)) % 2 ^ 48
     let d := (c.insertSlot .bridge (withParity .bridge (2 ^ 127 + key * 2 ^ 60 + 5))).2
     let whole := fun (c : Channel) (t : Hashed) (k : Nat) =>
       (candidates t k).all fun a => !slotValid t (c.slot t a) || slotGood t (c.slot t a)
     f.pos = .look ∧ f.look.probed = false ∧ f.slotBytes (bits f.look.kmap 4 0) = some (List.replicate 6 3) ∧
       whole d .bridge key = true ∧ whole d .sub (3 * 2 ^ 24) = true ∧ d.findKey .bridge key ≠ none ∧ d.findKey .sub (3 * 2 ^ 24) = none ∧
       bitOf (d.reg 0x4404 3) 30 = false ∧ bitOf ((puts d [(0x4404, 3, 2 ^ 30)]).reg 0x4404 3) 30 = true ∧
       (f.slotBytes (bits f.look.kmap 9 5)).isSome = true ∧ f.slotBytes 31 = none) ∧
    (let r : LearnReq := ⟨5, 3, 0, false, false⟩
     let c := running.chA
     let q := fun (l : List LearnReq) => { c with bridge := { c.bridge with learns := l } }
     (running.ctx .a).holder = true ∧ (running.ctx .b).holder = false ∧ ((q [r]).bridge.learns.any fun x => x.key == r.key) = true ∧
       c.bridge.learns = [] ∧ r.charges.find? (fun w => (c.allowance w).2.2 == 0) = none ∧
       4096 ≤ (q (List.replicate 4096 { r with key := 9 })).bridge.learns.length ∧
       (r.charges.find? fun w => ((puts c [(0x4406, 3, 0)]).allowance w).2.2 == 0).isSome = true) ∧
    (looking true false false).look.routed = false ∧ (looking true true false).look.routed = true ∧
    ((lengths (upFrom 16 9)).lengthsFor false 0 dstAddr).take 8 = [24, 23, 22, 21, 20, 19, 18, 17] ∧
    ((lengths (upFrom 16 9)).lengthsFor false 0 dstAddr).drop 8 = [16] ∧ ((lengths []).lengthsFor false 0 dstAddr) = [] ∧
    (upFrom 16 9).all (fun l => ((lengths (upFrom 16 9)).findKey .v4 (routeKey 0 l (maskTo false l dstAddr))).isNone) = true ∧
    (routeOf 24).lengthsFor false 0 dstAddr = [24] ∧ ((routeOf 24).findKey .v4 (routeKey 0 24 (maskTo false 24 dstAddr))).isSome = true ∧
      (candidates .v4 (routeKey 0 24 (maskTo false 24 dstAddr))).all
        (fun a => !slotValid .v4 ((routeOf 24).slot .v4 a) || slotGood .v4 ((routeOf 24).slot .v4 a)) = true ∧
    (looking true true false).look.searched = false ∧
    bitOf ((searching []).reg 0x4601 1) 8 = true ∧
    tabWf winDflt (searching []).win = true ∧
    (listedIn (searching []).win 0x4610).isEmpty = true ∧
    tabWf winDflt (searching [(0x4610, 3, searchEnt 7), (0x4610, 5, searchEnt 9)]).win = true ∧
    fitsFrame (searching [(0x4610, 3, searchEnt 7), (0x4610, 5, searchEnt 9)]) 3 = true ∧
    fitsFrame (searching [(0x4610, 3, searchEnt 7), (0x4610, 5, searchEnt 9)]) 5 = true ∧
    (List.range 3).all (fun i => !fitsFrame (searching [(0x4610, 3, searchEnt 7), (0x4610, 5, searchEnt 9)]) i) = true ∧
    searchGood ((searching [(0x4610, 3, searchEnt 7), (0x4610, 5, searchEnt 9)]).wget 0x4610 3) = true ∧
    fitsFrame (searching [(0x4610, 0, searchEnt 7 ^^^ 2 ^ 112)]) 0 = true ∧
    searchGood ((searching [(0x4610, 0, searchEnt 7 ^^^ 2 ^ 112)]).wget 0x4610 0) = false ∧
    (policed.pos = .police ∧ frame0.pos ≠ .police ∧
      ((metered 2 0 1 0 0 0).runMeter policed 0 0).1.getLeft? = some 0x60 ∧
      ((metered 2 0 0 1 0 (10 ^ 10)).runMeter policed 0 0).1.getLeft? = some 0x62 ∧
      (let r := (metered 2 0 0 0 (10 ^ 10) (10 ^ 10)).runMeter policed 0 0
       r.1.getRight? = some 0 ∧ (r.2.runMeter policed 1 0).1.getRight? = some 0)) ∧
    (let mode := fun (c : Channel) => bits (c.meterCfg 7) 127 126
     bitOf (policed.field 2) 19 = true ∧ bitOf (frame0.field 2) 19 = false ∧ policed.bytes.length * 31250 = 2500000 ∧
       mode (metered 0 0 0 0 0 0) = 0 ∧ mode (metered 1 1 0 0 2500000 2499999) = 1 ∧ mode (metered 2 1 0 0 0 2500000) = 2 ∧
       bitOf ((metered 1 1 0 0 0 0).meterCfg 7) 125 = true) ∧
    (let d := admitting false
     let f := (d.frame 0).getD frame0
     let size := fun (c : Channel) => bits (c.poolCfg (c.chargePool f (Copy.mk0 0 5 .fwd .line 5 40 none))) 255 224
     let lim := fun (c : Channel) (f : Frame) => (c.limits (running.ctx .a) f (Copy.mk0 0 5 .fwd .line 5 40 none)).1
     running.chA.admitQ = [] ∧ (d.copyOf (0, 0)).isSome = true ∧ (d.tier 5).down = false ∧ size d ≠ 0 ∧
       size (wputs d [(0x4801, 0, 0)]) = 0 ∧
       (d.setTier 5 { TierSt.empty with down := true } |>.tier 5).down = true ∧ lim d f = none ∧
       lim (wputs d [(0x4810, 40, 0)]) f = some 0x74 ∧ ((admitting true).frame 0).any (·.charged) = true ∧ f.charged = false) ∧
    (let charge := fun (c : Channel) => c.charge (running.ctx .a) ((c.frame 0).getD frame0) (Copy.mk0 0 5 .fwd .line 5 40 none)
     (charge (admitting false)).isRight = true ∧ (charge (wputs (admitting false) [(0x4801, 0, 10 * 2 ^ 224)])).getLeft? = some 0x79) := by
  refine ⟨?_, ?_, ?_, ?_, ?_, ?_, ?_, ?_, ?_, ?_, ?_, ?_, ?_, ?_, ?_, ?_, ?_, ?_, ?_, ?_, ?_, ?_, ?_, ?_, ?_, ?_, ?_⟩ <;> decide +kernel

/-! ### Scheduling and transmission -/

/-- Channel A with one frame whose one copy stands at a position, for a port, with a launch time. -/
def sending (at_ : CopyAt) (e pass : Nat) (req : Bool) (launch : Option Nat) : Channel :=
  let x := { Copy.mk0 0 e .fwd at_ e (nodeQueue e 0 0) none with req := req, launch := launch, bytes := some (List.replicate 60 9) }
  let f := { frame0 with pos := .live, share := 1, owner := (e, 0), pool := 15, cells := [5], pass := pass, copies := [x] }
  (puts (holding f) [(0x4100, 5, 1), (0x4102, 5, 0x2001), (0x4103, 5, 1522)]).setTier e
    { TierSt.empty with picked := if at_ == .queued then [] else [(0, 0)] }

/-- The copy in its queue. -/
def queued : Channel :=
  let c := sending .queued 5 1 false none
  (c.setQueue (nodeQueue 5 0 0) { (c.queue (nodeQueue 5 0 0)) with items := [(0, 0)], cells := 1 }).setTier 5 { TierSt.empty with dlist := [0] }

/-- The frame loaded for port 5 with a launch time, `ns` nanoseconds into the second. -/
def launching (ns : Nat) : Channel :=
  let c := sending .edited 5 1 false (some 900)
  { c with time := { c.time with ns := ns } }

/-- The recirculation requester holds the copy. -/
def holder2 (c : Channel) : Channel := { c with requesters := [⟨2, .copy 0 0, 15, 1, 0, []⟩] }

theorem meets_Recirculation :
    (let cx := running.ctx .a
     let c := sending .edited 54 1 true none
     let d := sending .edited 54 1 false none
     (c.holdOf 2 (.copy 0 0) = none ∧ ((holder2 c).holdOf 2 (.copy 0 0)).isSome = true ∧
       (d.request cx (.recirc 0 0)).1 = true ∧ (d.request cx (.recirc 0 0)).2.holdOf 2 (.copy 0 0) ≠ none ∧
       ((wputs d [(0x4801, bits (d.hw 0x4803 2) 35 32, 0)]).request cx (.recirc 0 0)).1 = false)) ∧
    (let x := { Copy.mk0 0 5 .fwd .edited 5 0 none with bytes := some (List.replicate 60 9), launch := some 900 }
     (launching 900).txCheck 5 frame0 x = none ∧ (puts (launching 1) [(0x4B09, 5, 0)]).txCheck 5 frame0 x = some 0x98) ∧
    (let c := (sending .line 65 1 false none).setLine 65 (some (0, 0))
     c.onLine 65 = some (0, 0) ∧ (c.copyOf (0, 0)).isSome = true ∧ (65 : Nat) > 64) := by decide +kernel

theorem meets_SchedulersAndTransmission :
    (queued.maySelect (running.ctx .a) 5 = some 5 ∧
      (running.chA.setTier 5 { TierSt.empty with down := true }).maySelect (running.ctx .a) 5 = none ∧ (running.ctx .a).await = false ∧
      (let r := queued.choose 5 5
       r.1.map (fun z => (z.1, z.2.1)) = some (0, 0) ∧ (r.2.queue (nodeQueue 5 0 0)).items = [(0, 0)] ∧ (r.2.copyOf (0, 0)).isSome = true) ∧
      ((queued.setTier 5 TierSt.empty).choose 5 5).1 = none ∧ tierOk 5 = true ∧ tierOk 53 = true) ∧
    (let c := puts queued [(0x4902, 5, 0)]
     (queued.tier 5).dlist = [0] ∧ queued.nodeEligible 5 0 5 = true ∧ (c.choose 5 5).1.isSome = true) ∧
    (let c := wputs queued [(0x4910, 5 * 4096, 2 ^ 127)]
     c.express 5 0 = true) ∧
    queued.eligible (nodeQueue 5 0 0) 0 5 = true ∧
    ((sending .selected 5 1 false none).due = [(pipeOf 3, 5, 0, false, (0, 0))] ∧ pipeOf 3 < 8 ∧
      ((sending .selected 5 1 false none).copyOf (0, 0)).isSome = true) ∧
    (let ready := fun (c : Channel) => (c.tier 54).picked.find? fun r => match c.copyOf r with
       | some (_, x) => x.pos == .edited
       | none => false
     ready running.chA = none ∧ ready (sending .edited 54 1 true none) = some (0, 0) ∧ ready (sending .edited 54 3 true none) = some (0, 0)) ∧
    ((running.chA.copyOf (0, 0)) = none ∧ ((sending .moved 5 1 false none).copyOf (0, 0)).any (fun x => x.2.pos == .moved) = true ∧
      ((sending .moved 53 1 false none).copyOf (0, 0)).any (fun x => x.2.tier == 53) = true) ∧
    (let c := sending .edited 5 1 false none
     let cx := running.ctx .a
     let x := { Copy.mk0 0 5 .fwd .edited 5 (nodeQueue 5 0 0) none with bytes := some (List.replicate 60 9) }
     running.chA.ready 5 = none ∧ c.ready 5 = some ((0, 0), x) ∧ c.txCheck 5 frame0 x = none ∧ c.lineFree cx 5 = true ∧
       c.heldClass 5 (x.q % 8) = false ∧ c.guardAllows 5 (0, 0) (x.q % 8) 64 = true ∧ c.lateness 5 x = 0 ∧
       (c.setPort 5 { PortSt.empty with paused := true }).lineFree cx 5 = false ∧ c.maxLen 5 = 1522 ∧
       (puts c [(0x4100, 5, 0x04000001)]).txCheck 5 frame0 x = some 0x93 ∧
       { c with damage := { c.damage with cells := [5] } }.txCheck 5 { frame0 with cells := [5] } x = some 0x92 ∧ linePortOk 5 = true ∧ linePortOk 65 = true) ∧
    (let x := { Copy.mk0 0 5 .fwd .edited 5 (nodeQueue 5 0 0) none with bytes := some (List.replicate 60 9), launch := some 900 }
     (launching 900).ready 5 = some ((0, 0), x) ∧ (launching 908).lateness 5 x = 0 ∧ (launching 1000000).lateness 5 x = 2 ∧
       (launching 1).ready 5 = none ∧ (puts (launching 1000000) [(0x4B09, 5, 2 ^ 47)]).lateness 5 x = 1 ∧
       bitOf ((launching 0).launchCfg 5) 47 = false ∧
       (let past := fun (c : Channel) => (c.loaded 5).find? fun a => match a.2.2.launch with
          | some tl => decide ((((8 + bits (c.launchCfg 5) 63 48) * 2 ^ 32 : Nat) : Int) < -(c.time.ahead tl))
          | none => false
        past (launching 1) = none ∧ (past (launching 1000000)).isSome = true)) ∧
    (let c := sending .edited 5 1 false none
     let x := { Copy.mk0 0 5 .fwd .edited 5 0 none with launch := some 900 }
     let y := { Copy.mk0 1 5 .fwd .edited 5 0 none with bytes := some (List.replicate 1519 9) }
     (launching 899).guardAllows 5 (7, 7) 0 64 = false ∧ c.txCheck 5 frame0 y = some 0x90 ∧ (launching 899).lateness 5 x = 0) ∧
    (let c := (sending .line 5 1 false none).setLine 5 (some (0, 0))
     c.onLine 5 = some (0, 0) ∧ (c.copyOf (0, 0)).isSome = true ∧ running.chA.onLine 5 = none ∧
       (running.chA.setLine 65 (some (0, 0))).onLine 65 = some (0, 0)) ∧
    (let due := [(Sent.marker .a 5, true)]
     let c := (sending .edited 5 1 false none).setPort 5 { PortSt.empty with due := due }
     ¬52 < 5 ∧ c.inProgress 5 = false ∧ (c.port 5).due ≠ [] ∧ c.sendDue 5 ≠ c ∧ ((c.sendDue 5).ready 5).isSome = true ∧
       (running.chA.port 5).due = []) ∧
    (let c := (colliding 1).setMdrop 16 { (colliding 1).mdrop 16 with line := none, hand := some (7, 0) }
     let x := { Copy.mk0 0 80 .fwd .edited 80 0 none with bytes := some (List.replicate 1600 9) }
     c.txCheck 80 dropFrame x = none ∧ (colliding 1).txCheck 80 dropFrame x = some 0x90) := by
  refine ⟨?_, ?_, ?_, ?_, ?_, ?_, ?_, ?_, ?_, ?_, ?_, ?_, ?_⟩ <;> decide +kernel

/-! ### The buffer -/

/-- Channel A with a frame of three shares in cell 5 of pool 15, parked or not. -/
def shared (n : Nat) (parked : Bool) : Channel :=
  let f := { frame0 with pos := .live, share := n, parked := parked, owner := (5, 0), pool := 15, cells := [5] }
  { holding f with cells := [(5, 16)] }

/-- A pool with requests waiting. -/
def waiting (w : Wait) : Channel :=
  let c := sending .edited 54 1 false none
  c.setPool 3 { c.pool 3 with waiting := [w, .capture] }

theorem meets_BufferCells :
    ((shared 3 false).cellRec 5 = 16 ∧ 5 < managedCells running.unit.variant ∧ (5 * 256) % 256 = 0 ∧ (5 * 256 + 3) % 256 ≠ 0 ∧
      running.chA.cellRec 5 ≠ 16 ∧ running.chA.frame 0 = none ∧ ((shared 3 false).frame 0).isSome = true ∧
      shareStep 3 false false = .keep 2 false ∧ shareStep 1 false false = .fault ∧ shareStep 1 false true = .last ∧
      shareStep 2 true false = .last) ∧
    ((waiting .capture).pool 3).waiting = [.capture, .capture] ∧ (running.chA.pool 3).waiting = [] ∧
    ((waiting .capture).waitFor .capture).2 ≠ 0 ∧ ((waiting .capture).waitFor (.host 9 0)).2 = 0 ∧
    (let at_ := fun (k : Nat) => running.chA.rangeOf .A k
     at_ 0 = none ∧ at_ 13 = some (66973440, 66973696) ∧ strideCells (bits (running.chA.poolCfg 13) 1 0) = 16 ∧
       (running.chA.freeBlock .A 13).isSome = true ∧ 66973695 < managedCells running.unit.variant ∧ (66973441 - 66973440) % 16 ≠ 0 ∧
       (running.chA.markCells (upFrom 66973440 16) 14).cellRec 66973440 = 13 + 1) ∧
    (let c := { running.chA with requesters := [⟨3, .unit 1, 13, 16, 0, upFrom 66973440 16⟩] }
     (c.requesters.find? fun h => h.who + 0x80 == 0x83 && h.cells.head? == some 66973440).isSome = true) ∧
    (((waiting (.recirc 0 0)).serve (running.ctx .a) (.recirc 0 0)).isSome = true ∧
      ((wputs (waiting .capture) [(0x4801, 14, 0)]).serve (running.ctx .a) .capture) = none ∧
      ((waiting (.scan 1)).pool 3).waiting = [.scan 1, .capture] ∧ ((waiting (.host 0 0)).waitFor (.host 0 0)).2 ≠ 0) ∧
    ((waiting .capture).reqTake (running.ctx .a) 1 256 .block).isSome = true ∧
      ((waiting .capture).reqTake (running.ctx .a) 1 1000000 .block) = none ∧
    (let on := puts running.chA [(0x4902, 5, 2 ^ 63 + 1000 * 2 ^ 32 + 77), (0x4907, 5, 2 ^ 64 - 1000)]
     let cfg := on.reg 0x4902 5
     bitOf cfg 63 = true ∧ bitOf (on.inForce (objKey 0x4902 5) cfg) 63 = true ∧ bitOf (running.chA.reg 0x4902 5) 63 = false) := by
  refine ⟨?_, ?_, ?_, ?_, ?_, ?_, ?_, ?_⟩ <;> decide +kernel

/-! ### Admission, copies and sources -/

/-- Class 0 of port 5: QUEUE_MIN 0, rank 3, limits as given; the port's limit and PUSH-OUT as given. -/
def classed (classLim queueLim portLim red push : Nat) (c : Channel) : Channel :=
  puts (wputs c [(0x4810, 40, classLim * 2 ^ 96 + queueLim * 2 ^ 64 + red * 2 ^ 31 + 3 * 2 ^ 24)]) [(0x4811, 5, portLim * 2 ^ 32 + push)]

/-- A queue of rank 0 at port 5 with a frame of one cell. -/
def victims : Channel :=
  let c := sending .queued 5 1 false none
  let q := portQueue 5 1
  let f := (c.frame 0).getD frame0
  let c := c.modFrame 0 fun _ => { f with copies := [{ Copy.mk0 0 5 .fwd .queued 5 1 none with bytes := none }] }
  c.setQueue q { c.queue q with items := [(0, 0)], cells := 1 }

/-- Pool 0 with shared use, levels WARN1 to WARN3 at 10, 20 and 30 and HYST 4. -/
def levelled (use level : Nat) (l : List (Nat × Nat × Nat)) : Channel :=
  let c := wputs running.chA ((0x4801, 0, 1000 * 2 ^ 224 + 500 * 2 ^ 192 + 30 * 2 ^ 160 + 20 * 2 ^ 128 + 10 * 2 ^ 96 + 4 * 2 ^ 64) :: l)
  c.setPool 0 { c.pool 0 with shared := use, level := level }

theorem meets_AdmissionAndLevels :
    (let f := frame0
     let x := Copy.mk0 0 5 .fwd .line 5 40 none
     let lim := fun (c : Channel) => (c.limits (running.ctx .a) f x).1
     let red := fun (avg mx : Nat) => wputs ((classed 9 9 9 1 0 running.chA).setQueue (portQueue 5 0)
       { items := [], cells := 0, avg := avg * 65536 }) [(0x4A40, 0, 2 * 2 ^ 224 + mx * 2 ^ 192 + 255 * 2 ^ 56)]
     f.cellCount = 1 ∧ f.colour = 0 ∧ lim (classed 0 9 9 0 0 running.chA) = some 0x74 ∧ lim (classed 9 0 9 0 0 running.chA) = some 0x75 ∧
       lim (classed 9 9 0 0 0 running.chA) = some 0x73 ∧ (classed 9 9 0 0 1 running.chA).victim 5 3 = none ∧
       (wputs running.chA [(0x4810, 40, 5 * 2 ^ 48)]).limits (running.ctx .a) f x = (none, wputs running.chA [(0x4810, 40, 5 * 2 ^ 48)]) ∧
       lim (classed 9 9 9 0 0 running.chA) = none ∧ lim (red 1 8) = none ∧ lim (red 8 8) = some 0x76 ∧ lim (red 8 0) = none ∧
       bitOf ((red 5 8).classCfg 5 0) 31 = true ∧ bits ((red 5 8).redCfg 5 0) 255 224 = 2 ∧ bits ((red 5 8).redCfg 5 0) 223 192 = 8) ∧
    (victims.victim 5 3 = some (portQueue 5 1, 1) ∧ (victims.queue (portQueue 5 1)).items.getLast? = some (0, 0) ∧
      victims.victim 5 0 = none) ∧
    (40 % 8 < (running.chA.tier 5).cells.length ∧ 2 ≠ 40 % 8 ∧ 4 ≠ 5) ∧
    (let d := admitting false
     let f := (d.frame 0).getD frame0
     let x := Copy.mk0 0 5 .fwd .line 5 40 none
     d.frame f.id = some f ∧ d.chargePool f x < 15 ∧ f.pool = 15 ∧ f.cells.length = f.cellCount ∧ (f.cells.all fun i => d.cellRec i < 256) = true ∧
       (d.pool (d.chargePool f x)).waiting = [] ∧ d.requesters = [] ∧ (d.charge (running.ctx .a) f x).isRight = true ∧
       ((wputs d [(0x4801, 0, 10 * 2 ^ 224)]).charge (running.ctx .a) f x).getLeft? = some 0x79 ∧
       ((wputs d [(0x4801, 0, 10 * 2 ^ 192)]).charge (running.ctx .a) f x).getLeft? = some 0x7A) ∧
    (let c := levelled 9 0 []
     let warn := fun (i : Nat) => bits (c.poolCfg 0) (95 + 32 * i) (64 + 32 * i)
     bits (c.poolCfg 0) 255 224 ≠ 0 ∧ (c.pool 0).level ≤ 3 ∧ warn 1 ≤ warn 2 ∧ warn 2 ≤ warn 3 ∧ warn 1 = 10 ∧ bits (c.poolCfg 0) 95 64 = 4 ∧
       bits (c.poolCfg 0) 223 192 = 500 ∧ ((levelled 21 3 []).pool 0).level = 3 ∧
       ((c.account (running.ctx .a) 0 { c.pool 0 with shared := 10 }).pool 0).level = 1 ∧
       (((levelled 30 3 []).account (running.ctx .a) 0 { c.pool 0 with shared := 5 }).pool 0).level = 0) ∧
    (running.chA.linkUp 3 = false ∧ (port3 []).linkUp 3 = true ∧ (port3 []).inProgress 3 = false ∧
      ((sending .line 5 1 false none).setLine 5 (some (0, 0))).linkUp 5 = true ∧
      ((sending .line 5 1 false none).setLine 5 (some (0, 0))).inProgress 5 = true) := by
  refine ⟨?_, ?_, ?_, ?_, ?_, ?_⟩ <;> decide +kernel

/-! ### The tables -/

/-- A learn request for key 77, and a bridge entry with that key. -/
def learn0 (mv : Bool) : LearnReq := ⟨77, 3, 0, mv, false⟩

def bridgeEnt (d stamp static : Nat) : Nat :=
  withParity .bridge (2 ^ 127 + static * 2 ^ 126 + 77 * 2 ^ 60 + stamp * 2 ^ 44 + 2 ^ 32 + 2 ^ 31 + d)

def learning (l : List LearnReq) (c : Channel) : Channel := { c with bridge := { c.bridge with learns := l } }

def withEnt (e : Nat) (c : Channel) : Channel := (c.insertSlot .bridge e).2

/-- A side's bucket for key 77 filled with other keys. -/
def filled (side : Nat) (c : Channel) : Channel :=
  (upFrom (slotAddr .bridge side (bucketOf .bridge side 77) 0) 4).foldl
    (fun c a => c.writeSlot .bridge a (withParity .bridge (2 ^ 127 + (a + 999) * 2 ^ 60))) c

theorem meets_TableWalks :
    (let c := puts running.chA [(0x4410, 1, 7)]
     let d := withEnt (bridgeEnt 5 0 0) (c.beginWalk 0x4410)
     running.chA.walking 0 = none ∧ running.chA.walking 1 = none ∧ running.chA.walking 2 = none ∧ (c.beginWalk 0x4410).walking 0 = some (0, 0) ∧
       (d.walkStep 0x4410 0).walking 0 = some (1, 0) ∧
       stashOf .bridge ≤ 4 * (stashOf .bridge / 4) ∧
       (let e := { d with cmds := tabSet (fun _ => CmdSt.empty) d.cmds 0 { CmdSt.empty with walk := some (stashOf .bridge / 4, 1) } }
        e.walking 0 = some (stashOf .bridge / 4, 1))) ∧
    (let c := { running.chA with bridge := { running.chA.bridge with learns := [learn0 false] } }
     c.bridge.learns ≠ [] ∧ running.chA.bit (cmdOf .bridge) 5 16 = false ∧ running.chA.bridge.ages = []) ∧
    (let c := withEnt (bridgeEnt 9 8 0) { running.chA with bridge := { running.chA.bridge with ages := [(77, 7)] } }
     (c.findKey .bridge 77).any (fun a => bits (c.slot .bridge a) 59 44 != 7) = true ∧ running.chA.findKey .bridge 77 = none) ∧
    (let c := { running.chA with search := { running.chA.search with updates := [(5, 7, false)] } }
     c.search.updates = [(5, 7, false)] ∧ (c.search.updates.any fun u => !u.2.2) = true ∧ running.chA.search.updates = []) ∧
    (let h := fun (n : Nat) (c : Channel) => { c with own := { c.own with halt := some n } }
     running.chA.halted 0 = false ∧ (h 0 (learning [learn0 false] running.chA)).halted 0 = true ∧ (h 4 running.chA).halted 4 = true ∧
       (h 0 running.chA).halted (running.chA.commandTable 0x4410) = true ∧ (h 0 running.chA).halted (tableNo .bridge) = true) ∧
    (let late := (puts running.chA [(0x4620, 1, 1)]).beginLate 0x4620
     let wait := (puts running.chA [(0x4620, 1, 3)]).beginLate 0x4620
     (tabGet (fun _ => CmdSt.empty) late.cmds 3).late = true ∧ late.bit 0x4620 5 16 = true ∧ late.runSearch.search.clearing = false ∧
       late.runSearch.search.updates = [] ∧ (wait.runSearch.search.updates.any fun u => !u.2.2) = true ∧
       (tabGet (fun _ => CmdSt.empty) running.chA.cmds 3).late = false) := by decide +kernel

theorem meets_TableEngines :
    (let c := learning [learn0 false] running.chA
     running.chA.bridge.learns = [] ∧ c.bridge.learns = [learn0 false] ∧ c.findKey .bridge 77 = none ∧
       (c.insertSlot .bridge (c.learnedEntry (learn0 false) false)).1 = true ∧ (running.ctx .a).holder = true ∧ (running.ctx .b).holder = false) ∧
    (let f := fun (d stamp static : Nat) =>
       let c := withEnt (bridgeEnt d stamp static) running.chA
       (c.findKey .bridge 77).map (c.slot .bridge)
     (f 9 0 1).any (bitOf · 126) = true ∧ (f 9 0 0).any (fun e => !bitOf e 126 && !bitOf e 43 && bits e 13 0 == 9) = true) ∧
    (let at_ := fun (c : Channel) => (upFrom (stashOf .bridge) 64).find? fun a => slotValid .bridge (c.slot .bridge a)
     let c := running.chA.writeSlot .bridge (stashOf .bridge + 3) (bridgeEnt 5 0 0)
     at_ running.chA = none ∧ at_ c = some (stashOf .bridge + 3) ∧ (c.emptyWay .bridge 0 (bucketOf .bridge 0 77)).isSome = true ∧
       (filled 0 c).emptyWay .bridge 0 (bucketOf .bridge 0 77) = none ∧
       ((filled 0 c).emptyWay .bridge 1 (bucketOf .bridge 1 77)).isSome = true ∧
       (filled 1 (filled 0 c)).emptyWay .bridge 1 (bucketOf .bridge 1 77) = none) ∧
    asleep.mode.night = .asleep ∧ running.mode.night ≠ .asleep ∧
    ((sweepAddrs 0).all fun a => !slotValid .bridge (running.chA.slot .bridge a)) = true ∧
    (let c := withEnt (bridgeEnt 9 7 0) { running.chA with bridge := { running.chA.bridge with ages := [(77, 7)] } }
     c.bridge.ages = [(77, 7)] ∧ c.bridge.learns = [] ∧ (c.findKey .bridge 77).any (fun a => bits (c.slot .bridge a) 59 44 == 7) = true) ∧
    (let c := (puts running.chA [(0x4410, 1, 2)]).result 0x4410 4 [(3, 7)]
     c.bit (commandObject .bridge) 5 16 = true ∧ running.chA.bit (commandObject .bridge) 5 16 = false ∧ commandObject .bridge = 0x4410) ∧
    (let c := (puts running.chA [(0x4620, 1, 2)]).result 0x4620 4 [(3, 7)]
     c.bit 0x4620 5 16 = true ∧ c.search.clearing = false ∧ c.search.updates = [] ∧ running.chA.bit 0x4620 5 16 = false) ∧
    (let c := puts (wputs running.chA [(0x4610, 0, searchEnt 7 ^^^ 2 ^ 112), (0x4610, 1, searchEnt 9)]) [(0x4600, 1, 2)]
     c.bit 0x4600 1 1 = true ∧ (puts c [(0x4600, 1, 0)]).bit 0x4600 1 1 = false ∧ bitOf (c.wget 0x4610 c.search.scrub) 127 = true ∧
       searchGood (c.wget 0x4610 0) = false ∧ searchGood (c.wget 0x4610 1) = true ∧
       (listedIn c.win 0x4610).filter (fun i => bitOf (c.wget 0x4610 i) 127) = [0, 1]) ∧
    (puts running.chA [(0x4600, 1, 1)]).bit 0x4600 1 0 = true ∧
    (let c := puts running.chA [(0x4400, 0, 5 * 2 ^ 16), (0x4401, 0, 20 * 2 ^ 48)]
     { c with bridge := { c.bridge with clock := 50 } }.aged (bridgeEnt 9 15 0) = true ∧
       { c with bridge := { c.bridge with clock := 50 } }.aged (bridgeEnt 9 16 0) = false) := by
  refine ⟨?_, ?_, ?_, ?_, ?_, ?_, ?_, ?_, ?_, ?_, ?_⟩ <;> decide +kernel

/-! ### Copies, sources and turns -/

/-- The frame with an action record: its destination word and queue. -/
def acting (dest q : Nat) : Frame := { frame0 with act := [dest, q] ++ List.replicate 10 0 }

/-- Session 0 with a configuration, of the source, destination kind, port, module, queue and sample given, on channel A with a frame. -/
def session (src dest port module q sample : Nat) (l : List (Nat × Nat × Nat)) : Channel :=
  puts (holding { acting 0 0 with cells := [5] })
    ([(0x4C10, 1, src * 2 ^ 60 + dest * 2 ^ 56 + port * 2 ^ 49 + module * 2 ^ 42 + q * 2 ^ 24 + sample), (0x4000, 0x20, locked)] ++ l)

theorem meets_CopiesAndSessions :
    (let c := { lined 7 7 with frames := [frame0] }
     let cx := module4.ctx .a
     let kind := fun (f : Frame) => bits (f.field 0) 26 24
     let group := wputs c [(0x4257, 3, 3), (0x4259, 3, 2 ^ (8 * 15 + 3) + 2 ^ (8 * 15 + 5))]
     let members := fun (c : Channel) => c.members frame0 3
     c.frame frame0.id = some frame0 ∧ frame0.nextNo + 90 ≤ 255 ∧ kind (acting (2 ^ 24 + 5) 7) = 1 ∧
       kind (acting (2 ^ 25 + 4 * 2 ^ 16 + 5) 7) = 2 ∧ bits ((acting (2 ^ 25 + 4 * 2 ^ 16 + 5) 7).field 0) 22 16 = cx.moduleId ∧
       (acting (2 ^ 25 + 6 * 2 ^ 16 + 5) 7).field 11 = 0 ∧ c.way cx 6 = .to 51 2 ∧ c.way cx 9 = .none ∧
       kind (acting (3 * 2 ^ 24 + 3) 7) = 3 ∧ members c = [] ∧ frame0.transit = none ∧ bits (c.wget 0x4257 3) 1 0 = 0 ∧
       members group = [5] ∧ bits (group.wget 0x4257 3) 1 0 = 3 ∧ kind (acting (4 * 2 ^ 24) 7) = 4 ∧ kind (acting (5 * 2 ^ 24) 7) = 5 ∧
       (let w := field (tagged false false 5 7 3) 14 14
        0 < bits w 51 46 ∧ { acting (2 ^ 24 + 51) 7 with tag := some w }.tag = some w)) ∧
    (1 ≤ (module4.ctx .a).moduleId ∧ (module4.ctx .a).moduleId ≤ 64) ∧
    (let c := lined 7 7
     let cx := module4.ctx .a
     let ring := puts c [(0x4252, 1, 8 * 2 ^ 16 + 2 ^ 15)]
     c.domainBad cx = false ∧ ring.domainBad cx = false ∧ cx.moduleId ≤ c.modules ∧ c.topology = 1 ∧ ring.topology = 2 ∧
       c.way cx 4 = .here ∧ c.way cx 2 = .to 49 2 ∧ ring.way cx 8 = .to 51 4 ∧ ring.way cx 3 = .to 49 1 ∧
       (ring.setLink 3 LinkSt.empty).way cx 8 = .to 49 4 ∧ ((ring.setLink 3 LinkSt.empty).setLink 1 LinkSt.empty |>.setLink 2 LinkSt.empty).way cx 8 = .none ∧
       (running.chA.topology = 0)) ∧
    (frame0.inPort < 128 ∧
      (let m : Moment := ⟨true, 0x60, true, some 7, none, 3, 7, 0, none⟩
       m.drop < 256 ∧ (session 1 1 0 0 0 1 [(0x4C11, 1, 2 ^ (8 * 15 + 3))]).qualifies frame0 m 0 = true ∧
         (session 4 1 0 0 0 1 [(0x4C12, 1, 2 ^ (8 * 19))]).qualifies frame0 m 0 = true ∧
         (session 3 1 0 0 0 1 [(0x4C13, 1, 5 * 2 ^ 32 + 9)]).qualifies frame0 m 0 = true)) ∧
    (let c := session 3 3 7 0 9 2 [(0x4C13, 1, 5 * 2 ^ 32 + 9)]
     let m : Moment := ⟨false, 0, false, some 7, none, 3, 7, 0, none⟩
     (c.frame 0).isSome = true ∧ ((upFrom 1 15).all fun k => bits (c.hw 0x4C10 (k + 1)) 63 60 == 0) = true ∧ c.qualifies frame0 m 0 = true ∧
       bits (c.hw 0x4C10 1) 23 0 = 2 ∧ frame0.taken = [] ∧ tabGet (fun _ => 0) c.cap.samples 0 + 1 < 2 ∧
       bits ((session 3 3 7 0 9 1 []).hw 0x4C10 1) 23 0 ≤ tabGet (fun _ => 0) c.cap.samples 0 + 1 ∧
       c.qualifies frame0 { m with queue := none } 0 = false) ∧
    (let f := { acting 0 0 with cells := [5] }
     let m : Moment := ⟨false, 0, false, some 7, none, 3, 7, 0, none⟩
     let c := session 3 1 7 0 9 1 []
     let kind := fun (c : Channel) => bits (c.hw 0x4C10 1) 58 56
     c.frame f.id = some f ∧ f.nextNo < 255 ∧ f.cells ≠ [] ∧ m.bytes ≠ some [] ∧ f.oversize = false ∧ kind c = 1 ∧ c.capStopped = false ∧
       (running.ctx .a).night = .awake ∧ (asleep.ctx .a).night ≠ .awake ∧ c.cap.hold = false ∧ { c.cap with hold := true }.hold = true ∧
       c.cap.intake.length < 4096 ∧ 4096 ≤ { c.cap with intake := List.replicate 4096 (0, 0, 0) }.intake.length ∧
       kind (session 3 0 0 0 0 1 []) = 0 ∧ kind (session 3 3 7 0 9 1 []) = 3 ∧ kind (session 3 4 7 6 9 1 []) = 4 ∧
       bits ((session 3 3 7 0 9 1 []).hw 0x4C10 1) 55 49 = 7 ∧ bits ((session 3 4 7 6 9 1 []).hw 0x4C10 1) 48 42 = 6) := by
  refine ⟨?_, ?_, ?_, ?_, ?_, ?_⟩ <;> decide +kernel

/-- Group 5 with a base, size, SKIP_DOWN and fallback entry 9, and entry 3 as its member. -/
def group5 (size skip entry : Nat) : Channel :=
  wputs (holding (looking true false false)) [(0x4311, 5, size * 2 ^ 32 + skip * 2 ^ 80 + 9 * 2 ^ 64 + 3), (0x4310, 3, entry)]

/-- A next-hop entry with its parity. -/
def hopEnt (v : Nat) : Nat := setBits v 123 120 (parityBits 120 32 v)

/-- Node P of port 5 with a queue of class 3 that has a frame of 60 bytes. -/
def turning (weight quantum : Nat) : Channel :=
  let c := sending .queued 5 1 false none
  let q := portQueue 5 3
  let x := { Copy.mk0 0 5 .fwd .queued 5 3 none with bytes := some (List.replicate 60 9) }
  let c := c.modFrame 0 fun f => { f with copies := [x] }
  let c := puts c [(0x4901, 5, quantum), (0x4906, 1, weight)]
  ((c.setQueue q { c.queue q with items := [(0, 0)], cells := 1 }).setTier 5 { TierSt.empty with dlist := [0] }).setNode 5 0
    { c.node 5 0 with fresh := true, ptr := 3 }

theorem meets_SourcesRoutesAndTurns :
    (let f := looking false false false
     let key := 5 * 2 ^ 48 + beNat (List.replicate 6 (8 : Byte)) % 2 ^ 48
     let ent := fun (d static : Nat) (c : Channel) =>
       (c.insertSlot .bridge (withParity .bridge (2 ^ 127 + static * 2 ^ 126 + key * 2 ^ 60 + d))).2
     let good := fun (c : Channel) => (candidates .bridge key).all fun a => slotGood .bridge (c.slot .bridge a)
     let hit := fun (c : Channel) => (c.findKey .bridge key).map (c.slot .bridge)
     let c := holding f
     f.inPort < 65 ∧ good c = true ∧ hit c = none ∧ good (ent 3 0 c) = true ∧ (hit (ent 3 0 c)).any (fun e => bits e 13 0 == f.sourceDest) = true ∧
       (hit (ent 5 0 c)).any (fun e => !bitOf e 43 && bits e 13 0 != f.sourceDest && !bitOf e 126) = true ∧
       (hit (ent 5 1 c)).any (bitOf · 126) = true ∧ c.bit 0x4404 3 29 = false ∧ (puts c [(0x4404, 3, 2 ^ 29)]).bit 0x4404 3 29 = true ∧
       ([0, 1, 2, 3].all fun a => bits ((puts c [(0x4203, 16, a)]).hw 0x4203 16) 1 0 == a) = true ∧
       (puts c [(0x4203, 16, 128)]).hwBit 0x4203 16 7 = true ∧ 65 ≤ { f with inPort := 80 }.inPort) ∧
    (let c := withEnt (bridgeEnt 9 7 0) (puts running.chA [(0x4401, 0, 50 * 2 ^ 48)])
     (running.ctx .a).holder = true ∧ c.ageClock = 50 ∧
       ((candidates .bridge 77).any fun a => slotValid .bridge (c.slot .bridge a) && slotKey .bridge (c.slot .bridge a) == 77 &&
         slotGood .bridge (c.slot .bridge a)) = true) ∧
    (running.chA.damage.objs = [] ∧ bits ((group5 0 0 0).wget 0x4311 5) 44 32 = 0 ∧ bits ((group5 1 1 (2 ^ 61 + 5)).wget 0x4311 5) 44 32 = 1 ∧
      bits ((group5 1 1 (2 ^ 61 + 5)).wget 0x4310 3) 63 60 = 2 ∧ bitOf ((group5 1 1 (2 ^ 61 + 5)).wget 0x4311 5) 80 = true ∧
      (group5 1 1 (2 ^ 61 + 5)).memberUp (running.ctx .a) 5 = false ∧
      ((group5 1 1 (2 ^ 61 + 5)).resolve (running.ctx .a) frame0 5).1.getLeft? = some 0x38 ∧
      ((group5 1 0 (2 ^ 61 + 5)).resolve (running.ctx .a) frame0 5).1.getRight? = some (2 ^ 61 + 5) ∧
      ((group5 1 0 (3 * 2 ^ 60 + 5)).resolve (running.ctx .a) frame0 5).1.getRight? = some (3 * 2 ^ 60 + 5)) ∧
    (let c := group5 1 0 (3 * 2 ^ 60 + 5)
     let good := fun (e : Nat) => decide (bits e 123 120 = parityBits 120 32 e)
     (c.frame 0).isSome = true ∧ bits (5 : Nat) 31 30 = 0 ∧ bits (2 ^ 30 + 5) 31 30 = 1 ∧ bits (2 ^ 31) 31 30 = 2 ∧
       bits (c.wget 0x4506 5) 127 124 = 0 ∧ bits (hopEnt (2 ^ 124 + 7)) 127 124 = 1 ∧ good (hopEnt (2 ^ 124 + 7)) = true ∧
       good (hopEnt (2 ^ 124 + 7) ^^^ 2 ^ 120) = false) ∧
    (let c := turning 1 100
     let ok := fun (c : Channel) => !c.express 5 0 && c.nodeEligible 5 0 5
     let short := turning 1 50
     let len := c.headLen (nodeQueue 5 0 3)
     let after := fun (c : Channel) => c.setNode 5 0 { c.node 5 0 with deficit := (c.node 5 0).deficit + c.quantum 0 5, fresh := false }
     ok c = true ∧ (c.tier 5).dlist = [0] ∧ ((after c).offer 5 0 5).isSome = true ∧ len = 80 ∧
       ((after c).offer 5 0 5).any (fun o => len ≤ o.2.deficit) = true ∧ ((after short).offer 5 0 5).any (fun o => o.2.deficit < len) = true ∧
       ok running.chA = false ∧ ok (c.setTier 5 { TierSt.empty with dlist := [7, 0] }) = true ∧ c.nodeEligible 5 7 5 = false) ∧
    (let c := turning 1 100
     let ok := fun (c : Channel) (k : Nat) => c.eligible (nodeQueue 5 0 k) k 5
     (upFrom 0 3).all (fun k => !ok c k) = true ∧ 3 ≤ (c.node 5 0).ptr ∧ ok c 3 = true ∧ (c.node 5 0).sent.getD 0 0 < c.weight 5 0 3 ∧
       (let d := c.setNode 5 0 { c.node 5 0 with sent := [1, 0, 0, 0, 0] }
        ¬(d.node 5 0).sent.getD 0 0 < d.weight 5 0 3 ∧ (d.node 5 0).ptr = 3) ∧
       (turning 0 100).weight 5 0 3 = 0 ∧ ok (turning 0 100) 3 = true ∧ (upFrom 3 5).all (fun k => !ok running.chA k) = true) ∧
    (let c := puts running.chA [(0x4902, 5, 2 ^ 63), (0x4907, 5, 7)]
     bitOf (c.portShaper 5) 63 = true ∧ bitOf (running.chA.portShaper 5) 63 = false ∧
       -(2 ^ 63 : Int) ≤ signedOf 64 (c.reg 0x4907 5) - ((64 * 31250 : Nat) : Int) ∧
       { Copy.mk0 0 5 .fwd .edited 5 0 none with sub := true }.sub = true ∧ (Copy.mk0 0 5 .fwd .edited 5 0 none).sub = false) ∧
    (let c := metered 2 0 0 0 5 6
     let d := { c with pend := [(winKey 0x4A10 7, 0)] }
     running.present .a = true ∧ tabWf winDflt c.win = true ∧ bits (c.wget 0x4A10 7) 127 126 = 2 ∧ bits ((metered 1 0 0 0 5 6).wget 0x4A10 7) 127 126 = 1 ∧
       bits (d.inForce (winKey 0x4A10 7) (d.wget 0x4A10 7)) 127 126 = 0 ∧ bits (c.inForce (winKey 0x4A10 7) (c.wget 0x4A10 7)) 127 126 = 2 ∧
       bits (running.chA.wget 0x4A10 7) 127 126 = 0) := by
  refine ⟨?_, ?_, ?_, ?_, ?_, ?_, ?_, ?_⟩ <;> decide +kernel

/-! ### Capture and the check units -/

/-- A frame with a capture copy at the intake, and an open block of `n` records. -/
def capturing (n : Option Nat) : Channel :=
  let x := { Copy.mk0 9 0x81 (.mirror 1) .intake 55 0 none with info := List.replicate 24 7 }
  let c := puts (holding { frame0 with pos := .live, share := 1, owner := (0x81, 9), copies := [x] }) [(0x4C00, 1, 1)]
  { c with cap := { c.cap with intake := [(0, 9, 2)], openBlk := n.map fun n => ⟨4, List.replicate n [], 77, 5, 1⟩ } }

/-- A staged block with a count of tries. -/
def stagedBlk (n : Nat) : Channel := { running.chA with cap := { running.chA.cap with staged := [⟨3, 4, 10, [], n⟩] } }

/-- A block that has failed once, with the one staged after it. -/
def stagedTwo : Channel :=
  { running.chA with cap := { running.chA.cap with staged := [⟨3, 4, 10, [], 1⟩, ⟨4, 5, 10, List.replicate 65536 0, 0⟩] } }

theorem stagedTwo_next : ∃ b y, stagedTwo.cap.staged = [b, y] ∧ b.tries ≠ 0 ∧ y.bytes.length = 65536 :=
  ⟨_, _, rfl, by decide, List.length_replicate⟩

/-- Check unit 1 busy with `n` bytes of which `pos` are consumed. -/
def checkUnit (ctl n pos : Nat) (granted : Bool) : Channel :=
  (puts running.chA [(0x4D01, 1, ctl), (0x4D02, 1, 0x1021), (0x4D06, 1, if bits ctl 21 20 = 2 then 294912 else 0), (0x4D07, 1, n),
    (0x4D09, 1, 2 ^ 16)]).setJob 1 ⟨pos, 5, 9, granted, 0⟩

theorem meets_CaptureAndCheck :
    ((puts (capturing none) [(0x4000, 0x20, 0)]).capStopped = true ∧ variantC.unit.variant ≠ .A ∧
      { running.chA.cap with hold := true }.hold = true ∧ { running.chA.cap with ready := true }.ready = true ∧
      (let c := { checkUnit 0x10 5000 0 true with damage := { running.chA.damage with cells := [15] } }
       bits (c.reg 0x4D01 1) 21 20 = 0 ∧ c.damage.cells = [15] ∧ 0 ≤ 256 * 15 + 255 ∧ 256 * 15 < c.reg 0x4D06 1 + 4096) ∧
      (let c := checkUnit 0x10 5000 5000 false
       let o := { c with own := { c.own with todo := [(.digest 3, false)], running := true } }
       c.jobBusy 1 = true ∧ c.reg 0x4D07 1 ≤ (c.job 1).pos ∧ c.own.todo = [] ∧ o.own.running = true ∧ o.own.todo = [(.digest 3, false)] ∧
         o.bit 0x4D09 1 10 = false ∧ o.jobBusy 1 = true)) ∧
    (running.chA.cap.intake = [] ∧ (capturing none).capStopped = false ∧ (capturing none).cap.hold = false ∧ (capturing none).cap.ready = false ∧
      ((capturing none).copyOf (0, 9)).isSome = true ∧ ((capturing none).request (running.ctx .a) .capture).1 = true) ∧
    ((wputs (capturing none) [(0x4801, 14, 0)]).request (running.ctx .a) .capture).1 = false ∧
    (((capturing (some 339)).cap.openBlk.map (·.records.length)) = some 339 ∧ ((capturing (some 340)).cap.openBlk.map (·.records.length)) = some 340 ∧
      (capturing (some 340)).capStopped = false ∧ (capturing (some 340)).cap.hold = false ∧ ((capturing (some 340)).copyOf (0, 9)).isSome = true ∧
      (entering none).mode.night ≠ .awake ∧ running.mode.night = .awake) ∧
    ((stagedBlk 0).cap.staged.map (·.tries) = [0] ∧ (stagedBlk 1).cap.staged.map (·.tries) = [1] ∧ running.unit.variant = .A ∧
      running.chA.cap.staged = [] ∧ running.chA.cap.openBlk = none) ∧
    (let c := (puts running.chA [(0x4C20, 1, 2)]).result 0x4C20 4 [(6, 7)]
     c.bit 0x4C20 5 16 = true ∧ running.chA.bit 0x4C20 5 16 = false) ∧
    (List.replicate 24 (7 : Byte)).length = 24 ∧
    ((checkUnit 0x10 5000 0 false).jobBusy 1 = true ∧ running.chA.jobBusy 1 = false ∧ ((checkUnit 0x10 5000 4096 true).job 1).granted = true ∧
      (checkUnit 0x10 5000 0 false).chunkTurn = some 1 ∧ (checkUnit 0x10 5000 4096 true).chunkTurn = some 1 ∧
      running.chA.chunkTurn = none ∧ (checkUnit 0x10 5000 5000 false).chunkTurn = none ∧
      ((checkUnit 0x10 5000 0 true).setJob 2 ⟨0, 5, 9, true, 0⟩).chunkTurn = some 1 ∧
      (let c := (puts (checkUnit 0x10 5000 0 true) [(0x4D07, 3, 64), (0x4D09, 3, 2 ^ 16)])
       { c with scan := 1 }.chunkTurn = some 3 ∧ { c with scan := 3 }.chunkTurn = some 1) ∧
      ((checkUnit 0x10 5000 0 false).request (running.ctx .a) (.scan 1)).1 = true ∧
      ((wputs (checkUnit 0x10 5000 0 false) [(0x4801, 13, 0)]).request (running.ctx .a) (.scan 1)).1 = false ∧
      (checkUnit 0x10 5000 0 false).spanFaults 1 0 4096 = [] ∧
      ((wputs (checkUnit 0x200010 24 0 true) [(0x14710, 0x3000, 2 ^ 207)]).spanFaults 1 294912 24).any (·.2) = true) := by
  refine ⟨?_, ?_, ?_, ?_, ?_, ?_, ?_, ?_⟩ <;> decide +kernel

end Sys2Proof.Tests
end

section
/-! What no command changes, and the rules of roles (R10, R46, R494, R495, R512) as a step invariant. -/

namespace Sys2Proof.Machine

/-! ## The rules of roles -/

/-- `leaseOk` of a channel with role record `r` under arbiter `a`, rule by rule. -/
structure RoleRules (present : Bool) (a : Arbiter) (r : ChanRole) (ch : Ch) : Prop where
  active : r.st = .active → a.holder = some ch ∨ a.drainer = some ch
  holder : a.holder = some ch → r.st = .active ∧ a.drainer ≠ some ch
  drainer : a.drainer = some ch → r.st = .active ∨ r.st = .draining
  draining : r.st = .draining → a.drainer = some ch
  fenceDest : r.fence = true → ∀ g, a.pending = some g → g.dest ≠ ch
  fenceState : r.fence = true → r.st.holdsWrites = true
  fenceStage : r.fence = true → r.st = .starting → r.stage ≤ 7
  oneWait : a.pending = none ∨ a.hold = none
  waits : (a.pending = none ∧ a.hold = none) ∨ (r.st ≠ .active ∧ r.st ≠ .draining)
  back : ∀ b, a.back = some b → b.chan = ch → r.fence = false ∧ (r.st = .off ∨ r.st = .starting)
  backAlone : a.back = none ∨ (a.holder = none ∧ a.hold = none ∧ a.pending = none ∧ a.drainer = none)
  absentOff : present = false → r.st = .off
  absentArb : present = false → a.holder ≠ some ch ∧ a.hold ≠ some ch
  absentGrant : present = false → ∀ g, a.pending = some g → g.dest ≠ ch
  absentBack : present = false → ∀ b, a.back = some b → b.chan ≠ ch
  absentWindow : present = false → ∀ w, a.window = some w → w.first ≠ ch ∧ w.new ≠ ch
  absentDrill : present = false → ∀ d, a.drill = some d → d.old ≠ ch ∧ d.new ≠ ch

theorem any_eq_false_iff {α : Type} {o : Option α} {p : α → Bool} : o.any p = false ↔ ∀ x, o = some x → p x = false := by
  cases o <;> simp

theorem leaseOk_iff (s : State) (ch : Ch) : leaseOk s ch = true ↔ RoleRules (s.present ch) s.arb (s.role ch) ch := by
  unfold leaseOk
  constructor
  · intro h
    simp only [Bool.and_eq_true, Bool.or_eq_true, Bool.not_eq_true', bne_iff_ne, beq_iff_eq, any_eq_false_iff, Bool.and_eq_false_iff,
      Option.isNone_iff_eq_none, beq_eq_false_iff_ne, Nat.ble_eq, Bool.or_eq_false_iff] at h
    constructor <;> grind
  · intro h
    obtain ⟨h1, h2, h3, h4, h5, h6, h7, h8, h9, h10, h11, h12, h13, h14, h15, h16, h17⟩ := h
    simp only [Bool.and_eq_true, Bool.or_eq_true, Bool.not_eq_true', bne_iff_ne, beq_iff_eq, any_eq_false_iff, Bool.and_eq_false_iff,
      Option.isNone_iff_eq_none, beq_eq_false_iff_ne, Nat.ble_eq, Bool.or_eq_false_iff]
    and_intros <;> grind

end Sys2Proof.Machine
end

section
namespace Sys2Proof.Machine

/-- What the rules of roles read of a role record. -/
def ChanRole.rule (r : ChanRole) : ChState × Bool × Nat := (r.st, r.fence, r.stage)

theorem ChanRole.rule_of_unstale {r q : ChanRole} (h : r.unstale = q.unstale) : r.rule = q.rule :=
  show r.unstale.rule = q.unstale.rule from congrArg ChanRole.rule h

theorem RoleRules.congr {p : Bool} {a : Arbiter} {r q : ChanRole} {ch : Ch} (h : RoleRules p a r ch) (e : q.rule = r.rule) :
    RoleRules p a q ch := by
  cases q
  cases r
  simp only [ChanRole.rule, Prod.mk.injEq] at e
  obtain ⟨rfl, rfl, rfl⟩ := e
  exact ⟨h.active, h.holder, h.drainer, h.draining, h.fenceDest, h.fenceState, h.fenceStage, h.oneWait, h.waits, h.back,
    h.backAlone, h.absentOff, h.absentArb, h.absentGrant, h.absentBack, h.absentWindow, h.absentDrill⟩

/-- The rules of channel `ch` in a state. -/
def State.Rules (s : State) (ch : Ch) : Prop := RoleRules (s.present ch) s.arb (s.role ch) ch

theorem leaseInv_iff (s : State) : LeaseInv s ↔ ∀ ch, s.Rules ch := by
  unfold LeaseInv State.Rules
  rw [leaseOk_iff, leaseOk_iff]
  exact ⟨fun h ch => by cases ch; exact h.1; exact h.2, fun h => ⟨h .a, h .b⟩⟩

theorem LeaseInv.rules {s : State} (h : LeaseInv s) (ch : Ch) : s.Rules ch := (leaseInv_iff s).1 h ch

/-- Both channels keep the rules when one and the other do. -/
theorem leaseInv_of_pair {s : State} (ch : Ch) (h : s.Rules ch) (ho : s.Rules ch.other) : LeaseInv s := by
  rw [leaseInv_iff]
  intro c
  cases ch <;> cases c <;> assumption

theorem Ch.eq_or_other (c ch : Ch) : c = ch ∨ c = ch.other := by cases c <;> cases ch <;> simp [Ch.other]

@[simp] theorem Ch.other_other (ch : Ch) : ch.other.other = ch := by cases ch <;> rfl

theorem Ch.other_ne (ch : Ch) : ch.other ≠ ch := by cases ch <;> decide

theorem Ch.ne_iff_eq_other {c ch : Ch} : c ≠ ch ↔ c = ch.other := by cases c <;> cases ch <;> decide

theorem present_of_unit {s t : State} (h : t.unit = s.unit) (ch : Ch) : t.present ch = s.present ch := by
  unfold State.present
  rw [h]

/-! ## What a command leaves alone -/

/-- The unit, the waiting commands and whether the arbiter runs stay as they were. -/
structure Fixed (s t : State) : Prop where
  unit : t.unit = s.unit
  pending : t.pending = s.pending
  ok : t.arb.ok = s.arb.ok

/-- The unit and the waiting commands stay, and the rules of roles are kept (R2, R10, R46). -/
structure Lawful (s t : State) : Prop where
  unit : t.unit = s.unit
  pending : t.pending = s.pending
  inv : LeaseInv s → LeaseInv t

/-- The same, and the arbiter neither goes nor comes. -/
structure Steady (s t : State) : Prop extends Fixed s t where
  inv : LeaseInv s → LeaseInv t

/-- Nothing changes that the rules of roles, the queue or the unit are made of. -/
structure Calm (s t : State) : Prop where
  unit : t.unit = s.unit
  pending : t.pending = s.pending
  arb : t.arb = s.arb
  roleA : t.roleA.rule = s.roleA.rule
  roleB : t.roleB.rule = s.roleB.rule

theorem Fixed.refl (s : State) : Fixed s s := ⟨rfl, rfl, rfl⟩

theorem Fixed.trans {s t u : State} (a : Fixed s t) (b : Fixed t u) : Fixed s u :=
  ⟨b.unit.trans a.unit, b.pending.trans a.pending, b.ok.trans a.ok⟩

theorem Lawful.refl (s : State) : Lawful s s := ⟨rfl, rfl, id⟩

theorem Lawful.trans {s t u : State} (a : Lawful s t) (b : Lawful t u) : Lawful s u :=
  ⟨b.unit.trans a.unit, b.pending.trans a.pending, fun h => b.inv (a.inv h)⟩

theorem Steady.refl (s : State) : Steady s s := ⟨Fixed.refl s, id⟩

theorem Steady.trans {s t u : State} (a : Steady s t) (b : Steady t u) : Steady s u :=
  ⟨a.toFixed.trans b.toFixed, fun h => b.inv (a.inv h)⟩

theorem Steady.lawful {s t : State} (h : Steady s t) : Lawful s t := ⟨h.unit, h.pending, h.inv⟩

theorem Steady.foldl {α : Type} {f : State → α → State} (hf : ∀ s a, Steady s (f s a)) (l : List α) (s : State) :
    Steady s (l.foldl f s) := by
  induction l generalizing s with
  | nil => exact Steady.refl s
  | cons x l ih => exact (hf s x).trans (ih (f s x))

theorem Calm.refl (s : State) : Calm s s := ⟨rfl, rfl, rfl, rfl, rfl⟩

theorem Calm.trans {s t u : State} (a : Calm s t) (b : Calm t u) : Calm s u :=
  ⟨b.unit.trans a.unit, b.pending.trans a.pending, b.arb.trans a.arb, b.roleA.trans a.roleA, b.roleB.trans a.roleB⟩

theorem Calm.foldl {α : Type} {f : State → α → State} (hf : ∀ s a, Calm s (f s a)) (l : List α) (s : State) :
    Calm s (l.foldl f s) := by
  induction l generalizing s with
  | nil => exact Calm.refl s
  | cons x l ih => exact (hf s x).trans (ih (f s x))

theorem Calm.role {s t : State} (h : Calm s t) (ch : Ch) : (t.role ch).rule = (s.role ch).rule := by
  cases ch
  · exact h.roleA
  · exact h.roleB

theorem Calm.st {s t : State} (h : Calm s t) (ch : Ch) : (t.role ch).st = (s.role ch).st := congrArg Prod.fst (h.role ch)

theorem Calm.fence {s t : State} (h : Calm s t) (ch : Ch) : (t.role ch).fence = (s.role ch).fence :=
  congrArg (fun x => x.2.1) (h.role ch)

theorem Calm.stage {s t : State} (h : Calm s t) (ch : Ch) : (t.role ch).stage = (s.role ch).stage :=
  congrArg (fun x => x.2.2) (h.role ch)

theorem Calm.present {s t : State} (h : Calm s t) (ch : Ch) : t.present ch = s.present ch := present_of_unit h.unit ch

theorem Calm.fixed {s t : State} (h : Calm s t) : Fixed s t := ⟨h.unit, h.pending, by rw [h.arb]⟩

theorem Calm.rules {s t : State} (h : Calm s t) {ch : Ch} (hr : s.Rules ch) : t.Rules ch := by
  unfold State.Rules
  rw [h.present, h.arb]
  exact hr.congr (h.role ch)

theorem Calm.inv {s t : State} (h : Calm s t) (hi : LeaseInv s) : LeaseInv t := by
  rw [leaseInv_iff] at hi ⊢
  exact fun ch => h.rules (hi ch)

theorem Calm.steady {s t : State} (h : Calm s t) : Steady s t := ⟨h.fixed, h.inv⟩

theorem Calm.lawful {s t : State} (h : Calm s t) : Lawful s t := h.steady.lawful

theorem Around.calm {s t : State} (h : Around s t) : Calm s t :=
  ⟨h.unit, h.pending, h.arb, ChanRole.rule_of_unstale h.roleA, ChanRole.rule_of_unstale h.roleB⟩

theorem Beside.calm {s t : State} (h : Beside s t) : Calm s t := h.around.calm

theorem calm_onChan (s : State) (ch : Ch) (f : Ctx → Channel → Channel) : Calm s (s.onChan ch f) := (beside_onChan s ch f).calm

theorem calm_eachChan (s : State) (f : Ctx → Channel → Channel) : Calm s (s.eachChan f) := (beside_eachChan s f).calm

theorem calm_setChan (s : State) (ch : Ch) (c : Channel) : Calm s (s.setChan ch c) := (beside_setChan s ch c).calm

theorem calm_logEvent (s : State) (a b d : Nat) : Calm s (s.logEvent a b d) := (beside_logEvent s a b d).calm

theorem calm_mput (s : State) (i k v : Nat) : Calm s (s.mput i k v) := ⟨rfl, rfl, rfl, rfl, rfl⟩

theorem calm_mputBits (s : State) (i k hi lo v : Nat) : Calm s (s.mputBits i k hi lo v) := ⟨rfl, rfl, rfl, rfl, rfl⟩

theorem calm_minc (s : State) (i k : Nat) : Calm s (s.minc i k) := ⟨rfl, rfl, rfl, rfl, rfl⟩

theorem calm_mflag (s : State) (i k m : Nat) : Calm s (s.mflag i k m) := by
  constructor <;> simp

theorem calm_modRole (s : State) (ch : Ch) {f : ChanRole → ChanRole} (hf : ∀ r, (f r).rule = r.rule) : Calm s (s.modRole ch f) := by
  cases ch
  · exact ⟨rfl, rfl, rfl, hf _, rfl⟩
  · exact ⟨rfl, rfl, rfl, rfl, hf _⟩

theorem calm_setRole (s : State) (ch : Ch) {r : ChanRole} (h : r.rule = (s.role ch).rule) : Calm s (s.setRole ch r) := by
  cases ch
  · exact ⟨rfl, rfl, rfl, h, rfl⟩
  · exact ⟨rfl, rfl, rfl, rfl, h⟩

/-! Each shared operation after a calm one. -/

theorem Calm.onChan {s t : State} (h : Calm s t) (ch : Ch) (f : Ctx → Channel → Channel) : Calm s (t.onChan ch f) :=
  h.trans (calm_onChan t ch f)

theorem Calm.eachChan {s t : State} (h : Calm s t) (f : Ctx → Channel → Channel) : Calm s (t.eachChan f) := h.trans (calm_eachChan t f)

theorem Calm.logEvent {s t : State} (h : Calm s t) (a b d : Nat) : Calm s (t.logEvent a b d) := h.trans (calm_logEvent t a b d)

theorem Calm.mput {s t : State} (h : Calm s t) (i k v : Nat) : Calm s (t.mput i k v) := h.trans (calm_mput t i k v)

theorem Calm.mputBits {s t : State} (h : Calm s t) (i k hi lo v : Nat) : Calm s (t.mputBits i k hi lo v) :=
  h.trans (calm_mputBits t i k hi lo v)

theorem Calm.minc {s t : State} (h : Calm s t) (i k : Nat) : Calm s (t.minc i k) := h.trans (calm_minc t i k)

theorem Calm.mflag {s t : State} (h : Calm s t) (i k m : Nat) : Calm s (t.mflag i k m) := h.trans (calm_mflag t i k m)

theorem Calm.modRole {s t : State} (h : Calm s t) (ch : Ch) {f : ChanRole → ChanRole} (hf : ∀ r, (f r).rule = r.rule) :
    Calm s (t.modRole ch f) := h.trans (calm_modRole t ch hf)

theorem Calm.setRole {s t : State} (h : Calm s t) (ch : Ch) {r : ChanRole} (hr : r.rule = (t.role ch).rule) :
    Calm s (t.setRole ch r) := h.trans (calm_setRole t ch hr)

theorem calm_finish (b s : State) : Calm s (State.finish b s) := (around_finish b s).calm

/-! ## Fences, grants, resets -/

theorem State.fence_arb (s : State) (ch : Ch) (lost : Bool) : (s.fence ch lost).arb = s.arb := by
  unfold State.fence
  dsimp only
  split <;> simp [(calm_onChan _ _ _).arb]

theorem fixed_fence (s : State) (ch : Ch) (lost : Bool) : Fixed s (s.fence ch lost) := by
  have h : ∀ u : State, Fixed s u → Fixed s (u.onChan ch fun cx c => c.fenced cx lost) :=
    fun u hu => hu.trans (calm_onChan u ch _).fixed
  unfold State.fence
  dsimp only
  split
  · exact h s (Fixed.refl s)
  · exact h _ (by cases ch <;> exact ⟨rfl, rfl, rfl⟩)

/-- A fence leaves the rules of the other channel. -/
theorem State.fence_role_other (s : State) (ch : Ch) (lost : Bool) :
    ((s.fence ch lost).role ch.other).rule = (s.role ch.other).rule := by
  unfold State.fence
  dsimp only
  rw [(calm_onChan _ _ _).role]
  split
  · rfl
  · simp

theorem State.fence_st (s : State) (ch : Ch) (lost : Bool) : ((s.fence ch lost).role ch).st = (s.role ch).st := by
  unfold State.fence
  dsimp only
  rw [(calm_onChan _ _ _).st]
  split
  · rfl
  · simp

theorem State.fence_fence (s : State) (ch : Ch) (lost : Bool) : ((s.fence ch lost).role ch).fence = true := by
  unfold State.fence
  dsimp only
  rw [(calm_onChan _ _ _).fence]
  split
  · assumption
  · simp

end Sys2Proof.Machine
end

section
namespace Sys2Proof.Machine

/-! ## Resets of a channel -/

/-- The arbiter after the reset of a channel: its lease, its drain permission, its grant and its return are gone (R579). -/
def Arbiter.dropped (a : Arbiter) (ch : Ch) : Arbiter :=
  { a with
    holder := if a.holder == some ch then none else a.holder
    drainer := if a.drainer == some ch then none else a.drainer
    pending := a.pending.filter fun g => g.dest != ch
    back := a.back.filter fun b => b.chan != ch }

theorem filter_eq_some {α : Type} {o : Option α} {p : α → Bool} {x : α} : o.filter p = some x ↔ o = some x ∧ p x = true := by
  cases o <;> simp [Option.filter]
  grind

theorem filter_eq_none_of {α : Type} {o : Option α} (p : α → Bool) (h : o = none) : o.filter p = none := by
  rw [h]; rfl

theorem beginReset_arb (s : State) (ch : Ch) (cause : ResetCause) : (s.beginReset ch cause).arb = s.arb.dropped ch := by
  unfold State.beginReset
  dsimp only
  split <;> simp [State.fence_arb, Arbiter.dropped]

theorem fixed_beginReset (s : State) (ch : Ch) (cause : ResetCause) : Fixed s (s.beginReset ch cause) := by
  have h := fixed_fence s ch true
  unfold State.beginReset
  dsimp only
  constructor
  · split <;> simp [h.unit]
  · split <;> simp [h.pending]
  · split <;> simp [h.ok]

theorem beginReset_role (s : State) (ch : Ch) (cause : ResetCause) :
    ((s.beginReset ch cause).role ch).rule = (.off, true, 14) := by
  have h := State.fence_fence s ch true
  unfold State.beginReset
  dsimp only
  split <;> cases ch <;> simpa [ChanRole.rule, State.role, State.setRole] using h

theorem beginReset_role_other (s : State) (ch : Ch) (cause : ResetCause) :
    ((s.beginReset ch cause).role ch.other).rule = (s.role ch.other).rule := by
  rw [← State.fence_role_other s ch true]
  unfold State.beginReset
  generalize s.fence ch true = u
  dsimp only
  split <;> cases ch <;> rfl

theorem RoleRules.dropped_other {p : Bool} {a : Arbiter} {r : ChanRole} {ch : Ch} (h : RoleRules p a r ch.other) :
    RoleRules p (a.dropped ch) r ch.other := by
  have hne := Ch.other_ne ch
  obtain ⟨h1, h2, h3, h4, h5, h6, h7, h8, h9, h10, h11, h12, h13, h14, h15, h16, h17⟩ := h
  constructor <;> grind [Arbiter.dropped, filter_eq_some, filter_eq_none_of]

theorem RoleRules.dropped_self {p : Bool} {a : Arbiter} {r q : ChanRole} {ch : Ch} (h : p = true ∨ RoleRules p a r ch)
    (hw : a.pending = none ∨ a.hold = none)
    (hb : a.back = none ∨ (a.holder = none ∧ a.hold = none ∧ a.pending = none ∧ a.drainer = none))
    (hq : q.rule = (.off, true, 14)) : RoleRules p (a.dropped ch) q ch := by
  obtain ⟨q1, q2, -⟩ : q.st = .off ∧ q.fence = true ∧ q.stage = 14 := by simpa [ChanRole.rule] using hq
  have hp : p = false → RoleRules p a r ch := fun hf => h.resolve_left (by simp [hf])
  constructor <;> grind [Arbiter.dropped, filter_eq_some, filter_eq_none_of, ChState.holdsWrites, RoleRules]

/-- The channel that a reset puts into OFF keeps the rules, whatever its own state was, if it is present. -/
theorem rules_beginReset_self {s : State} {ch : Ch} (cause : ResetCause) (h : s.present ch = true ∨ s.Rules ch)
    (hw : s.arb.pending = none ∨ s.arb.hold = none)
    (hb : s.arb.back = none ∨ (s.arb.holder = none ∧ s.arb.hold = none ∧ s.arb.pending = none ∧ s.arb.drainer = none)) :
    (s.beginReset ch cause).Rules ch := by
  unfold State.Rules
  rw [present_of_unit (fixed_beginReset s ch cause).unit, beginReset_arb]
  exact RoleRules.dropped_self h hw hb (beginReset_role s ch cause)

theorem rules_beginReset_other {s : State} {ch : Ch} (cause : ResetCause) (ho : s.Rules ch.other) :
    (s.beginReset ch cause).Rules ch.other := by
  unfold State.Rules
  rw [present_of_unit (fixed_beginReset s ch cause).unit, beginReset_arb]
  exact (RoleRules.dropped_other ho).congr (beginReset_role_other s ch cause)

/-- A reset keeps the rules; those of the channel itself may have been broken, if it is present. -/
theorem leaseInv_beginReset {s : State} {ch : Ch} (cause : ResetCause) (h : s.present ch = true ∨ s.Rules ch)
    (ho : s.Rules ch.other) : LeaseInv (s.beginReset ch cause) :=
  leaseInv_of_pair ch (rules_beginReset_self cause h ho.oneWait ho.backAlone) (rules_beginReset_other cause ho)

theorem steady_beginReset (s : State) (ch : Ch) (cause : ResetCause) : Steady s (s.beginReset ch cause) :=
  ⟨fixed_beginReset s ch cause, fun h => leaseInv_beginReset cause (.inr (h.rules ch)) (h.rules ch.other)⟩

end Sys2Proof.Machine
end

section
namespace Sys2Proof.Machine

theorem Calm.ite {c : Prop} [Decidable c] {s t u : State} (ht : Calm s t) (hu : Calm s u) : Calm s (if c then t else u) := by
  split
  · exact ht
  · exact hu

/-! ## Grants -/

/-- What the arbiter finds before channel `d` takes the lease or waits for it (R495). -/
structure Grantable (s : State) (d : Ch) : Prop where
  present : s.present d = true
  fence : (s.role d).fence = false
  holder : s.arb.holder = none
  drainer : s.arb.drainer ≠ some d
  hold : s.arb.hold = none
  back : s.arb.back = none

theorem Calm.grantable {s t : State} (h : Calm s t) {d : Ch} (g : Grantable s d) : Grantable t d := by
  obtain ⟨g1, g2, g3, g4, g5, g6⟩ := g
  exact ⟨by rw [h.present, g1], by rw [h.fence, g2], by rw [h.arb, g3], by rw [h.arb]; exact g4, by rw [h.arb, g5], by rw [h.arb, g6]⟩

/-- The epoch of a grant (R496). -/
def Arbiter.nextEpoch (a : Arbiter) (d : Ch) : Nat := if a.last == some d then a.epoch else (a.epoch + 1) % 2 ^ 32

/-- The arbiter after a grant (R46, R496). -/
def Arbiter.lease (a : Arbiter) (d : Ch) (now : Nat) : Arbiter :=
  { a with holder := some d, last := some d, epoch := a.nextEpoch d, leaseAt := now, grantAt := now, pending := none }

/-- The lease, the role and the epoch that a grant gives, before its record and what follows in the channels. -/
def State.leased (s : State) (d : Ch) : State :=
  ({ s with
    arb := s.arb.lease d s.sbTime
    relay := { s.relay with deltas := [], copyLeft := 0, resync := none } }).modRole d fun r => { r with
      st := .active, stage := 15, attempt := 0, restarts := 0, waitArb := false, orphan := false, silent := false, stale := false,
      epoch := s.arb.nextEpoch d }

/-- The record of a grant and its counts (R529). -/
def State.recordGrant (s : State) (g : Grant) (epoch : Nat) : State :=
  let us := s.draw
  let s := if g.record then
      us.2.mput 0x1300 0xB (epoch * 2 ^ 32 + g.cause.code * 2 ^ 16 + g.declared.num * 2 ^ 8 + min 255 (10 * (s.sbTime - g.since) + us.1))
    else s
  let s := if g.counted then (s.minc 0x1310 1).mflag 0x1300 0xA 1 else s
  if g.cause == .reinstatement then s.minc 0x1310 2 else s

theorem calm_recordGrant (s : State) (g : Grant) (epoch : Nat) : Calm s (s.recordGrant g epoch) := by
  have h1 : Calm s s.draw.2 := ⟨rfl, rfl, rfl, rfl, rfl⟩
  unfold State.recordGrant
  dsimp only
  generalize hu : (if g.record = true then _ else s : State) = u
  have hu : Calm s u := hu ▸ Calm.ite (h1.trans (calm_mput ..)) (Calm.refl s)
  generalize hv : (if g.counted = true then _ else u : State) = v
  have hv : Calm s v := hv ▸ Calm.ite ((hu.trans (calm_minc ..)).trans (calm_mflag ..)) hu
  exact Calm.ite (hv.trans (calm_minc ..)) hv

theorem leaseTo_eq (s : State) (g : Grant) :
    s.leaseTo g =
      (let u := (s.leased g.dest).recordGrant g (s.arb.nextEpoch g.dest)
       if u.waitsRole g.dest.other then u.completeStandby g.dest.other else u).onChan g.dest fun cx c => c.newActive cx := rfl

/-- A channel that waits in stage 9 is not fenced and holds nothing (R494, R564). -/
theorem waitsRole_iff {s : State} {ch : Ch} :
    s.waitsRole ch = true ↔ (s.role ch).st = .starting ∧ (s.role ch).stage = 9 ∧ (s.role ch).waitArb = true := by
  simp [State.waitsRole, and_assoc]

theorem fixed_modRole (s : State) (ch : Ch) (f : ChanRole → ChanRole) : Fixed s (s.modRole ch f) := by
  constructor <;> simp

theorem fixed_completeStandby (s : State) (ch : Ch) : Fixed s (s.completeStandby ch) := fixed_modRole s ch _

/-- The rules after a change of one role record, the arbiter standing. -/
theorem leaseInv_modRole {s : State} {ch : Ch} {f : ChanRole → ChanRole} (h : LeaseInv s)
    (hf : RoleRules (s.present ch) s.arb (f (s.role ch)) ch) : LeaseInv (s.modRole ch f) := by
  have hu := fun c => present_of_unit (s := s) (t := s.modRole ch f) (by simp) c
  refine leaseInv_of_pair ch ?_ ?_
  · simpa [State.Rules, hu] using hf
  · simpa [State.Rules, hu] using h.rules ch.other

theorem leaseInv_completeStandby {s : State} {ch : Ch} (h : LeaseInv s) (hb : s.arb.back = none) (hs : (s.role ch).st = .starting)
    (hn : (s.role ch).stage = 9) : LeaseInv (s.completeStandby ch) := by
  obtain ⟨h1, h2, h3, h4, h5, h6, h7, h8, h9, h10, h11, h12, h13, h14, h15, h16, h17⟩ := h.rules ch
  refine leaseInv_modRole h ?_
  constructor <;> grind [ChState.holdsWrites]

theorem RoleRules.lease_self {a : Arbiter} {q : ChanRole} {d : Ch} {now : Nat} (hf : q.fence = false) (hd : a.drainer ≠ some d) (hh : a.hold = none) (hb : a.back = none)
    (hq : q.st = .active) : RoleRules true (a.lease d now) q d := by
  constructor <;> grind [Arbiter.lease]

theorem RoleRules.lease_other {p : Bool} {a : Arbiter} {r : ChanRole} {d : Ch} {now : Nat} (h : RoleRules p a r d.other)
    (hn : a.holder = none) (hh : a.hold = none) (hb : a.back = none) : RoleRules p (a.lease d now) r d.other := by
  have hne := Ch.other_ne d
  obtain ⟨h1, h2, h3, h4, h5, h6, h7, h8, h9, h10, h11, h12, h13, h14, h15, h16, h17⟩ := h
  constructor <;> grind [Arbiter.lease]

theorem leaseInv_leased {s : State} {d : Ch} (h : LeaseInv s) (g : Grantable s d) : LeaseInv (s.leased d) := by
  have hu := fun c => present_of_unit (s := s) (t := s.leased d) (by simp [State.leased]) c
  have ha : (s.leased d).arb = s.arb.lease d s.sbTime := by simp [State.leased]
  refine leaseInv_of_pair d ?_ ?_
  · unfold State.Rules
    rw [hu, ha, g.present]
    have hf : ((s.leased d).role d).fence = (s.role d).fence := by simp [State.leased]; rfl
    exact RoleRules.lease_self (hf.trans g.fence) g.drainer g.hold g.back (by simp [State.leased])
  · have ho := h.rules d.other
    unfold State.Rules at ho ⊢
    rw [hu, ha]
    exact (ho.lease_other g.holder g.hold g.back).congr (by simp [State.leased]; rfl)

theorem fixed_leased (s : State) (d : Ch) : Fixed s (s.leased d) := by constructor <;> simp [State.leased, Arbiter.lease]

theorem fixed_leaseTo (s : State) (g : Grant) : Fixed s (s.leaseTo g) := by
  rw [leaseTo_eq]
  refine ((fixed_leased s g.dest).trans (calm_recordGrant _ g (s.arb.nextEpoch g.dest)).fixed).trans (Fixed.trans ?_ (calm_onChan _ _ _).fixed)
  dsimp only
  split
  · exact fixed_completeStandby _ _
  · exact Fixed.refl _

/-- A channel that takes the lease keeps the rules (R46, R495). -/
theorem leaseInv_leaseTo {s : State} {g : Grant} (h : LeaseInv s) (hg : Grantable s g.dest) : LeaseInv (s.leaseTo g) := by
  have hc := calm_recordGrant (s.leased g.dest) g (s.arb.nextEpoch g.dest)
  have hi := hc.inv (leaseInv_leased h hg)
  rw [leaseTo_eq]
  refine (calm_onChan _ _ _).inv ?_
  dsimp only
  split
  · rename_i hw
    obtain ⟨hs, hn, -⟩ := waitsRole_iff.1 hw
    refine leaseInv_completeStandby hi ?_ hs hn
    rw [hc.arb]
    simp [State.leased, Arbiter.lease, hg.back]
  · exact hi

/-! ## A grant that waits -/

/-- The arbiter with a grant that waits (R495, R497). -/
def Arbiter.await (a : Arbiter) (g : Grant) : Arbiter := { a with pending := some g }

theorem RoleRules.await_self {a : Arbiter} {r : ChanRole} {g : Grant} (h : RoleRules true a r g.dest)
    (hf : r.fence = false) (hn : a.holder = none) (hd : a.drainer ≠ some g.dest) (hh : a.hold = none) (hb : a.back = none) :
    RoleRules true (a.await g) r g.dest := by
  obtain ⟨h1, h2, h3, h4, h5, h6, h7, h8, h9, h10, h11, h12, h13, h14, h15, h16, h17⟩ := h
  constructor <;> grind [Arbiter.await]

theorem RoleRules.await_other {p : Bool} {a : Arbiter} {r : ChanRole} {g : Grant} (h : RoleRules p a r g.dest.other)
    (hn : a.holder = none) (hd : a.drainer ≠ some g.dest.other) (hh : a.hold = none) (hb : a.back = none) :
    RoleRules p (a.await g) r g.dest.other := by
  have hne := Ch.other_ne g.dest
  obtain ⟨h1, h2, h3, h4, h5, h6, h7, h8, h9, h10, h11, h12, h13, h14, h15, h16, h17⟩ := h
  constructor <;> grind [Arbiter.await]

theorem leaseInv_await {s : State} {g : Grant} (h : LeaseInv s) (hg : Grantable s g.dest) (hd : s.arb.drainer ≠ some g.dest.other) :
    LeaseInv { s with arb := s.arb.await g } := by
  refine leaseInv_of_pair g.dest ?_ ?_
  · have h1 := h.rules g.dest
    unfold State.Rules at h1
    rw [hg.present] at h1
    change RoleRules (s.present g.dest) _ (s.role g.dest) _
    rw [hg.present]
    exact h1.await_self hg.fence hg.holder hg.drainer hg.hold hg.back
  · exact (h.rules g.dest.other).await_other hg.holder hd hg.hold hg.back

/-- Withdrawing the waiting grant keeps the rules. -/
theorem leaseInv_withdraw {s : State} (h : LeaseInv s) : LeaseInv { s with arb := { s.arb with pending := none } } := by
  rw [leaseInv_iff] at h ⊢
  intro ch
  obtain ⟨h1, h2, h3, h4, h5, h6, h7, h8, h9, h10, h11, h12, h13, h14, h15, h16, h17⟩ := h ch
  change RoleRules (s.present ch) _ (s.role ch) _
  constructor <;> grind

theorem fixed_grantNow (s : State) (g : Grant) : Fixed s (s.grantNow g) := by
  unfold State.grantNow
  dsimp only
  split
  · exact fixed_leaseTo s g
  · exact ⟨rfl, rfl, rfl⟩

theorem leaseInv_grantNow {s : State} {g : Grant} (h : LeaseInv s) (hg : Grantable s g.dest) : LeaseInv (s.grantNow g) := by
  unfold State.grantNow
  dsimp only
  split
  · exact leaseInv_leaseTo h hg
  · exact leaseInv_withdraw h

/-- A grant that may not be made yet finds no drain permission on the other channel (R495). -/
theorem mayGrant_drainer {s : State} {g : Grant} (h : s.mayGrant g = false) : s.arb.drainer ≠ some g.dest.other := by
  intro e
  simp [State.mayGrant, e] at h

theorem fixed_grant (s : State) (g : Grant) : Fixed s (s.grant g) := by
  unfold State.grant
  split
  · exact fixed_grantNow s g
  · exact ⟨rfl, rfl, rfl⟩

/-- A grant keeps the rules, made now or waiting, unless the arbiter is lost while the other channel drains (R46, R495). -/
theorem leaseInv_grant_of {s : State} {g : Grant} (h : LeaseInv s) (hg : Grantable s g.dest)
    (hok : s.arb.ok = true ∨ s.arb.drainer ≠ some g.dest.other) : LeaseInv (s.grant g) := by
  unfold State.grant
  split
  · exact leaseInv_grantNow h hg
  · rename_i hm
    exact leaseInv_await h hg (hok.elim (fun hok => mayGrant_drainer (g := g) (by simpa [hok] using hm)) id)

/-- A grant of a running arbiter keeps the rules. -/
theorem leaseInv_grant {s : State} {g : Grant} (h : LeaseInv s) (hg : Grantable s g.dest) (hok : s.arb.ok = true) :
    LeaseInv (s.grant g) := leaseInv_grant_of h hg (.inl hok)

end Sys2Proof.Machine
end

section
namespace Sys2Proof.Machine

theorem Steady.ite {c : Prop} [Decidable c] {s t u : State} (ht : Steady s t) (hu : Steady s u) : Steady s (if c then t else u) := by
  split
  · exact ht
  · exact hu

/-! ## Waking -/

/-- Steady, and the arbiter as it was. -/
structure Still (s t : State) : Prop extends Steady s t where
  arb : t.arb = s.arb

theorem Still.refl (s : State) : Still s s := ⟨Steady.refl s, rfl⟩

theorem Still.trans {s t u : State} (a : Still s t) (b : Still t u) : Still s u :=
  ⟨a.toSteady.trans b.toSteady, b.arb.trans a.arb⟩

theorem Still.ite {c : Prop} [Decidable c] {s t u : State} (ht : Still s t) (hu : Still s u) : Still s (if c then t else u) := by
  split
  · exact ht
  · exact hu

theorem Still.foldl {α : Type} {f : State → α → State} (hf : ∀ s a, Still s (f s a)) (l : List α) (s : State) :
    Still s (l.foldl f s) := by
  induction l generalizing s with
  | nil => exact Still.refl s
  | cons x l ih => exact (hf s x).trans (ih (f s x))

theorem Calm.still {s t : State} (h : Calm s t) : Still s t := ⟨h.steady, h.arb⟩

/-- Stage 8 lifts a channel's fence (R494, R563). -/
theorem still_beginStage8 (s : State) (ch : Ch) : Still s (s.beginStage8 ch) := by
  unfold State.beginStage8
  refine Still.trans ⟨⟨fixed_modRole s ch _, fun h => leaseInv_modRole h ?_⟩, by simp⟩ (calm_onChan _ _ _).still
  obtain ⟨h1, h2, h3, h4, h5, h6, h7, h8, h9, h10, h11, h12, h13, h14, h15, h16, h17⟩ := h.rules ch
  constructor <;> grind

theorem calm_mode (s : State) (m : ModeSt) : Calm s { s with mode := m } := ⟨rfl, rfl, rfl, rfl, rfl⟩

theorem calm_power (s : State) (p : Power) : Calm s { s with power := p } := ⟨rfl, rfl, rfl, rfl, rfl⟩

theorem calm_enterNight (s : State) : Calm s s.enterNight := (around_enterNight s).calm

theorem still_wakeNow (s : State) (cause : WakeCause) (all : List WakeCause) : Still s (s.wakeNow cause all) := by
  unfold State.wakeNow
  extract_lets _ s1 s2 s3 _ s4 s5 s6
  have h1 : Calm s s1 := calm_mode s _
  have h2 : Calm s s2 := Calm.ite h1 (h1.trans (calm_mput ..))
  have h3 : Calm s s3 := by
    refine h2.trans (Calm.trans (Calm.trans ?_ (Calm.foldl (fun s w => calm_mflag s _ _ _) all _)) (calm_minc _ 0x1108 3))
    exact (calm_mput s2 _ _ _).trans (calm_mflag _ _ _ _)
  have h4 : Calm s s4 := h3.trans (calm_power s3 _)
  have h5 : Still s4 s5 := Still.foldl (fun s ch => Still.ite (still_beginStage8 s ch) (Still.refl s)) _ _
  have h6 : Still s s6 := (h4.still.trans h5).trans (calm_eachChan _ _).still
  exact Still.ite (h6.trans (calm_enterNight s6).still) h6

theorem still_wakeByAll (s : State) (l : List WakeCause) : Still s (s.wakeByAll l) := by
  cases l with
  | nil => exact Still.refl s
  | cons cause more =>
    simp only [State.wakeByAll]
    split
    · exact Still.refl s
    · exact (calm_mode s _).still
    · exact still_wakeNow s _ _

theorem still_wakeBy (s : State) (cause : WakeCause) : Still s (s.wakeBy cause) := still_wakeByAll s [cause]

theorem steady_wakeBy (s : State) (cause : WakeCause) : Steady s (s.wakeBy cause) := (still_wakeBy s cause).toSteady

/-! ## Drills -/

theorem calm_dropJobs (s : State) : Calm s s.dropJobs := calm_eachChan s _

/-- `t` differs from `s` in the drill, its clocks and what is calm. -/
structure DrillOver (s t : State) : Prop where
  unit : t.unit = s.unit
  pending : t.pending = s.pending
  arb : ∃ d n, (d = s.arb.drill ∨ d = none) ∧ t.arb = { s.arb with drill := d, drillBase := n }
  role : ∀ ch, (t.role ch).rule = (s.role ch).rule

theorem DrillOver.refl (s : State) : DrillOver s s := ⟨rfl, rfl, ⟨_, _, .inl rfl, rfl⟩, fun _ => rfl⟩

theorem DrillOver.calm {s t u : State} (h : DrillOver s t) (c : Calm t u) : DrillOver s u :=
  ⟨c.unit.trans h.unit, c.pending.trans h.pending, by rw [c.arb]; exact h.arb, fun ch => (c.role ch).trans (h.role ch)⟩

theorem DrillOver.drillBase {s t : State} (h : DrillOver s t) (n : Nat) :
    DrillOver s { t with arb := { t.arb with drillBase := n } } := by
  obtain ⟨d, m, hd, ha⟩ := h.arb
  exact ⟨h.unit, h.pending, ⟨d, n, hd, congrArg (fun a : Arbiter => { a with drillBase := n }) ha⟩, h.role⟩

theorem DrillOver.ite {c : Prop} [Decidable c] {s t u : State} (ht : DrillOver s t) (hu : DrillOver s u) :
    DrillOver s (if c then t else u) := by
  split
  · exact ht
  · exact hu

theorem endDrill_over (s : State) (result table : Nat) : DrillOver s (s.endDrill result table) := by
  unfold State.endDrill
  split
  · exact DrillOver.refl s
  · extract_lets ms _ s1 s2 s3 s4 s5 _ s6
    have h1 : DrillOver s s1 := DrillOver.calm (t := { s with arb := { s.arb with drill := none } })
      ⟨rfl, rfl, ⟨none, _, .inr rfl, rfl⟩, fun ch => by cases ch <;> rfl⟩ (calm_dropJobs _)
    have h2 : DrillOver s s2 := h1.calm (calm_mput ..)
    have h3 : DrillOver s s3 := (h2.calm (calm_minc ..)).ite ((h2.calm (calm_minc ..)).ite (h2.calm (calm_minc ..)))
    have h4 : DrillOver s s4 := (h3.calm (calm_mflag ..)).ite h3
    have h5 : DrillOver s s5 := (h4.calm (calm_mflag ..)).ite h4
    have h6 : DrillOver s s6 := (h5.drillBase _).ite h5
    exact h6.calm (calm_logEvent ..)

theorem DrillOver.steady {s t : State} (h : DrillOver s t) : Steady s t := by
  obtain ⟨d, n, hd, ha⟩ := h.arb
  refine ⟨⟨h.unit, h.pending, by rw [ha]⟩, fun hi => (leaseInv_iff _).2 fun ch => ?_⟩
  unfold State.Rules
  rw [present_of_unit h.unit, ha]
  refine RoleRules.congr ?_ (h.role ch)
  obtain ⟨h1, h2, h3, h4, h5, h6, h7, h8, h9, h10, h11, h12, h13, h14, h15, h16, h17⟩ := hi.rules ch
  refine ⟨h1, h2, h3, h4, h5, h6, h7, h8, h9, h10, h11, h12, h13, h14, h15, h16, fun hp x hx => ?_⟩
  rcases hd with rfl | rfl
  · exact h17 hp x hx
  · cases hx

theorem steady_endDrill (s : State) (result table : Nat) : Steady s (s.endDrill result table) := (endDrill_over s result table).steady

end Sys2Proof.Machine
end

section
namespace Sys2Proof.Machine

/-! ## The TWILIGHT-hold -/

/-- The arbiter as a hold begins with the turn of `r` (R512). -/
def Arbiter.held (a : Arbiter) (r : Ch) : Arbiter := { a with holder := none, hold := some r, pending := none, back := none }

/-- The channel that takes the first turn of a hold (R512). -/
def State.firstTurn (s : State) : Ch :=
  if s.roleB.st != .isolated && (s.roleA.st == .isolated || s.roleB.resetAt < s.roleA.resetAt) then .b else .a

/-- The hold begins, counted and logged, before the channels are reset. -/
def State.holdBegun (s : State) : State :=
  ((({ s with arb := s.arb.held s.firstTurn }).minc 0x1310 3).mflag 0x1300 0xA (2 ^ 4)).logEvent 0 0x22 0

/-- The waiting channel of a hold is reset unless it is out already. -/
def State.resetWaiting (s : State) (w : Ch) : State :=
  if s.present w && (s.role w).st != .isolated && (s.role w).st != .off then s.beginReset w .hold else s

theorem enterHold_eq (s : State) : s.enterHold =
    if !s.present .b then s else
      let t := s.holdBegun.resetWaiting s.firstTurn.other
      (if (t.role s.firstTurn).st == .isolated then t else t.beginReset s.firstTurn .hold).wakeBy .fault := rfl

theorem holdBegun_calm (s : State) : Calm { s with arb := s.arb.held s.firstTurn } s.holdBegun :=
  ((calm_minc ..).trans (calm_mflag ..)).trans (calm_logEvent ..)

/-- An isolated first turn means that both channels are isolated. -/
theorem firstTurn_isolated {s : State} (h : (s.role s.firstTurn).st = .isolated) (ch : Ch) : (s.role ch).st = .isolated := by
  unfold State.firstTurn at h
  cases ch <;> grind [State.role]

/-- A channel that is out of service keeps the rules as a hold begins. -/
theorem RoleRules.held_out {a : Arbiter} {r : ChanRole} {ch f : Ch} (h : RoleRules true a r ch)
    (hr : r.st = .isolated ∨ r.st = .off) : RoleRules true (a.held f) r ch := by
  obtain ⟨h1, h2, h3, h4, h5, h6, h7, h8, h9, h10, h11, h12, h13, h14, h15, h16, h17⟩ := h
  constructor <;> grind [Arbiter.held]

theorem steady_enterHold (s : State) : Steady s s.enterHold := by
  rw [enterHold_eq]
  split
  · exact Steady.refl s
  rename_i hp
  have hb : ∀ ch, s.present ch = true := fun ch => by
    cases ch
    · rfl
    · simpa using hp
  have c := holdBegun_calm s
  have pre : ∀ ch, s.holdBegun.present ch = true := fun ch => (c.present ch).trans (hb ch)
  refine Steady.trans ⟨?_, fun h => ?_⟩ (steady_wakeBy _ _)
  · have h1 : Fixed s s.holdBegun := Fixed.trans (t := { s with arb := s.arb.held s.firstTurn }) ⟨rfl, rfl, rfl⟩ c.fixed
    have h2 : Fixed s (s.holdBegun.resetWaiting s.firstTurn.other) := by
      unfold State.resetWaiting
      split
      · exact h1.trans (fixed_beginReset _ _ _)
      · exact h1
    split
    · exact h2
    · exact h2.trans (fixed_beginReset _ _ _)
  · have ha : s.holdBegun.arb = s.arb.held s.firstTurn := c.arb
    have hr : ∀ ch, (s.holdBegun.role ch).rule = (s.role ch).rule := c.role
    have hst : ∀ ch, (s.holdBegun.role ch).st = (s.role ch).st := c.st
    have rules : ∀ ch, (s.role ch).st = .isolated ∨ (s.role ch).st = .off → s.holdBegun.Rules ch := fun ch ho => by
      have hc := h.rules ch
      unfold State.Rules at hc ⊢
      rw [hb] at hc
      rw [pre, ha]
      exact (hc.held_out ho).congr (hr ch)
    -- the waiting channel is out of service after its reset, or was so before
    have hw : (s.holdBegun.resetWaiting s.firstTurn.other).Rules s.firstTurn.other ∧
        ((s.holdBegun.resetWaiting s.firstTurn.other).role s.firstTurn).rule = (s.role s.firstTurn).rule ∧
        (s.holdBegun.resetWaiting s.firstTurn.other).present s.firstTurn = true := by
      unfold State.resetWaiting
      split
      · refine ⟨rules_beginReset_self _ (.inl (pre _)) ?_ ?_, ?_, ?_⟩
        · rw [ha]; exact .inl rfl
        · rw [ha]; exact .inl rfl
        · have := beginReset_role_other s.holdBegun s.firstTurn.other .hold
          rw [Ch.other_other] at this
          exact this.trans (hr _)
        · rw [present_of_unit (fixed_beginReset _ _ _).unit, pre]
      · rename_i hn
        refine ⟨rules _ ?_, hr _, pre _⟩
        rw [pre, hst] at hn
        grind
    obtain ⟨hw, hf, hq⟩ := hw
    have hfs : ((s.holdBegun.resetWaiting s.firstTurn.other).role s.firstTurn).st = (s.role s.firstTurn).st := congrArg Prod.fst hf
    split
    · rename_i hi
      rw [hfs, beq_iff_eq] at hi
      have out := firstTurn_isolated hi
      have e : s.holdBegun.resetWaiting s.firstTurn.other = s.holdBegun := by
        unfold State.resetWaiting
        rw [hst, out]
        simp
      rw [e]
      exact (leaseInv_iff _).2 fun ch => rules ch (.inl (out ch))
    · exact leaseInv_beginReset .hold (.inl hq) hw

end Sys2Proof.Machine
end

section
namespace Sys2Proof.Machine

/-! ## Declarations -/

theorem fixed_openWindow (s : State) (first new : Ch) (cause : DeclCause) : Fixed s (s.openWindow first new cause) := ⟨rfl, rfl, rfl⟩

/-- A recovery window between present channels keeps the rules (R508). -/
theorem leaseInv_openWindow {s : State} {first new : Ch} {cause : DeclCause} (h : LeaseInv s) (hf : s.present first = true)
    (hn : s.present new = true) : LeaseInv (s.openWindow first new cause) := by
  rw [leaseInv_iff] at h ⊢
  intro ch
  obtain ⟨h1, h2, h3, h4, h5, h6, h7, h8, h9, h10, h11, h12, h13, h14, h15, h16, h17⟩ := h ch
  change RoleRules (s.present ch) { s.arb with window := _, stable := _ } (s.role ch) ch
  constructor <;> grind

theorem fixed_endDrainNow (s : State) (o : Ch) : Fixed s (s.endDrainNow o) := by
  unfold State.endDrainNow
  extract_lets s1 _ _ s2
  have h1 : Calm s s1 := Calm.ite (calm_onChan ..) (Calm.refl s)
  exact (h1.fixed.trans (t := s1) (Fixed.trans (t := s2) ⟨rfl, rfl, rfl⟩ (fixed_modRole s2 o _)))

/-- The early end of a drain leaves its channel in STANDBY (R509, R520). -/
theorem endDrainNow_view (s : State) (o : Ch) :
    (s.endDrainNow o).arb = { s.arb with drainer := none } ∧
    ((s.endDrainNow o).role o).rule = (.standby, (s.role o).fence, (s.role o).stage) ∧
    ((s.endDrainNow o).role o.other).rule = (s.role o.other).rule := by
  unfold State.endDrainNow
  extract_lets s1 _ _ s2
  have h1 : Calm s s1 := Calm.ite (calm_onChan ..) (Calm.refl s)
  have e : ∀ ch, s2.role ch = s1.role ch := fun ch => by cases ch <;> rfl
  refine ⟨?_, ?_, ?_⟩
  · rw [State.modRole_arb]
    exact congrArg (fun a : Arbiter => { a with drainer := none }) h1.arb
  · rw [State.modRole_role, e]
    exact congrArg₂ (fun f n => (ChState.standby, f, n)) (h1.fence o) (h1.stage o)
  · rw [State.modRole_role_other, e]
    exact h1.role o.other

/-- A channel whose drain permission ends in STANDBY keeps the rules (R517). -/
theorem leaseInv_drained {s t : State} {o : Ch} (h : LeaseInv s) (hd : s.arb.drainer = some o) (hu : t.unit = s.unit)
    (ha : t.arb = { s.arb with drainer := none }) (hr : (t.role o).rule = (.standby, (s.role o).fence, (s.role o).stage))
    (ho : (t.role o.other).rule = (s.role o.other).rule) : LeaseInv t := by
  have hu := fun ch => present_of_unit hu ch
  have hne := Ch.other_ne o
  refine leaseInv_of_pair o ?_ ?_
  · obtain ⟨h1, h2, h3, h4, h5, h6, h7, h8, h9, h10, h11, h12, h13, h14, h15, h16, h17⟩ := h.rules o
    unfold State.Rules
    rw [hu, ha]
    refine RoleRules.congr (r := { s.role o with st := .standby }) ?_ hr
    constructor <;> grind [ChState.holdsWrites]
  · obtain ⟨h1, h2, h3, h4, h5, h6, h7, h8, h9, h10, h11, h12, h13, h14, h15, h16, h17⟩ := h.rules o.other
    unfold State.Rules
    rw [hu, ha]
    refine RoleRules.congr ?_ ho
    constructor <;> grind

theorem leaseInv_endDrainNow {s : State} {o : Ch} (h : LeaseInv s) (hd : s.arb.drainer = some o) : LeaseInv (s.endDrainNow o) := by
  obtain ⟨ha, hr, ho⟩ := endDrainNow_view s o
  exact leaseInv_drained h hd (fixed_endDrainNow s o).unit ha hr ho

/-- The arbiter after a channel in its charge has failed: no lease, no grant, no hold, no return. -/
structure Vacant (s : State) : Prop where
  holder : s.arb.holder = none
  grant : s.arb.pending = none
  hold : s.arb.hold = none
  back : s.arb.back = none

/-- A fit channel is a present one in STANDBY (R490). -/
theorem fit_standby {s : State} {ch : Ch} (h : s.fit ch = true) : s.present ch = true ∧ (s.role ch).st = .standby := by
  simp only [State.fit, Bool.and_eq_true, beq_iff_eq] at h
  exact ⟨h.1.1.1.1, h.1.1.1.2⟩

/-- What a move of the lease to channel `o` does once the grant has been asked for (R508, R510). -/
def State.afterMove (s : State) (c o : Ch) (cause : DeclCause) (rc : ResetCause) : State :=
  let s := { s with arb := { s.arb with suspended := true } }
  let s := if cause == .heartbeat then s.modRole c fun r => { r with deferred := true } else s.beginReset c rc
  s.openWindow c o cause

theorem steady_suspended (s : State) (b : Bool) : Steady s { s with arb := { s.arb with suspended := b } } :=
  ⟨⟨rfl, rfl, rfl⟩, id⟩

theorem fixed_afterMove (s : State) (c o : Ch) (cause : DeclCause) (rc : ResetCause) : Fixed s (s.afterMove c o cause rc) := by
  unfold State.afterMove
  extract_lets _ s1 s2
  have h2 : Fixed s1 s2 := by
    show Fixed s1 (ite _ _ _)
    split
    · exact fixed_modRole s1 c _
    · exact fixed_beginReset s1 c rc
  exact Fixed.trans (t := s1) ⟨rfl, rfl, rfl⟩ (h2.trans (fixed_openWindow s2 c o cause))

theorem leaseInv_afterMove {s : State} {c o : Ch} {cause : DeclCause} {rc : ResetCause} (h : LeaseInv s) (hc : s.present c = true)
    (ho : s.present o = true) : LeaseInv (s.afterMove c o cause rc) := by
  unfold State.afterMove
  extract_lets _ s1 s2
  have h2 : Steady s1 s2 := Steady.ite (calm_modRole s1 c (f := fun r => { r with deferred := true }) fun _ => rfl).steady (steady_beginReset s1 c rc)
  have hs : Steady s s2 := (steady_suspended s true).trans h2
  exact leaseInv_openWindow (hs.inv h) ((present_of_unit hs.unit c).trans hc) ((present_of_unit hs.unit o).trans ho)

theorem decideMove_eq (s : State) (c o : Ch) (cause : DeclCause) (rc : ResetCause) :
    s.decideMove c o cause rc =
      (let g : Grant := ⟨o, c, cause, true, true, false, s.sbTime⟩
       if s.arb.drainer == some o && s.healthy o then ((s.endDrainNow o).grant { g with cause := .drillFault }).afterMove c o cause rc
       else if s.fit o then (s.grant g).afterMove c o cause rc
       else (s.beginReset c rc).enterHold) := rfl

theorem fixed_decideMove (s : State) (c o : Ch) (cause : DeclCause) (rc : ResetCause) : Fixed s (s.decideMove c o cause rc) := by
  rw [decideMove_eq]
  extract_lets g
  split
  · exact ((fixed_endDrainNow s o).trans (fixed_grant _ _)).trans (fixed_afterMove _ c o cause rc)
  · split
    · exact (fixed_grant s g).trans (fixed_afterMove _ c o cause rc)
    · exact (fixed_beginReset s c rc).trans (steady_enterHold _).toFixed

theorem leaseInv_decideMove {s : State} {c o : Ch} {cause : DeclCause} {rc : ResetCause} (h : LeaseInv s) (hv : Vacant s)
    (hok : s.arb.ok = true) (hc : s.present c = true) : LeaseInv (s.decideMove c o cause rc) := by
  obtain ⟨v1, v2, v3, v4⟩ := hv
  obtain ⟨h1, h2, h3, h4, h5, h6, h7, h8, h9, h10, h11, h12, h13, h14, h15, h16, h17⟩ := h.rules o
  rw [decideMove_eq]
  extract_lets g
  split
  · rename_i hd
    have hd : s.arb.drainer = some o := by simpa using (Bool.and_eq_true_iff.1 hd).1
    obtain ⟨ea, er, -⟩ := endDrainNow_view s o
    have hp : s.present o = true := by grind
    have hf : (s.role o).fence = false := by grind [ChState.holdsWrites]
    have hu := fun ch => present_of_unit (fixed_endDrainNow s o).unit ch
    have hg : Grantable (s.endDrainNow o) o := by
      refine ⟨(hu o).trans hp, (congrArg (fun x => x.2.1) er).trans hf, ?_, ?_, ?_, ?_⟩ <;> rw [ea]
      · exact v1
      · simp
      · exact v3
      · exact v4
    have hi := leaseInv_grant (g := { g with cause := .drillFault }) (leaseInv_endDrainNow h hd) hg (by rw [ea]; exact hok)
    have hx := fun ch => present_of_unit ((fixed_endDrainNow s o).trans (fixed_grant _ { g with cause := .drillFault })).unit ch
    exact leaseInv_afterMove hi ((hx c).trans hc) ((hx o).trans hp)
  · split
    · rename_i hfit
      obtain ⟨hp, hs⟩ := fit_standby hfit
      have hg : Grantable s o := ⟨hp, by grind [ChState.holdsWrites], v1, by grind, v3, v4⟩
      have hx := fun ch => present_of_unit (fixed_grant s g).unit ch
      exact leaseInv_afterMove (leaseInv_grant h hg hok) ((hx c).trans hc) ((hx o).trans hp)
    · exact (steady_enterHold _).inv ((steady_beginReset s c rc).inv h)

theorem fixed_reinstate (s : State) (f declared : Ch) : Fixed s (s.reinstate f declared) := by
  constructor <;> simp [State.reinstate]

/-- A channel that returns from FAILED while no channel holds a role keeps the rules (R511). -/
theorem leaseInv_reinstate {s : State} {f declared : Ch} (h : LeaseInv s) (hv : Vacant s) (hd : s.arb.drainer = none)
    (hf : (s.role f).st = .failed) : LeaseInv (s.reinstate f declared) := by
  obtain ⟨v1, v2, v3, v4⟩ := hv
  have hne := Ch.other_ne f
  have hu := fun ch => present_of_unit (fixed_reinstate s f declared).unit ch
  have ha : (s.reinstate f declared).arb = { s.arb with back := some ⟨f, declared, false, s.sbTime⟩ } := by simp [State.reinstate]
  refine leaseInv_of_pair f ?_ ?_
  · obtain ⟨h1, h2, h3, h4, h5, h6, h7, h8, h9, h10, h11, h12, h13, h14, h15, h16, h17⟩ := h.rules f
    have hr : ((s.reinstate f declared).role f).rule = (.off, false, (s.role f).stage) := by cases f <;> rfl
    unfold State.Rules
    rw [hu, ha]
    refine RoleRules.congr (r := { s.role f with st := .off, fence := false }) ?_ hr
    constructor <;> grind
  · obtain ⟨h1, h2, h3, h4, h5, h6, h7, h8, h9, h10, h11, h12, h13, h14, h15, h16, h17⟩ := h.rules f.other
    have hr : ((s.reinstate f declared).role f.other).rule = (s.role f.other).rule := by cases f <;> rfl
    unfold State.Rules
    rw [hu, ha]
    refine RoleRules.congr ?_ hr
    constructor <;> grind

/-- A channel declared failed, before the arbiter decides what follows (R509): fenced, FAILED, logged, its drill ended. -/
def State.struck (s : State) (c : Ch) (cause : DeclCause) : State :=
  let s := s.fence c true
  let s := s.modRole c fun r => { r with st := .failed, stage := 14 }
  let s := s.logEvent 0 0x20 (c.num + cause.code * 2 ^ 8 + s.arb.epoch * 2 ^ 32)
  s.endDrill 5 0

/-- The failure of the new active in its recovery window (R511): the first one returns, or a hold begins. -/
def State.windowFault (s : State) (c : Ch) (w : Window) (cause : DeclCause) (rc : ResetCause) : State :=
  let s := (s.beginReset c rc).mflag 0x1300 0xA (2 ^ 5)
  if w.cause == .heartbeat && (s.role w.first).st == .failed && (s.role w.first).deferred && s.healthy w.first then
    (s.reinstate w.first c).openWindow c w.first cause
  else s.enterHold

theorem declare_eq (s : State) (c : Ch) (cause : DeclCause) :
    s.declare c cause =
      if (s.role c).st == .off || (s.role c).st == .isolated then s
      else
        let s := s.struck c cause
        let rc := if cause == .trip then ResetCause.trip else .arbiter
        if s.arb.holder != some c then
          (if s.arb.drainer == some c then { s with arb := { s.arb with drainer := none } } else s).beginReset c rc
        else
          let s := { s with arb := { s.arb with holder := none } }
          match s.arb.window with
          | some w => if w.new == c then s.windowFault c w cause rc else s.decideMove c c.other cause rc
          | none => s.decideMove c c.other cause rc := rfl

/-- What a declaration has changed before the arbiter decides. -/
structure Struck (s : State) (c : Ch) (t : State) : Prop extends Fixed s t where
  arb : ∃ d n, (d = s.arb.drill ∨ d = none) ∧ t.arb = { s.arb with drill := d, drillBase := n }
  self : (t.role c).rule = (.failed, true, 14)
  other : (t.role c.other).rule = (s.role c.other).rule

theorem struck_view (s : State) (c : Ch) (cause : DeclCause) : Struck s c (s.struck c cause) := by
  unfold State.struck
  extract_lets s1 s2 s3
  have e1 : s1.arb = s.arb := State.fence_arb s c true
  have f1 : Fixed s s1 := fixed_fence s c true
  have f2 : Fixed s s2 := f1.trans (fixed_modRole s1 c _)
  have c3 : Calm s2 s3 := calm_logEvent ..
  have d := endDrill_over s3 5 0
  obtain ⟨x, n, hx, ha⟩ := d.arb
  have e3 : s3.arb = s.arb := by rw [c3.arb, State.modRole_arb, e1]
  refine ⟨(f2.trans c3.fixed).trans d.steady.toFixed, ⟨x, n, by rw [← e3]; exact hx, by rw [ha, e3]⟩, ?_, ?_⟩
  · rw [d.role, c3.role, State.modRole_role]
    exact congrArg (fun f => (ChState.failed, f, 14)) (State.fence_fence s c true)
  · rw [d.role, c3.role, State.modRole_role_other]
    exact State.fence_role_other s c true

theorem Struck.drill {s t : State} {c ch : Ch} (k : Struck s c t) (h : s.Rules ch) :
    s.present ch = false → ∀ d, t.arb.drill = some d → d.old ≠ ch ∧ d.new ≠ ch := by
  obtain ⟨x, n, hx, ha⟩ := k.arb
  rw [ha]
  intro hp d hd
  rcases hx with rfl | rfl
  · exact h.absentDrill hp d hd
  · cases hd

theorem fixed_windowFault (s : State) (c : Ch) (w : Window) (cause : DeclCause) (rc : ResetCause) :
    Fixed s (s.windowFault c w cause rc) := by
  unfold State.windowFault
  extract_lets s1
  have h1 : Fixed s s1 := (fixed_beginReset s c rc).trans (calm_mflag ..).fixed
  split
  · exact (h1.trans (fixed_reinstate s1 _ _)).trans (fixed_openWindow _ _ _ _)
  · exact h1.trans (steady_enterHold s1).toFixed

theorem leaseInv_windowFault {s : State} {c : Ch} {w : Window} {cause : DeclCause} {rc : ResetCause} (h : LeaseInv s)
    (hv : Vacant s) (hc : s.present c = true) : LeaseInv (s.windowFault c w cause rc) := by
  unfold State.windowFault
  extract_lets s1
  have c1 : Calm (s.beginReset c rc) s1 := calm_mflag ..
  have h1 : LeaseInv s1 := c1.inv ((steady_beginReset s c rc).inv h)
  have ha : s1.arb = s.arb.dropped c := c1.arb.trans (beginReset_arb s c rc)
  have hs : (s1.role c).st = .off := (c1.st c).trans (congrArg Prod.fst (beginReset_role s c rc))
  have hu := fun ch => present_of_unit ((fixed_beginReset s c rc).trans c1.fixed).unit ch
  split
  · rename_i hf
    have hf : (s1.role w.first).st = .failed := by simp at hf; exact hf.1.1.2
    obtain ⟨v1, v2, v3, v4⟩ := hv
    have hv1 : Vacant s1 := by constructor <;> rw [ha] <;> simp [Arbiter.dropped, *]
    have r := h1.rules w.first
    have hd : s1.arb.drainer = none := by
      have d1 : s1.arb.drainer ≠ some c := by rw [ha]; simp only [Arbiter.dropped]; split <;> simp_all
      have d2 : s1.arb.drainer ≠ some w.first := fun e => by have := r.drainer e; simp [hf] at this
      have e : w.first = c.other := Ch.ne_iff_eq_other.1 fun e => by rw [e, hs] at hf; cases hf
      rw [e] at d2
      cases hx : s1.arb.drainer with
      | none => rfl
      | some x => rcases Ch.eq_or_other x c with rfl | rfl <;> simp_all
    have hp : s1.present w.first = true := by
      cases hp : s1.present w.first
      · exact absurd (r.absentOff hp) (by simp [hf])
      · rfl
    have hx := fun ch => present_of_unit (fixed_reinstate s1 w.first c).unit ch
    exact leaseInv_openWindow (leaseInv_reinstate h1 hv1 hd hf) ((hx c).trans ((hu c).trans hc)) ((hx _).trans hp)
  · exact (steady_enterHold s1).inv h1

theorem fixed_declare (s : State) (c : Ch) (cause : DeclCause) : Fixed s (s.declare c cause) := by
  rw [declare_eq]
  split
  · exact Fixed.refl s
  · extract_lets t rc _ t'
    have ht : Fixed s t := (struck_view s c cause).toFixed
    have ht' : Fixed s t' := ht.trans (u := t') ⟨rfl, rfl, rfl⟩
    have hd : Fixed s (if t.arb.drainer == some c then { t with arb := { t.arb with drainer := none } } else t) := by
      split
      · exact ht.trans ⟨rfl, rfl, rfl⟩
      · exact ht
    split
    · exact hd.trans (fixed_beginReset _ c rc)
    · split
      · split
        · exact ht'.trans (fixed_windowFault ..)
        · exact ht'.trans (fixed_decideMove ..)
      · exact ht'.trans (fixed_decideMove ..)

/-- The rules of the other channel after a declaration that finds no lease. -/
theorem Struck.rules_other {s t : State} {c : Ch} (k : Struck s c t) (h : s.Rules c.other) :
    RoleRules (s.present c.other) (if t.arb.drainer == some c then { t.arb with drainer := none } else t.arb) (t.role c.other) c.other := by
  have hd := k.drill h
  obtain ⟨x, n, hx, ha⟩ := k.arb
  have hne := Ch.other_ne c
  rw [ha] at hd ⊢
  refine RoleRules.congr ?_ k.other
  obtain ⟨h1, h2, h3, h4, h5, h6, h7, h8, h9, h10, h11, h12, h13, h14, h15, h16, h17⟩ := h
  constructor <;> grind

/-- A holder that has failed keeps the rules once its lease is gone. -/
theorem Struck.leaseInv_noHolder {s t : State} {c : Ch} (k : Struck s c t) (h : LeaseInv s) (hc : s.arb.holder = some c) :
    LeaseInv { t with arb := { t.arb with holder := none } } ∧ Vacant { t with arb := { t.arb with holder := none } } := by
  have rc := h.rules c
  have ro := h.rules c.other
  have dc := k.drill rc
  have do_ := k.drill ro
  obtain ⟨x, n, hx, ha⟩ := k.arb
  have hne := Ch.other_ne c
  obtain ⟨k1, k2, k3⟩ : (t.role c).st = .failed ∧ (t.role c).fence = true ∧ (t.role c).stage = 14 := by
    simpa [ChanRole.rule] using k.self
  have hu := fun ch => present_of_unit k.unit ch
  rw [ha] at dc do_ ⊢
  obtain ⟨h1, h2, h3, h4, h5, h6, h7, h8, h9, h10, h11, h12, h13, h14, h15, h16, h17⟩ := rc
  refine ⟨leaseInv_of_pair c ?_ ?_, ?_⟩
  · change RoleRules (t.present c) _ (t.role c) c
    rw [hu]
    constructor <;> grind [ChState.holdsWrites]
  · obtain ⟨o1, o2, o3, o4, o5, o6, o7, o8, o9, o10, o11, o12, o13, o14, o15, o16, o17⟩ := ro
    change RoleRules (t.present c.other) _ (t.role c.other) c.other
    rw [hu]
    refine RoleRules.congr ?_ k.other
    constructor <;> grind
  · constructor <;> grind

theorem leaseInv_declare {s : State} (c : Ch) (cause : DeclCause) (h : LeaseInv s) (hok : s.arb.ok = true) :
    LeaseInv (s.declare c cause) := by
  rw [declare_eq]
  split
  · exact h
  rename_i hst
  extract_lets t rc _ t'
  have k : Struck s c t := struck_view s c cause
  have hu := fun ch => present_of_unit k.unit ch
  have hp : s.present c = true := by
    cases hp : s.present c
    · exact absurd ((h.rules c).absentOff hp) (by simp at hst; exact hst.1)
    · rfl
  split
  · refine leaseInv_beginReset rc (.inl ?_) ?_
    · split
      · exact (hu c).trans hp
      · exact (hu c).trans hp
    · have r := k.rules_other (h.rules c.other)
      rw [← hu] at r
      split
      · rename_i hd
        rw [if_pos hd] at r
        exact r
      · rename_i hd
        rw [if_neg hd] at r
        exact r
  · rename_i hh
    obtain ⟨x, n, hx, ha⟩ := k.arb
    have hc : s.arb.holder = some c := by rw [ha] at hh; simpa using hh
    obtain ⟨hi, hv⟩ := k.leaseInv_noHolder h hc
    have hok' : t'.arb.ok = true := k.ok.trans hok
    have hp' : t'.present c = true := (hu c).trans hp
    split
    · split
      · exact leaseInv_windowFault hi hv hp'
      · exact leaseInv_decideMove hi hv hok' hp'
    · exact leaseInv_decideMove hi hv hok' hp'

end Sys2Proof.Machine
end

section
namespace Sys2Proof.Machine

theorem Steady.iteCalm {c : Prop} [Decidable c] {s t : State} (ht : Steady s t) : Steady s (if c then t else s) :=
  Steady.ite ht (Steady.refl s)

theorem Lawful.ite {c : Prop} [Decidable c] {s t u : State} (ht : Lawful s t) (hu : Lawful s u) : Lawful s (if c then t else u) := by
  split
  · exact ht
  · exact hu

/-- Folding an operation that is steady while the arbiter runs. -/
theorem Steady.foldl_ok {α : Type} {f : State → α → State} (hf : ∀ s a, s.arb.ok = true → Steady s (f s a)) (l : List α) {s : State}
    (h : s.arb.ok = true) : Steady s (l.foldl f s) := by
  induction l generalizing s with
  | nil => exact Steady.refl s
  | cons x l ih => exact (hf s x h).trans (ih ((hf s x h).ok.trans h))

/-! ## The relay -/

theorem calm_relay (s : State) (r : Relay) : Calm s { s with relay := r } := ⟨rfl, rfl, rfl, rfl, rfl⟩

theorem calm_stale (s : State) (ch : Ch) (b : Bool) : Calm s (s.modRole ch fun r => { r with stale := b }) := calm_modRole s ch fun _ => rfl

theorem calm_startResync (s : State) (r : Ch) : Calm s (s.startResync r) := by
  unfold State.startResync
  exact ((calm_onChan s r _).trans (calm_minc ..)).trans (calm_relay _ _)

theorem calm_crossCheck (s : State) (i : Nat) : Calm s (s.crossCheck i) := (beside_crossCheck s i).calm

theorem calm_applyTo (s : State) (r : Ch) (d : Delta) : Calm s (s.applyTo r d) := by
  have h : Calm s ((s.minc 0x1310 0xA).onChan r fun cx c => c.applyDelta cx d) := (calm_minc ..).trans (calm_onChan ..)
  unfold State.applyTo
  dsimp only
  split
  · exact h.trans (calm_crossCheck _ _)
  · exact h

theorem calm_applyOne (s : State) : Calm s s.applyOne := by
  unfold State.applyOne
  split
  · split
    · exact Calm.refl s
    · exact (calm_relay s _).trans (calm_applyTo _ _ _)
  · exact Calm.refl s

theorem calm_applyHeld (n : Nat) (r : Ch) (s : State) : Calm s (State.applyHeld n r s) := by
  induction n generalizing s with
  | zero => exact Calm.refl s
  | succ n ih =>
    unfold State.applyHeld
    split
    · exact Calm.refl s
    · split
      · exact Calm.refl s
      · exact ((calm_relay s _).trans (calm_applyTo _ _ _)).trans (ih _)

theorem calm_relayLost (s : State) : Calm s s.relayLost := by
  unfold State.relayLost
  extract_lets cut s1 s2
  have h1 : Calm s s1 := calm_relay s _
  have h2 : Calm s s2 := by
    dsimp only [s2, cut]
    split
    · exact Calm.ite (h1.trans (calm_onChan ..)) h1
    · exact h1
  exact h2.trans (Calm.foldl (fun s ch => Calm.ite (calm_stale s ch true) (Calm.refl s)) _ _)

theorem calm_resyncCommand (s : State) : Calm s s.resyncCommand.2 := by
  unfold State.resyncCommand
  split
  · exact Calm.refl s
  · split
    · exact Calm.refl s
    · exact calm_startResync s _

theorem calm_autoResync (s : State) : Calm s s.autoResync := by
  unfold State.autoResync
  extract_lets _ s1
  have h1 : Calm s s1 := calm_relay s _
  split
  · exact h1
  · exact Calm.ite h1 (h1.trans (calm_startResync _ _))

/-! ## Heartbeats, slots, leases, fences -/

theorem steady_declare {s : State} (c : Ch) (cause : DeclCause) (hok : s.arb.ok = true) : Steady s (s.declare c cause) :=
  ⟨fixed_declare s c cause, fun h => leaseInv_declare c cause h hok⟩

theorem calm_orphanUnfit (s : State) (ch : Ch) : Calm s (s.orphanUnfit ch) := by
  unfold State.orphanUnfit
  dsimp only
  split
  · exact Calm.refl s
  · exact (calm_modRole s ch (f := fun r => { r with silent := true }) fun _ => rfl).onChan _ _

theorem steady_heartbeat (s : State) (ch : Ch) : Steady s (s.heartbeat ch) := by
  unfold State.heartbeat
  extract_lets w th score good low s1 s2 r holder s3
  have h2 : Calm s s2 := Calm.trans (t := s1) (calm_modRole s ch fun _ => rfl) (calm_mput ..)
  have h3 : Calm s s3 := Calm.ite (h2.trans (calm_mflag ..)) h2
  split
  · exact (h2.trans (calm_orphanUnfit _ _)).steady
  · rename_i hok
    have hd : ∀ cause, Steady s (s2.declare ch cause) := fun cause => h2.steady.trans (steady_declare ch cause (by simpa using hok))
    split
    · exact h2.steady
    · split
      · exact hd _
      · split
        · exact hd _
        · exact Steady.ite (h3.steady.trans ⟨⟨rfl, rfl, rfl⟩, id⟩) h3.steady

theorem steady_slotOf {s : State} (ch : Ch) (hok : s.arb.ok = true) : Steady s (s.slotOf ch) := by
  unfold State.slotOf
  extract_lets r s1
  have h1 : Calm s s1 := (calm_setRole s ch (r := { r with misses := r.misses + 1, goodRun := 0 }) rfl).minc _ _
  split
  · exact (calm_setRole s ch (r := { r with hbSeen := false }) rfl).steady
  · split
    · exact (calm_setRole s ch (r := { r with goodRun := 0 }) rfl).steady
    · exact Steady.ite (h1.steady.trans (steady_declare _ _ (by rw [h1.arb, hok]))) h1.steady

theorem calm_modeTick (s : State) : Calm s s.modeTick := by
  unfold State.modeTick
  split
  · exact Calm.refl s
  · exact Calm.ite (calm_minc ..) (Calm.ite (calm_minc ..) (Calm.ite (calm_minc ..) (Calm.refl s)))

theorem calm_lacpTick (s : State) : Calm s s.lacpTick := by
  unfold State.lacpTick
  exact Calm.ite (Calm.refl s) (calm_eachChan s _)

/-- The waiting grant of a running arbiter may be made (R495). -/
theorem grantable_pending {s : State} {g : Grant} (h : LeaseInv s) (hg : s.arb.pending = some g) : Grantable s g.dest := by
  obtain ⟨h1, h2, h3, h4, h5, h6, h7, h8, h9, h10, h11, h12, h13, h14, h15, h16, h17⟩ := h.rules g.dest
  have ho : ∀ ch, s.arb.holder ≠ some ch := fun ch e => by
    have r := h.rules ch
    have := (r.holder e).1
    rcases r.waits with w | w
    · simp [hg] at w
    · exact w.1 this
  refine ⟨?_, ?_, ?_, ?_, ?_, ?_⟩
  · cases hp : s.present g.dest
    · exact absurd rfl (h14 hp g hg)
    · rfl
  · cases hf : (s.role g.dest).fence
    · rfl
    · exact absurd rfl (h5 hf g hg)
  · cases hx : s.arb.holder with
    | none => rfl
    | some ch => exact absurd hx (ho ch)
  · grind
  · grind
  · grind

/-- The end of a return keeps the rules. -/
theorem leaseInv_noBack {s : State} (h : LeaseInv s) : LeaseInv { s with arb := { s.arb with back := none } } := by
  rw [leaseInv_iff] at h ⊢
  intro ch
  obtain ⟨h1, h2, h3, h4, h5, h6, h7, h8, h9, h10, h11, h12, h13, h14, h15, h16, h17⟩ := h ch
  change RoleRules (s.present ch) { s.arb with back := none } (s.role ch) ch
  constructor <;> grind

/-- The channel that returns may take the lease (R511). -/
theorem grantable_back {s : State} {b : Comeback} (h : LeaseInv s) (hb : s.arb.back = some b) :
    Grantable { s with arb := { s.arb with back := none } } b.chan := by
  obtain ⟨h1, h2, h3, h4, h5, h6, h7, h8, h9, h10, h11, h12, h13, h14, h15, h16, h17⟩ := h.rules b.chan
  have hp : s.present b.chan = true := by
    cases hp : s.present b.chan
    · exact absurd rfl (h15 hp b hb)
    · rfl
  obtain ⟨a1, a2, a3, a4⟩ := h11.resolve_left (by simp [hb])
  exact ⟨hp, (h10 b hb rfl).1, a1, by simp [a4], a2, rfl⟩

/-- The held deltas are applied as far as they can be (R498, R511). -/
def State.applyAllHeld (s : State) (ch : Ch) : State := State.applyHeld s.relay.hold.length ch s

/-- The channel that returns passes from OFF to STARTING (R511). -/
def State.backStarts (s : State) (b : Comeback) : State :=
  { s.modRole b.chan fun r => { r with st := .starting, stage := 9, waitArb := true } with
    arb := { s.arb with back := some { b with starting := true } } }

/-- The channel that returns is granted the lease, once no delta is held (R499, R511). -/
def State.backGrant (s : State) (b : Comeback) : State :=
  if s.relay.hold.isEmpty then
    ({ s with arb := { s.arb with back := none } }).grant ⟨b.chan, b.declared, .reinstatement, true, true, false, b.since⟩
  else s

theorem comeBack_some {s : State} {b : Comeback} (hb : s.arb.back = some b) :
    s.comeBack = if b.starting then (s.applyAllHeld b.chan).backGrant b else (s.backStarts b).applyAllHeld b.chan := by
  unfold State.comeBack
  rw [hb]
  rfl

theorem fixed_backStarts (s : State) (b : Comeback) : Fixed s (s.backStarts b) := by
  obtain ⟨ch, d, g, n⟩ := b
  cases ch <;> exact ⟨rfl, rfl, rfl⟩

theorem leaseInv_backStarts {s : State} {b : Comeback} (h : LeaseInv s) (hb : s.arb.back = some b) : LeaseInv (s.backStarts b) := by
  have hu := fun ch => present_of_unit (fixed_backStarts s b).unit ch
  have ha : (s.backStarts b).arb = { s.arb with back := some { b with starting := true } } := rfl
  refine leaseInv_of_pair b.chan ?_ ?_
  · obtain ⟨h1, h2, h3, h4, h5, h6, h7, h8, h9, h10, h11, h12, h13, h14, h15, h16, h17⟩ := h.rules b.chan
    have hr : ((s.backStarts b).role b.chan).rule = (.starting, (s.role b.chan).fence, 9) := by
      unfold State.backStarts
      cases b.chan <;> rfl
    unfold State.Rules
    rw [hu, ha]
    refine RoleRules.congr (r := { s.role b.chan with st := .starting, stage := 9 }) ?_ hr
    constructor <;> grind
  · obtain ⟨h1, h2, h3, h4, h5, h6, h7, h8, h9, h10, h11, h12, h13, h14, h15, h16, h17⟩ := h.rules b.chan.other
    have hr : ((s.backStarts b).role b.chan.other).rule = (s.role b.chan.other).rule := by
      unfold State.backStarts
      cases b.chan <;> rfl
    unfold State.Rules
    rw [hu, ha]
    refine RoleRules.congr ?_ hr
    constructor <;> grind

theorem steady_backGrant {s : State} {b : Comeback} (hb : s.arb.back = some b) (hok : s.arb.ok = true) : Steady s (s.backGrant b) := by
  unfold State.backGrant
  refine Steady.ite ⟨Fixed.trans (t := { s with arb := { s.arb with back := none } }) ⟨rfl, rfl, rfl⟩ (fixed_grant _ _), fun h => ?_⟩
    (Steady.refl s)
  exact leaseInv_grant (leaseInv_noBack h) (grantable_back h hb) hok

/-- A reinstatement takes its steps within the rules (R511). -/
theorem steady_comeBack {s : State} (hok : s.arb.ok = true) : Steady s s.comeBack := by
  cases hb : s.arb.back with
  | none =>
    unfold State.comeBack
    rw [hb]
    exact Steady.refl s
  | some b =>
    rw [comeBack_some hb]
    have hc : ∀ u : State, Calm u (u.applyAllHeld b.chan) := fun u => calm_applyHeld _ _ u
    refine Steady.ite ((hc s).steady.trans (steady_backGrant ?_ ?_)) (Steady.trans ⟨fixed_backStarts s b, fun h => ?_⟩ (hc _).steady)
    · rw [(hc s).arb, hb]
    · rw [(hc s).arb, hok]
    · exact leaseInv_backStarts h hb

/-- A slot of the arbiter (R487). -/
theorem steady_slot (s : State) : Steady s s.slot := by
  unfold State.slot
  extract_lets s1 s2
  have h1 : Calm s s1 := 
    (Calm.trans (s := s) (t := { s with sbTime := s.sbTime + 1 }) ⟨rfl, rfl, rfl, rfl, rfl⟩ (calm_lacpTick _)).trans (calm_modeTick _)
  split
  · exact h1.steady
  rename_i hok
  have hok1 : s1.arb.ok = true := by simpa using hok
  have hb : Steady s1 s1.comeBack := steady_comeBack hok1
  have h2 : Steady s s2 := h1.steady.trans (hb.trans (Steady.foldl_ok (fun s ch h => steady_slotOf ch h) _ (hb.ok.trans hok1)))
  split
  · rename_i g hg
    exact Steady.ite (h2.trans ⟨fixed_grantNow s2 g, fun h => leaseInv_grantNow h (grantable_pending h hg)⟩) h2
  · exact h2

theorem steady_selfDeclare (s : State) (ch : Ch) (f : Bool) : Steady s (s.selfDeclare ch f) := by
  unfold State.selfDeclare
  extract_lets c _ s1 w
  have h1 : Calm s s1 := Calm.ite (calm_setChan ..) (Calm.refl s)
  split
  · exact h1.steady
  · split
    · rename_i hok
      have h2 : Calm s1 ((s1.modRole ch fun r => { r with health := w }).mput 0x1300 (8 + ch.num) w) :=
        (calm_modRole s1 ch (f := fun r => { r with health := w }) fun _ => rfl).mput _ _ _
      exact (h1.trans h2).steady.trans (steady_declare ch .unfit (by rw [h2.arb]; exact hok))
    · exact (h1.trans (calm_orphanUnfit s1 ch)).steady

theorem steady_leaseLapse (s : State) : Steady s s.leaseLapse := by
  unfold State.leaseLapse
  split
  · exact Steady.refl s
  · split
    · rename_i hok
      exact steady_declare _ _ hok
    · exact ((calm_modRole s _ (f := fun r => { r with orphan := true }) fun _ => rfl).trans (calm_orphanUnfit _ _)).steady.iteCalm

theorem steady_fenceConfirm (s : State) (ch : Ch) : Steady s (s.fenceConfirm ch) := by
  unfold State.fenceConfirm
  extract_lets r s1
  have h1 : Calm s s1 := calm_setRole s ch rfl
  split
  · exact Steady.refl s
  · split
    · rename_i g hg
      exact Steady.ite (h1.steady.trans ⟨fixed_grantNow s1 g, fun h => leaseInv_grantNow h (grantable_pending h hg)⟩) h1.steady
    · exact h1.steady

/-- Marking the waiting grant as faulted keeps the rules. -/
theorem steady_faulted {s : State} {g : Grant} (hg : s.arb.pending = some g) (b : Bool) :
    Steady s { s with arb := { s.arb with pending := some { g with faulted := b } } } := by
  refine ⟨⟨rfl, rfl, rfl⟩, fun h => (leaseInv_iff _).2 fun ch => ?_⟩
  obtain ⟨h1, h2, h3, h4, h5, h6, h7, h8, h9, h10, h11, h12, h13, h14, h15, h16, h17⟩ := h.rules ch
  change RoleRules (s.present ch) { s.arb with pending := _ } (s.role ch) ch
  constructor <;> grind

theorem steady_fenceFault (s : State) (ch : Ch) : Steady s (s.fenceFault ch) := by
  unfold State.fenceFault
  extract_lets r s1
  have h1 : Calm s s1 := (calm_setRole s ch (r := { r with fenceLate := true }) rfl).mflag _ _ _
  split
  · exact Steady.refl s
  · split
    · rename_i g hg
      exact Steady.ite (h1.steady.trans (steady_faulted hg true)) h1.steady
    · exact h1.steady

theorem steady_beginDeferred (s : State) : Steady s s.beginDeferred :=
  Steady.foldl (fun s ch => Steady.ite (steady_beginReset s ch .arbiter) (Steady.refl s)) _ s

theorem steady_noWindow (s : State) (b : Bool) : Steady s { s with arb := { s.arb with window := none, stable := b } } := by
  refine ⟨⟨rfl, rfl, rfl⟩, fun h => (leaseInv_iff _).2 fun ch => ?_⟩
  obtain ⟨h1, h2, h3, h4, h5, h6, h7, h8, h9, h10, h11, h12, h13, h14, h15, h16, h17⟩ := h.rules ch
  exact ⟨h1, h2, h3, h4, h5, h6, h7, h8, h9, h10, h11, h12, h13, h14, h15, (fun _ _ e => nomatch e), h17⟩

theorem steady_windowEnd (s : State) : Steady s s.windowEnd := by
  unfold State.windowEnd
  split
  · exact Steady.refl s
  · have h1 := steady_noWindow s
    exact Steady.ite ((h1 _).trans (steady_beginDeferred _)) (h1 _)

end Sys2Proof.Machine
end

section
namespace Sys2Proof.Machine

/-! ## The arbiter lost and back -/

theorem lawful_loseArbiter (s : State) : Lawful s s.loseArbiter := by
  unfold State.loseArbiter
  split
  · exact Lawful.refl s
  · refine Lawful.trans (t := { s with arb := { s.arb with ok := false } }) ⟨rfl, rfl, fun h => ?_⟩ ((calm_mflag ..).logEvent _ _ _).lawful
    refine (leaseInv_iff _).2 fun ch => ?_
    obtain ⟨h1, h2, h3, h4, h5, h6, h7, h8, h9, h10, h11, h12, h13, h14, h15, h16, h17⟩ := h.rules ch
    exact ⟨h1, h2, h3, h4, h5, h6, h7, h8, h9, h10, h11, h12, h13, h14, h15, h16, h17⟩

/-- While a hold lasts the arbiter has given nothing to anyone (R512). -/
theorem LeaseInv.hold_alone {s : State} {r : Ch} (h : LeaseInv s) (hr : s.arb.hold = some r) :
    s.arb.holder = none ∧ s.arb.drainer = none ∧ s.arb.pending = none ∧ s.arb.back = none := by
  have w : ∀ ch, (s.role ch).st ≠ .active ∧ (s.role ch).st ≠ .draining := fun ch => by
    have := (h.rules ch).waits
    grind
  have ho : ∀ ch, s.arb.holder ≠ some ch := fun ch e => (w ch).1 ((h.rules ch).holder e).1
  have hd : ∀ ch, s.arb.drainer ≠ some ch := fun ch e => by
    rcases (h.rules ch).drainer e with x | x
    · exact (w ch).1 x
    · exact (w ch).2 x
  have h1 := (h.rules r).oneWait
  have h2 := (h.rules r).backAlone
  refine ⟨?_, ?_, ?_, ?_⟩
  · exact Option.eq_none_iff_forall_ne_some.2 ho
  · exact Option.eq_none_iff_forall_ne_some.2 hd
  · grind
  · grind

theorem leaseInv_noHold {s : State} (h : LeaseInv s) : LeaseInv { s with arb := { s.arb with hold := none } } := by
  refine (leaseInv_iff _).2 fun ch => ?_
  obtain ⟨h1, h2, h3, h4, h5, h6, h7, h8, h9, h10, h11, h12, h13, h14, h15, h16, h17⟩ := h.rules ch
  change RoleRules (s.present ch) { s.arb with hold := none } (s.role ch) ch
  constructor <;> grind

theorem calm_restarts (s : State) (ch : Ch) : Calm s (s.modRole ch fun r => { r with restarts := 0 }) :=
  calm_modRole s ch (f := fun r => { r with restarts := 0 }) fun _ => rfl

theorem fixed_endHold (s : State) (ch : Ch) : Fixed s (s.endHold ch) := by
  unfold State.endHold
  extract_lets _ s1 s2 w
  have h2 : Fixed s s2 := Fixed.trans (t := s1) ⟨rfl, rfl, rfl⟩ ((calm_restarts s1 ch).fixed.trans (fixed_grant _ _))
  split
  · exact h2.trans (fixed_beginReset _ _ _)
  · exact h2

/-- A hold ends within the rules when its channel is present and not fenced (R512). -/
theorem steady_endHold {s : State} {r ch : Ch} (hr : s.arb.hold = some r) (hok : s.arb.ok = true) (hp : s.present ch = true)
    (hf : (s.role ch).fence = false) : Steady s (s.endHold ch) := by
  unfold State.endHold
  extract_lets _ s1 s2 w
  have c : Calm s1 (s1.modRole ch fun r => { r with restarts := 0 }) := calm_restarts s1 ch
  have h2 : Steady s s2 := by
    refine ⟨Fixed.trans (t := s1) ⟨rfl, rfl, rfl⟩ (c.fixed.trans (fixed_grant _ _)), fun h => ?_⟩
    obtain ⟨a1, a2, -, a4⟩ := h.hold_alone hr
    refine leaseInv_grant (c.inv (leaseInv_noHold h)) (c.grantable ⟨hp, hf, a1, ?_, rfl, a4⟩) ?_
    · show s.arb.drainer ≠ some ch
      simp [a2]
    · rw [c.arb]
      exact hok
  exact Steady.ite (h2.trans (steady_beginReset _ _ _)) h2

/-- A channel that waits in stage 9 is present and not fenced (R494, R564). -/
theorem LeaseInv.waitsRole {s : State} {ch : Ch} (h : LeaseInv s) (hs : (s.role ch).st = .starting) (hn : (s.role ch).stage = 9) :
    s.present ch = true ∧ (s.role ch).fence = false ∧ s.arb.drainer ≠ some ch := by
  obtain ⟨h1, h2, h3, h4, h5, h6, h7, h8, h9, h10, h11, h12, h13, h14, h15, h16, h17⟩ := h.rules ch
  refine ⟨?_, ?_, ?_⟩ <;> grind

theorem fixed_assignRole (s : State) (ch : Ch) : Fixed s (s.assignRole ch) := by
  unfold State.assignRole
  extract_lets fresh
  have c := calm_restarts s ch
  split
  · split
    · exact fixed_endHold s ch
    · exact Fixed.refl s
  · split
    · exact fixed_completeStandby s ch
    · split
      · exact Fixed.refl s
      · exact c.fixed.trans (fixed_grant _ _)

/-- The arbiter assigns a role within the rules to a channel in stage 9 (R564). -/
theorem steady_assignRole {s : State} {ch : Ch} (hok : s.arb.ok = true) (hs : (s.role ch).st = .starting)
    (hn : (s.role ch).stage = 9) : Steady s (s.assignRole ch) := by
  refine ⟨fixed_assignRole s ch, fun h => ?_⟩
  obtain ⟨hp, hf, hd⟩ := h.waitsRole hs hn
  unfold State.assignRole
  extract_lets fresh
  split
  · rename_i r hr
    split
    · exact (steady_endHold hr hok hp hf).inv h
    · exact h
  · rename_i hh
    split
    · rename_i x hx
      have := (h.rules ch).backAlone
      exact leaseInv_completeStandby h (by grind) hs hn
    · rename_i hx
      split
      · exact h
      · rename_i hb
        have c := calm_restarts s ch
        have hb : s.arb.back = none := by
          rw [Bool.or_eq_true, not_or] at hb
          exact Option.not_isSome_iff_eq_none.1 hb.2
        exact leaseInv_grant (c.inv h) (c.grantable ⟨hp, hf, hx, hd, hh, hb⟩) (by rw [c.arb, hok])

/-! The return of a declared channel, which a declaration in a recovery window begins, stands while no channel is in service. -/

/-- No channel returns, or every channel is in OFF. -/
def BackOff (s : State) : Prop := s.arb.back = none ∨ ∀ ch, (s.role ch).st = .off

theorem leaseTo_arb (s : State) (g : Grant) : (s.leaseTo g).arb = s.arb.lease g.dest s.sbTime := by
  have hc := calm_recordGrant (s.leased g.dest) g (s.arb.nextEpoch g.dest)
  rw [leaseTo_eq, (calm_onChan _ _ _).arb]
  dsimp only
  split
  · rw [State.completeStandby, State.modRole_arb, hc.arb]
    simp [State.leased]
  · rw [hc.arb]
    simp [State.leased]

theorem grantNow_back (s : State) (g : Grant) : (s.grantNow g).arb.back = s.arb.back := by
  unfold State.grantNow
  dsimp only
  split
  · rw [leaseTo_arb]; rfl
  · rfl

theorem grant_back (s : State) (g : Grant) : (s.grant g).arb.back = s.arb.back := by
  unfold State.grant
  split
  · exact grantNow_back s g
  · rfl

theorem beginReset_back {s : State} (ch : Ch) (cause : ResetCause) (h : s.arb.back = none) :
    (s.beginReset ch cause).arb.back = none := by
  rw [beginReset_arb]
  exact filter_eq_none_of _ h

theorem afterMove_back {s : State} (c o : Ch) (cause : DeclCause) (rc : ResetCause) (h : s.arb.back = none) :
    (s.afterMove c o cause rc).arb.back = none := by
  unfold State.afterMove
  extract_lets _ s1 s2
  show s2.arb.back = none
  dsimp only [s2]
  split
  · rw [State.modRole_arb]
    exact h
  · exact beginReset_back _ _ h

theorem enterHold_back {s : State} (h : s.arb.back = none) : s.enterHold.arb.back = none := by
  rw [enterHold_eq]
  split
  · exact h
  · have h1 : s.holdBegun.arb.back = none := by rw [(holdBegun_calm s).arb]; rfl
    have h2 : (s.holdBegun.resetWaiting s.firstTurn.other).arb.back = none := by
      unfold State.resetWaiting
      split
      · exact beginReset_back _ _ h1
      · exact h1
    dsimp only
    rw [(still_wakeBy _ _).arb]
    split
    · exact h2
    · exact beginReset_back _ _ h2

theorem decideMove_back {s : State} (c o : Ch) (cause : DeclCause) (rc : ResetCause) (h : s.arb.back = none) :
    (s.decideMove c o cause rc).arb.back = none := by
  rw [decideMove_eq]
  extract_lets g
  split
  · refine afterMove_back _ _ _ _ ?_
    rw [grant_back, (endDrainNow_view s o).1]
    exact h
  · split
    · exact afterMove_back _ _ _ _ ((grant_back _ _).trans h)
    · exact enterHold_back (beginReset_back _ _ h)

theorem windowFault_backOff {s : State} (c : Ch) (w : Window) (cause : DeclCause) (rc : ResetCause) (h : s.arb.back = none) :
    BackOff (s.windowFault c w cause rc) := by
  unfold State.windowFault
  extract_lets s1
  have c1 : Calm (s.beginReset c rc) s1 := calm_mflag ..
  have hs : (s1.role c).st = .off := (c1.st c).trans (congrArg Prod.fst (beginReset_role s c rc))
  split
  · rename_i hf
    have hf : (s1.role w.first).st = .failed := by simp at hf; exact hf.1.1.2
    have e : w.first = c.other := Ch.ne_iff_eq_other.1 fun e => by rw [e, hs] at hf; cases hf
    refine .inr fun ch => ?_
    show ((s1.reinstate w.first c).role ch).st = .off
    have hr : ((s1.reinstate w.first c).role w.first).st = .off := by cases w.first <;> rfl
    have ho : ((s1.reinstate w.first c).role w.first.other).st = (s1.role w.first.other).st := by cases w.first <;> rfl
    rcases Ch.eq_or_other ch c with rfl | rfl
    · rw [e, Ch.other_other] at ho
      rw [e, ho, hs]
    · rw [← e, hr]
  · refine .inl (enterHold_back ?_)
    rw [c1.arb]
    exact beginReset_back _ _ h

theorem declare_backOff {s : State} (c : Ch) (cause : DeclCause) (h : BackOff s) : BackOff (s.declare c cause) := by
  rw [declare_eq]
  split
  · exact h
  rename_i hst
  have hb : s.arb.back = none := h.resolve_right fun hx => hst (by simp [hx])
  extract_lets t rc _ t'
  have ht : t.arb.back = none := by
    obtain ⟨x, n, -, ha⟩ := (struck_view s c cause).arb
    rw [show t.arb = _ from ha]
    exact hb
  split
  · refine .inl (beginReset_back _ _ ?_)
    split
    · exact ht
    · exact ht
  · split
    · split
      · exact windowFault_backOff c _ cause rc ht
      · exact .inl (decideMove_back c _ cause rc ht)
    · exact .inl (decideMove_back c _ cause rc ht)

/-! The steps of the arbiter's return (R497). -/

/-- The arbiter runs again and has forgotten what waited (R497). -/
def State.restartedArbiter (s : State) : State :=
  ({ s with arb := { s.arb with ok := true, pending := none, back := none } }).minc 0x1310 0xB

/-- Channels whose output tripped meanwhile are declared failed (R549). -/
def State.declareTripped (s : State) : State := s.channels.foldl (fun s ch => if s.tripped ch then s.declare ch .trip else s) s

/-- A present channel in ACTIVE. -/
def State.serves (s : State) (ch : Ch) : Bool := s.present ch && (s.role ch).st == .active

/-- The ACTIVE channel that keeps the lease, the recorded holder first (R497). -/
def State.keeper (s : State) : Option Ch :=
  match s.arb.holder with
  | some h => if s.serves h then some h else if s.serves .a then some .a else if s.serves .b then some .b else none
  | none => if s.serves .a then some .a else if s.serves .b then some .b else none

/-- The lease stays with channel `h` (R497). -/
def State.keepLease (s : State) (h : Ch) : State :=
  ({ s with arb := { s.arb with
      holder := some h, leaseAt := s.sbTime, drainer := s.arb.drainer.filter fun d => d != h } }).modRole h fun r => { r with orphan := false }

/-- A candidate takes the lease or ends the hold (R497, R512). -/
def State.giveLease (s : State) (ch : Ch) : State :=
  if s.arb.hold.isSome then s.endHold ch else s.grant ⟨ch, ch, .unfit, false, false, false, s.sbTime⟩

/-- What the restarted arbiter decides where no channel is ACTIVE (R497). -/
def State.decideReturn (s : State) (before : Option Ch) : State :=
  if s.arb.pending.isSome || s.arb.hold != before then s
  else if s.candidate .a then s.giveLease .a else if s.candidate .b then s.giveLease .b else s.enterHold

/-- Deferred resets begin once no window is open, and channels in stage 9 get their roles (R497, R508, R564). -/
def State.settleReturn (s : State) : State :=
  let s := if s.arb.window.isNone then s.beginDeferred else s
  s.channels.foldl (fun s ch => if s.waitsRole ch then s.assignRole ch else s) s

theorem returnArbiter_eq (s : State) : s.returnArbiter =
    if s.arb.ok || !s.power.sbOut then s
    else
      let t := s.restartedArbiter.declareTripped
      (match t.keeper with
        | some h => t.keepLease h
        | none => t.decideReturn s.arb.hold).settleReturn := rfl

theorem restartedArbiter_arb (s : State) :
    s.restartedArbiter.arb = { s.arb with ok := true, pending := none, back := none } := rfl

theorem lawful_restartedArbiter (s : State) : Lawful s s.restartedArbiter := by
  refine ⟨rfl, rfl, fun h => (leaseInv_iff _).2 fun ch => ?_⟩
  obtain ⟨h1, h2, h3, h4, h5, h6, h7, h8, h9, h10, h11, h12, h13, h14, h15, h16, h17⟩ := h.rules ch
  change RoleRules (s.present ch) { s.arb with ok := true, pending := none, back := none } (s.role ch) ch
  constructor <;> grind

theorem steady_declareTripped {s : State} (hok : s.arb.ok = true) : Steady s s.declareTripped :=
  Steady.foldl_ok (fun _ ch h => Steady.iteCalm (steady_declare ch .trip h)) _ hok

theorem declareTripped_backOff {s : State} (h : BackOff s) : BackOff s.declareTripped := by
  unfold State.declareTripped
  generalize s.channels = l
  induction l generalizing s with
  | nil => exact h
  | cons ch l ih =>
    refine ih ?_
    show BackOff (if s.tripped ch then s.declare ch .trip else s)
    split
    · exact declare_backOff ch .trip h
    · exact h

theorem keeper_serves {s : State} {h : Ch} (hk : s.keeper = some h) : s.present h = true ∧ (s.role h).st = .active := by
  have e : ∀ {ch}, s.serves ch = true → s.present ch = true ∧ (s.role ch).st = .active := by simp [State.serves]
  unfold State.keeper at hk
  grind

/-- The recorded holder keeps the lease, for it is ACTIVE. -/
theorem keeper_holder {s : State} {h : Ch} (hi : LeaseInv s) (hh : s.arb.holder = some h) : s.keeper = some h := by
  have r := hi.rules h
  have hp : s.present h = true := by
    cases hp : s.present h
    · exact absurd hh (r.absentArb hp).1
    · rfl
  simp [State.keeper, hh, State.serves, hp, (r.holder hh).1]

theorem fixed_keepLease (s : State) (h : Ch) : Fixed s (s.keepLease h) := by
  constructor <;> simp [State.keepLease]

theorem leaseInv_keepLease {s : State} {h : Ch} (hi : LeaseInv s) (hk : s.keeper = some h) : LeaseInv (s.keepLease h) := by
  obtain ⟨hp, hs⟩ := keeper_serves hk
  have hx : ∀ x, s.arb.holder = some x → x = h := fun x e => by rw [keeper_holder hi e] at hk; exact Option.some.inj hk
  refine Calm.inv (calm_modRole _ h (f := fun r => { r with orphan := false }) fun _ => rfl) ((leaseInv_iff _).2 fun ch => ?_)
  have rh := hi.rules h
  have hb := rh.active hs
  have hw := rh.waits
  obtain ⟨h1, h2, h3, h4, h5, h6, h7, h8, h9, h10, h11, h12, h13, h14, h15, h16, h17⟩ := hi.rules ch
  change RoleRules (s.present ch)
    { s.arb with holder := some h, leaseAt := s.sbTime, drainer := s.arb.drainer.filter fun d => d != h } (s.role ch) ch
  constructor <;> grind [filter_eq_some, filter_eq_none_of]

/-- A candidate is present, in STANDBY or in stage 9, and not fenced (R490, R564). -/
theorem LeaseInv.candidate {s : State} {ch : Ch} (h : LeaseInv s) (hc : s.candidate ch = true) :
    s.present ch = true ∧ (s.role ch).fence = false ∧ s.arb.drainer ≠ some ch ∧ (s.role ch).st ≠ .off := by
  obtain ⟨h1, h2, h3, h4, h5, h6, h7, h8, h9, h10, h11, h12, h13, h14, h15, h16, h17⟩ := h.rules ch
  simp only [State.candidate, Bool.and_eq_true, Bool.or_eq_true, beq_iff_eq] at hc
  obtain ⟨hp, hf | ⟨⟨⟨hs, hn⟩, -⟩, -⟩⟩ := hc
  · have := (fit_standby hf).2
    grind [ChState.holdsWrites]
  · grind

theorem steady_giveLease {s : State} {ch : Ch} (hc : s.candidate ch = true) (hok : s.arb.ok = true) (hb : BackOff s)
    (hn : LeaseInv s → s.arb.holder = none) : Steady s (s.giveLease ch) := by
  unfold State.giveLease
  split
  · rename_i hh
    obtain ⟨r, hr⟩ := Option.isSome_iff_exists.1 hh
    refine ⟨fixed_endHold s ch, fun h => ?_⟩
    obtain ⟨hp, hf, -, -⟩ := h.candidate hc
    exact (steady_endHold hr hok hp hf).inv h
  · rename_i hh
    refine ⟨fixed_grant s _, fun h => ?_⟩
    obtain ⟨hp, hf, hd, hs⟩ := h.candidate hc
    exact leaseInv_grant h ⟨hp, hf, hn h, hd, by simpa using hh, hb.resolve_right fun ho => hs (ho ch)⟩ hok

theorem steady_decideReturn {s : State} (before : Option Ch) (hok : s.arb.ok = true) (hb : BackOff s) (hk : s.keeper = none) :
    Steady s (s.decideReturn before) := by
  have hn : LeaseInv s → s.arb.holder = none := fun h =>
    Option.eq_none_iff_forall_ne_some.2 fun x e => by rw [keeper_holder h e] at hk; cases hk
  unfold State.decideReturn
  split
  · exact Steady.refl s
  · split
    · exact steady_giveLease (by assumption) hok hb hn
    · split
      · exact steady_giveLease (by assumption) hok hb hn
      · exact steady_enterHold s

theorem steady_settleReturn {s : State} (hok : s.arb.ok = true) : Steady s s.settleReturn := by
  unfold State.settleReturn
  extract_lets s1
  have h1 : Steady s s1 := (steady_beginDeferred s).iteCalm
  refine h1.trans (Steady.foldl_ok (fun s ch hok => ?_) _ (h1.ok.trans hok))
  split
  · rename_i hw
    obtain ⟨hs, hn, -⟩ := waitsRole_iff.1 hw
    exact steady_assignRole hok hs hn
  · exact Steady.refl s

/-- The return of the arbiter keeps the rules (R497). -/
theorem lawful_returnArbiter (s : State) : Lawful s s.returnArbiter := by
  rw [returnArbiter_eq]
  split
  · exact Lawful.refl s
  extract_lets t
  have h1 : s.restartedArbiter.arb.ok = true := rfl
  have ht : Steady s.restartedArbiter t := steady_declareTripped h1
  have hok : t.arb.ok = true := ht.ok.trans h1
  have hb : BackOff t := declareTripped_backOff (.inl rfl)
  refine (lawful_restartedArbiter s).trans (ht.trans ?_).lawful
  split
  · rename_i h hk
    have k : Steady t (t.keepLease h) := ⟨fixed_keepLease t h, fun hi => leaseInv_keepLease hi hk⟩
    exact k.trans (steady_settleReturn (k.ok.trans hok))
  · rename_i hk
    have k := steady_decideReturn s.arb.hold hok hb hk
    exact k.trans (steady_settleReturn (k.ok.trans hok))

/-! ## The turns of a hold -/

/-- The turn of a hold passes between present channels (R512). -/
theorem leaseInv_turn {s : State} {r o : Ch} (h : LeaseInv s) (hr : s.arb.hold = some r) (ho : s.present o = true) :
    LeaseInv { s with arb := { s.arb with hold := some o } } := by
  obtain ⟨a1, a2, a3, a4⟩ := h.hold_alone hr
  refine (leaseInv_iff _).2 fun ch => ?_
  obtain ⟨h1, h2, h3, h4, h5, h6, h7, h8, h9, h10, h11, h12, h13, h14, h15, h16, h17⟩ := h.rules ch
  change RoleRules (s.present ch) { s.arb with hold := some o } (s.role ch) ch
  constructor <;> grind

theorem steady_turnExpire (s : State) : Steady s s.turnExpire := by
  unfold State.turnExpire
  split
  · exact Steady.refl s
  rename_i r hr
  split
  · exact Steady.refl s
  extract_lets o s1 s2 _ s3
  have h1 : Steady s s1 := Steady.ite (Steady.refl s) (steady_beginReset _ _ _)
  have c2 : Calm s1 s2 := calm_modRole s1 r (f := fun x => { x with restartDue := false }) fun _ => rfl
  have h2 : Steady s s2 := h1.trans c2.steady
  have hh : s2.arb.hold = some r := by
    rw [c2.arb]
    show (ite _ _ _ : State).arb.hold = _
    split
    · exact hr
    · rw [beginReset_arb]
      exact hr
  have h3 : Steady s s3 := by
    refine ⟨h2.toFixed.trans (t := s2) ⟨rfl, rfl, rfl⟩, fun h => leaseInv_turn (h2.inv h) hh ?_⟩
    rw [present_of_unit h2.unit]
    show s.present (ite _ _ _) = true
    split
    · rename_i hp
      exact (Bool.and_eq_true_iff.1 hp).1
    · cases hp : s.present r
      · exact absurd hr ((h.rules r).absentArb hp).2
      · rfl
  exact Steady.ite h3 (h3.trans (steady_beginReset _ _ _))

end Sys2Proof.Machine
end

section
namespace Sys2Proof.Machine

/-! ## The course of a drill -/

/-- Both channels are present where channel B is. -/
theorem present_all {s : State} (h : s.present .b = true) (ch : Ch) : s.present ch = true := by
  cases ch
  · rfl
  · exact h

/-- A change of the drill's record keeps the rules as long as it names present channels. -/
theorem leaseInv_drill {s : State} {d : Option Drill} (h : LeaseInv s)
    (hd : ∀ ch, s.present ch = false → ∀ x, d = some x → x.old ≠ ch ∧ x.new ≠ ch) :
    LeaseInv { s with arb := { s.arb with drill := d } } := by
  refine (leaseInv_iff _).2 fun ch => ?_
  obtain ⟨h1, h2, h3, h4, h5, h6, h7, h8, h9, h10, h11, h12, h13, h14, h15, h16, -⟩ := h.rules ch
  exact ⟨h1, h2, h3, h4, h5, h6, h7, h8, h9, h10, h11, h12, h13, h14, h15, h16, hd ch⟩

/-- A drill that goes on with the same two channels. -/
theorem steady_drill {s : State} {d x : Drill} (hd : s.arb.drill = some d) (ho : x.old = d.old) (hn : x.new = d.new) :
    Steady s { s with arb := { s.arb with drill := some x } } := by
  refine ⟨⟨rfl, rfl, rfl⟩, fun h => leaseInv_drill h fun ch hp y hy => ?_⟩
  rw [← Option.some.inj hy, ho, hn]
  exact (h.rules ch).absentDrill hp d hd

theorem calm_applyMany (n : Nat) (s : State) : Calm s ((List.range n).foldl (fun s _ => s.applyOne) s) :=
  Calm.foldl (fun s _ => calm_applyOne s) _ s

theorem calm_beginItem (s : State) : Calm s s.beginItem := by
  unfold State.beginItem
  split
  · exact Calm.refl s
  · split
    · exact Calm.refl s
    · extract_lets s1 s2 order
      have h2 : Calm s s2 := (calm_onChan s _ _).trans (calm_applyMany _ s1)
      exact Calm.ite h2 ((h2.onChan _ _).onChan _ _)

/-- A drill begins where both channels are present. -/
theorem steady_newDrill {s : State} (hp : s.present .b = true) (d : Option Drill) :
    Steady s { s with arb := { s.arb with drill := d } } :=
  ⟨⟨rfl, rfl, rfl⟩, fun h => leaseInv_drill h fun ch hc => absurd (present_all hp ch) (by simp [hc])⟩

theorem steady_startDrill {s : State} (hp : s.present .b = true) : Steady s s.startDrill := by
  unfold State.startDrill
  split
  · exact Steady.refl s
  · exact (steady_newDrill hp _).trans (calm_beginItem _).steady

theorem steady_retryAt (s : State) (n : Nat) : Steady s { s with arb := { s.arb with retryAt := n } } := ⟨⟨rfl, rfl, rfl⟩, id⟩

theorem steady_skipDrill (s : State) : Steady s s.skipDrill := by
  unfold State.skipDrill
  extract_lets s1 now
  have h1 : Calm s s1 := (calm_mput ..).minc _ _
  exact (h1.steady.trans (steady_retryAt s1 _)).trans (calm_logEvent ..).steady

theorem calm_unitsFree (s : State) : Calm s s.unitsFree.2 := by
  unfold State.unitsFree
  split
  · exact Calm.refl s
  · exact ⟨rfl, rfl, rfl, rfl, rfl⟩

theorem drillReady_present {s : State} (h : s.drillReady = true) : s.present .b = true := by
  simp only [State.drillReady, Bool.and_eq_true, and_assoc] at h
  exact h.1

theorem steady_drillDue (s : State) : Steady s
    (if !s.drillDue then s
    else if s.drillReady && !s.arb.suspended then
      let free := s.unitsFree
      if free.1 then free.2.startDrill else free.2.skipDrill
    else s.skipDrill) := by
  have c := calm_unitsFree s
  split
  · exact Steady.refl s
  · split
    · rename_i hr
      have hp := drillReady_present (Bool.and_eq_true_iff.1 hr).1
      exact Steady.ite (c.steady.trans (steady_startDrill ((c.present .b).trans hp))) (c.steady.trans (steady_skipDrill _))
    · exact steady_skipDrill s

/-- The arbiter as the roles are exchanged: the old holder only drains (R517). -/
def Arbiter.exchanged (a : Arbiter) (d x : Drill) : Arbiter := { a with holder := none, drainer := some d.old, drill := some x }

/-- The exchange of roles finds an ACTIVE holder and its peer in STANDBY (R517). -/
structure Exchange (s : State) (d : Drill) : Prop where
  drill : s.arb.drill = some d
  holder : s.arb.holder = some d.old
  new : d.new = d.old.other
  standby : (s.role d.new).st = .standby

theorem Calm.exchange {s t : State} (c : Calm s t) {d : Drill} (h : Exchange s d) : Exchange t d := by
  obtain ⟨h1, h2, h3, h4⟩ := h
  exact ⟨by rw [c.arb, h1], by rw [c.arb, h2], h3, by rw [c.st, h4]⟩

theorem leaseInv_exchanged {s : State} {d x : Drill} (h : LeaseInv s) (he : Exchange s d) (ho : x.old = d.old) (hn : x.new = d.new) :
    LeaseInv { s with arb := s.arb.exchanged d x } ∧ Grantable { s with arb := s.arb.exchanged d x } d.new := by
  obtain ⟨e1, e2, e3, e4⟩ := he
  have hne := Ch.other_ne d.old
  have ro := h.rules d.old
  have rn := h.rules d.new
  obtain ⟨ha, hda⟩ := ro.holder e2
  have w := ro.waits
  have bk := ro.backAlone
  have pn : s.present d.new = true := by
    cases hp : s.present d.new
    · exact absurd (rn.absentOff hp) (by simp [e4])
    · rfl
  refine ⟨(leaseInv_iff _).2 fun ch => ?_, ⟨pn, ?_, rfl, ?_, ?_, ?_⟩⟩
  · have hd := rn.drainer
    have hc := Ch.eq_or_other ch d.old
    obtain ⟨h1, h2, h3, h4, h5, h6, h7, h8, h9, h10, h11, h12, h13, h14, h15, h16, h17⟩ := h.rules ch
    change RoleRules (s.present ch) (s.arb.exchanged d x) (s.role ch) ch
    constructor <;> grind [Arbiter.exchanged]
  · show (s.role d.new).fence = false
    have := rn.fenceState
    grind [ChState.holdsWrites]
  · show some d.old ≠ some d.new
    grind
  · show s.arb.hold = none
    grind
  · show s.arb.back = none
    grind

theorem leaseTo_ignores_holder (s : State) (g : Grant) (o : Option Ch) :
    ({ s with arb := { s.arb with holder := o } }).leaseTo g = s.leaseTo g := rfl

theorem steady_swapGrant {s : State} {d : Drill} (he : Exchange s d) : Steady s (s.swapGrant d) := by
  unfold State.swapGrant
  extract_lets _ s1
  refine ⟨Fixed.trans (t := s1) ⟨rfl, rfl, rfl⟩ (fixed_grantNow _ _), fun h => ?_⟩
  obtain ⟨hi, hg⟩ := leaseInv_exchanged (x := { d with
    phase := 2, lossOld := (s.chan d.old).lossCount, lossNew := (s.chan d.new).lossCount }) h he rfl rfl
  have hs : (s1.role d.new).st = .standby := he.standby
  unfold State.grantNow
  dsimp only
  rw [if_pos (by rw [hs]; rfl), ← leaseTo_ignores_holder s1 _ none]
  exact leaseInv_leaseTo hi hg

theorem steady_digestItem (s : State) : Steady s s.digestItem := by
  unfold State.digestItem
  split
  · exact Steady.refl s
  rename_i d hd
  split
  · exact Steady.refl s
  rename_i hn
  simp only [Bool.or_eq_true, not_or, bne_iff_ne, ne_eq, not_not, Bool.not_eq_true', Bool.not_eq_false] at hn
  obtain ⟨⟨⟨⟨-, -⟩, hh⟩, hw⟩, hs⟩ := hn
  extract_lets +onlyGivenNames s1 s2
  have c2 : Calm s s2 := ((calm_beginItem s).onChan _ _).onChan _ _
  split
  · exact c2.steady
  · split
    · exact (c2.steady.trans (calm_stale s2 d.new true).steady).trans (steady_endDrill _ _ _)
    · have c3 : Calm s s2.dropJobs := c2.trans (calm_dropJobs s2)
      split
      · exact Steady.ite (c3.steady.trans (steady_swapGrant (c3.exchange ⟨hd, hh, hw, hs⟩))) c2.steady
      · have e : s2.dropJobs.arb.drill = some d := by rw [c3.arb, hd]
        refine (c3.steady.trans ?_).trans (calm_beginItem _).steady
        show Steady s2.dropJobs { s2.dropJobs with arb := { s2.arb with drill := some { d with item := d.item + 1 } } }
        rw [← (calm_dropJobs s2).arb]
        exact steady_drill (x := { d with item := d.item + 1 }) e rfl rfl

theorem steady_releasePoint (s : State) : Steady s s.releasePoint := by
  unfold State.releasePoint
  split
  · exact Steady.refl s
  · rename_i d hd
    split
    · exact Steady.refl s
    · exact (steady_drill (x := { d with released := true }) hd rfl rfl).trans (calm_onChan _ _ _).steady

/-- The old active enters DRAINING within the rules (R517). -/
theorem leaseInv_drains {s : State} {o : Ch} (h : LeaseInv s) (hd : s.arb.drainer = some o) (hs : (s.role o).st = .active) :
    LeaseInv (s.modRole o fun r => { r with st := .draining }) := by
  refine leaseInv_modRole h ?_
  obtain ⟨h1, h2, h3, h4, h5, h6, h7, h8, h9, h10, h11, h12, h13, h14, h15, h16, h17⟩ := h.rules o
  constructor <;> grind [ChState.holdsWrites]

theorem steady_drainEnd (s : State) : Steady s s.drainEnd := by
  unfold State.drainEnd
  split
  · exact Steady.refl s
  rename_i o hd
  split
  · exact Steady.refl s
  rename_i hs
  extract_lets s1
  have h1 : Steady s s1 := ⟨fixed_modRole s o _, fun h => leaseInv_drains h hd (by simpa using hs)⟩
  refine h1.trans (Steady.trans (t := { s1 with arb := { s1.arb with drill := s1.arb.drill.map fun d => { d with phase := 3 } } }) ?_
    (calm_relay _ _).steady)
  refine ⟨⟨rfl, rfl, rfl⟩, fun h => leaseInv_drill h fun ch hp x hx => ?_⟩
  obtain ⟨d, hd, rfl⟩ := Option.map_eq_some_iff.1 hx
  exact (h.rules ch).absentDrill hp d hd

theorem steady_drainComplete (s : State) : Steady s s.drainComplete := by
  unfold State.drainComplete
  split
  · exact Steady.refl s
  rename_i o hd
  split
  · exact Steady.refl s
  extract_lets s1 s2 _ s3
  have c1 : Calm s s1 := calm_onChan s o _
  have e : ∀ ch, s3.role ch = s2.role ch := fun ch => by cases ch <;> rfl
  have f : Fixed s s3 := (c1.fixed.trans (fixed_modRole s1 o _)).trans (t := s2) ⟨rfl, rfl, rfl⟩
  have h3 : Steady s s3 := by
    refine ⟨f, fun h => leaseInv_drained h hd f.unit ?_ ?_ ?_⟩
    · show { s2.arb with drainer := none } = _
      rw [State.modRole_arb, c1.arb]
    · rw [e, State.modRole_role]
      exact congrArg₂ (fun f n => (ChState.standby, f, n)) (c1.fence o) (c1.stage o)
    · rw [e, State.modRole_role_other]
      exact c1.role o.other
  split
  · exact h3
  · exact h3.trans (steady_endDrill _ _ _)

/-! ## The role commands -/

theorem steady_switchCommand (s : State) : Steady s s.switchCommand.2 := by
  have c := calm_unitsFree s
  unfold State.switchCommand
  split
  · exact Steady.refl s
  · rename_i hr
    have hp := drillReady_present (by simpa using hr)
    dsimp only
    split
    · exact c.steady.trans (steady_startDrill ((c.present .b).trans hp))
    · exact c.steady

theorem steady_rearmCommand (s : State) : Steady s s.rearmCommand.2 := steady_suspended s false

theorem steady_releaseCommand (s : State) (ch : Ch) : Steady s (s.releaseCommand ch).2 := by
  unfold State.releaseCommand
  split
  · exact Steady.refl s
  · exact steady_beginReset s ch .release

/-- The arbiter as a channel is taken out of service: no grant, return or drain permission of its own (R521). -/
def Arbiter.without (a : Arbiter) (ch : Ch) : Arbiter :=
  { a with
    pending := a.pending.filter fun g => g.dest != ch
    back := a.back.filter fun b => b.chan != ch
    drainer := a.drainer.filter fun d => d != ch }

/-- A channel fenced and in ISOLATED (R521). -/
def State.isolated (s : State) (ch : Ch) : State :=
  let s := (s.fence ch false).modRole ch fun r => { r with
    st := .isolated, stage := 14, attempt := 0, backoffEnd := none, restartDue := false, deferred := false,
    waitNight := false, waitArb := false, orphan := false }
  { s with
    arb := s.arb.without ch
    relay := { s.relay with hold := [], deltas := [], copyLeft := 0, resync := none } }

theorem isolateCommand_eq (s : State) (ch : Ch) : s.isolateCommand ch =
    if s.arb.drill.isSome || (s.arb.holder == some ch && !s.fit ch.other) then (0x0601, s)
    else (0, if s.arb.holder == some ch then (s.isolated ch).moveLease ch true else s.isolated ch) := rfl

theorem fixed_isolated (s : State) (ch : Ch) : Fixed s (s.isolated ch) := by
  have f := (fixed_fence s ch false).trans (fixed_modRole (s.fence ch false) ch fun r => { r with
    st := .isolated, stage := 14, attempt := 0, backoffEnd := none, restartDue := false, deferred := false,
    waitNight := false, waitArb := false, orphan := false })
  exact f.trans ⟨rfl, rfl, rfl⟩

theorem isolated_view (s : State) (ch : Ch) :
    (s.isolated ch).arb = s.arb.without ch ∧ ((s.isolated ch).role ch).rule = (.isolated, true, 14) ∧
    ((s.isolated ch).role ch.other).rule = (s.role ch.other).rule := by
  unfold State.isolated
  extract_lets s1
  have e : ∀ c, ({ s1 with
    arb := s1.arb.without ch
    relay := { s1.relay with hold := [], deltas := [], copyLeft := 0, resync := none } } : State).role c = s1.role c := fun c => by
      cases c <;> rfl
  refine ⟨?_, ?_, ?_⟩
  · show s1.arb.without ch = _
    rw [State.modRole_arb, State.fence_arb]
  · rw [e, State.modRole_role]
    exact congrArg (fun f => (ChState.isolated, f, 14)) (State.fence_fence s ch false)
  · rw [e, State.modRole_role_other]
    exact State.fence_role_other s ch false

/-- A present channel in ISOLATED, its lease gone, keeps the rules (R521). -/
theorem leaseInv_isolated {s t : State} {ch : Ch} (h : LeaseInv s) (hp : s.present ch = true) (hu : t.unit = s.unit)
    (ha : t.arb = { s.arb.without ch with holder := s.arb.holder.filter fun x => x != ch })
    (hr : (t.role ch).rule = (.isolated, true, 14)) (ho : (t.role ch.other).rule = (s.role ch.other).rule) : LeaseInv t := by
  have hu := fun c => present_of_unit hu c
  have hne := Ch.other_ne ch
  obtain ⟨q1, q2, -⟩ : (t.role ch).st = .isolated ∧ (t.role ch).fence = true ∧ (t.role ch).stage = 14 := by
    simpa [ChanRole.rule] using hr
  refine leaseInv_of_pair ch ?_ ?_
  · obtain ⟨h1, h2, h3, h4, h5, h6, h7, h8, h9, h10, h11, h12, h13, h14, h15, h16, h17⟩ := h.rules ch
    unfold State.Rules
    rw [hu, ha]
    constructor <;> grind [Arbiter.without, filter_eq_some, filter_eq_none_of, ChState.holdsWrites]
  · obtain ⟨h1, h2, h3, h4, h5, h6, h7, h8, h9, h10, h11, h12, h13, h14, h15, h16, h17⟩ := h.rules ch.other
    unfold State.Rules
    rw [hu, ha]
    refine RoleRules.congr ?_ ho
    constructor <;> grind [Arbiter.without, filter_eq_some, filter_eq_none_of]

/-- The other channel of a holder, if it is fit, can take the lease as soon as the holder has lost it (R490, R521). -/
theorem fit_takes {s : State} {ch : Ch} (h : LeaseInv s) (hh : s.arb.holder = some ch) (hf : s.fit ch.other = true) :
    s.present ch.other = true ∧ (s.role ch.other).st = .standby ∧ (s.role ch.other).fence = false ∧ s.arb.drainer = none ∧
      s.arb.hold = none ∧ s.arb.back = none := by
  obtain ⟨hp, hs⟩ := fit_standby hf
  obtain ⟨ha, hd⟩ := (h.rules ch).holder hh
  have w := (h.rules ch).waits
  have b := (h.rules ch).backAlone
  have f := (h.rules ch.other).fenceState
  have d := (h.rules ch.other).drainer
  refine ⟨hp, hs, ?_, ?_, ?_, ?_⟩
  · grind [ChState.holdsWrites]
  · refine Option.eq_none_iff_forall_ne_some.2 fun x e => ?_
    rcases Ch.eq_or_other x ch with rfl | rfl
    · exact hd e
    · have := d e
      grind
  · grind
  · grind

theorem fixed_moveLease (s : State) (ch : Ch) (record : Bool) : Fixed s (s.moveLease ch record) :=
  Fixed.trans (t := { s with arb := { s.arb with holder := none } }) ⟨rfl, rfl, rfl⟩ (fixed_grant _ _)

theorem steady_isolateCommand {s : State} {ch : Ch} (hp : s.present ch = true) : Steady s (s.isolateCommand ch).2 := by
  rw [isolateCommand_eq]
  obtain ⟨va, vr, vo⟩ := isolated_view s ch
  have fi := fixed_isolated s ch
  split
  · exact Steady.refl s
  rename_i hd
  dsimp only
  split
  · rename_i hh
    have hh : s.arb.holder = some ch := by simpa using hh
    have hf : s.fit ch.other = true := by
      simp [hh] at hd
      exact hd.2
    refine ⟨fi.trans (fixed_moveLease _ _ _), fun h => ?_⟩
    obtain ⟨f1, f2, f3, f4, f5, f6⟩ := fit_takes h hh hf
    unfold State.moveLease
    extract_lets _ t
    have ta : t.arb = { s.arb.without ch with holder := none } := by
      show ({ (s.isolated ch).arb with holder := none } : Arbiter) = _
      rw [va]
    have hi : LeaseInv t := by
      refine leaseInv_isolated h hp fi.unit ?_ ?_ ?_
      · rw [ta, hh]
        simp [Option.filter]
      · exact vr
      · exact vo
    have dn : t.arb.drainer = none := by rw [ta]; exact filter_eq_none_of _ f4
    refine leaseInv_grant_of hi ⟨(present_of_unit fi.unit _).trans f1, ?_, ?_, ?_, ?_, ?_⟩ (.inr (by simp [dn]))
    · exact (congrArg (fun x => x.2.1) vo).trans f3
    · rw [ta]
    · simp [dn]
    · rw [ta]
      exact f5
    · rw [ta]
      exact filter_eq_none_of _ f6
  · rename_i hh
    refine ⟨fi, fun h => leaseInv_isolated h hp fi.unit ?_ vr vo⟩
    rw [va]
    have : s.arb.holder.filter (fun x => x != ch) = s.arb.holder := by
      cases hx : s.arb.holder <;> simp [Option.filter]
      grind
    rw [this]
    rfl

/-- The rules of the channel that a grant is made to, whatever has become of the other one. -/
theorem rules_grant_dest {s : State} {g : Grant} (h : s.Rules g.dest) (hg : Grantable s g.dest) : (s.grant g).Rules g.dest := by
  have hu := fun c => present_of_unit (fixed_grant s g).unit c
  have hs : (s.grant g).Rules g.dest ↔ RoleRules true (s.grant g).arb ((s.grant g).role g.dest) g.dest := by
    unfold State.Rules
    rw [hu, hg.present]
  unfold State.Rules at h
  rw [hg.present] at h
  rw [hs]
  unfold State.grant
  split
  · unfold State.grantNow
    dsimp only
    split
    · have c1 := calm_recordGrant (s.leased g.dest) g (s.arb.nextEpoch g.dest)
      have ls : ((s.leased g.dest).role g.dest).rule = (.active, (s.role g.dest).fence, 15) := by simp [State.leased]; rfl
      have lr : ((s.leaseTo g).role g.dest).rule = (.active, (s.role g.dest).fence, 15) := by
        rw [leaseTo_eq, (calm_onChan _ _ _).role]
        dsimp only
        split
        · have := State.modRole_role_other ((s.leased g.dest).recordGrant g (s.arb.nextEpoch g.dest)) g.dest.other
          rw [Ch.other_other] at this
          rw [State.completeStandby, this, c1.role, ls]
        · rw [c1.role, ls]
      obtain ⟨l1, l2, -⟩ : ((s.leaseTo g).role g.dest).st = .active ∧ ((s.leaseTo g).role g.dest).fence = (s.role g.dest).fence ∧
          ((s.leaseTo g).role g.dest).stage = 15 := by simpa [ChanRole.rule] using lr
      rw [leaseTo_arb]
      exact RoleRules.lease_self (l2.trans hg.fence) hg.drainer hg.hold hg.back l1
    · change RoleRules true { s.arb with pending := none } (s.role g.dest) g.dest
      obtain ⟨h1, h2, h3, h4, h5, h6, h7, h8, h9, h10, h11, h12, h13, h14, h15, h16, h17⟩ := h
      constructor <;> grind
  · exact RoleRules.await_self (g := { g with faulted := _ }) h hg.fence hg.holder hg.drainer hg.hold hg.back

/-- The rules of the other channel once a fenced holder's lease has moved to it (R579). -/
theorem rules_fence_moveLease {s : State} {ch : Ch} (h : LeaseInv s) (hh : s.arb.holder = some ch)
    (hf : s.present ch.other = true ∧ (s.role ch.other).st = .standby ∧ (s.role ch.other).fence = false ∧ s.arb.drainer = none ∧
      s.arb.hold = none ∧ s.arb.back = none) (record : Bool) :
    ((s.fence ch false).moveLease ch record).Rules ch.other := by
  obtain ⟨f1, f2, f3, f4, f5, f6⟩ := hf
  have fa := State.fence_arb s ch false
  have fo := State.fence_role_other s ch false
  have fu := fun c => present_of_unit (fixed_fence s ch false).unit c
  unfold State.moveLease
  extract_lets _ t
  have ta : t.arb = { s.arb with holder := none } := by
    show ({ (s.fence ch false).arb with holder := none } : Arbiter) = _
    rw [fa]
  have tu := fun c => present_of_unit (s := s) (t := t) (fixed_fence s ch false).unit c
  have tr : (t.role ch.other).rule = (s.role ch.other).rule := fo
  refine rules_grant_dest (g := ⟨ch.other, ch, .isolate, record, false, false, t.sbTime⟩) ?_ ⟨(tu _).trans f1, ?_, ?_, ?_, ?_, ?_⟩
  · unfold State.Rules
    rw [tu, ta]
    refine RoleRules.congr ?_ tr
    have hne := Ch.other_ne ch
    obtain ⟨h1, h2, h3, h4, h5, h6, h7, h8, h9, h10, h11, h12, h13, h14, h15, h16, h17⟩ := h.rules ch.other
    show RoleRules (s.present ch.other) { s.arb with holder := none } (s.role ch.other) ch.other
    constructor <;> grind
  · exact (congrArg (fun x => x.2.1) tr).trans f3
  · rw [ta]
  · rw [ta]
    show s.arb.drainer ≠ _
    simp [f4]
  · rw [ta]
    exact f5
  · rw [ta]
    exact f6

theorem steady_channelResetCommand (s : State) (ch : Ch) : Steady s (s.channelResetCommand ch).2 := by
  unfold State.channelResetCommand
  extract_lets holder s1
  have d := endDrill_over s 5 0
  split
  · exact Steady.refl s
  split
  · exact Steady.refl s
  rename_i hf
  split
  · rename_i hh
    obtain ⟨hh, hp⟩ := Bool.and_eq_true_iff.1 hh
    have hfit : s.fit ch.other = true := by
      rw [present_of_unit (s := s) d.unit] at hp
      simp [hh] at hf
      exact hf hp
    have hh : s.arb.holder = some ch := by simpa [holder] using hh
    refine ⟨(d.steady.toFixed.trans ((fixed_fence s1 ch false).trans (fixed_moveLease _ _ _))).trans (fixed_beginReset _ _ _), fun h => ?_⟩
    obtain ⟨f1, f2, f3, f4, f5, f6⟩ := fit_takes h hh hfit
    obtain ⟨x, n, -, ha⟩ := d.arb
    have ha : s1.arb = { s.arb with drill := x, drillBase := n } := ha
    have hpc : s.present ch = true := by
      cases hp : s.present ch
      · exact absurd hh ((h.rules ch).absentArb hp).1
      · rfl
    refine leaseInv_beginReset .host (.inl ?_) (rules_fence_moveLease (d.steady.inv h) ?_ ⟨?_, ?_, ?_, ?_, ?_, ?_⟩ false)
    · rw [present_of_unit (((d.steady.toFixed.trans (fixed_fence s1 ch false)).trans (fixed_moveLease _ _ _)).unit), hpc]
    · rw [ha]
      exact hh
    · rw [present_of_unit d.unit, f1]
    · exact (congrArg Prod.fst (d.role ch.other)).trans f2
    · exact (congrArg (fun x => x.2.1) (d.role ch.other)).trans f3
    · rw [ha]
      exact f4
    · rw [ha]
      exact f5
    · rw [ha]
      exact f6
  · exact d.steady.trans (steady_beginReset s1 ch .host)

end Sys2Proof.Machine
end

section
namespace Sys2Proof.Machine

theorem calm_crossChecks (l : List Nat) (s : State) : Calm s (l.foldl State.crossCheck s) := Calm.foldl (fun s i => calm_crossCheck s i) l s

theorem calm_orderLog (b s : State) : Calm s (b.orderLog s) := (beside_orderLog b s).calm

theorem calm_host (s : State) (h : HostPort) : Calm s { s with host := h } := ⟨rfl, rfl, rfl, rfl, rfl⟩

theorem calm_flash (s : State) (f : Flash) : Calm s { s with flash := f } := ⟨rfl, rfl, rfl, rfl, rfl⟩

theorem calm_bring (s : State) (b : Bringup) : Calm s { s with bring := b } := ⟨rfl, rfl, rfl, rfl, rfl⟩

/-! ## The supply (R545 to R560) -/

theorem calm_setInput (s : State) (i : Inlet) (x : InputSt) : Calm s (s.setInput i x) := by
  cases i <;> exact calm_power s _

theorem calm_warnPower (s : State) : Calm s s.warnPower := by
  unfold State.warnPower
  exact (((calm_power s _).mflag _ _ _).logEvent _ _ _).eachChan _

theorem calm_moveInput (s : State) (i : Inlet) (x : InputSt) : Calm s (s.moveInput i x) := by
  unfold State.moveInput
  extract_lets _ _ s1 n s2
  split
  · exact calm_setInput s i x
  · have h1 : Calm s s1 := calm_setInput s i x
    have h2 : Calm s s2 := Calm.ite ((h1.mflag _ _ _).logEvent _ _ _) h1
    exact Calm.ite (h2.trans (calm_warnPower s2)) h2

theorem calm_returned (s : State) (i : Inlet) : Calm s (s.returned i) := by
  unfold State.returned
  extract_lets x s1 _ s2
  have h1 : Calm s s1 := calm_setInput s i _
  have h2 : Calm s s2 := h1.trans (calm_power s1 _)
  split
  · exact Calm.refl s
  · exact Calm.ite h1 ((h2.logEvent _ _ _).eachChan _)

theorem calm_loseController (s : State) : Calm s s.loseController := by
  unfold State.loseController
  exact ((calm_power s _).mflag _ _ _).eachChan _

theorem lawful_tripSb (s : State) : Lawful s s.tripSb := by
  unfold State.tripSb
  split
  · exact Lawful.refl s
  · extract_lets _ s1 s2
    have h1 : Calm s s1 := (calm_power s _).logEvent _ _ _
    have h2 : Lawful s s2 := h1.lawful.trans ((lawful_loseArbiter s1).trans (calm_relayLost _).lawful)
    exact Lawful.ite (h2.trans (calm_loseController s2).lawful) h2

theorem steady_tripChan (s : State) (ch : Ch) : Steady s (s.tripChan ch) := by
  unfold State.tripChan
  extract_lets r s1 s2
  split
  · exact Steady.refl s
  · have h1 : Calm s s1 := calm_setRole s ch (r := { r with outputOn := false, ready := false }) rfl
    have h2 : Calm s s2 := (h1.mflag _ _ _).logEvent _ _ _
    split
    · rename_i hok
      exact h2.steady.trans (steady_declare ch .trip hok)
    · exact ((h2.modRole ch (f := fun r => { r with silent := true }) fun _ => rfl).onChan _ _).steady

theorem calm_retrySb (s : State) (holds : Bool) : Calm s (s.retrySb holds) := by
  unfold State.retrySb
  split
  · exact Calm.refl s
  · exact (calm_power s _).trans (calm_autoResync _)

theorem calm_judgePower (s : State) : Calm s s.judgePower := by
  unfold State.judgePower
  exact Calm.ite (calm_mflag ..) (Calm.refl s)

theorem calm_measure (s : State) (m : SupplyMeas) : Calm s (s.measure m) := by
  unfold State.measure
  extract_lets _ s1 s2 s3 s4
  have h3 : Calm s s3 := (((calm_mput s _ _ _).mput _ _ _).mput _ _ _).mput _ _ _
  have h4 : Calm s s4 := h3.trans (calm_judgePower s3)
  exact Calm.ite (h4.mflag _ _ _) h4

/-! ## The core loop and DUSK -/

theorem calm_leaveDusk (s : State) : Calm s s.leaveDusk := by
  unfold State.leaveDusk
  exact ((calm_mode s _).mflag _ _ _).eachChan _

theorem calm_updateLoop (s : State) (ch : Ch) (periods : List Nat) (measMv : Nat) : Calm s (s.updateLoop ch periods measMv) := by
  unfold State.updateLoop
  extract_lets _ s1 _
  split
  · exact calm_onChan ..
  · have h1 : Calm s s1 := Calm.ite (calm_leaveDusk s) (Calm.refl s)
    exact h1.onChan _ _

theorem calm_duskEntry (s : State) : Calm s (if !s.duskReady then s
    else ((({ s with mode := { s.mode with dusk := true } }).mflag 0x1106 0 2).minc 0x1108 1)) :=
  Calm.ite (Calm.refl s) (((calm_mode s _).mflag _ _ _).minc _ _)

/-! ## Ports, tokens, posted writes, time -/

theorem calm_compareSplit (s : State) (p : Nat) : Calm s (s.compareSplit p) := by
  unfold State.compareSplit
  exact Calm.ite ((calm_onChan ..).onChan _ _) (Calm.refl s)

theorem steady_handToken (s : State) (k : Nat) : Steady s (s.handToken k) := by
  unfold State.handToken
  extract_lets
  split
  · exact Steady.refl s
  · exact Steady.ite (Steady.refl s) ⟨⟨rfl, rfl, rfl⟩, id⟩

/-! ## Modes -/

theorem steady_sleep (s : State) : Steady s s.sleep := by
  unfold State.sleep
  extract_lets _ s1 s2 _ s3
  have h1 : Calm s s1 := Calm.ite (calm_mflag ..) (Calm.refl s)
  have h3 : Calm s s3 := (h1.eachChan _).trans (calm_mode s2 _)
  split
  · exact Steady.refl s
  · split
    · exact h3.steady.trans (still_wakeNow s3 _ _).toSteady
    · exact h3.steady

theorem steady_requestMode (s : State) (m : Nat) : Steady s (s.requestMode m) := by
  unfold State.requestMode
  extract_lets s1
  have h1 : Calm s s1 := calm_mput ..
  exact Steady.ite h1.steady (Steady.ite (h1.trans (calm_enterNight s1)).steady (h1.steady.trans (steady_wakeBy s1 .host)))

/-! ## The command of 0x1109 and 0x1300:04 -/

theorem calm_startSave (s : State) (runtime : Bool) : Calm s (s.startSave runtime) := by
  unfold State.startSave
  exact (calm_flash s _).mputBits _ _ _ _ _

theorem steady_resetCommand (s : State) (raw : Nat) : Steady s (s.resetCommand raw).2 := by
  unfold State.resetCommand
  extract_lets ch _ s1
  split
  · exact (calm_bring s _).steady
  · split
    · exact steady_channelResetCommand s ch
    · have h1 : Calm s s1 := calm_mput ..
      dsimp only
      exact (h1.onChan ch _).steady

/-- The channel that a role command names. -/
def roleChan (raw : Nat) : Ch := if bitOf raw 8 then .b else .a

theorem steady_roleCommand {s : State} {raw : Nat} (hp : bits raw 3 0 = 3 → s.present (roleChan raw) = true) :
    Steady s (s.roleCommand raw).2 := by
  unfold State.roleCommand
  extract_lets ch
  split
  · exact steady_switchCommand s
  · exact steady_rearmCommand s
  · rename_i h3
    exact steady_isolateCommand (hp h3)
  · exact steady_releaseCommand s ch
  · exact (calm_resyncCommand s).steady

end Sys2Proof.Machine
end

section
namespace Sys2Proof.Machine

/-! A command that answers and changes the state: each way it can go is calm or steady. -/

theorem Calm.snd_ite {α : Type} {c : Prop} [Decidable c] {s : State} {x y : α × State} (hx : Calm s x.2) (hy : Calm s y.2) :
    Calm s (if c then x else y).2 := by
  split
  · exact hx
  · exact hy

theorem Steady.snd_ite {α : Type} {c : Prop} [Decidable c] {s : State} {x y : α × State} (hx : Steady s x.2) (hy : Steady s y.2) :
    Steady s (if c then x else y).2 := by
  split
  · exact hx
  · exact hy

/-! ## What goes out -/

theorem calm_emit (s : State) (x : Sent) : Calm s (s.emit x) := ⟨rfl, rfl, rfl, rfl, rfl⟩

theorem calm_emitAll (l : List Sent) (s : State) : Calm s (l.foldl State.emit s) := Calm.foldl calm_emit l s

theorem calm_draw (s : State) : Calm s s.draw.2 := ⟨rfl, rfl, rfl, rfl, rfl⟩

theorem calm_toModule (s : State) (m ident : Nat) (msg : List Byte) : Calm s (s.toModule m ident msg) := by
  unfold State.toModule
  split
  · exact Calm.refl s
  · exact Calm.foldl (fun s b => calm_onChan s _ _) _ s

theorem calm_send (s : State) (bus : Bus) (ident : Nat) (msg : List Byte) : Calm s (s.send bus ident msg) := by
  unfold State.send
  split
  · exact calm_toModule ..
  · exact Calm.ite ((calm_minc ..).trans (calm_emitAll ..)) (Calm.refl s)

theorem calm_sendAll (l : List Bus) (s : State) (ident : Nat) (msg : List Byte) : Calm s (l.foldl (fun s b => s.send b ident msg) s) :=
  Calm.foldl (fun s b => calm_send s b ident msg) l s

theorem calm_noteStatus (s : State) (st : Nat) : Calm s (s.noteStatus st) := by
  unfold State.noteStatus
  exact Calm.ite (calm_mflag ..) (Calm.ite (calm_mflag ..) (Calm.refl s))

theorem calm_noteSequence (s : State) : Calm s s.noteSequence := (calm_minc ..).mflag _ _ _

theorem calm_answer (s : State) (q : Request) (func : Nat) (a : Option (List Byte)) : Calm s (s.answer q func a) := by
  cases a with
  | none => exact Calm.refl s
  | some b => exact calm_send ..

/-! ## Sessions -/

theorem calm_putSession (s : State) (x : Session) : Calm s (s.putSession x) := calm_host s _

theorem calm_judge (s : State) (q : Request) (func : Nat) (need : Bool) : Calm s (s.judge q func need).2.2 := by
  unfold State.judge
  dsimp only
  split
  · exact Calm.refl s
  · split
    · exact Calm.refl s
    · split
      · exact calm_minc ..
      · split
        · exact (calm_putSession s _).minc _ _
        · exact calm_putSession s _

theorem calm_openSession (s : State) (q : Request) : Calm s (s.openSession q).2 := by
  unfold State.openSession
  extract_lets _ _ _ _ d num e
  refine Calm.snd_ite ?_ (Calm.snd_ite ?_ ?_)
  · exact Calm.trans (calm_mflag ..) (calm_noteStatus _ 0x0502)
  · exact calm_noteStatus s 0x0502
  · exact ((calm_draw s).trans (calm_draw _)).trans (calm_host _ _)

theorem calm_failProof (s : State) (node : Nat) : Calm s (s.failProof node) := by
  unfold State.failProof
  extract_lets s1 _ _ s2
  have h1 : Calm s s1 := (calm_minc ..).trans (calm_noteStatus ..)
  have h2 : Calm s s2 := h1.trans (calm_host s1 _)
  exact Calm.ite ((h2.trans (calm_host s2 _)).mflag _ _ _) h2

theorem calm_proveSession (s : State) (q : Request) : Calm s (s.proveSession q).2 := by
  have hf := calm_failProof s q.src
  unfold State.proveSession
  dsimp only
  split
  · exact hf
  · split
    · exact hf
    · exact calm_putSession ..

/-! ## Requests that only read -/

theorem calm_doRead (s : State) (q : Request) (full : Bool) : Calm s (s.doRead q full).2 := by
  unfold State.doRead
  extract_lets _ _ j _ st s1 r
  have h1 : Calm s s1 := calm_judge ..
  exact Calm.snd_ite (h1.trans (calm_noteStatus s1 st)) (Calm.snd_ite h1 h1)

theorem calm_doReadBlock (s : State) (q : Request) (full : Bool) : Calm s (s.doReadBlock q full).2 := by
  unfold State.doReadBlock
  extract_lets _ _ _ _ _ j _ st s1 r
  have h1 : Calm s s1 := calm_judge ..
  exact Calm.snd_ite (h1.trans (calm_noteStatus s1 st)) (Calm.snd_ite h1 h1)

theorem calm_doSnapshot (s : State) (q : Request) (full : Bool) : Calm s (s.doSnapshot q full).2 := by
  unfold State.doSnapshot
  extract_lets _ scope sel j _ s1 d s2 st
  have h1 : Calm s s1 := calm_judge ..
  have h2 : Calm s s2 := by
    show Calm s (ite _ _ _ : Nat × State).2
    split
    · exact h1.trans (calm_draw s1)
    · exact h1
  exact Calm.snd_ite (h2.trans (calm_noteStatus s2 st)) (h2.onChan _ fun _ c => c.takeSnapshot _ _)

theorem calm_doHeartbeat (s : State) (q : Request) : Calm s (s.doHeartbeat q).2 := (calm_judge ..).trans (calm_noteStatus ..)

theorem calm_doFrameFromHost (s : State) (q : Request) (full : Bool) : Calm s (s.doFrameFromHost q full).2 := by
  unfold State.doFrameFromHost
  extract_lets _ _ j _ s1 st
  have h1 : Calm s s1 := calm_judge ..
  exact Calm.snd_ite (h1.trans (calm_noteStatus s1 st)) ((h1.minc _ _).onChan _ fun cx c => c.fromHost cx _)

/-! ## Writes -/

theorem calm_releaseWake (s : State) (gone : WakeCause → Bool) : Calm s (s.releaseWake gone) := calm_power s _

theorem calm_chStore (s : State) (ch : Ch) (o : Obj) (idx sub raw : Nat) : Calm s (s.chStore ch o idx sub raw) := by
  unfold State.chStore
  extract_lets _ s1
  have h1 : Calm s s1 := (calm_onChan ..).trans (calm_crossCheck ..)
  exact Calm.ite (h1.trans (calm_releaseWake ..)) h1

theorem calm_free (s : State) (f : Nat) : Calm s { s with free := f } := ⟨rfl, rfl, rfl, rfl, rfl⟩

/-- A place in the module's part of the dictionary holds the object that the dictionary lists there. -/
theorem objIn_of_place {s : State} {idx sub : Nat} {o : Obj} (h : s.place idx sub = .module o) :
    channelScope idx = false ∧ objIn moduleObjs idx sub = some o := by
  cases hw : channelScope idx <;> grind [State.place]

/-- A role command of row 5.6 names a present channel (R525). -/
theorem mStatus_roleCommand {s : State} {o : Obj} {raw : Nat} (hp : s.place 0x1300 4 = .module o)
    (hs : s.mStatus o 0x1300 4 raw = 0) (h3 : bits raw 3 0 = 3) : s.present (roleChan raw) = true := by
  have acc : (objIn moduleObjs 0x1300 4).all fun o => o.acc != .counter && o.acc != .w1c := by decide
  rw [(objIn_of_place hp).2] at acc
  simp only [Option.all_some, Bool.and_eq_true, bne_iff_ne] at acc
  have bad : s.mBad 0x1300 4 (written o 0x1300 4 (s.mreg 0x1300 4) raw) raw = false := by
    unfold State.mStatus at hs
    dsimp only at hs
    rw [if_neg acc.1, if_neg acc.2] at hs
    cases hb : s.mBad 0x1300 4 (written o 0x1300 4 (s.mreg 0x1300 4) raw) raw
    · rfl
    · rw [hb] at hs
      grind
  simp [State.mBad, h3] at bad
  unfold roleChan
  split
  · rename_i hb
    show (s.unit.variant != .C) = true
    grind
  · rfl

theorem steady_mStore {s : State} {o : Obj} {idx sub raw : Nat} (hp : s.place idx sub = .module o)
    (hs : s.mStatus o idx sub raw = 0) : Steady s (s.mStore o idx sub raw).2 := by
  unfold State.mStore
  extract_lets +onlyGivenNames old v stored
  have h1 : Calm s stored := calm_mput ..
  refine Steady.snd_ite (steady_requestMode s raw) ?_
  refine Steady.snd_ite (h1.trans (calm_releaseWake stored _)).steady ?_
  refine Steady.snd_ite (h1.trans (calm_judgePower stored)).steady ?_
  refine Steady.snd_ite (Steady.snd_ite (h1.steady.trans (steady_resetCommand stored raw)) (Steady.refl s)) ?_
  split
  · rename_i hi
    obtain ⟨rfl, rfl⟩ : idx = 0x1300 ∧ sub = 4 := by simpa using hi
    refine Steady.snd_ite (h1.steady.trans (steady_roleCommand fun h3 => ?_)) (calm_free s _).steady
    exact (h1.present _).trans (mStatus_roleCommand hp hs h3)
  refine Steady.snd_ite (h1.trans (calm_host stored _)).steady ?_
  refine Steady.snd_ite (calm_host s _).steady ?_
  refine Steady.snd_ite (h1.trans (calm_host stored _)).steady ?_
  refine Steady.snd_ite ?_ (Steady.snd_ite (calm_flash s _).steady h1.steady)
  exact Steady.ite (h1.trans (calm_startSave stored _)).steady (h1.trans (calm_flash stored _)).steady

theorem steady_writeObject (s : State) (idx sub : Nat) (data : List Byte) (full : Bool) :
    Steady s (s.writeObject idx sub data full).2 := by
  have h0 := Steady.refl s
  unfold State.writeObject
  split
  · exact h0
  · exact h0
  · rename_i o hp
    refine Steady.snd_ite h0 (Steady.snd_ite h0 (Steady.snd_ite h0 ?_))
    dsimp only
    split
    · exact steady_mStore hp (by assumption)
    · exact h0
  · exact Steady.snd_ite h0 (Steady.snd_ite h0 (Steady.snd_ite h0 (Steady.snd_ite (calm_chStore ..).steady h0)))

theorem calm_stageEntries (s : State) (es : List (Nat × Nat)) : Calm s (s.stageEntries es).2 := by
  unfold State.stageEntries
  exact Calm.snd_ite (Calm.refl s) (calm_flash s _)

theorem calm_writeEntries (s : State) (idx sub offset : Nat) (data : List Byte) (full : Bool) :
    Calm s (s.writeEntries idx sub offset data full).2 := by
  have h0 := Calm.refl s
  have ite : ∀ {c : Prop} [Decidable c] {n : Nat} {y : Nat × State}, Calm s y.2 → Calm s (if c then (n, s) else y).2 :=
    fun h => Calm.snd_ite h0 h
  unfold State.writeEntries
  dsimp only
  split
  · exact h0
  · exact ite (ite h0)
  · exact ite (ite (ite (ite (ite (ite (calm_stageEntries ..))))))
  · refine ite (ite (ite (ite (ite (ite (ite (ite ?_)))))))
    dsimp only
    exact calm_onChan ..

theorem steady_doWrite (s : State) (q : Request) (full : Bool) : Steady s (s.doWrite q full).2 := by
  unfold State.doWrite
  extract_lets _ _ j st s1 r
  have h1 : Calm s s1 := calm_judge ..
  exact Steady.snd_ite (h1.trans (calm_noteStatus s1 st)).steady (h1.steady.trans (steady_writeObject ..))

theorem calm_doWriteBlock (s : State) (q : Request) (full : Bool) : Calm s (s.doWriteBlock q full).2 := by
  unfold State.doWriteBlock
  extract_lets _ _ j st s1 r
  have h1 : Calm s s1 := calm_judge ..
  exact Calm.snd_ite (h1.trans (calm_noteStatus s1 st)) (h1.trans (calm_writeEntries ..))

theorem steady_perform (s : State) (q : Request) (func : Nat) (full : Bool) : Steady s (s.perform q func full).2 := by
  unfold State.perform
  refine Steady.snd_ite (calm_doRead ..).steady ?_
  refine Steady.snd_ite (steady_doWrite ..) ?_
  refine Steady.snd_ite (calm_doReadBlock ..).steady ?_
  refine Steady.snd_ite (calm_doWriteBlock ..).steady ?_
  refine Steady.snd_ite (calm_doSnapshot ..).steady ?_
  refine Steady.snd_ite (calm_doFrameFromHost ..).steady ?_
  refine Steady.snd_ite (Steady.refl s) ?_
  refine Steady.snd_ite (calm_openSession ..).steady ?_
  exact Steady.snd_ite (calm_proveSession ..).steady (calm_doHeartbeat ..).steady

/-! ## Arrival -/

theorem calm_countRx (s : State) (b : Bus) : Calm s (s.countRx b) := by
  cases b <;> first | exact calm_minc .. | exact Calm.refl s

theorem calm_keepDup (s : State) (q : Request) (func : Nat) (a : Option (List Byte)) : Calm s (s.keepDup q func a) := calm_host s _

theorem calm_takePlace (s : State) : Calm s s.takePlace.2 := calm_host s _

theorem calm_noteFull (s : State) (full : Bool) (a : Option (List Byte)) : Calm s (s.noteFull full a) := by
  unfold State.noteFull
  exact Calm.ite ((calm_minc ..).mflag _ _ _) (Calm.refl s)

theorem steady_serve (s : State) (q : Request) (func : Nat) (full : Bool) : Steady s (s.serve q func full) := by
  unfold State.serve
  split
  · exact ((calm_minc ..).trans (calm_answer ..)).steady
  · extract_lets v r
    refine Steady.ite ?_ (Steady.ite ?_ ?_)
    · exact (((calm_noteSequence s).trans (calm_keepDup ..)).trans (calm_answer ..)).steady
    · exact ((calm_keepDup ..).trans (calm_answer ..)).steady
    · exact (steady_perform s q func full).trans (((calm_noteFull ..).trans (calm_keepDup ..)).trans (calm_answer ..)).steady

theorem calm_relayOut (s : State) (q : Request) (func : Nat) : Calm s (s.relayOut q func) := by
  unfold State.relayOut
  exact Calm.ite (calm_answer ..) ((calm_host s _).trans (calm_toModule ..))

theorem calm_takeRelayed (s : State) (sender ident : Nat) : Calm s (s.takeRelayed sender ident) := calm_host s _

theorem calm_abandon (s : State) (bus : Bus) (ident : Nat) : Calm s (s.abandon bus ident) := (calm_noteSequence s).trans (calm_answer ..)

theorem calm_judgeRelay (s : State) : Calm s s.judgeRelay := by
  unfold State.judgeRelay
  refine Calm.foldl (fun s r => Calm.foldl (fun s m => ?_) _ s) _ s
  dsimp only
  split
  · exact calm_host s _
  · exact (calm_host s _).trans (calm_abandon ..)

theorem calm_judged (s : State) (b : Bus) : Calm s (s.judged b) := by
  cases b <;> first | exact Calm.refl s | exact calm_judgeRelay s

theorem calm_arrived {s t : State} {q : Request} {func : Nat} (h : s.arrived q func = some t) : Calm s t := by
  unfold State.arrived at h
  split at h
  · split at h
    · exact Option.some.inj h ▸ calm_takeRelayed ..
    · cases h
  · split at h
    · exact Option.some.inj h ▸ calm_countRx ..
    · cases h

theorem steady_handle (s : State) (q : Request) (func : Nat) : Steady s (s.handle q func) := by
  unfold State.handle
  extract_lets p s1 s2
  have h1 : Calm s s1 := by
    show Calm s (ite _ _ _ : Bool × State).2
    split
    · exact calm_takePlace s
    · exact Calm.refl s
  have h2 : Calm s s2 := h1.trans (calm_judged ..)
  split
  · exact h1.steady
  · split
    · exact h2.steady
    · rename_i t ht
      have h3 : Calm s t := h2.trans (calm_arrived ht)
      repeat' split
      · exact h3.steady
      · exact (h3.minc _ _).steady
      · exact h3.steady.trans (steady_serve ..)
      · exact (h3.trans (calm_relayOut ..)).steady
      · exact (h3.minc _ _).steady
      · exact h3.steady

/-! ## Segments -/

theorem calm_dropPartial (s : State) (p : Partial) : Calm s (s.dropPartial p) := calm_host s _

theorem calm_relaySegmentLate (s : State) (m src dest : Nat) : Calm s (s.relaySegmentLate m src dest) := by
  unfold State.relaySegmentLate
  extract_lets s1 l
  have h1 : Calm s s1 := calm_judgeRelay s
  split
  · exact h1
  · exact (h1.trans (calm_host s1 _)).trans (calm_abandon ..)

theorem calm_segmentLate (s : State) (bus : Bus) (src dest : Nat) : Calm s (s.segmentLate bus src dest) := by
  unfold State.segmentLate
  split
  · exact calm_relaySegmentLate ..
  · split
    · exact Calm.refl s
    · exact (calm_dropPartial ..).trans (calm_abandon ..)

theorem calm_firstSegment (s : State) (bus : Bus) (ident seq total count : Nat) :
    Calm s (s.firstSegment bus ident seq total count) := by
  unfold State.firstSegment
  extract_lets s1
  have h1 : Calm s s1 := calm_segmentLate ..
  exact Calm.ite (h1.trans (calm_abandon ..)) (h1.trans (calm_host s1 _))

theorem calm_laterSegment (s : State) (bus : Bus) (ident : Nat) (last : Bool) (seq count : Nat) :
    Calm s (s.laterSegment bus ident last seq count) := by
  unfold State.laterSegment
  split
  · exact calm_abandon ..
  · extract_lets got ok s1
    have h1 : Calm s s1 := calm_dropPartial ..
    exact Calm.ite (h1.trans (calm_abandon ..)) (Calm.ite h1 (h1.trans (calm_host s1 _)))

theorem calm_takeSegment (s : State) (bus : Bus) (ident : Nat) (kind : SegKind) (seq total count : Nat) :
    Calm s (s.takeSegment bus ident kind seq total count) := by
  unfold State.takeSegment
  dsimp only
  split
  · exact Calm.refl s
  · split
    · exact calm_minc ..
    · refine Calm.ite (calm_judgeRelay s) (Calm.ite (Calm.refl s) ?_)
      split
      · exact Calm.ite (Calm.refl s) (calm_abandon ..)
      · exact calm_firstSegment ..
      · exact calm_laterSegment ..
      · exact calm_laterSegment ..
      · exact Calm.refl s

/-! ## Heartbeats, notices, the host path, the buses, relayed requests -/

theorem calm_nextTag (s : State) : Calm s s.nextTag.2 := calm_host s _

theorem calm_sendHeartbeat (s : State) : Calm s s.sendHeartbeat := by
  unfold State.sendHeartbeat
  extract_lets t m
  exact Calm.ite (Calm.refl s) ((calm_nextTag s).trans (Calm.foldl (fun s b => calm_send s b _ m) _ t.2))

theorem calm_sendNotify (s : State) (w : Nat) : Calm s (s.sendNotify w) := by
  unfold State.sendNotify
  extract_lets _ _ _ _ _ _ t _ s1 s2
  have h2 : Calm s s2 := ((calm_nextTag s).trans (Calm.foldl (fun s b => calm_send s b _ _) _ t.2)).minc _ _
  exact Calm.ite (Calm.refl s) (h2.trans (calm_host s2 _))

theorem calm_toHost (s : State) (ch : Ch) : Calm s (s.toHost ch) := by
  unfold State.toHost
  extract_lets +onlyGivenNames out s1
  have h1 : Calm s s1 := calm_onChan ..
  clear_value out
  split
  · exact h1
  · extract_lets way d i
    exact Calm.ite ((h1.minc _ _).mflag _ _ _) (((h1.trans (calm_draw s1)).minc _ _).trans (calm_send ..))

theorem calm_goBusOff (s : State) (b : Bool) : Calm s (s.goBusOff b) := by
  unfold State.goBusOff
  dsimp only
  exact Calm.ite (Calm.refl s) (((calm_host s _).minc _ _).mflag _ _ _)

theorem calm_canChange (s : State) (b : Bool) (level : CanLevel) : Calm s (s.canChange b level) := by
  unfold State.canChange
  split
  · exact calm_goBusOff s b
  · exact calm_host s _

theorem calm_relayBack (s : State) : Calm s s.relayBack := by
  unfold State.relayBack
  extract_lets s1 whole
  have h1 : Calm s s1 := calm_judgeRelay s
  clear_value whole
  split
  · exact h1
  · extract_lets ident m s2
    have h2 : Calm s s2 := h1.trans (calm_takeRelayed ..)
    split
    · exact h2.trans (calm_sendAll ..)
    · split
      · exact h2
      · exact (h2.trans (calm_host s2 _)).trans (calm_send ..)

theorem calm_relayLate (s : State) (ident : Nat) : Calm s (s.relayLate ident) := by
  unfold State.relayLate
  split
  · exact Calm.refl s
  · exact (calm_host s _).trans (calm_onChan ..)

end Sys2Proof.Machine
end

section
namespace Sys2Proof.Machine

/-! ## The image of stage 2 (R573, R574) -/

theorem calm_setChans (l : List Ch) (f : State → Ch → Channel) (s : State) : Calm s (l.foldl (fun s ch => s.setChan ch (f s ch)) s) :=
  Calm.foldl (fun s ch => calm_setChan s ch _) l s

theorem calm_applyItem {s t : State} {runtime : Bool} {i : ImageItem} (h : s.applyItem runtime i = some t) : Calm s t := by
  unfold State.applyItem at h
  dsimp only at h
  split at h
  · split at h
    · cases h
    · split at h
      · cases h
      · exact Option.some.inj h ▸ calm_mput ..
  · split at h
    · cases h
    · split at h
      · cases h
      · exact Option.some.inj h ▸ calm_setChans ..

theorem calm_applyItems (runtime : Bool) (l : List ImageItem) (s : State) : Calm s (State.applyItems runtime l s).1 := by
  induction l generalizing s with
  | nil => exact Calm.refl s
  | cons i t ih =>
    unfold State.applyItems
    split
    · rename_i u hu
      exact (calm_applyItem hu).trans (ih u)
    · exact ih s

theorem calm_applyImage (runtime : Bool) (n : Nat) (l : List ImageItem) (s : State) : Calm s (State.applyImage runtime n l s).1 := by
  induction n generalizing l s with
  | zero => exact Calm.refl s
  | succ n ih =>
    have h1 := calm_applyItems runtime l s
    unfold State.applyImage
    dsimp only
    split
    · exact h1
    · exact h1.trans (ih _ _)

theorem calm_skipItem (slot : Nat) (s : State) (i : ImageItem) : Calm s (State.skipItem slot s i) :=
  (calm_mputBits ..).logEvent _ _ _

theorem calm_applyRegion (s : State) (r : Record) : Calm s (s.applyRegion r) := by
  unfold State.applyRegion
  split
  · rename_i sc ws crc
    refine Calm.foldl (fun s ch => ?_) _ s
    exact (calm_setChan s ch _).modRole ch (f := fun r => { r with regionBad := wordsCrc ws != crc }) fun _ => rfl
  · exact Calm.refl s

theorem calm_readHeaders (s : State) : Calm s s.readHeaders := (calm_mput ..).mput _ _ _

theorem calm_loadImage (s : State) : Calm s s.loadImage := by
  unfold State.loadImage
  extract_lets k va vb _ s1 img recs items r s2
  have h1 : Calm s s1 := calm_bring s _
  have h2 : Calm s s2 := (h1.trans (calm_applyImage _ _ items s1)).trans (Calm.foldl calm_applyRegion recs _)
  exact Calm.ite h1 (h2.trans (Calm.foldl (calm_skipItem _) _ s2))

/-! ## Channels that start (R561, R566) -/

/-- A present channel in OFF begins stage 3 within the rules (R45, R561). -/
theorem steady_beginStage3 {s : State} {ch : Ch} (hp : s.present ch = true) (ho : (s.role ch).st = .off) :
    Steady s (s.beginStage3 ch) := by
  unfold State.beginStage3
  refine Steady.trans ⟨fixed_modRole s ch _, fun h => leaseInv_modRole h ?_⟩ (calm_onChan _ _ _).steady
  obtain ⟨h1, h2, h3, h4, h5, h6, h7, h8, h9, h10, h11, h12, h13, h14, h15, h16, h17⟩ := h.rules ch
  constructor <;> grind [ChState.holdsWrites]

theorem steady_startChannel (s : State) (ch : Ch) : Steady s (s.startChannel ch) := by
  unfold State.startChannel
  split
  · rename_i hc
    simp only [Bool.and_eq_true, beq_iff_eq] at hc
    obtain ⟨⟨⟨hp, ho⟩, -⟩, -⟩ := hc
    exact steady_beginStage3 hp ho
  · exact Steady.refl s

theorem steady_completeStage2 (s : State) : Steady s s.completeStage2 := by
  unfold State.completeStage2
  extract_lets +onlyGivenNames id _ s1 s2 ctl _ _ _ s3 s4
  have h1 : Calm s s1 := calm_bring s _
  have h2 : Calm s s2 := (h1.trans (calm_loadImage s1)).trans (calm_readHeaders _)
  have h3 : Calm s s3 := h2.trans ⟨rfl, rfl, rfl, rfl, rfl⟩
  have h4 : Calm s s4 := (h3.mput _ _ _).eachChan _
  exact h4.steady.trans (Steady.foldl steady_startChannel _ s4)

theorem lawful_arbiterStarts (s : State) (b : Bringup) (r : Relay) (p : Power) :
    Lawful s { s with bring := b, arb := { s.arb with ok := true }, relay := r, power := p } := by
  refine ⟨rfl, rfl, fun h => (leaseInv_iff _).2 fun ch => ?_⟩
  obtain ⟨h1, h2, h3, h4, h5, h6, h7, h8, h9, h10, h11, h12, h13, h14, h15, h16, h17⟩ := h.rules ch
  exact ⟨h1, h2, h3, h4, h5, h6, h7, h8, h9, h10, h11, h12, h13, h14, h15, h16, h17⟩

theorem lawful_stageDone (s : State) : Lawful s s.stageDone := by
  unfold State.stageDone
  dsimp only
  refine Lawful.ite (Lawful.refl s) (Lawful.ite (Lawful.ite (calm_bring s _).lawful (Lawful.refl s)) ?_)
  refine Lawful.ite (lawful_arbiterStarts s _ _ _) (Lawful.ite (steady_completeStage2 s).lawful (Lawful.refl s))

/-! ## Failures and backoff (R566, R567) -/

theorem calm_stageFailed (s : State) (cause : Nat) : Calm s (s.stageFailed cause) := by
  unfold State.stageFailed
  extract_lets b s1 k
  have h1 : Calm s s1 := calm_logEvent ..
  exact Calm.ite (Calm.refl s) (Calm.ite (h1.trans (calm_bring s1 _)) (h1.trans (calm_bring s1 _)))

theorem calm_loadVendor (s : State) (ch : Ch) : Calm s (s.loadVendor ch) := by
  unfold State.loadVendor
  extract_lets k s1
  have h1 : Calm s s1 := Calm.ite (calm_mputBits ..) (Calm.refl s)
  exact h1.onChan _ _

theorem calm_beginStage5 (s : State) (ch : Ch) : Calm s (s.beginStage5 ch) := by
  unfold State.beginStage5
  exact Calm.ite (calm_loadVendor s ch) (Calm.refl s)

theorem steady_chanStageFailed (s : State) (ch : Ch) (cause : Nat) : Steady s (s.chanStageFailed ch cause) := by
  unfold State.chanStageFailed
  extract_lets r s1 s2 s3 k
  have h1 : Calm s s1 := calm_logEvent ..
  have h2 : Calm s s2 := h1.modRole ch (f := fun r => { r with failStage := r.stage, failCause := cause }) fun _ => rfl
  have h3 : Calm s s3 := h2.modRole ch (f := fun x => { x with attempt := x.attempt + 1, outputOn := true }) fun _ => rfl
  refine Steady.ite (Steady.refl s) (Steady.ite (Calm.ite (h3.trans (calm_beginStage5 s3 ch)) h3).steady ?_)
  refine (h2.steady.trans (steady_beginReset s2 ch .bringup)).trans (calm_modRole _ ch (f := fun x => { x with
    restarts := k, backoffEnd := some (s2.sbTime + backoffWait k), restartDue := false,
    imageFails := if r.stage = 5 && (cause = 4 || cause = 5) then x.imageFails + 1 else x.imageFails }) fun _ => rfl).steady

theorem steady_backoffOver (s : State) (ch : Ch) : Steady s (s.backoffOver ch) := by
  unfold State.backoffOver
  exact Steady.ite (Steady.refl s)
    ((calm_modRole s ch (f := fun r => { r with backoffEnd := none }) fun _ => rfl).steady.trans (steady_startChannel _ ch))

/-! ## Stages of a channel (R561 to R570) -/

/-- A channel in bring-up goes to stage `n` within the rules: up to stage 7 in any case, further once its fence is lifted. -/
theorem leaseInv_stage {s : State} {ch : Ch} {f : ChanRole → ChanRole} (h : LeaseInv s)
    (hf : (f (s.role ch)).st = (s.role ch).st ∧ (f (s.role ch)).fence = (s.role ch).fence)
    (hn : (s.role ch).fence = true → (s.role ch).st = .starting → (f (s.role ch)).stage ≤ 7) : LeaseInv (s.modRole ch f) := by
  obtain ⟨hs, hc⟩ := hf
  obtain ⟨h1, h2, h3, h4, h5, h6, h7, h8, h9, h10, h11, h12, h13, h14, h15, h16, h17⟩ := h.rules ch
  refine leaseInv_modRole h ?_
  constructor <;> grind

/-- The next stage of bring-up. -/
theorem steady_nextStage {s : State} {ch : Ch} {f : ChanRole → ChanRole}
    (hf : (f (s.role ch)).st = (s.role ch).st ∧ (f (s.role ch)).fence = (s.role ch).fence)
    (hn : LeaseInv s → (s.role ch).fence = true → (s.role ch).st = .starting → (f (s.role ch)).stage ≤ 7) : Steady s (s.modRole ch f) :=
  ⟨fixed_modRole s ch f, fun h => leaseInv_stage h hf (hn h)⟩

theorem steady_completeStage5 {s : State} {ch : Ch} (hn : (s.role ch).stage = 5) : Steady s (s.completeStage5 ch) := by
  unfold State.completeStage5
  dsimp only
  refine Steady.trans (steady_nextStage ⟨rfl, rfl⟩ fun _ _ _ => ?_) (calm_onChan _ _ _).steady
  show (s.role ch).stage + 1 ≤ 7
  omega

theorem steady_stage5 {s : State} {ch : Ch} (hn : (s.role ch).stage = 5) : Steady s (s.stage5 ch) := by
  unfold State.stage5
  extract_lets v s1 s2 good s3
  have h1 : Calm s s1 := Calm.ite (calm_loadVendor s ch) (Calm.refl s)
  have h2 : Calm s s2 := h1.onChan _ _
  have h3 : Calm s s3 := h2.onChan _ _
  refine Steady.ite (steady_chanStageFailed s ch 4) (Steady.ite h2.steady (Steady.ite ?_ ?_))
  · exact h3.steady.trans (steady_completeStage5 (by rw [h3.stage, hn]))
  · exact h3.steady.trans (steady_chanStageFailed s3 ch 5)

theorem steady_beginStage7 (s : State) (ch : Ch) : Steady s (s.beginStage7 ch) := by
  unfold State.beginStage7
  extract_lets s1
  have h1 : Steady s s1 := steady_nextStage ⟨rfl, rfl⟩ fun _ _ _ => Nat.le_refl 7
  exact Steady.ite (Steady.ite (h1.trans (calm_startResync s1 ch).steady) (h1.trans (calm_stale s1 ch true).steady)) h1

theorem steady_completeStage7 (s : State) (ch : Ch) : Steady s (s.completeStage7 ch) := by
  unfold State.completeStage7
  extract_lets _ s1
  have h1 : Calm s s1 := Calm.ite (((calm_relay s _).onChan _ _).trans (calm_stale _ ch true)) (Calm.refl s)
  refine Steady.ite ?_ (h1.steady.trans (still_beginStage8 s1 ch).toSteady)
  exact (h1.modRole ch (f := fun r => { r with waitNight := true }) fun _ => rfl).steady

theorem steady_completeStage9 {s : State} {ch : Ch} (hs : (s.role ch).st = .starting) (hn : (s.role ch).stage = 9) :
    Steady s (s.completeStage9 ch) := by
  unfold State.completeStage9
  extract_lets s1
  have h1 : Calm s s1 := calm_modRole s ch (f := fun r => { r with ready := true, waitArb := true }) fun _ => rfl
  split
  · rename_i hok
    exact h1.steady.trans (steady_assignRole hok ((h1.st ch).trans hs) ((h1.stage ch).trans hn))
  · exact h1.steady

theorem steady_chanStageDone (s : State) (ch : Ch) (captureTrained : Bool) (islands : Nat) :
    Steady s (s.chanStageDone ch captureTrained islands) := by
  unfold State.chanStageDone
  extract_lets r next
  have h0 := Steady.refl s
  have hnext : ∀ u : State, Calm s u → (s.role ch).stage ≤ 6 ∨ (s.role ch).stage = 8 → Steady u (next u) := fun u c hk => by
    refine steady_nextStage ⟨rfl, rfl⟩ fun h hf hs => ?_
    have := (h.rules ch).fenceStage hf hs
    show (u.role ch).stage + 1 ≤ 7
    rw [c.stage] at this ⊢
    omega
  split
  · exact h0
  rename_i hr
  have hs : (s.role ch).st = .starting := by
    simp only [Bool.or_eq_true, not_or, bne_iff_ne, ne_eq, not_not] at hr
    exact hr.1.1.1
  split
  · rename_i h3
    exact hnext s (Calm.refl s) (.inl (by show r.stage ≤ 6; omega))
  split
  · rename_i h4
    refine Steady.trans ?_ (calm_beginStage5 _ ch).steady
    generalize hu : (if captureTrained then s
      else s.onChan ch fun _ c => { c.log 0x11 0 with cap := { c.cap with stopped := true } }) = u
    have c : Calm s u := hu ▸ Calm.ite (Calm.refl s) (calm_onChan ..)
    exact c.steady.trans (hnext u c (.inl (by show r.stage ≤ 6; omega)))
  split
  · exact steady_stage5 (by assumption)
  split
  · exact steady_beginStage7 s ch
  split
  · exact steady_completeStage7 s ch
  split
  · rename_i h8
    have c : Calm s (s.onChan ch fun _ c => c.put 0x4000 0x20 (islands % 2 ^ 29)) := calm_onChan ..
    exact Steady.ite (c.steady.trans (hnext _ c (.inr h8))) h0
  split
  · exact steady_completeStage9 hs (by assumption)
  · exact h0

/-! ## Module-wide resets (R576 to R581) -/

/-- Freshly reset roles keep the rules. -/
theorem leaseInv_wiped {t : State} (ha : t.arb = State.reset.arb) (hA : t.roleA = State.reset.roleA) (hB : t.roleB = State.reset.roleB) :
    LeaseInv t := by
  have hr : ∀ ch, (t.role ch) = State.reset.role ch := fun ch => by cases ch; exact hA; exact hB
  have hs : ∀ ch, (State.reset.role ch).st = .off := fun ch => by cases ch <;> rfl
  have hf : ∀ ch, (State.reset.role ch).fence = true := fun ch => by cases ch <;> rfl
  refine (leaseInv_iff t).2 fun ch => ?_
  have h1 := hs ch
  have h2 := hf ch
  have e1 : State.reset.arb.holder = none := rfl
  have e2 : State.reset.arb.drainer = none := rfl
  have e3 : State.reset.arb.pending = none := rfl
  have e4 : State.reset.arb.hold = none := rfl
  have e5 : State.reset.arb.back = none := rfl
  have e6 : State.reset.arb.window = none := rfl
  have e7 : State.reset.arb.drill = none := rfl
  unfold State.Rules
  rw [ha, hr]
  constructor <;> grind [ChState.holdsWrites]

theorem lawful_wipe (s : State) (kind stage : Nat) : Lawful s (s.wipe kind stage) :=
  ⟨rfl, rfl, fun _ => leaseInv_wiped rfl rfl rfl⟩

theorem calm_beginBringUp (s : State) : Calm s s.beginBringUp := calm_logEvent ..

theorem lawful_moduleResetNow (s : State) (kind : Nat) : Lawful s (s.moduleResetNow kind) := by
  unfold State.moduleResetNow
  extract_lets old s1
  have h1 : Calm s s1 := Calm.ite (Calm.refl s) (calm_logEvent ..)
  exact (h1.eachChan _).lawful.trans (lawful_wipe _ kind 1)

theorem lawful_powerUp (s : State) : Lawful s s.powerUp := by
  unfold State.powerUp
  extract_lets +onlyGivenNames kind _ s1
  have h1 : Calm s s1 := calm_power s _
  exact Lawful.ite (Lawful.refl s) (h1.lawful.trans ((lawful_wipe s1 kind 0).trans (calm_beginBringUp _).lawful))

theorem lawful_losePower (s : State) : Lawful s s.losePower := by
  unfold State.losePower
  extract_lets s1
  refine Lawful.ite (Lawful.refl s) ((lawful_wipe s 1 0).trans (u := _) (Calm.lawful ?_))
  exact ⟨rfl, rfl, rfl, rfl, rfl⟩

theorem lawful_resetPin (s : State) (lowUs : Nat) (released : Bool) : Lawful s (s.resetPin lowUs released) := by
  unfold State.resetPin
  extract_lets +onlyGivenNames s1
  split
  · exact Lawful.refl s
  · extract_lets +onlyGivenNames _ s2
    have h2 : Lawful s s2 := Lawful.ite (Lawful.refl s) ((lawful_moduleResetNow s 4).trans (calm_power _ _).lawful)
    exact Lawful.ite (h2.trans ((calm_power s2 _).trans (calm_beginBringUp _)).lawful) h2

theorem lawful_resetBegin (s : State) : Lawful s (if s.bring.resetDue then (s.moduleResetNow 3).beginBringUp else s) :=
  Lawful.ite ((lawful_moduleResetNow s 3).trans (calm_beginBringUp _).lawful) (Lawful.refl s)

/-! ## Output trips, the wake time, the flash, the event log -/

theorem steady_outputTrip (s : State) (ch : Ch) : Steady s
    (if (s.role ch).st == .starting && (s.role ch).stage == 3 && (s.role ch).outputOn then
      (((s.setRole ch { s.role ch with outputOn := false }).mflag 0x1200 6 (2 ^ (4 + ch.num))).logEvent 0 5 (1 + ch.num)).chanStageFailed
        ch 1
    else s.tripChan ch) := by
  have c : Calm s (s.setRole ch { s.role ch with outputOn := false }) := calm_setRole s ch rfl
  exact Steady.ite (((c.mflag _ _ _).logEvent _ _ _).steady.trans (steady_chanStageFailed _ ch 1)) (steady_tripChan s ch)

theorem steady_judgeWake (s : State) : Steady s s.judgeWake := by
  unfold State.judgeWake
  extract_lets w
  split
  · exact Steady.refl s
  · exact Steady.ite ((calm_mput ..).steady.trans (steady_wakeBy _ .time)) (Steady.refl s)

theorem calm_setImage (s : State) (slotB : Bool) (b : List Byte) : Calm s (s.setImage slotB b) := calm_flash s _

theorem calm_imageResult (s : State) (r : Nat) : Calm s (s.imageResult r) := calm_mputBits ..

theorem calm_saveDone (s : State) (ok : Bool) : Calm s (s.saveDone ok) := by
  unfold State.saveDone
  split
  · extract_lets +onlyGivenNames _ s1 s2
    have h1 : Calm s s1 := calm_flash s _
    have h2 : Calm s s2 := h1.trans (calm_setImage ..)
    refine Calm.ite ?_ ?_
    · exact (((h2.trans (calm_bring s2 _)).trans (calm_imageResult _ 0)).mputBits _ _ _ _ _).trans (calm_readHeaders _)
    · exact ((h1.trans (calm_setImage ..)).trans (calm_imageResult _ 1)).trans (calm_readHeaders _)
  · exact Calm.refl s

theorem calm_invalidateDone (s : State) : Calm s s.invalidateDone := by
  unfold State.invalidateDone
  split
  · exact Calm.ite (Calm.refl s) ((((calm_flash s _).trans (calm_setImage ..)).trans (calm_imageResult _ 0)).trans (calm_readHeaders _))
  · exact Calm.refl s

theorem calm_setVendor (s : State) (k : Nat) (v : VendorSlot) : Calm s (s.setVendor k v) := calm_flash s _

theorem calm_microDone (s : State) (ok : Bool) : Calm s (s.microDone ok) := by
  unfold State.microDone
  extract_lets +onlyGivenNames k v result
  have hr : ∀ u r, Calm u (result u r) := fun u r => (calm_flash u _).mputBits _ _ _ _ _
  split
  · exact Calm.ite ((calm_setVendor ..).trans (hr _ _)) ((calm_setVendor ..).trans (hr _ _))
  · refine Calm.ite (hr s _) (Calm.ite (hr s _) (Calm.ite (hr s _) ?_))
    refine Calm.trans (((calm_setVendor ..).trans (calm_flash _ _)).trans (Calm.foldl (fun s ch => ?_) _ _)) (hr _ _)
    exact calm_modRole s ch (f := fun r => { r with imageFails := 0 }) fun _ => rfl
  · exact Calm.refl s

theorem calm_stepB (s : State) : Calm s s.stepB := by
  unfold State.stepB
  extract_lets +onlyGivenNames _ s1
  have h1 : Calm s s1 := calm_power s _
  split
  · exact (((h1.trans (calm_flash s1 _)).trans (calm_setImage ..)).trans (calm_imageResult _ 2)).trans (calm_readHeaders _)
  · exact h1

theorem calm_writeLog (s : State) : Calm s s.writeLog := by
  unfold State.writeLog
  split
  · exact Calm.refl s
  · extract_lets +onlyGivenNames i t t2 _ s1
    have h1 : Calm s s1 := ⟨rfl, rfl, rfl, rfl, rfl⟩
    exact Calm.ite (Calm.refl s) (Calm.ite (h1.trans (calm_stepB s1)) h1)

end Sys2Proof.Machine
end

section
namespace Sys2Proof.Machine

/-! ## The outcome of every command

One theorem says of each command when it stops and, where it runs, that its next state is lawful; the outcome rules, the frame of the
queue and the unit, and the invariant of roles are read off it. -/

/-- What a command that names an absent channel (`absent`) or an existing part (`part`) answers. -/
structure Sound (s : State) (absent part : Bool) (r : Host.Outcome State Fault Refusal) : Prop where
  channel : absent = true → r = .fault .noSuchChannel
  missing : absent = false → part = false → r = .fault .noSuchPart
  runs : absent = false → part = true → ∃ t, r = .next t ∧ Lawful s t

theorem sound_next {s t : State} (h : Lawful s t) : Sound s false true (.next t) :=
  ⟨nofun, nofun, fun _ _ => ⟨t, rfl, h⟩⟩

theorem sound_finish {s t : State} (h : Lawful s t) : Sound s false true (.next (s.finish t)) :=
  sound_next (h.trans (calm_finish s t).lawful)

/-- A command of a channel that names no part. -/
theorem sound_present {s t : State} {ch : Ch} (h : s.present ch = true → Lawful s t) :
    Sound s (!s.present ch) true (if !s.present ch then .fault .noSuchChannel else .next t) := by
  cases hp : s.present ch
  · exact ⟨fun _ => rfl, nofun, nofun⟩
  · exact ⟨nofun, nofun, fun _ _ => ⟨t, rfl, h hp⟩⟩

theorem sound_presentFinish {s t : State} {ch : Ch} (h : Steady s t) :
    Sound s (!s.present ch) true (if !s.present ch then .fault .noSuchChannel else .next (s.finish t)) :=
  sound_present fun _ => h.lawful.trans (calm_finish s t).lawful

/-- A command that names a part, which the model finds as the statement does. -/
theorem sound_part {s t : State} {part found : Bool} (hp : found = part) (h : Lawful s t) :
    Sound s false part (if !found then .fault .noSuchPart else .next t) := by
  subst hp
  cases found
  · exact ⟨nofun, fun _ _ => rfl, nofun⟩
  · exact ⟨nofun, nofun, fun _ _ => ⟨t, rfl, h⟩⟩

/-- A command of a channel's part. -/
theorem sound_presentPart {s t : State} {ch : Ch} {part found : Bool} (hp : found = part) (h : Lawful s t) :
    Sound s (!s.present ch) part
      (if !s.present ch then .fault .noSuchChannel else if !found then .fault .noSuchPart else .next t) := by
  cases s.present ch
  · exact ⟨fun _ => rfl, nofun, nofun⟩
  · exact sound_part hp h

theorem sound_onCh {s : State} {ch : Ch} {part found : Bool} {f : Ctx → Channel → Channel} (hp : found = part) :
    Sound s (!s.present ch) part (onCh s ch found f) :=
  sound_presentPart hp ((calm_onChan s ch f).trans (calm_orderLog _ _)).lawful

theorem sound_onPipe {s : State} {ch : Ch} {part found : Bool} {f : Ctx → Channel → Channel} (hp : found = part) :
    Sound s (!s.present ch) part (onPipe s ch found f) := sound_onCh hp

theorem sound_bringsFrame {s : State} {ch : Ch} {part found : Bool} {g : State → State} {f : Ctx → Channel → Channel}
    (hp : found = part) (hg : ∀ u, Calm u (g u)) : Sound s (!s.present ch) part (bringsFrame s ch found g f) := by
  have c : Calm s (g (s.onChan ch f)) := (calm_onChan s ch f).trans (hg _)
  have w : ∀ l, Lawful s (s.finish ((g (s.onChan ch f)).wakeByAll l)) := fun l =>
    (c.still.trans (still_wakeByAll _ l)).lawful.trans (calm_finish s _).lawful
  unfold bringsFrame
  cases s.present ch
  · exact ⟨fun _ => rfl, nofun, nofun⟩
  · dsimp only
    subst hp
    cases found
    · exact ⟨nofun, fun _ _ => rfl, nofun⟩
    · refine ⟨nofun, nofun, fun _ _ => ?_⟩
      simp only [Bool.not_true, Bool.false_eq_true, if_false]
      split
      · exact ⟨_, rfl, (c.trans (calm_orderLog s _)).lawful⟩
      · exact ⟨_, rfl, w _⟩

theorem sound_hostRow (q : Request) (func : Nat) (s : State) : Sound s false true (hostRow q func s) :=
  sound_finish (steady_handle s q func).lawful

theorem sound_moduleRow (h : AuthHdr) (idx sub v : Nat) (s : State) : Sound s false true (moduleRow h idx sub v s) :=
  sound_hostRow _ 2 s

theorem sound_channelRow (h : AuthHdr) (ch : Ch) (idx sub v : Nat) (s : State) : Sound s false true (channelRow h ch idx sub v s) :=
  sound_hostRow _ 2 s

/-! The parts as the commands find them and as R32 numbers them. -/

theorem blt_eq_within (n k : Nat) : Nat.blt n (k + 1) = within 0 k n := by
  cases n <;> rfl

theorem decide_eq_within (lo hi n : Nat) : (lo ≤ n && n ≤ hi : Bool) = within lo hi n := by
  rw [Bool.eq_iff_iff]
  simp [within]

theorem isPort_eq (p : Nat) : isPort p = (within 1 54 p || dropPortOk p) := by
  rw [isPort, decide_eq_within, decide_eq_within, dropPortOk]

theorem isTier_eq (e : Nat) : isTier e = tierOk e := by
  rw [isTier, isPort_eq, tierOk]

theorem isLine_eq (p : Nat) : isLine p = linePortOk p := by
  rw [isLine, isPort_eq, linePortOk, Bool.eq_iff_iff]
  simp [within, dropPortOk]
  omega

theorem isFront_eq (p : Nat) : isFront p = frontOk p := rfl

theorem isPaused_eq (p : Nat) : isPaused p = flowPortOk p := rfl

theorem frame_port_eq (p : Nat) : (isFront p || (65 ≤ p && p ≤ 80 : Bool)) = (frontOk p || dropPortOk p) := by
  rw [isFront_eq, decide_eq_within, dropPortOk]

theorem watch_eq_within (w : Nat) : (decide (w < 1) || decide (16 < w)) = !within 1 16 w := by
  rw [← decide_eq_within, Bool.eq_iff_iff]
  simp

theorem domainExists_eq (d : Domain) : domainExists d = domainOk d := by cases d <;> rfl

/-! Commands with a form of their own. -/

theorem sound_watch {s t : State} {w : Nat} (h : Lawful s t) :
    Sound s false (within 1 16 w) (if w < 1 || 16 < w then .fault .noSuchPart else .next t) := by
  rw [watch_eq_within]
  exact sound_part rfl h

theorem sound_busOff (e : CanChange) (s : State) :
    Sound s false (e.bus == .canA || e.bus == .canB) (execBusOff e s) := by
  have c : ∀ b, Lawful s (s.finish (s.canChange b e.level)) := fun b => ((calm_canChange s b e.level).trans (calm_finish s _)).lawful
  unfold execBusOff
  cases hb : e.bus with
  | canA => exact sound_next (c false)
  | canB => exact sound_next (c true)
  | eth | relay => exact ⟨nofun, fun _ _ => rfl, nofun⟩

theorem sound_busOffRecovery (b : Bus) (s : State) : Sound s false (b == .canA || b == .canB) (execBusOffRecovery b s) := by
  cases b with
  | canA | canB => exact sound_next (calm_host s _).lawful
  | eth | relay => exact ⟨nofun, fun _ _ => rfl, nofun⟩

theorem sound_resyncComplete (s : State) : Sound s false true (execResyncComplete s) := by
  unfold execResyncComplete
  split
  · exact sound_next (Lawful.refl s)
  · rename_i r hr
    split
    · exact sound_finish ((calm_relay s _).trans (calm_stale _ r false)).lawful
    · exact sound_next (Lawful.refl s)

theorem sound_setPointUpdate (ch : Ch) (periods silent : List Nat) (measMv tj : Nat) (s : State) :
    Sound s (!s.present ch) true (execSetPointUpdate ch periods silent measMv tj s) :=
  sound_presentFinish ((calm_onChan s ch _).trans (calm_updateLoop _ ch _ measMv)).steady

end Sys2Proof.Machine
end

section
namespace Sys2Proof.Machine

theorem calm_inputChange (s : State) (i : Inlet) (m : InputMeas) : Calm s (match inputTarget m with
    | none => s
    | some t => if s.power.looped then s.moveInput i ((s.input i).step t) else s) := by
  split
  · exact Calm.refl s
  · exact Calm.ite (calm_moveInput ..) (Calm.refl s)

theorem calm_contactHoldEnd (s : State) (c : Contact) : Calm s (match c with
    | .fault => { s with power := { s.power with fault := { s.power.fault with held := false } } }
    | .role => { s with power := { s.power with role := { s.power.role with held := false } } }) := by
  cases c <;> exact calm_power s _

theorem calm_partnerCopy (s : State) (ch : Ch) : Calm s (s.partnerCopy ch) := by
  unfold State.partnerCopy
  exact calm_onChan ..

theorem sound_frameReceive (ch : Ch) (port : Nat) (bytes : List Byte) (err : LineErr) (fec : Nat) (s : State) :
    Sound s (!s.present ch) (frontOk port || dropPortOk port) (execFrameReceive ch port bytes err fec s) :=
  sound_bringsFrame (frame_port_eq port) fun u => calm_compareSplit u port

theorem sound_lacpduReceive (ch : Ch) (port : Nat) (info : LacpInfo) (s : State) :
    Sound s (!s.present ch) (frontOk port) (execLacpduReceive ch port info s) :=
  sound_bringsFrame (isFront_eq port) fun u => calm_compareSplit u port

theorem sound_pauseReceive (ch : Ch) (port : Nat) (m : MacControl) (s : State) :
    Sound s (!s.present ch) (flowPortOk port) (execPauseReceive ch port m s) :=
  sound_bringsFrame (isPaused_eq port) Calm.refl

theorem sound_markerResponse (ch : Ch) (port : Nat) (s : State) :
    Sound s (!s.present ch) (frontOk port) (execMarkerResponse ch port s) :=
  sound_bringsFrame (isFront_eq port) Calm.refl

/-- Every command stops where it names an absent channel or a part that does not exist, and else answers a lawful next state. -/
theorem sound_exec (i : Instr) (s : State) : Sound s (namesAbsent s i) (partExists i) (exec i s) := by
  cases i with
  | read | write | readBlock | writeBlock | snapshot | sessionOpen | sessionProve | heartbeatRequest | frameFromHost
  | relayRequest =>
    exact sound_hostRow _ _ s
  | moduleReset | channelReset | portReset | save | invalidate | erase | commit | switch | rearm | isolate | release
  | requestNight | requestNoon | requestDay =>
    exact sound_moduleRow _ _ _ _ s
  | clrHighWater | raise | tableRead | tableWrite | tableInsert | tableDelete | tableSearch | tableNext | flushByPort | ageNow
  | flushVrf | cleanFilter | lpmSearch | searchEntryRead | searchEntryWrite | searchEntryClear | searchCommandSearch | nextMatch
  | clearAll | flush | freeze | captureRelease | locate | checkStart | abort | incrementWrite | offsetStep | timeSet
  | copyPartner | timestampPop =>
    exact sound_channelRow _ _ _ _ _ s
  | junctionOvertemp | releaseCells | wordRepair | controlStoreScrub | timeTrigger | shaperRefill | learn | move
  | stashMigration | ageTick | sweepRead | ageDelete | tableCommandDone | searchUpdateApply | searchScrub | captureIntake
  | blockAged | blockWriteDone | timeTick | ppsOutFall | ppsInEdge | captureCommandDone | directionFlush =>
    exact sound_onCh rfl
  | islandLockLoss | islandRelock | pauseExpire | pauseRefresh | lockLoss | linkUp | lacpPeriodic | partnerExpire
  | linkDownHoldExpire | anTimeout | anComplete | receiveLowPowerIdle | plcaBeacon | transmitOpportunity | toTimerExpire
  | plcaBeaconReceive | plcaBeaconLoss | collision | lateCollision | collisionBackoffEnd | falseCarrier | fabricFrameReceive
  | beaconReceive | beaconSend | beaconExpire | cutThroughStart | cutThroughEnd =>
    exact sound_onCh rfl
  | lpiEnter | lpiWake | launchStart | lateLaunch => exact sound_onCh (decide_eq_within ..)
  | sequencerResetEnd | requesterGrant | requesterWaitTimeout | checkChunk | checkJobEnd => exact sound_onCh (blt_eq_within ..)
  | flushFinished => exact sound_onCh (isTier_eq _)
  | transmitStart | frameSent => exact sound_onCh (isLine_eq _)
  | parseFrame | lookup | routeRound | associativeSearch | dispatch | framelessDispatch | policeFrame | admitCopy
  | matchingRound | recirculate | egressEdit =>
    exact sound_onPipe rfl
  | nextWord | jumpWord | branchT | branchF | callWord | returnWord | endWord | dropWord | trapWord | rttWord | stepWatchdog
  | resultRelease =>
    exact sound_onPipe (blt_eq_within ..)
  | selectFrame => exact sound_onPipe (isTier_eq _)
  | frameReceive => exact sound_frameReceive ..
  | lacpduReceive => exact sound_lacpduReceive ..
  | pauseReceive => exact sound_pauseReceive ..
  | markerResponse => exact sound_markerResponse ..
  | segmentTimeout => exact sound_finish (calm_segmentLate s _ _ _).lawful
  | sequenceError => exact sound_finish (calm_takeSegment s _ _ _ _ _ _).lawful
  | challengeExpire | sessionIdleExpire | lockoutEnd | managementLinkChange => exact sound_next (calm_host s _).lawful
  | moduleHeartbeat => exact sound_finish (calm_sendHeartbeat s).lawful
  | notify => exact sound_watch ((calm_sendNotify s _).trans (calm_finish s _)).lawful
  | notifyIntervalEnd => exact sound_watch (((calm_host s _).trans (calm_sendNotify _ _)).trans (calm_finish s _)).lawful
  | frameToHost => exact sound_presentFinish (calm_toHost s _).steady
  | busOff => exact sound_busOff _ s
  | busOffRecovery => exact sound_busOffRecovery _ s
  | relayAnswer => exact sound_finish (calm_relayBack s).lawful
  | relayTimeout => exact sound_finish (calm_relayLate s _).lawful
  | postedWriteApply =>
    exact sound_presentPart (domainExists_eq _) (((calm_onChan s _ _).trans (calm_crossCheck _ _)).trans (calm_orderLog s _)).lawful
  | coldStart | brownOut => exact sound_finish (lawful_powerUp s)
  | resetPin => exact sound_finish (lawful_resetPin s _ _)
  | moduleResetBegin => exact sound_finish (lawful_resetBegin s)
  | channelRestart => exact sound_presentFinish (steady_startChannel s _).iteCalm
  | stageComplete p =>
    cases p with
    | sb => exact sound_finish (lawful_stageDone s)
    | chan ch => exact sound_presentFinish (steady_chanStageDone s ch _ _)
  | stageFail p =>
    cases p with
    | sb => exact sound_finish (calm_stageFailed s _).lawful
    | chan ch => exact sound_presentFinish (steady_chanStageFailed s ch _)
  | backoffExpire p =>
    cases p with
    | sb => exact sound_finish (Calm.ite (Calm.refl s) (calm_bring s _)).lawful
    | chan ch => exact sound_presentFinish (steady_backoffOver s ch)
  | outputTrip p =>
    cases p with
    | sb => exact sound_finish (lawful_tripSb s)
    | chan ch => exact sound_presentFinish (steady_outputTrip s ch)
  | saveDone => exact sound_finish (calm_saveDone s _).lawful
  | microcodeCommandDone => exact sound_finish (calm_microDone s _).lawful
  | eventLogWrite => exact sound_finish (calm_writeLog s).lawful
  | resync h =>
    cases h with
    | some h => exact sound_moduleRow h _ _ _ s
    | none => exact sound_finish (calm_autoResync s).lawful
  | resyncComplete => exact sound_resyncComplete s
  | heartbeatArrival => exact sound_presentFinish (steady_heartbeat s _)
  | heartbeatSlot => exact sound_finish (steady_slot s).lawful
  | selfDeclare => exact sound_presentFinish (steady_selfDeclare s _ _)
  | leaseLapse => exact sound_finish (steady_leaseLapse s).lawful
  | fenceConfirm => exact sound_presentFinish (steady_fenceConfirm s _)
  | fenceFault => exact sound_presentFinish (steady_fenceFault s _)
  | recoveryWindowEnd => exact sound_finish (steady_windowEnd s).lawful
  | arbiterLost => exact sound_finish (lawful_loseArbiter s)
  | arbiterReturn => exact sound_finish (lawful_returnArbiter s)
  | holdTurnExpire => exact sound_finish (steady_turnExpire s).lawful
  | drillDue => exact sound_finish (steady_drillDue s).lawful
  | digestItemDone => exact sound_finish (steady_digestItem s).lawful
  | releasePoint => exact sound_finish (steady_releasePoint s).lawful
  | drainEnd => exact sound_finish (steady_drainEnd s).lawful
  | drainComplete => exact sound_finish (steady_drainComplete s).lawful
  | deltaApply => exact sound_finish (calm_applyOne s).lawful
  | relayDown => exact sound_finish (calm_relayLost s).lawful
  | nightDrainEnd => exact sound_finish (steady_sleep s).lawful
  | wakeTimeDue => exact sound_finish (steady_judgeWake s).lawful
  | duskEntry => exact sound_finish (calm_duskEntry s).lawful
  | setPointUpdate => exact sound_setPointUpdate _ _ _ _ _ s
  | supplyControllerFault => exact sound_finish (Calm.ite (calm_loseController s) (Calm.refl s)).lawful
  | inputChange => exact sound_finish (calm_inputChange s _ _).lawful
  | returningComplete => exact sound_finish (calm_returned s _).lawful
  | powerLoss => exact sound_finish (lawful_losePower s)
  | sbOutputRetry => exact sound_finish (calm_retrySb s _).lawful
  | supplyMeasure => exact sound_finish (calm_measure s _).lawful
  | mateLoopOpen => exact sound_finish (((calm_power s _).trans (calm_moveInput _ .a _)).trans (calm_moveInput _ .b _)).lawful
  | mateLoopClose => exact sound_finish (calm_power s _).lawful
  | contactHoldEnd => exact sound_finish (calm_contactHoldEnd s _).lawful
  | tokenHandover => exact sound_part rfl (steady_handToken s _).lawful
  | partnerTimeCopy => exact sound_present fun _ => ((calm_partnerCopy s _).trans (calm_orderLog s _)).lawful
  | portResetDone => exact sound_finish (calm_mputBits s _ _ _ _ _).lawful
  | invalidateDone => exact sound_finish (calm_invalidateDone s).lawful

/-- A command that answers a next state answers a lawful one. -/
theorem lawful_exec {i : Instr} {s t : State} (h : exec i s = .next t) : Lawful s t := by
  have hs := sound_exec i s
  cases ha : namesAbsent s i
  · cases hp : partExists i
    · rw [hs.missing ha hp] at h
      cases h
    · obtain ⟨u, hu, hl⟩ := hs.runs ha hp
      rw [hu] at h
      cases h
      exact hl
  · rw [hs.channel ha] at h
    cases h

/-- The rules of roles do not read the queue. -/
theorem leaseInv_queue {s : State} {l : List Instr} : LeaseInv { s with pending := l } ↔ LeaseInv s := Iff.rfl

end Sys2Proof.Machine
end

section
namespace Sys2Proof.Machine

/-- A channel that the variant has is present. -/
theorem not_absent {s : State} {ch : Ch} (h : chanOk s.unit.variant ch = true) : (!s.present ch) = false := by
  cases ch
  · rfl
  · exact congrArg not h

/-- A well-formed command names a present channel and an existing part, where it names one. -/
theorem wellFormed_names {s : State} {i : Instr} (h : wellFormed s.unit.variant i = true) :
    namesAbsent s i = false ∧ partExists i = true := by
  cases i with
  | read | write | readBlock | writeBlock | snapshot | sessionOpen | sessionProve | heartbeatRequest | frameFromHost
  | segmentTimeout | sequenceError | challengeExpire | sessionIdleExpire | lockoutEnd | moduleHeartbeat | relayRequest
  | relayAnswer | relayTimeout | coldStart | brownOut | resetPin | moduleReset | moduleResetBegin | channelReset | portReset
  | save | saveDone | invalidate | erase | commit | microcodeCommandDone | eventLogWrite | switch | rearm | isolate | release
  | resyncComplete | heartbeatSlot | leaseLapse | recoveryWindowEnd | arbiterLost | arbiterReturn | holdTurnExpire | drillDue
  | digestItemDone | releasePoint | drainEnd | drainComplete | deltaApply | relayDown | requestNight | nightDrainEnd
  | requestNoon | requestDay | wakeTimeDue | duskEntry | clrHighWater | supplyControllerFault | inputChange | returningComplete
  | powerLoss | sbOutputRetry | supplyMeasure | mateLoopOpen | raise | tableRead | tableWrite | tableInsert | tableDelete
  | tableSearch | tableNext | flushByPort | ageNow | flushVrf | cleanFilter | lpmSearch | searchEntryRead | searchEntryWrite
  | searchEntryClear | searchCommandSearch | nextMatch | clearAll | flush | freeze | captureRelease | locate | checkStart
  | abort | incrementWrite | offsetStep | timeSet | copyPartner | timestampPop | mateLoopClose | managementLinkChange
  | contactHoldEnd | portResetDone | invalidateDone =>
    exact ⟨rfl, rfl⟩
  | notify | busOff | busOffRecovery | tokenHandover | notifyIntervalEnd => exact ⟨rfl, h⟩
  | frameToHost | channelRestart | heartbeatArrival | selfDeclare | fenceConfirm | fenceFault | directionFlush | parseFrame
  | lookup | routeRound | associativeSearch | dispatch | framelessDispatch | controlStoreScrub | timeTrigger | policeFrame
  | admitCopy | matchingRound | recirculate | egressEdit | shaperRefill | learn | move | stashMigration | ageTick | sweepRead
  | ageDelete | tableCommandDone | searchUpdateApply | searchScrub | captureIntake | blockAged | blockWriteDone | timeTick
  | ppsOutFall | ppsInEdge | partnerTimeCopy | captureCommandDone =>
    exact ⟨not_absent h, rfl⟩
  | junctionOvertemp | releaseCells => exact ⟨not_absent (Bool.and_eq_true_iff.1 h).1, rfl⟩
  | postedWriteApply | islandLockLoss | frameReceive | pauseReceive | pauseExpire | pauseRefresh | lacpduReceive
  | markerResponse | lacpPeriodic | partnerExpire | lockLoss | linkDownHoldExpire | linkUp | anTimeout | anComplete | lpiEnter
  | lpiWake | flushFinished | plcaBeacon | transmitOpportunity | toTimerExpire | plcaBeaconReceive | plcaBeaconLoss | collision
  | lateCollision | collisionBackoffEnd | fabricFrameReceive | beaconReceive | beaconSend | beaconExpire | cutThroughStart
  | cutThroughEnd | nextWord | jumpWord | branchT | branchF | callWord | returnWord | endWord | dropWord | trapWord | rttWord
  | stepWatchdog | sequencerResetEnd | resultRelease | selectFrame | transmitStart | frameSent | launchStart | lateLaunch
  | requesterGrant | requesterWaitTimeout | checkChunk | checkJobEnd | islandRelock | falseCarrier | receiveLowPowerIdle =>
    obtain ⟨hc, hp⟩ := Bool.and_eq_true_iff.1 h
    exact ⟨not_absent hc, hp⟩
  | wordRepair =>
    obtain ⟨h, ha⟩ := Bool.and_eq_true_iff.1 h
    obtain ⟨hc, hp⟩ := Bool.and_eq_true_iff.1 h
    exact ⟨not_absent hc, Bool.and_eq_true_iff.2 ⟨hp, ha⟩⟩
  | setPointUpdate =>
    simp only [wellFormed, Bool.and_eq_true, and_assoc] at h
    exact ⟨not_absent h.1, rfl⟩
  | resync => exact ⟨rfl, rfl⟩
  | stageComplete p | stageFail p =>
    cases p with
    | sb => exact ⟨rfl, rfl⟩
    | chan ch => exact ⟨not_absent (Bool.and_eq_true_iff.1 h).1, rfl⟩
  | backoffExpire p | outputTrip p =>
    cases p with
    | sb => exact ⟨rfl, rfl⟩
    | chan ch => exact ⟨not_absent h, rfl⟩

end Sys2Proof.Machine

/-- Settles O7: every channel is in OFF after reset, fenced, and the arbiter has given nothing; the stores are as built. -/
theorem invariantsAtReset : Obligations.InvariantsAtReset := by
  refine ⟨⟨?_, ?_⟩, ?_, ?_⟩ <;> decide

/-- Settles O2: every next state is lawful, which includes the queue and the unit. -/
theorem queueAndUnitKept : Obligations.QueueAndUnitKept := by
  intro i s t h
  have l := Sys2Proof.Machine.lawful_exec h
  exact ⟨l.pending, l.unit⟩

/-- Settles O3, by the outcome of each command. -/
theorem outcomeOfEveryCommand : Obligations.OutcomeOfEveryCommand := by
  intro i s
  have h := Sys2Proof.Machine.sound_exec i s
  refine ⟨h.channel, h.missing, fun ha hp => ?_⟩
  obtain ⟨t, ht, -⟩ := h.runs ha hp
  exact ⟨t, ht⟩

/-- Settles O4: a well-formed command names no absent channel and no missing part, so it runs. -/
theorem wellFormedCompletes : Obligations.WellFormedCompletes := by
  intro i s h
  obtain ⟨ha, hp⟩ := Sys2Proof.Machine.wellFormed_names h
  exact (outcomeOfEveryCommand i s).2.2 ha hp

/-- Settles O5: a step runs one command on the queue's rest, and every next state of a command keeps the rules of roles. -/
theorem leaseInvKept : Obligations.LeaseInvKept := by
  intro s t h hs
  unfold Sys2Proof.Machine.step at hs
  split at hs
  · cases hs
    exact h
  · exact (Sys2Proof.Machine.lawful_exec hs).inv (Sys2Proof.Machine.leaseInv_queue.2 h)

end

section
namespace Sys2Proof.Machine

/-! ## The state that a request finds -/

/-- What the arrival of a request and the judging of its AUTH fields leave: the state but for the counters of the host port, its
sessions and the marks of R615. -/
def Heard (s b : State) : Prop :=
  ∃ m l r, (∀ k, k / 256 ≠ 0x1430 → tabGet mDflt m k = tabGet mDflt s.mdict k) ∧ b = vouched s m l r

/-- What the end of a command follows: roles, arbiter, modes and the mode that the host asked for (R531, R648). -/
structure SameView (s t : State) : Prop where
  unit : t.unit = s.unit
  arb : t.arb = s.arb
  mode : t.mode = s.mode
  roleA : t.roleA.unstale = s.roleA.unstale
  roleB : t.roleB.unstale = s.roleB.unstale
  asked : t.mreg 0x1101 0 = s.mreg 0x1101 0

theorem SameView.trans {s t u : State} (a : SameView s t) (b : SameView t u) : SameView s u :=
  ⟨b.unit.trans a.unit, b.arb.trans a.arb, b.mode.trans a.mode, b.roleA.trans a.roleA, b.roleB.trans a.roleB,
    b.asked.trans a.asked⟩

theorem Beside.sameView {s t : State} (h : Beside s t) : SameView s t :=
  ⟨h.unit, h.arb, h.mode, h.roleA, h.roleB, h.mreg _ (by decide)⟩

theorem Told.sameView {s t : State} (h : Told s t) : SameView s t :=
  ⟨h.unit, h.arb, h.mode, congrArg _ (h.role .a), congrArg _ (h.role .b), h.mreg _ (by decide)⟩

theorem SameView.st {s t : State} (h : SameView s t) (ch : Ch) : (t.role ch).st = (s.role ch).st := by
  cases ch
  · exact (congrArg ChanRole.st h.roleA :)
  · exact (congrArg ChanRole.st h.roleB :)

theorem SameView.silent {s t : State} (h : SameView s t) (ch : Ch) : (t.role ch).silent = (s.role ch).silent := by
  cases ch
  · exact (congrArg ChanRole.silent h.roleA :)
  · exact (congrArg ChanRole.silent h.roleB :)

theorem SameView.fence {s t : State} (h : SameView s t) (ch : Ch) : (t.role ch).fence = (s.role ch).fence := by
  cases ch
  · exact (congrArg ChanRole.fence h.roleA :)
  · exact (congrArg ChanRole.fence h.roleB :)

theorem SameView.portView {s t : State} (h : SameView s t) (ch : Ch) : t.portView ch = s.portView ch := by
  simp only [State.portView, State.ctx, State.forwards, h.st, h.silent, h.fence, h.arb, h.mode]

theorem SameView.modeCode {s t : State} (h : SameView s t) : t.modeCode = s.modeCode := by
  have ha : t.roleA.st = s.roleA.st := h.st .a
  have hb : t.roleB.st = s.roleB.st := h.st .b
  unfold State.modeCode State.twilight State.present
  rw [h.mode, h.asked, h.unit, ha, hb]

theorem SameView.stands {s t : State} (h : SameView s t) (hs : modeStands s) : modeStands t := by
  unfold modeStands at hs ⊢
  rw [h.mode, h.modeCode]
  exact hs

section Heard
variable {s b : State}

theorem Heard.sameBoard (h : Heard s b) : sameBoard s b := by
  obtain ⟨m, l, r, -, rfl⟩ := h
  exact ⟨rfl, rfl, rfl, rfl, rfl, rfl, rfl, rfl, fun ch => by cases ch <;> rfl⟩

theorem Heard.mreg (h : Heard s b) {i k : Nat} (hk : k < 256) (hi : i ≠ 0x1430) : b.mreg i k = s.mreg i k := by
  obtain ⟨m, l, r, hm, rfl⟩ := h
  exact hm _ (by unfold objKey; omega)

theorem Heard.sameView (h : Heard s b) : SameView s b := by
  have ha := h.mreg (i := 0x1101) (k := 0) (by decide) (by decide)
  obtain ⟨m, l, r, -, rfl⟩ := h
  exact ⟨rfl, rfl, rfl, rfl, rfl, ha⟩

theorem Heard.chan (h : Heard s b) (ch : Ch) : b.chan ch = s.chan ch := by
  obtain ⟨m, l, r, -, rfl⟩ := h
  cases ch <;> rfl

theorem Heard.role (h : Heard s b) (ch : Ch) : b.role ch = s.role ch := by
  obtain ⟨m, l, r, -, rfl⟩ := h
  cases ch <;> rfl

theorem Heard.unit (h : Heard s b) : b.unit = s.unit := h.sameView.unit

theorem Heard.flash (h : Heard s b) : b.flash = s.flash := by
  obtain ⟨m, l, r, -, rfl⟩ := h
  rfl

theorem Heard.power (h : Heard s b) : b.power = s.power := by
  obtain ⟨m, l, r, -, rfl⟩ := h
  rfl

theorem Heard.keys (h : Heard s b) : b.host.keys = s.host.keys := by
  obtain ⟨m, l, r, -, rfl⟩ := h
  rfl

theorem Heard.place (h : Heard s b) (idx sub : Nat) : b.place idx sub = s.place idx sub := by
  obtain ⟨m, l, r, -, rfl⟩ := h
  rfl

theorem Heard.rows12 (h : Heard s b) (idx sub : Nat) : b.rows12 idx sub = s.rows12 idx sub := by
  obtain ⟨m, l, r, -, rfl⟩ := h
  rfl

theorem Heard.present (h : Heard s b) (ch : Ch) : b.present ch = s.present ch := present_of_unit h.unit ch

theorem Heard.partnerTime (h : Heard s b) (ch : Ch) : b.partnerTime ch = s.partnerTime ch := by
  unfold State.partnerTime
  rw [h.present, h.chan]

theorem Heard.readAuth (h : Heard s b) : b.readAuth = s.readAuth := by
  unfold State.readAuth
  rw [h.mreg (by decide) (by decide)]

theorem Heard.ctx (h : Heard s b) (ch : Ch) : b.ctx ch = s.ctx ch := by
  have hm := h.sameView.modeCode
  have hq := h.mreg (i := 0x1104) (k := 0) (by decide) (by decide)
  obtain ⟨m, l, r, -, rfl⟩ := h
  unfold State.ctx
  rw [hm, hq]
  rfl

theorem Heard.busUp (h : Heard s b) (bus : Bus) : b.busUp bus = s.busUp bus := by
  have hp := h.mreg (i := 0x1400) (k := 1) (by decide) (by decide)
  obtain ⟨m, l, r, -, rfl⟩ := h
  cases bus with
  | eth d => unfold State.busUp; rw [hp]; rfl
  | _ => rfl

theorem Heard.nextDrill (h : Heard s b) : b.nextDrill = s.nextDrill := by
  have h1 := h.mreg (i := 0x1300) (k := 1) (by decide) (by decide)
  have h5 := h.mreg (i := 0x1300) (k := 5) (by decide) (by decide)
  obtain ⟨m, l, r, -, rfl⟩ := h
  unfold State.nextDrill
  rw [h1, h5]
  rfl

theorem Heard.microStatus (h : Heard s b) : b.microStatus = s.microStatus := by
  have h6 := h.mreg (i := 0x1500) (k := 6) (by decide) (by decide)
  obtain ⟨m, l, r, -, rfl⟩ := h
  unfold State.microStatus
  rw [h6]
  rfl

/-- A module object reads as before, but for the counters of the host port and its status. -/
theorem Heard.mview (h : Heard s b) {idx sub : Nat} (hs : sub < 256) (hi : idx ≠ 0x1430) (hp : (idx, sub) ≠ (0x1400, 3)) :
    b.mview idx sub = s.mview idx sub := by
  have hmode := h.sameView.modeCode
  have hdrill := h.nextDrill
  have hmicro := h.microStatus
  have hreg := h.mreg hs hi
  have hst : ¬(idx = 0x1400 && sub = 3) := by simpa using hp
  have hrole := h.role
  have hfail : b.failThreshold = s.failThreshold := by
    unfold State.failThreshold
    rw [h.mreg (by decide) (by decide)]
  have hred : b.redundancy = s.redundancy := by
    obtain ⟨m, l, r, -, rfl⟩ := h
    unfold State.redundancy State.fit
    simp only [hrole, hfail]
    rfl
  have hup : ∀ ch, b.channelBringUp ch = s.channelBringUp ch := fun ch => by
    obtain ⟨m, l, r, -, rfl⟩ := h
    unfold State.channelBringUp
    rw [hrole]
    rfl
  obtain ⟨m, l, r, -, rfl⟩ := h
  unfold State.mview
  rw [hmode, hdrill, hmicro, hreg, hred, hup, hrole, if_neg hst, if_neg hst]
  rfl

theorem Heard.mentry (h : Heard s b) {idx : Nat} (hi : idx ≠ 0x1410 ∨ b.host.sessions = s.host.sessions) (e : Nat) :
    b.mentry idx e = s.mentry idx e := by
  obtain ⟨m, l, r, -, rfl⟩ := h
  unfold State.mentry
  split
  · unfold State.sessionEntry
    rw [hi.resolve_left (fun h => h ‹_›)]
    rfl
  · rfl

/-- The checks of rows 5.4 to 5.6 turn out alike: a counter of the host port does not look at its old value. -/
theorem Heard.mStatus (h : Heard s b) {o : Obj} {idx sub raw : Nat} (hs : sub < 256) (hi : idx ≠ 0x1430) :
    b.mStatus o idx sub raw = s.mStatus o idx sub raw := by
  have hreg := h.mreg hs hi
  have h9 := h.mreg (i := 0x1109) (k := 0) (by decide) (by decide)
  obtain ⟨m, l, r, -, rfl⟩ := h
  unfold State.mStatus State.mBusy
  rw [hreg, h9]
  rfl

end Heard

/-! ## What a message's fields say -/

theorem byteAt_lt (l : List Byte) (o : Nat) : byteAt l o < 256 := BitVec.isLt _

/-- Zeros after a message do not reach into the fields that it has. -/
theorem slice_append_left {l t : List Byte} {o n : Nat} (h : o + n ≤ l.length) : slice (l ++ t) o n = slice l o n := by
  unfold slice
  rw [List.drop_append_of_le_length (by omega), List.take_append_of_le_length (by rw [List.length_drop]; omega)]

theorem slice_length {l : List Byte} {o n : Nat} (h : o + n ≤ l.length) : (slice l o n).length = n := by
  unfold slice
  rw [List.length_take, List.length_drop]
  omega

theorem leBytes_leNat (l : List Byte) : leBytes l.length (leNat l) = l := by
  induction l with
  | nil => rfl
  | cons b t ih =>
    have hb : b.toNat < 256 := b.isLt
    have h1 : BitVec.ofNat 8 (b.toNat + 256 * leNat t) = b := BitVec.eq_of_toNat_eq (by simp [hb])
    have h2 : (b.toNat + 256 * leNat t) >>> 8 = leNat t := by
      rw [Nat.shiftRight_eq_div_pow]
      omega
    rw [List.length_cons, leNat, leBytes, h1, h2, ih]

/-- A message that passes the length check has its fixed fields and its data. -/
theorem length_of_verdict {func : Nat} {m : List Byte} (h : lengthVerdict func m = 0) :
    m.length = fixedLen func m + dataLen func m := by
  unfold lengthVerdict at h
  split at h
  · cases h
  · split at h
    · cases h
    · omega

end Sys2Proof.Machine
end

section
namespace Sys2Proof.Machine

/-! ## The end of a request -/

/-- A request is kept with its answer, which is sent. -/
def State.reply (u : State) (q : Request) (func : Nat) (a : Option (List Byte)) : State := (u.keepDup q func a).answer q func a

/-- What `still` of the statements says: the module's board stays, and the channels where no change of mode is pending. -/
def StaysPut (s t : State) : Prop := sameBoard s t ∧ (modeStands s → ∀ ch, t.chan ch = s.chan ch)

/-- The row of a request answers, and nothing but that happens. -/
def Answered (s : State) (q : Request) (func : Nat) (msg : List Byte) : Prop :=
  ∃ t, hostRow q func s = .next t ∧ StaysPut s t ∧ answers t q func msg

/-- The end of a command leaves the module's objects, where no change of mode is pending. -/
theorem SameView.mreg_finish {s v : State} (V : SameView s v) (hm : modeStands s) (i k : Nat) :
    (State.finish s v).mreg i k = v.mreg i k := by
  obtain ⟨hd, hdusk, hl⟩ := V.stands hm
  have e1 : v.leaveDawn = v := by unfold State.leaveDawn; simp [hd]
  have e2 : v.endDusk = v := by unfold State.endDusk; simp [hdusk]
  have e3 : v.noteMode = v := by unfold State.noteMode; simp [hl]
  have e : State.finish s v = s.orderLog v.followContacts := by
    unfold State.finish
    rw [e1, followRoles_same s _ fun c => (V.portView c).symm, e2, e3]
  have ec : v.followContacts.mreg i k = v.mreg i k := by unfold State.followContacts; split <;> rfl
  rw [e]
  exact ec

section Reply
variable {s u : State} {q : Request} {func : Nat} (hr : ∀ m, q.bus ≠ .relay m)
include hr

theorem told_reply (a : Option (List Byte)) : Told u (u.reply q func a) := told_any hr

/-- The answer goes out on a bus that is up. -/
theorem answers_finish {msg : List Byte} (hu : u.busUp q.bus = true) :
    answers (State.finish s (u.reply q func (some msg))) q func msg := by
  have T : Told u (u.reply q func (some msg)) ∧
      ∀ f ∈ framesOf u.unit.mac q.bus (answerIdent q func) msg, f ∈ (u.reply q func (some msg)).sent := told_answer hr hu rfl
  intro f hf
  rw [(around_finish s _).unit.trans T.1.unit] at hf
  exact finish_sent_mem (T.2 f hf)

theorem sameBoard_finish (a : Option (List Byte)) : sameBoard u (State.finish s (u.reply q func a)) :=
  sameBoard_trans (told_reply hr a).board (around_finish s _).sameBoard

/-- What the end of the request leaves of the channels, where no change of mode is pending. -/
theorem chan_finish (a : Option (List Byte)) (hv : SameView s u) (hm : modeStands s) (ch : Ch) :
    (State.finish s (u.reply q func a)).chan ch = u.chan ch := by
  have T : Told u (u.reply q func a) := told_reply hr a
  have V := hv.trans T.sameView
  obtain ⟨hd, hk, -⟩ := V.stands hm
  rw [finish_chan s _ ch hd hk fun c => (V.portView c).symm]
  cases ch
  · exact T.chA
  · exact T.chB

/-- What the end of the request leaves of the module's objects, where no change of mode is pending. -/
theorem mreg_finish (a : Option (List Byte)) (hv : SameView s u) (hm : modeStands s) {i k : Nat} (hk : k < 256)
    (hi : i ≠ 0x1430) : (State.finish s (u.reply q func a)).mreg i k = u.mreg i k := by
  have T : Told u (u.reply q func a) := told_reply hr a
  rw [(hv.trans T.sameView).mreg_finish hm]
  exact T.mreg _ (by unfold objKey; omega)

theorem reply_keys (a : Option (List Byte)) : (State.finish s (u.reply q func a)).host.keys = u.host.keys := by
  have h1 : (State.finish s (u.reply q func a)).host.keys = (u.reply q func a).host.keys :=
    (congrArg HostPort.keys (around_finish s (u.reply q func a)).host :)
  rw [h1]
  unfold State.reply State.answer State.send
  cases a with
  | none => rfl
  | some msg =>
    cases hb : q.bus with
    | relay m => exact absurd hb (hr m)
    | _ => dsimp only; split <;> first | rfl | (rw [foldl_emit]; rfl)

/-- The bus of the answer is up at the end as it was before. -/
theorem busUp_finish (a : Option (List Byte)) (bus : Bus) :
    (State.finish s (u.reply q func a)).busUp bus = u.busUp bus := by
  have T : Told u (u.reply q func a) := told_reply hr a
  have F := around_finish s (u.reply q func a)
  have hreg : (State.finish s (u.reply q func a)).mreg 0x1400 1 = u.mreg 0x1400 1 :=
    (F.mreg _ (by decide) (by decide) (by decide)).trans (T.mreg _ (by decide))
  have hport : (u.reply q func a).host.canA = u.host.canA ∧ (u.reply q func a).host.canB = u.host.canB ∧
      (u.reply q func a).host.ethLink = u.host.ethLink := by
    unfold State.reply State.answer State.send
    cases a with
    | none => exact ⟨rfl, rfl, rfl⟩
    | some msg =>
      cases hb : q.bus with
      | relay m => exact absurd hb (hr m)
      | _ => dsimp only; split <;> first | exact ⟨rfl, rfl, rfl⟩ | (rw [foldl_emit]; exact ⟨rfl, rfl, rfl⟩)
  have ha : (State.finish s (u.reply q func a)).host.canA = u.host.canA := (congrArg HostPort.canA F.host :).trans hport.1
  have hb : (State.finish s (u.reply q func a)).host.canB = u.host.canB := (congrArg HostPort.canB F.host :).trans hport.2.1
  have he : (State.finish s (u.reply q func a)).host.ethLink = u.host.ethLink :=
    (congrArg HostPort.ethLink F.host :).trans hport.2.2
  cases bus with
  | canA => unfold State.busUp; rw [ha]
  | canB => unfold State.busUp; rw [hb]
  | eth d => unfold State.busUp; rw [hreg, he]
  | relay m => rfl

end Reply

/-! ## The arrival of a request -/

/-- Nothing but the arrival has happened yet: the sessions are as they were. -/
def Arrived (s b : State) : Prop :=
  ∃ m r, (∀ k, k / 256 ≠ 0x1430 → tabGet mDflt m k = tabGet mDflt s.mdict k) ∧ b = vouched s m s.host.sessions r

theorem Arrived.heard {s b : State} (h : Arrived s b) : Heard s b := by
  obtain ⟨m, r, hm, rfl⟩ := h
  exact ⟨m, _, r, hm, rfl⟩

theorem Arrived.sessions {s b : State} (h : Arrived s b) : b.host.sessions = s.host.sessions := by
  obtain ⟨m, r, -, rfl⟩ := h
  rfl

/-- The host port carries out a request that it takes, and keeps and sends the answer (R592, R597, R614, R615, R686). -/
theorem taken_row {s : State} {q : Request} {func : Nat} (h : taken s q func) (hf : isRequest func = true) (hf' : func < 11) :
    ∃ b, Arrived s b ∧ hostRow q func s = .next (s.finish ((b.perform q func false).2.reply q func (b.perform q func false).1)) := by
  obtain ⟨hup, hrelay, hbus, hsrc, hsrc', hdest, hfull, hlen, hverdict, hdup⟩ := h
  have hcan : canOnly q.bus func = false := by
    have : func ≠ 11 := by omega
    simp [canOnly, this]
  have hexec : s.executes q func = true := by unfold State.executes; simp [hcan, hf, hsrc, hsrc', hdest]
  obtain ⟨k, hk, ha⟩ : ∃ k, k < 256 ∧ s.takePlace.2.arrived q func = some (s.takePlace.2.minc 0x1430 k) := by
    have hbu : s.takePlace.2.busUp q.bus = true := hbus
    unfold State.arrived
    cases hb : q.bus with
    | relay m => exact absurd hb (hrelay m)
    | canA => exact ⟨1, by decide, by rw [hb] at hbu; simp only [hbu, if_true, State.countRx]⟩
    | canB => exact ⟨2, by decide, by rw [hb] at hbu; simp only [hbu, if_true, State.countRx]⟩
    | eth d => exact ⟨3, by decide, by rw [hb] at hbu; simp only [hbu, if_true, State.countRx]⟩
  have hjudged : s.takePlace.2.judged q.bus = s.takePlace.2 := by
    cases hb : q.bus with
    | relay m => exact absurd hb (hrelay m)
    | _ => rfl
  have hplace : s.takePlace.1 = false := hfull
  have hnode : (s.takePlace.2.minc 0x1430 k).node = s.node := rfl
  have hhandle : s.handle q func = (s.takePlace.2.minc 0x1430 k).serve q func false := by
    have hbad : (decide (q.src < 65) || decide (126 < q.src) || canOnly q.bus func || !isRequest func) = false := by
      simp [hcan, hf, hsrc, hsrc']
    have hhost : s.takePlace.2.hostUp = true := hup
    unfold State.handle
    simp only [hexec, if_true, hhost, Bool.not_true, Bool.false_eq_true, if_false, hjudged, ha, hbad, hdest, hnode, hplace]
    rw [if_neg (by omega)]
  refine ⟨s.takePlace.2.minc 0x1430 k, ⟨_, (s.takePlace.2.minc 0x1430 k).host.refuse, fun j hj => ?_, rfl⟩, ?_⟩
  · exact (tabGet_tabSet _ _ _ _ _).trans (if_neg (keyHi j hj k hk))
  · have hnew : (State.recentDups (s.takePlace.2.minc 0x1430 k) q.src).find?
        (fun d => d.tag == q.tag && d.func == func && d.msg == q.msg) = none := by
      rw [List.find?_eq_none]
      intro d hd
      simpa using (List.any_eq_false.1 hdup) d hd
    unfold hostRow
    rw [hhandle]
    unfold State.serve
    simp only [hnew, Nat.not_lt.2 hlen, hverdict, if_false, State.noteFull, Bool.false_and, Bool.false_eq_true]
    rfl

/-! ## The AUTH fields (R606, R607) -/

theorem judge_unsigned {b : State} {q : Request} {func : Nat} (h : unsigned q func) (need : Bool) :
    b.judge q func need = (if need then 0x0501 else 0, none, b) := by
  have hb : bitOf (flagsOf func q.msg) 0 = false := h
  unfold State.judge
  simp only [hb, Bool.not_false, if_true]

theorem judge_signed {s b : State} {q : Request} {func : Nat} {x : Session} (h : signedBy s q func x) (hb : Arrived s b)
    (need : Bool) : ∃ b', Heard s b' ∧ b.judge q func need = (0, some x.slot, b') := by
  obtain ⟨hflag, hses, hcount, hmac⟩ := h
  obtain ⟨m, r, hm, rfl⟩ := hb
  have hses' : (vouched s m s.host.sessions r).sessionOf q.src = some x := hses
  unfold State.judge
  simp only [hflag, hses', hmac, Nat.not_le.2 hcount, Bool.not_true, Bool.false_eq_true, if_false, ne_eq, not_true]
  exact ⟨_, ⟨m, _, r, hm, rfl⟩, rfl⟩

/-- A status read with good AUTH fields is let pass; one without AUTH leaves the sessions. -/
theorem judge_admits {s b : State} {q : Request} {func : Nat} (h : admits s q func) (hb : Arrived s b) (near : Bool) :
    ∃ b' slot, Heard s b' ∧ (unsigned q func → b'.host.sessions = s.host.sessions) ∧
      b.judge q func (b.readAuth && near) = (0, slot, b') := by
  rcases h with ⟨hu, ha⟩ | ⟨x, hx⟩
  · refine ⟨b, none, hb.heard, fun _ => hb.sessions, ?_⟩
    rw [judge_unsigned hu, hb.heard.readAuth, ha]
    rfl
  · obtain ⟨b', hh, hj⟩ := judge_signed hx hb (b.readAuth && near)
    refine ⟨b', _, hh, fun hu => ?_, hj⟩
    have := hx.1
    rw [show bitOf (flagsOf func q.msg) 0 = false from hu] at this
    cases this

end Sys2Proof.Machine
end

section
namespace Sys2Proof
open Machine

/-- Where OFFSET of a READ-BLOCK stands. -/
def Machine.offsetAt (m : List Byte) : Nat := if bitOf (flagsOf 3 m) 0 then 8 else 4

/-- INDEX of a request for an object. -/
abbrev Request.index (q : Request) : Nat := leNat (slice q.msg 0 2)

/-- SUBINDEX of a request for an object. -/
abbrev Request.subIndex (q : Request) : Nat := byteAt q.msg 2

/-- HOLDING of a read (R620). -/
abbrev Request.holding (q : Request) (func : Nat) : Bool := bitOf (flagsOf func q.msg) 1

/-- OFFSET of a READ-BLOCK. -/
abbrev Request.blockAt (q : Request) : Nat := leNat (slice q.msg (offsetAt q.msg) 8)

/-- LENGTH of a READ-BLOCK. -/
abbrev Request.blockLen (q : Request) : Nat := leNat (slice q.msg (offsetAt q.msg + 8) 4)

end Sys2Proof

namespace Sys2Proof.Machine

/-! ## Answers with a status (R601) -/

/-- The echo of the first fields, as every answer but a SNAPSHOT's has it. -/
theorem echo_of_long {m : List Byte} (h : 3 ≤ m.length) : slice (m ++ List.replicate 3 0#8) 0 3 = slice m 0 3 :=
  slice_append_left h

theorem statusAnswer_read {m : List Byte} (h : 3 ≤ m.length) (st : Nat) :
    statusAnswer 1 st m = some (leBytes 2 st ++ (slice m 0 3 ++ [0#8]) ++ leBytes 2 0) := by
  unfold statusAnswer
  rw [echo_of_long h]
  rfl

theorem statusAnswer_write {func : Nat} {m : List Byte} (hf : func = 2 ∨ func = 4) (h : 3 ≤ m.length) (st : Nat) :
    statusAnswer func st m = some (leBytes 2 st ++ (slice m 0 3 ++ [0#8] ++ leBytes 4 (leNat (slice m 4 4)))) := by
  have hc : counterOf func m = leNat (slice m 4 4) := by
    rcases hf with rfl | rfl <;> simp [counterOf, hasAuth]
  unfold statusAnswer
  rw [echo_of_long h, hc, if_neg (by omega), if_pos (by simpa using hf)]
  simp only [List.append_assoc]

theorem statusAnswer_readBlock {m : List Byte} (h : offsetAt m + 8 ≤ m.length) (st : Nat) :
    statusAnswer 3 st m =
      some (leBytes 2 st ++ (slice m 0 3 ++ [0#8]) ++ leBytes 8 (leNat (slice m (offsetAt m) 8)) ++ leBytes 4 0) := by
  have ha : (if hasAuth 3 m then 8 else 4) = offsetAt m := by simp [hasAuth, offsetAt]
  have hl : (slice m (offsetAt m) 8).length = 8 := slice_length h
  have hle := leBytes_leNat (slice m (offsetAt m) 8)
  rw [hl] at hle
  have h3 : 3 ≤ m.length := by omega
  unfold statusAnswer
  rw [ha, echo_of_long h3, slice_append_left h, hle]
  rfl

theorem taken_length {s : State} {q : Request} {func : Nat} (h : taken s q func) : fixedLen func q.msg ≤ q.msg.length := by
  obtain ⟨-, -, -, -, -, -, -, -, hv, -⟩ := h
  have := length_of_verdict hv
  omega

theorem four_le_fixedLen (func : Nat) (m : List Byte) : 4 ≤ fixedLen func m := by
  unfold fixedLen
  dsimp only
  (repeat' split) <;> omega

theorem taken_long {s : State} {q : Request} {func : Nat} (h : taken s q func) : 3 ≤ q.msg.length := by
  have := taken_length h
  have := four_le_fixedLen func q.msg
  omega

/-! ## A request that changes nothing -/

theorem bus_of_taken {s : State} {q : Request} {func : Nat} (h : taken s q func) :
    (∀ m, q.bus ≠ .relay m) ∧ s.busUp q.bus = true := by
  obtain ⟨-, hr, hu, -⟩ := h
  exact ⟨hr, hu⟩

/-- The answer to a request whose execution leaves the state that it found. -/
theorem answered_of_heard {s b : State} {q : Request} {func : Nat} {msg : List Byte} (h : taken s q func) (hb : Heard s b)
    (hrow : hostRow q func s = .next (s.finish (b.reply q func (some msg)))) : Answered s q func msg := by
  obtain ⟨hr, hu⟩ := bus_of_taken h
  refine ⟨_, hrow, ⟨sameBoard_trans hb.sameBoard (sameBoard_finish hr _), fun hm ch => ?_⟩, ?_⟩
  · rw [chan_finish hr _ hb.sameView hm, hb.chan]
  · exact answers_finish hr ((hb.busUp _).trans hu)

/-- The addresses of R13 that name nothing. -/
theorem unknown_status {s : State} {idx sub st : Nat} (h : s.place idx sub = .unknown st) : st = 0x0101 ∨ st = 0x0102 := by
  grind [State.place]

theorem rows12_cases (s : State) (idx sub : Nat) :
    s.rows12 idx sub = 0 ∨ s.rows12 idx sub = 0x0101 ∨ s.rows12 idx sub = 0x0102 ∨ s.rows12 idx sub = 0x0402 := by
  unfold State.rows12
  split
  · rename_i st h
    rcases unknown_status h with rfl | rfl
    · exact .inr (.inl rfl)
    · exact .inr (.inr (.inl rfl))
  · split
    · exact .inr (.inr (.inr rfl))
    · exact .inl rfl

theorem rows12_pass {s : State} {idx sub : Nat} (h : ∀ st, s.place idx sub ≠ .unknown st) (hd : s.inDawn idx = false) :
    s.rows12 idx sub = 0 := by
  unfold State.rows12
  rw [hd]
  split
  · exact absurd ‹_› (h _)
  · rfl

theorem rows12_unknown {s : State} {idx sub st : Nat} (h : s.place idx sub = .unknown st) : s.rows12 idx sub = st := by
  unfold State.rows12
  rw [h]

/-- A status that is none of the authentication's leaves the counters and flags of R606. -/
theorem noteStatus_other {st : Nat} (h2 : st ≠ 0x0502) (h3 : st ≠ 0x0503) (s : State) : s.noteStatus st = s := by
  unfold State.noteStatus
  rw [if_neg h2, if_neg h3]

/-! ## READ -/

/-- The answer to a READ: status, address, and the data with their length. -/
def readMessage (m : List Byte) (st : Nat) (data : List Byte) : List Byte :=
  leBytes 2 st ++ (slice m 0 3 ++ [0#8]) ++ leBytes 2 data.length ++ data

theorem read_early {s : State} {q : Request} {st : Nat} (h : taken s q 1) (ha : admits s q 1)
    (he : s.rows12 q.index q.subIndex = st) (hst : st ≠ 0) : Answered s q 1 (readMessage q.msg st []) := by
  obtain ⟨b, hb, hrow⟩ := taken_row h rfl (by decide)
  obtain ⟨b', slot, hh, -, hj⟩ := judge_admits ha hb
    (!(Nat.ble 0x1000 q.index && Nat.ble q.index 0x11FF))
  have hother : st ≠ 0x0502 ∧ st ≠ 0x0503 := by
    have := rows12_cases s q.index q.subIndex
    omega
  refine answered_of_heard h hh (hrow.trans ?_)
  have hperf : b.perform q 1 false = (some (readMessage q.msg st []), b') := by
    show b.doRead q false = _
    unfold State.doRead
    simp only [hj, hb.heard.rows12, he, ne_eq, hst, not_false_eq_true, if_true, noteStatus_other hother.1 hother.2,
      statusAnswer_read (taken_long h)]
    simp [readMessage]
  rw [hperf]

theorem read_answered {s : State} {q : Request} {st : Nat} {data : List Byte} (h : taken s q 1) (ha : admits s q 1)
    (he : s.rows12 q.index q.subIndex = 0)
    (hr : ∀ b, Heard s b → b.readObject q.index q.subIndex (q.holding 1) false = (st, data))
    (hd : st ≠ 0 → data = []) : Answered s q 1 (readMessage q.msg st data) := by
  obtain ⟨b, hb, hrow⟩ := taken_row h rfl (by decide)
  obtain ⟨b', slot, hh, -, hj⟩ := judge_admits ha hb
    (!(Nat.ble 0x1000 q.index && Nat.ble q.index 0x11FF))
  refine answered_of_heard h hh (hrow.trans ?_)
  have hperf : b.perform q 1 false = (some (readMessage q.msg st data), b') := by
    show b.doRead q false = _
    unfold State.doRead
    simp only [hj, hb.heard.rows12, he, ne_eq, not_true, if_false, hr b' hh]
    by_cases hst : st = 0
    · simp [hst, readMessage]
    · simp only [hst, not_false_eq_true, if_true, statusAnswer_read (taken_long h), hd hst]
      simp [readMessage]
  rw [hperf]

/-! ## READ-BLOCK -/

/-- The answer to a READ-BLOCK: status, address, offset, and the data with their length. -/
def readBlockMessage (m : List Byte) (st : Nat) (data : List Byte) : List Byte :=
  leBytes 2 st ++ (slice m 0 3 ++ [0#8]) ++ leBytes 8 (leNat (slice m (offsetAt m) 8)) ++ leBytes 4 data.length ++ data

theorem offset_fits {s : State} {q : Request} (h : taken s q 3) : offsetAt q.msg + 8 ≤ q.msg.length := by
  have := taken_length h
  unfold offsetAt
  simp [fixedLen, hasAuth] at this
  split at this <;> split <;> simp_all <;> omega

theorem readBlock_answered {s : State} {q : Request} {st : Nat} {data : List Byte} (h : taken s q 3) (ha : admits s q 3)
    (he : s.rows12 q.index q.subIndex = 0)
    (hr : ∀ b, Heard s b → (unsigned q 3 → b.host.sessions = s.host.sessions) →
      b.readEntries q.index q.subIndex q.blockAt
        q.blockLen (q.holding 3) false = (st, data))
    (hd : st ≠ 0 → data = []) : Answered s q 3 (readBlockMessage q.msg st data) := by
  obtain ⟨b, hb, hrow⟩ := taken_row h rfl (by decide)
  obtain ⟨b', slot, hh, hses, hj⟩ := judge_admits ha hb
    (!(Nat.ble 0x1000 q.index && Nat.ble q.index 0x11FF))
  have hat : (if hasAuth 3 q.msg then 8 else 4) = offsetAt q.msg := by simp [hasAuth, offsetAt]
  refine answered_of_heard h hh (hrow.trans ?_)
  have hperf : b.perform q 3 false = (some (readBlockMessage q.msg st data), b') := by
    show b.doReadBlock q false = _
    unfold State.doReadBlock
    simp only [hj, hb.heard.rows12, he, ne_eq, not_true, if_false, hat, hr b' hh hses]
    by_cases hst : st = 0
    · simp [hst, readBlockMessage]
    · simp only [hst, not_false_eq_true, if_true, statusAnswer_readBlock (offset_fits h), hd hst]
      simp [readBlockMessage]
  rw [hperf]

end Sys2Proof.Machine
end

section
namespace Sys2Proof.Machine

/-! ## READ of an object -/

section Read
variable {s : State} {q : Request} (h : taken s q 1) (ha : admits s q 1)
include h ha

theorem reads_undocumented
    (hn : ¬((0x1000 ≤ q.index ∧ q.index ≤ 0x16FF) ∨
      (0x4000 ≤ q.index ∧ q.index ≤ 0x7FFF))) : Answered s q 1 (readMessage q.msg 0x0101 []) := by
  have hd : documented q.index = false := by simpa [documented] using hn
  refine read_early h ha (rows12_unknown ?_) (by decide)
  unfold State.place
  rw [hd]
  rfl

theorem reads_unknown {st : Nat} (hp : s.place q.index q.subIndex = .unknown st) :
    Answered s q 1 (readMessage q.msg st []) := by
  refine read_early h ha (rows12_unknown hp) ?_
  rcases unknown_status hp with rfl | rfl <;> decide

theorem reads_empty {a n : Nat} (hp : s.place q.index q.subIndex = .empty a n)
    (hd : s.inDawn q.index = false) : Answered s q 1 (readMessage q.msg 0 (leBytes n 0)) := by
  refine read_answered h ha (rows12_pass (by rw [hp]; simp) hd) (fun b hb => ?_) (by simp)
  unfold State.readObject
  rw [hb.place, hp]

theorem reads_module {o : Obj} (hp : s.place q.index q.subIndex = .module o)
    (hd : s.inDawn q.index = false) :
    (o.acc = .wo → Answered s q 1 (readMessage q.msg 0x0302 [])) ∧
    (o.acc ≠ .wo → q.holding 1 = false → o.ty.isWindow = true →
      Answered s q 1 (readMessage q.msg 0 (s.windowRead q.index o))) ∧
    (o.acc ≠ .wo → q.holding 1 = false → o.ty.isWindow = false → q.index ≠ 0x1430 →
      (q.index, q.subIndex) ≠ (0x1400, 3) →
      Answered s q 1 (readMessage q.msg 0 (carryObj q.index q.subIndex o.ty.readSize
        (s.mview q.index q.subIndex)))) ∧
    (o.acc ≠ .wo → q.holding 1 = true → Answered s q 1 (readMessage q.msg 0x0601 [])) := by
  have he := rows12_pass (sub := q.subIndex) (by rw [hp]; simp) hd
  have read : ∀ b, Heard s b → b.place q.index q.subIndex = .module o := fun b hb => by rw [hb.place, hp]
  refine ⟨fun hw => ?_, fun hw hl ho => ?_, fun hw hl ho hi hs => ?_, fun hw hl => ?_⟩ <;>
    refine read_answered h ha he (fun b hb => ?_) (by simp) <;> unfold State.readObject <;> rw [read b hb]
  · simp [hw]
  · simp [hw, hl, ho, State.windowRead, hb.unit]
  · simp [hw, hl, ho, hb.mview (byteAt_lt _ _) hi hs]
  · simp [hw, hl]

theorem reads_chan {ch : Ch} {i : Nat} {o : Obj}
    (hp : s.place q.index q.subIndex = .chan ch i o)
    (hd : s.inDawn q.index = false) :
    (o.acc = .wo → Answered s q 1 (readMessage q.msg 0x0302 [])) ∧
    (o.acc ≠ .wo → q.holding 1 = false → o.ty.isWindow = true →
      Answered s q 1 (readMessage q.msg 0 (s.windowRead i o))) ∧
    (o.acc ≠ .wo → q.holding 1 = false → o.ty.isWindow = false →
      Answered s q 1 (readMessage q.msg 0 (carryObj i q.subIndex o.ty.readSize
        ((s.chan ch).view (s.ctx ch) i q.subIndex)))) ∧
    (q.holding 1 = true → o.ty.isWindow = false → ∀ k sel h, o.acc = .counter →
      counterScope i q.subIndex 0 = some (k, sel) → (s.chan ch).holding k = some h → h.selector = sel →
      Answered s q 1 (readMessage q.msg 0 (leBytes o.ty.readSize (tabGet chDflt h.dict (objKey i q.subIndex))))) ∧
    (q.holding 1 = true → o.acc ≠ .wo →
      o.acc ≠ .counter ∨ o.ty.isWindow = true ∨ (∀ k sel h, counterScope i q.subIndex 0 = some (k, sel) →
        (s.chan ch).holding k = some h → h.selector ≠ sel) → Answered s q 1 (readMessage q.msg 0x0601 [])) := by
  have he := rows12_pass (sub := q.subIndex) (by rw [hp]; simp) hd
  have read : ∀ b, Heard s b → b.place q.index q.subIndex = .chan ch i o := fun b hb => by rw [hb.place, hp]
  refine ⟨fun hw => ?_, fun hw hl ho => ?_, fun hw hl ho => ?_, fun hl ho k sel x hc hk hx hs => ?_, fun hl hw hn => ?_⟩ <;>
    refine read_answered h ha he (fun b hb => ?_) (by simp) <;> unfold State.readObject <;> rw [read b hb]
  · simp [hw]
  · simp [hw, hl, ho, State.windowRead, hb.unit]
  · simp [hw, hl, ho, hb.chan, hb.ctx]
  · have held : (s.chan ch).holdingOf o i q.subIndex 0 = some x := by
      unfold Channel.holdingOf
      simp [hc, hk, hx, hs, Option.filter]
    simp [hc, hl, ho, hb.chan, held]
  · have free : o.ty.isWindow = true ∨ (s.chan ch).holdingOf o i q.subIndex 0 = none := by
      rcases hn with hn | hn | hn
      · right; unfold Channel.holdingOf; simp [hn]
      · exact .inl hn
      · right
        unfold Channel.holdingOf
        split
        · rfl
        · split
          · rfl
          · rename_i k sel hk
            simpa [Option.filter_eq_none_iff] using fun x hx => hn k sel x hk hx
    rcases free with hw' | hf
    · simp only [hw, hl, hb.chan, hw', if_false, if_true, Bool.false_eq_true]
      split <;> rfl
    · simp [hw, hl, hb.chan, hf]

end Read

/-! ## READ-BLOCK of a window -/

/-- An aligned range within a window's entries. -/
def insideWindow (off len n entries : Nat) : Prop := 0 < n ∧ off % n = 0 ∧ len % n = 0 ∧ off + len ≤ n * entries ∧ len ≤ 65536

/-- A range within a window is neither misaligned nor too far. -/
theorem insideWindow_reach {v : Variant} {idx off len : Nat} {o : Obj}
    (h : insideWindow off len o.ty.entrySize (windowEntries v idx o)) :
    misaligned o.ty.entrySize off len = false ∧
      (len != 0 && (Nat.blt (o.ty.entrySize * entryReach v idx o) (off + len) || Nat.blt 65536 len)) = false := by
  obtain ⟨hn, ho, hl, hr, hm⟩ := h
  have hreach : o.ty.entrySize * windowEntries v idx o ≤ o.ty.entrySize * entryReach v idx o :=
    Nat.mul_le_mul_left _ (Nat.le_add_right _ _)
  refine ⟨by simp [misaligned, ho, hl], ?_⟩
  have h1 : Nat.blt (o.ty.entrySize * entryReach v idx o) (off + len) = false := by
    rw [← Bool.not_eq_true, Nat.blt_eq]
    omega
  have h2 : Nat.blt 65536 len = false := by
    rw [← Bool.not_eq_true, Nat.blt_eq]
    omega
  rw [h1, h2]
  simp

section ReadBlock
variable {s : State} {q : Request} (h : taken s q 3) (ha : admits s q 3)
  (hd : s.inDawn q.index = false)
include h ha hd

theorem readBlock_module {o : Obj} (hp : s.place q.index q.subIndex = .module o) :
    (o.acc = .wo → Answered s q 3 (readBlockMessage q.msg 0x0302 [])) ∧
    (o.acc ≠ .wo → o.ty.isWindow = false → Answered s q 3 (readBlockMessage q.msg 0x0203 [])) ∧
    (o.acc ≠ .wo → o.ty.isWindow = true →
      insideWindow q.blockAt q.blockLen o.ty.entrySize
        (windowEntries s.unit.variant q.index o) →
      (q.holding 3 = false → (q.index = 0x1410 → unsigned q 3) →
        Answered s q 3 (readBlockMessage q.msg 0
          ((upFrom (q.blockAt / o.ty.entrySize)
            (q.blockLen / o.ty.entrySize)).flatMap
              fun e => carryEntry q.index o.ty.entrySize (s.mentry q.index e)))) ∧
      (q.holding 3 = true → Answered s q 3 (readBlockMessage q.msg 0x0601 []))) := by
  have he := rows12_pass (sub := q.subIndex) (by rw [hp]; simp) hd
  have read : ∀ b, Heard s b → b.place q.index q.subIndex = .module o := fun b hb => by rw [hb.place, hp]
  refine ⟨fun hw => ?_, fun hw ho => ?_, fun hw ho hin => ⟨fun hl hu => ?_, fun hl => ?_⟩⟩ <;>
    refine readBlock_answered h ha he (fun b hb hs => ?_) (by simp) <;> unfold State.readEntries <;> rw [read b hb]
  · simp [hw]
  · simp [hw, ho]
  · have hses : q.index ≠ 0x1410 ∨ b.host.sessions = s.host.sessions := by
      by_cases hi : q.index = 0x1410
      · exact .inr (hs (hu hi))
      · exact .inl hi
    obtain ⟨hm, hf⟩ := insideWindow_reach hin
    simp only [hb.unit, hw, ho, hm, hf, hl, hb.mentry hses, if_false, Bool.not_true, Bool.false_or, Bool.false_eq_true]
  · obtain ⟨hm, hf⟩ := insideWindow_reach hin
    simp only [hb.unit, hw, ho, hm, hf, hl, if_false, if_true, Bool.not_true, Bool.false_or, Bool.false_eq_true]

theorem readBlock_chan {ch : Ch} {i : Nat} {o : Obj}
    (hp : s.place q.index q.subIndex = .chan ch i o) :
    (o.acc = .wo → Answered s q 3 (readBlockMessage q.msg 0x0302 [])) ∧
    (o.acc ≠ .wo → o.ty.isWindow = false → Answered s q 3 (readBlockMessage q.msg 0x0203 [])) ∧
    (o.acc ≠ .wo → o.ty.isWindow = true →
      insideWindow q.blockAt q.blockLen o.ty.entrySize
        (windowEntries s.unit.variant i o) →
      let es := upFrom (q.blockAt / o.ty.entrySize)
        (q.blockLen / o.ty.entrySize)
      (q.holding 3 = false →
        Answered s q 3 (readBlockMessage q.msg 0
          (es.flatMap fun e => carryEntry i o.ty.entrySize ((s.chan ch).entryView i e)))) ∧
      (q.holding 3 = true → (∀ e ∈ es, ((s.chan ch).holdingOf o i 0 e).isSome = true) →
        Answered s q 3 (readBlockMessage q.msg 0 (es.flatMap fun e =>
          match (s.chan ch).holdingOf o i 0 e with
          | some h => carryEntry i o.ty.entrySize (tabGet winDflt h.win (winKey i e))
          | none => []))) ∧
      (q.holding 3 = true → (∃ e ∈ es, (s.chan ch).holdingOf o i 0 e = none) →
        Answered s q 3 (readBlockMessage q.msg 0x0601 []))) := by
  have he := rows12_pass (sub := q.subIndex) (by rw [hp]; simp) hd
  have read : ∀ b, Heard s b → b.place q.index q.subIndex = .chan ch i o := fun b hb => by rw [hb.place, hp]
  refine ⟨fun hw => ?_, fun hw ho => ?_, fun hw ho hin => ⟨fun hl => ?_, fun hl hall => ?_, fun hl hex => ?_⟩⟩ <;>
    refine readBlock_answered h ha he (fun b hb hs => ?_) (by simp) <;> unfold State.readEntries <;> rw [read b hb]
  · simp [hw]
  · simp [hw, ho]
  · obtain ⟨hm, hf⟩ := insideWindow_reach hin
    simp only [hb.unit, hb.chan, hw, ho, hm, hf, hl, if_false, Bool.not_true, Bool.false_or, Bool.false_eq_true]
  · obtain ⟨hm, hf⟩ := insideWindow_reach hin
    have hheld := List.all_eq_true.2 hall
    simp only [hb.unit, hb.chan, hw, ho, hm, hf, hl, hheld, if_false, if_true, Bool.not_true, Bool.false_or,
      Bool.false_eq_true] <;> rfl
  · obtain ⟨hm, hf⟩ := insideWindow_reach hin
    have hheld : ((upFrom (q.blockAt / o.ty.entrySize)
        (q.blockLen / o.ty.entrySize)).all
          fun e => ((s.chan ch).holdingOf o i 0 e).isSome) = false := by
      obtain ⟨e, he, hn⟩ := hex
      exact List.all_eq_false.2 ⟨e, he, by simp [hn]⟩
    simp only [hb.unit, hb.chan, hw, ho, hm, hf, hl, hheld, if_false, if_true, Bool.not_true, Bool.false_or, Bool.false_eq_true]

end ReadBlock

theorem reads_are_answered (s : State) (q : Request) : readsAnswered s q := by
  refine ⟨fun h ha => ⟨reads_undocumented h ha, fun _ hp => reads_unknown h ha hp, fun _ _ hp hd => reads_empty h ha hp hd,
    fun _ hp hd => reads_module h ha hp hd, fun _ _ _ hp hd => reads_chan h ha hp hd⟩, fun h ha hd =>
      ⟨fun _ hp => readBlock_module h ha hd hp, fun _ _ _ hp => readBlock_chan h ha hd hp⟩⟩

end Sys2Proof.Machine
end

section
namespace Sys2Proof.Machine

/-! ## A WRITE that a session vouches for -/

/-- The answer to a WRITE or WRITE-BLOCK: status, address and counter. -/
def writeMessage (m : List Byte) (st : Nat) : List Byte :=
  leBytes 2 st ++ (slice m 0 3 ++ [0#8] ++ leBytes 4 (leNat (slice m 4 4)))

/-- The data of a WRITE. -/
def writeData (m : List Byte) : List Byte := slice m 10 (leNat (slice m 8 2))

/-- The data of a WRITE-BLOCK. -/
def blockData (m : List Byte) : List Byte := slice m 20 (leNat (slice m 16 4))

/-- A session may write the object or window, with key slot 0 where that is asked for (R590, R602). -/
def slotOk (idx sub slot : Nat) : Prop := slotZeroOnly idx sub = true → slot = 0

section Write
variable {s : State} {q : Request}

/-- What a request without AUTH, or with the wrong slot, answers. -/
theorem writeRows_refuses {b : State} {idx sub : Nat} (he : b.rows12 idx sub = 0) {slot : Nat}
    (hz : slotZeroOnly idx sub = true) (hs : slot ≠ 0) (u : State) : b.writeRows idx sub (0, some slot, u) = 0x0501 := by
  unfold State.writeRows
  simp [he, hz, hs]

theorem writeRows_passes {b : State} {idx sub : Nat} (he : b.rows12 idx sub = 0) {slot : Nat} (hs : slotOk idx sub slot)
    (u : State) : b.writeRows idx sub (0, some slot, u) = 0 := by
  unfold State.writeRows
  cases hz : slotZeroOnly idx sub
  · simp [he]
  · simp [he, hs hz]

theorem writeRows_unsigned {b : State} {idx sub : Nat} (he : b.rows12 idx sub = 0) (u : State) :
    b.writeRows idx sub (0x0501, none, u) = 0x0501 := by
  unfold State.writeRows
  simp [he]

theorem write_unsigned (h : taken s q 2) (hu : unsigned q 2) (he : s.rows12 q.index q.subIndex = 0) :
    Answered s q 2 (writeMessage q.msg 0x0501) := by
  obtain ⟨b, hb, hrow⟩ := taken_row h rfl (by decide)
  refine answered_of_heard h hb.heard (hrow.trans ?_)
  have hperf : b.perform q 2 false = (some (writeMessage q.msg 0x0501), b) := by
    show b.doWrite q false = _
    unfold State.doWrite
    simp [judge_unsigned hu, writeRows_unsigned ((hb.heard.rows12 _ _).trans he), noteStatus_other,
      statusAnswer_write (.inl rfl) (taken_long h), writeMessage]
  rw [hperf]

variable {x : Session}

theorem write_wrongSlot (h : taken s q 2) (hx : signedBy s q 2 x) (he : s.rows12 q.index q.subIndex = 0)
    (hz : slotZeroOnly q.index q.subIndex = true) (hs : x.slot ≠ 0) : Answered s q 2 (writeMessage q.msg 0x0501) := by
  obtain ⟨b, hb, hrow⟩ := taken_row h rfl (by decide)
  obtain ⟨b', hh, hj⟩ := judge_signed hx hb true
  refine answered_of_heard h hh (hrow.trans ?_)
  have hperf : b.perform q 2 false = (some (writeMessage q.msg 0x0501), b') := by
    show b.doWrite q false = _
    unfold State.doWrite
    simp [hj, writeRows_refuses ((hb.heard.rows12 _ _).trans he) hz hs, noteStatus_other,
      statusAnswer_write (.inl rfl) (taken_long h), writeMessage]
  rw [hperf]

/-- The row of a signed WRITE: the write on the state with the session's counter used up, and its status. -/
theorem write_row (h : taken s q 2) (hx : signedBy s q 2 x) (he : s.rows12 q.index q.subIndex = 0)
    (hs : slotOk q.index q.subIndex x.slot) :
    ∃ b, Heard s b ∧ hostRow q 2 s =
      .next (s.finish ((b.writeObject q.index q.subIndex (writeData q.msg) false).2.reply q 2
        (some (writeMessage q.msg (b.writeObject q.index q.subIndex (writeData q.msg) false).1)))) := by
  obtain ⟨b, hb, hrow⟩ := taken_row h rfl (by decide)
  obtain ⟨b', hh, hj⟩ := judge_signed hx hb true
  refine ⟨b', hh, hrow.trans ?_⟩
  have hl : slice q.msg 10 (dataLen 2 q.msg) = writeData q.msg := by simp [dataLen, writeData]
  have hperf : b.perform q 2 false =
      (some (writeMessage q.msg (b'.writeObject q.index q.subIndex (writeData q.msg) false).1),
        (b'.writeObject q.index q.subIndex (writeData q.msg) false).2) := by
    show b.doWrite q false = _
    unfold State.doWrite
    simp [hj, writeRows_passes ((hb.heard.rows12 _ _).trans he) hs, hl, statusAnswer_write (.inl rfl) (taken_long h), writeMessage]
  rw [hperf]

theorem write_answered (h : taken s q 2) (hx : signedBy s q 2 x) (he : s.rows12 q.index q.subIndex = 0)
    (hs : slotOk q.index q.subIndex x.slot) {st : Nat}
    (hw : ∀ b, Heard s b → b.writeObject q.index q.subIndex (writeData q.msg) false = (st, b)) :
    Answered s q 2 (writeMessage q.msg st) := by
  obtain ⟨b, hh, hrow⟩ := write_row h hx he hs
  rw [hw b hh] at hrow
  exact answered_of_heard h hh hrow

theorem writeBlock_wrongSlot (h : taken s q 4) (hx : signedBy s q 4 x) (he : s.rows12 q.index q.subIndex = 0)
    (hz : slotZeroOnly q.index q.subIndex = true) (hs : x.slot ≠ 0) : Answered s q 4 (writeMessage q.msg 0x0501) := by
  obtain ⟨b, hb, hrow⟩ := taken_row h rfl (by decide)
  obtain ⟨b', hh, hj⟩ := judge_signed hx hb true
  refine answered_of_heard h hh (hrow.trans ?_)
  have hperf : b.perform q 4 false = (some (writeMessage q.msg 0x0501), b') := by
    show b.doWriteBlock q false = _
    unfold State.doWriteBlock
    simp [hj, writeRows_refuses ((hb.heard.rows12 _ _).trans he) hz hs, noteStatus_other,
      statusAnswer_write (.inr rfl) (taken_long h), writeMessage]
  rw [hperf]

/-- The row of a signed WRITE-BLOCK. -/
theorem writeBlock_row (h : taken s q 4) (hx : signedBy s q 4 x) (he : s.rows12 q.index q.subIndex = 0)
    (hs : slotOk q.index q.subIndex x.slot) :
    ∃ b, Heard s b ∧ hostRow q 4 s =
      .next (s.finish ((b.writeEntries q.index q.subIndex (leNat (slice q.msg 8 8)) (blockData q.msg) false).2.reply q 4
        (some (writeMessage q.msg
          (b.writeEntries q.index q.subIndex (leNat (slice q.msg 8 8)) (blockData q.msg) false).1)))) := by
  obtain ⟨b, hb, hrow⟩ := taken_row h rfl (by decide)
  obtain ⟨b', hh, hj⟩ := judge_signed hx hb true
  refine ⟨b', hh, hrow.trans ?_⟩
  have hl : slice q.msg 20 (dataLen 4 q.msg) = blockData q.msg := by simp [dataLen, blockData]
  have hperf : b.perform q 4 false =
      (some (writeMessage q.msg (b'.writeEntries q.index q.subIndex (leNat (slice q.msg 8 8)) (blockData q.msg) false).1),
        (b'.writeEntries q.index q.subIndex (leNat (slice q.msg 8 8)) (blockData q.msg) false).2) := by
    show b.doWriteBlock q false = _
    unfold State.doWriteBlock
    simp [hj, writeRows_passes ((hb.heard.rows12 _ _).trans he) hs, hl, statusAnswer_write (.inr rfl) (taken_long h), writeMessage]
  rw [hperf]

theorem writeBlock_answered (h : taken s q 4) (hx : signedBy s q 4 x) (he : s.rows12 q.index q.subIndex = 0)
    (hs : slotOk q.index q.subIndex x.slot) {st : Nat}
    (hw : ∀ b, Heard s b →
      b.writeEntries q.index q.subIndex (leNat (slice q.msg 8 8)) (blockData q.msg) false = (st, b)) :
    Answered s q 4 (writeMessage q.msg st) := by
  obtain ⟨b, hh, hrow⟩ := writeBlock_row h hx he hs
  rw [hw b hh] at hrow
  exact answered_of_heard h hh hrow

end Write

/-! ## The objects of the module that a WRITE stores -/

/-- TOTAL_W exceeds POWER_ALARM_W (R559). -/
def State.alarm (s : State) : Prop := bits (s.mreg 0x1200 7) 15 0 < bits (s.mreg 0x1200 4) 63 48

/-- What a plain WRITE of a module object leaves: the value stored, with POWER_ALARM judged after a write of the supply's objects. -/
structure Stores (b u : State) (idx sub v : Nat) : Prop where
  view : SameView b u
  board : idx ≠ 0x1106 → sameBoard b u
  chan : ∀ ch, u.chan ch = b.chan ch
  mreg : ∀ i k, k < 256 → (idx = 0x1200 → (i, k) ≠ (0x1200, 6) ∨ ¬ u.alarm) → u.mreg i k = (b.mput idx sub v).mreg i k
  alarm : idx = 0x1200 → u.alarm → bitOf (u.mreg 0x1200 6) 6 = true
  port : idx ≠ 0x1400 → ∀ bus, u.busUp bus = b.busUp bus

theorem bitOf_or_two_pow (a n : Nat) : bitOf (a ||| 2 ^ n) n = true := by
  have h : (a ||| 2 ^ n).testBit n = true := by simp [Nat.testBit_or]
  simpa [bitOf, Nat.testBit, Nat.one_and_eq_mod_two] using h

section Mput
variable {b : State} {idx sub v : Nat} (hs : sub < 256) (hi : idx ≠ 0x1101)
include hs hi

theorem sameView_mput : SameView b (b.mput idx sub v) :=
  ⟨rfl, rfl, rfl, rfl, rfl, mreg_mput_ne b hs (by decide) (by simp [Ne.symm hi])⟩

/-- A stored value with a change of the host port's own registers. -/
theorem stores_of_host {h : HostPort}
    (hp : idx ≠ 0x1400 → h.canA = b.host.canA ∧ h.canB = b.host.canB ∧ h.ethLink = b.host.ethLink) (ho : idx ≠ 0x1200) :
    Stores b { b.mput idx sub v with host := h } idx sub v := by
  have V := sameView_mput (b := b) (v := v) hs hi
  refine ⟨⟨V.unit, V.arb, V.mode, V.roleA, V.roleB, V.asked⟩, fun _ => ?_, fun ch => by cases ch <;> rfl, fun _ _ _ _ => rfl,
    fun h => absurd h ho, fun h4 bus => ?_⟩
  · exact ⟨rfl, rfl, rfl, rfl, rfl, rfl, rfl, rfl, fun ch => by cases ch <;> rfl⟩
  · obtain ⟨ha, hb, he⟩ := hp h4
    have hreg : ({ b.mput idx sub v with host := h } : State).mreg 0x1400 1 = b.mreg 0x1400 1 :=
      mreg_mput_ne b hs (by decide) (by simp [Ne.symm h4])
    cases bus with
    | canA => unfold State.busUp; rw [← ha]
    | canB => unfold State.busUp; rw [← hb]
    | eth d => unfold State.busUp; rw [hreg, ← he]
    | relay m => rfl

theorem stores_mput (ho : idx ≠ 0x1200) : Stores b (b.mput idx sub v) idx sub v :=
  stores_of_host (h := b.host) hs hi (fun _ => ⟨rfl, rfl, rfl⟩) ho

theorem stores_releaseWake (ho : idx = 0x1106) (gone : WakeCause → Bool) :
    Stores b ((b.mput idx sub v).releaseWake gone) idx sub v := by
  have S := stores_mput (b := b) (v := v) hs hi (by omega)
  obtain ⟨V, -, hc, hm, -, hp⟩ := S
  exact ⟨⟨V.unit, V.arb, V.mode, V.roleA, V.roleB, V.asked⟩, fun h => absurd ho h, fun ch => hc ch, hm, fun h => by omega, hp⟩

end Mput

/-- POWER_ALARM is judged on the values stored. -/
theorem stores_judgePower (b : State) {sub : Nat} (hs : sub < 256) (v : Nat) :
    Stores b (b.mput 0x1200 sub v).judgePower 0x1200 sub v := by
  have V := sameView_mput (b := b) (v := v) (idx := 0x1200) hs (by decide)
  by_cases ha : (b.mput 0x1200 sub v).alarm
  · have e : (b.mput 0x1200 sub v).judgePower = (b.mput 0x1200 sub v).mflag 0x1200 6 (2 ^ 6) := if_pos ha
    rw [e]
    set w := b.mput 0x1200 sub v
    have hreg : ∀ i k, k < 256 → (i, k) ≠ (0x1200, 6) → (w.mflag 0x1200 6 (2 ^ 6)).mreg i k = w.mreg i k :=
      fun i k hk hn => mreg_mflag_ne w (by decide) hk hn
    have halarm : (w.mflag 0x1200 6 (2 ^ 6)).alarm := by
      unfold State.alarm
      rw [hreg _ _ (by decide) (by decide), hreg _ _ (by decide) (by decide)]
      exact ha
    have hport : ∀ bus, (w.mflag 0x1200 6 (2 ^ 6)).busUp bus = b.busUp bus := fun bus => by
      have h1 := hreg 0x1400 1 (by decide) (by decide)
      have h2 : w.mreg 0x1400 1 = b.mreg 0x1400 1 := mreg_mput_ne b hs (by decide) (by simp)
      have hst := mflag_still w 0x1200 6 (2 ^ 6)
      cases bus with
      | canA => exact (congrArg (fun h : HostPort => h.canA == .active || h.canA == .passive) hst :)
      | canB => exact (congrArg (fun h : HostPort => h.canB == .active || h.canB == .passive) hst :)
      | eth d =>
        unfold State.busUp
        rw [h1, h2]
        exact (congrArg (fun h : HostPort => bitOf (b.mreg 0x1400 1) 3 && h.ethLink) hst :)
      | relay m => rfl
    refine ⟨⟨by simp [w], by simp [w], by simp [w], by simp [w], by simp [w], ?_⟩, fun _ => ?_, fun ch => ?_, fun i k hk hn => ?_,
      fun _ _ => ?_, fun _ bus => hport bus⟩
    · rw [hreg _ _ (by decide) (by decide)]
      exact V.asked
    · exact ⟨by simp [w], by simp [w], by simp [w], by simp [w], by simp [w], by simp [w], by simp [w], by simp [w],
        fun ch => by cases ch <;> simp [w, State.role]⟩
    · rw [mflag_chan]
      cases ch <;> rfl
    · exact hreg i k hk ((hn rfl).resolve_right (by simpa using halarm))
    · rw [mreg_mflag_self]
      exact bitOf_or_two_pow _ _
  · have e : (b.mput 0x1200 sub v).judgePower = b.mput 0x1200 sub v := if_neg ha
    rw [e]
    refine ⟨V, fun _ => ⟨rfl, rfl, rfl, rfl, rfl, rfl, rfl, rfl, fun ch => by cases ch <;> rfl⟩, fun ch => by cases ch <;> rfl,
      fun _ _ _ _ => rfl, fun _ h => absurd h ha, fun _ bus => ?_⟩
    have hreg : (b.mput 0x1200 sub v).mreg 0x1400 1 = b.mreg 0x1400 1 := mreg_mput_ne b hs (by decide) (by simp)
    cases bus with
    | eth d => unfold State.busUp; rw [hreg]; rfl
    | _ => rfl

/-- A WRITE of a module object that is no command and no key stores its value. -/
theorem mStore_plain (b : State) (o : Obj) {idx sub raw : Nat} (hs : sub < 256) (h1 : idx ∉ [0x1101, 0x1109, 0x1500])
    (h2 : ¬(idx = 0x1300 ∧ sub = 4)) (h3 : ¬(idx = 0x1400 ∧ 0x10 ≤ sub)) :
    ∃ u, b.mStore o idx sub raw = (0, u) ∧ Stores b u idx sub (written o idx sub (b.mreg idx sub) raw) := by
  obtain ⟨n1101, n1109, n1500⟩ : idx ≠ 0x1101 ∧ idx ≠ 0x1109 ∧ idx ≠ 0x1500 := by simpa using h1
  unfold State.mStore
  extract_lets +onlyGivenNames old v stored
  have c2 : ¬(decide (idx = 0x1300) && decide (sub = 4)) = true := by simpa using h2
  have c3 : ¬(decide (idx = 0x1400) && decide (0x10 ≤ sub)) = true := by simpa using h3
  have c4 : ¬(decide (idx = 0x1500) && decide (sub = 1)) = true := by simp [n1500]
  have c5 : ¬(decide (idx = 0x1500) && decide (sub = 5)) = true := by simp [n1500]
  rw [if_neg n1101, if_neg n1109, if_neg c2, if_neg c3, if_neg c4, if_neg c5]
  by_cases e1 : idx = 0x1106
  · rw [if_pos e1]
    exact ⟨_, rfl, stores_releaseWake hs n1101 e1 _⟩
  by_cases e2 : idx = 0x1200
  · rw [if_neg e1, if_pos e2]
    subst e2
    exact ⟨_, rfl, stores_judgePower b hs v⟩
  rw [if_neg e1, if_neg e2]
  split
  · rename_i e3
    obtain ⟨e3, -⟩ : idx = 0x1400 ∧ sub = 1 := by simpa using e3
    exact ⟨_, rfl, stores_of_host hs n1101 (fun h => absurd e3 h) e2⟩
  · split
    · exact ⟨_, rfl, stores_of_host hs n1101 (fun _ => ⟨rfl, rfl, rfl⟩) e2⟩
    · exact ⟨_, rfl, stores_mput hs n1101 e2⟩

end Sys2Proof.Machine
end

section
namespace Sys2Proof.Machine

/-! ## WRITE of a module object -/

/-- The counters of the host port are counters. -/
theorem hostCounter_acc {sub : Nat} {o : Obj} (h : objIn moduleObjs 0x1430 sub = some o) : o.acc = .counter := by
  have all : (moduleObjs.all fun o => !(Nat.ble o.lo 0x1430 && Nat.ble 0x1430 o.hi) || o.acc == .counter) = true := by decide
  have ho := List.all_eq_true.1 all o (List.mem_of_find?_eq_some h)
  have hc : o.covers 0x1430 sub = true := List.find?_some (p := fun o : Obj => o.covers 0x1430 sub) h
  simp only [Obj.covers, Bool.and_eq_true] at hc
  simpa [hc.1.1, hc.1.2] using ho

/-- The checks of a WRITE turn out alike for the counters of the host port too: they do not look at the old value. -/
theorem Heard.mStatus_any {s b : State} (h : Heard s b) {o : Obj} {idx sub raw : Nat} (hs : sub < 256) :
    b.mStatus o idx sub raw = s.mStatus o idx sub raw := by
  by_cases hi : idx = 0x1430
  · subst hi
    obtain ⟨m, l, r, -, rfl⟩ := h
    simp [State.mStatus, State.mNotNow, State.mBusy, State.mBad]
  · exact h.mStatus hs hi

/-- The answer is counted with the messages sent (R630). -/
theorem mreg_reply_up {u : State} {q : Request} {func : Nat} {msg : List Byte} (hr : ∀ m, q.bus ≠ .relay m)
    (hu : u.busUp q.bus = true) (k : Nat) (hk : k < 256) :
    (u.reply q func (some msg)).mreg 0x1430 k = if k = 4 then wrap64 (u.mreg 0x1430 4 + 1) else u.mreg 0x1430 k := by
  have e : ∀ l : List Sent, (l.foldl State.emit ((u.keepDup q func (some msg)).minc 0x1430 4)).mreg 0x1430 k =
      if k = 4 then wrap64 (u.mreg 0x1430 4 + 1) else u.mreg 0x1430 k := fun l => by
    rw [foldl_emit]
    refine (mreg_mput (u.keepDup q func (some msg)) 0x1430 4 _ 0x1430 k).trans ?_
    simp only [objKey_eq hk (show 4 < 256 by decide), true_and]
    rfl
  have hu' : (u.keepDup q func (some msg)).busUp q.bus = true := hu
  unfold State.reply State.answer State.send
  cases hb : q.bus with
  | relay m => exact absurd hb (hr m)
  | _ =>
    rw [hb] at hu'
    simp only [hu', if_true]
    exact e _

/-- The checks of access in the form of the model. -/
theorem notFixed {o : Obj} (hf : ¬(o.acc = .ro ∨ o.acc = .roh ∨ o.ty.isWindow = true)) :
    (o.ty.isWindow || decide (o.acc = .ro) || decide (o.acc = .roh)) = false := by
  obtain ⟨h1, h2, h3⟩ : ¬o.acc = .ro ∧ ¬o.acc = .roh ∧ o.ty.isWindow = false := by simpa using hf
  simp [h1, h2, h3]

/-- What the write does with the value, past the checks of access and length. -/
theorem module_writeObject {s b : State} {q : Request} {o : Obj} (hb : Heard s b)
    (hp : s.place q.index q.subIndex = .module o) (hf : ¬(o.acc = .ro ∨ o.acc = .roh ∨ o.ty.isWindow = true))
    (hl : (writeData q.msg).length = o.ty.readSize) :
    b.writeObject q.index q.subIndex (writeData q.msg) false =
      if s.mStatus o q.index q.subIndex (objOf q.index q.subIndex (writeData q.msg)) = 0 then
        b.mStore o q.index q.subIndex (objOf q.index q.subIndex (writeData q.msg))
      else (s.mStatus o q.index q.subIndex (objOf q.index q.subIndex (writeData q.msg)), b) := by
  have hf' : (o.ty.isWindow || decide (o.acc = .ro) || decide (o.acc = .roh)) = false := notFixed hf
  unfold State.writeObject
  rw [hb.place, hp]
  dsimp only
  rw [hf', if_neg (by simp), if_neg (by simpa using hl), hb.mStatus_any (byteAt_lt _ _)]
  rfl

section Module
variable {s : State} {q : Request} {x : Session} {o : Obj} (h : taken s q 2) (hx : signedBy s q 2 x)
  (hp : s.place q.index q.subIndex = .module o) (he : s.rows12 q.index q.subIndex = 0)
  (hs : slotOk q.index q.subIndex x.slot)
include h hx hp he hs

theorem module_fixed (hf : o.acc = .ro ∨ o.acc = .roh ∨ o.ty.isWindow = true) : Answered s q 2 (writeMessage q.msg 0x0301) := by
  refine write_answered h hx he hs fun b hb => ?_
  unfold State.writeObject
  rw [hb.place, hp]
  refine if_pos ?_
  rcases hf with hf | hf | hf <;> simp [hf]

variable (hf : ¬(o.acc = .ro ∨ o.acc = .roh ∨ o.ty.isWindow = true))
include hf

theorem module_badLength (hl : (writeData q.msg).length ≠ o.ty.readSize) : Answered s q 2 (writeMessage q.msg 0x0201) := by
  refine write_answered h hx he hs fun b hb => ?_
  have hf' : (o.ty.isWindow || decide (o.acc = .ro) || decide (o.acc = .roh)) = false := notFixed hf
  unfold State.writeObject
  rw [hb.place, hp]
  dsimp only
  rw [hf', if_neg (by simp), if_pos hl]

variable (hl : (writeData q.msg).length = o.ty.readSize)
include hl

theorem module_refused (hst : s.mStatus o q.index q.subIndex (objOf q.index q.subIndex (writeData q.msg)) ≠ 0) :
    Answered s q 2 (writeMessage q.msg (s.mStatus o q.index q.subIndex (objOf q.index q.subIndex (writeData q.msg)))) :=
  write_answered h hx he hs fun b hb => by rw [module_writeObject hb hp hf hl, if_neg hst]

variable (hst : s.mStatus o q.index q.subIndex (objOf q.index q.subIndex (writeData q.msg)) = 0)
include hst

/-- A key is stored in the host port's slots (R602). -/
theorem module_key (hi : q.index = 0x1400) (hk : 0x10 ≤ q.subIndex) :
    ∃ t, hostRow q 2 s = .next t ∧ StaysPut s t ∧ answers t q 2 (writeMessage q.msg 0) ∧
      t.host.keys = tabSet (fun _ => 0) s.host.keys (q.subIndex - 0x10) (objOf q.index q.subIndex (writeData q.msg)) := by
  obtain ⟨hr, hu⟩ := bus_of_taken h
  obtain ⟨b, hb, hrow⟩ := write_row h hx he hs
  rw [module_writeObject hb hp hf hl, if_pos hst] at hrow
  set raw := objOf q.index q.subIndex (writeData q.msg)
  have hstore : b.mStore o q.index q.subIndex raw =
      (0, { b with host := { b.host with keys := tabSet (fun _ => 0) b.host.keys (q.subIndex - 0x10) raw } }) := by
    have hne : q.subIndex ≠ 1 := by omega
    unfold State.mStore
    simp [hi, hk, hne]
  rw [hstore] at hrow
  set u : State := { b with host := { b.host with keys := tabSet (fun _ => 0) b.host.keys (q.subIndex - 0x10) raw } } with hudef
  have hview : SameView s u := hb.sameView.trans ⟨rfl, rfl, rfl, rfl, rfl, rfl⟩
  have hboard : sameBoard b u := ⟨rfl, rfl, rfl, rfl, rfl, rfl, rfl, rfl, fun ch => by cases ch <;> rfl⟩
  have hbus : u.busUp q.bus = true := by
    rw [← hu, ← hb.busUp]
    cases q.bus <;> rfl
  refine ⟨_, hrow, ⟨sameBoard_trans hb.sameBoard (sameBoard_trans hboard (sameBoard_finish hr _)), fun hm ch => ?_⟩,
    answers_finish hr hbus, ?_⟩
  · rw [chan_finish hr _ hview hm, ← hb.chan]
    cases ch <;> rfl
  · rw [reply_keys hr, ← hb.keys]

/-- A plain WRITE of a module object stores its value and leaves the others (R609). -/
theorem module_stored (hi : q.index ∉ [0x1101, 0x1109, 0x1500]) (h4 : ¬(q.index = 0x1300 ∧ q.subIndex = 4))
    (hk : ¬(q.index = 0x1400 ∧ 0x10 ≤ q.subIndex)) (hm : modeStands s) :
    ∃ t, hostRow q 2 s = .next t ∧ (q.index ≠ 0x1106 → sameBoard s t) ∧ (∀ ch, t.chan ch = s.chan ch) ∧
      (t.busUp q.bus = true → answers t q 2 (writeMessage q.msg 0)) ∧
      ((q.index ≠ 0x1430 → q.index ≠ 0x1200 ∨ q.subIndex ≠ 6 ∨ ¬t.alarm →
          t.mreg q.index q.subIndex = written o q.index q.subIndex (s.mreg q.index q.subIndex)
            (objOf q.index q.subIndex (writeData q.msg))) ∧
        (q.index = 0x1200 → t.alarm → bitOf (t.mreg 0x1200 6) 6 = true)) ∧
      (q.index = 0x1430 → t.mreg q.index q.subIndex = if q.subIndex = 4 then 1 else 0) ∧
      ∀ i k, k < 256 → (i, k) ≠ (q.index, q.subIndex) → (q.index = 0x1200 → (i, k) ≠ (0x1200, 6)) → i ≠ 0x1430 →
        t.mreg i k = s.mreg i k := by
  obtain ⟨hr, hu⟩ := bus_of_taken h
  obtain ⟨b, hb, hrow⟩ := write_row h hx he hs
  rw [module_writeObject hb hp hf hl, if_pos hst] at hrow
  set raw := objOf q.index q.subIndex (writeData q.msg)
  have hsub : q.subIndex < 256 := byteAt_lt _ _
  obtain ⟨u, hstore, S⟩ := mStore_plain b o (raw := raw) hsub hi h4 hk
  rw [hstore] at hrow
  have hview : SameView s u := hb.sameView.trans S.view
  have reg : ∀ i k, k < 256 → i ≠ 0x1430 → (State.finish s (u.reply q 2 (some (writeMessage q.msg 0)))).mreg i k = u.mreg i k :=
    fun i k hk hi => mreg_finish hr _ hview hm hk hi
  have alarm : (State.finish s (u.reply q 2 (some (writeMessage q.msg 0)))).alarm ↔ u.alarm := by
    unfold State.alarm
    rw [reg _ _ (by decide) (by decide), reg _ _ (by decide) (by decide)]
  refine ⟨_, hrow, fun hw => ?_, fun ch => ?_, fun hup => ?_, ⟨fun hn ha => ?_, fun hi ha => ?_⟩, fun hc => ?_,
    fun i k hk hn h6 hc => ?_⟩
  · exact sameBoard_trans hb.sameBoard (sameBoard_trans (S.board hw) (sameBoard_finish hr _))
  · rw [chan_finish hr _ hview hm, S.chan, hb.chan]
  · exact answers_finish hr (by rw [← busUp_finish hr]; exact hup)
  · rw [reg _ _ hsub hn, S.mreg _ _ hsub fun hi => ?_, mreg_mput_self, hb.mreg hsub hn]
    rw [alarm] at ha
    rcases ha with ha | ha | ha
    · exact absurd hi ha
    · left; simp [ha]
    · exact .inr ha
  · rw [reg _ _ (by decide) (by decide)]
    exact S.alarm hi (alarm.1 ha)
  · have hacc : o.acc = .counter := hostCounter_acc (by rw [← hc]; exact (objIn_of_place hp).2)
    have hzero : ∀ old, written o q.index q.subIndex old raw = 0 := fun old => by unfold written; rw [hacc]
    have hreg : u.mreg q.index q.subIndex = 0 := by
      rw [S.mreg _ _ hsub (by omega), mreg_mput_self, hzero]
    have hup : u.busUp q.bus = true := by rw [S.port (by omega), hb.busUp, hu]
    have T : Told u (u.reply q 2 (some (writeMessage q.msg 0))) := told_reply hr _
    rw [(hview.trans T.sameView).mreg_finish hm]
    rw [hc] at hreg ⊢
    rw [mreg_reply_up hr hup _ hsub]
    split
    · rename_i h4
      rw [h4] at hreg
      rw [hreg]
      rfl
    · exact hreg
  · rw [reg _ _ hk hc, S.mreg _ _ hk fun hi => .inl (h6 hi), mreg_mput_ne b hsub hk hn, hb.mreg hk hc]

end Module

end Sys2Proof.Machine
end

section
namespace Sys2Proof.Machine

/-! ## WRITE-BLOCK of the staging window (R590) -/

/-- Entries that are not written stay. -/
theorem tabGet_foldl_tabSet_ne {α : Type} [DecidableEq α] (d : Nat → α) (es : List (Nat × α)) (t : Tab α) {e : Nat}
    (h : ∀ p ∈ es, p.1 ≠ e) : tabGet d (es.foldl (fun t p => tabSet d t p.1 p.2) t) e = tabGet d t e := by
  induction es generalizing t with
  | nil => rfl
  | cons p es ih =>
    rw [List.foldl_cons, ih _ fun x hx => h x (List.mem_cons_of_mem _ hx), tabGet_tabSet,
      if_neg (Ne.symm (h p List.mem_cons_self))]

/-- Entries of distinct numbers read as they were written. -/
theorem tabGet_foldl_tabSet_mem {α : Type} [DecidableEq α] (d : Nat → α) (es : List (Nat × α)) (t : Tab α)
    (h : (es.map (·.1)).Nodup) {p : Nat × α} (hp : p ∈ es) :
    tabGet d (es.foldl (fun t p => tabSet d t p.1 p.2) t) p.1 = p.2 := by
  induction es generalizing t with
  | nil => cases hp
  | cons x es ih =>
    rw [List.map_cons, List.nodup_cons] at h
    rw [List.foldl_cons]
    rcases List.mem_cons.1 hp with rfl | hp
    · rw [tabGet_foldl_tabSet_ne _ _ _ fun y hy e => h.1 (List.mem_map.2 ⟨y, hy, e⟩), tabGet_tabSet, if_pos rfl]
    · exact ih _ h.2 hp

theorem entryValues_nodup (idx n first : Nat) (data : List Byte) : ((entryValues idx n first data).map (·.1)).Nodup := by
  unfold entryValues
  rw [List.map_map]
  exact (List.nodup_range).map fun a b (hab : first + a = first + b) => by omega

theorem entryValues_ne_nil {idx n first : Nat} {data : List Byte} (hd : data.length % n = 0) (hl : 0 < data.length) :
    entryValues idx n first data ≠ [] := by
  have hq : data.length / n ≠ 0 := by
    intro h0
    have := Nat.div_add_mod data.length n
    rw [h0, hd] at this
    omega
  simpa [entryValues] using hq

/-- The staging slot after entries of it are written. -/
def VendorSlot.stage (v : VendorSlot) (es : List (Nat × Nat)) : VendorSlot :=
  { v with
    data := es.foldl (fun d p => tabSet (fun _ => 2 ^ 512 - 1) d p.1 p.2) v.data
    written := v.written ++ es.map (·.1), delivered := v.delivered && es.isEmpty }

/-- The flash with the staging slot `k` replaced. -/
def Flash.setSlot (f : Flash) (k : Nat) (v : VendorSlot) : Flash :=
  if k = 0 then { f with vendor0 := v } else { f with vendor1 := v }

theorem stageEntries_written {b : State} {es : List (Nat × Nat)} (h : ∃ p ∈ es, p.1 ∈ (b.vendorSlot b.staging).written) :
    b.stageEntries es = (0x0601, b) := by
  unfold State.stageEntries
  exact if_pos (by simpa using h)

theorem stageEntries_fresh {b : State} {es : List (Nat × Nat)} (h : ∀ p ∈ es, p.1 ∉ (b.vendorSlot b.staging).written) :
    b.stageEntries es = (0, { b with flash := b.flash.setSlot b.staging ((b.vendorSlot b.staging).stage es) }) := by
  unfold State.stageEntries
  exact if_neg (by simpa using h)

section Block
variable {s : State} {q : Request} {x : Session} {o : Obj} (h : taken s q 4) (hx : signedBy s q 4 x)
  (hp : s.place q.index q.subIndex = .module o) (he : s.rows12 q.index q.subIndex = 0)
  (hs : slotOk q.index q.subIndex x.slot)
include h hx hp he hs

theorem moduleBlock_fixed (hf : o.acc = .ro ∨ o.acc = .roh) : Answered s q 4 (writeMessage q.msg 0x0301) := by
  refine writeBlock_answered h hx he hs fun b hb => ?_
  unfold State.writeEntries
  rw [hb.place, hp]
  exact if_pos (by simpa using hf)

variable (h1 : o.acc ≠ .ro) (h2 : o.acc ≠ .roh)
include h1 h2

theorem moduleBlock_misaligned
    (hm : o.ty.isWindow = false ∨ leNat (slice q.msg 8 8) % o.ty.entrySize ≠ 0 ∨ (blockData q.msg).length % o.ty.entrySize ≠ 0) :
    Answered s q 4 (writeMessage q.msg 0x0203) := by
  refine writeBlock_answered h hx he hs fun b hb => ?_
  unfold State.writeEntries
  rw [hb.place, hp]
  dsimp only
  rw [if_neg (by simp [h1, h2]), if_pos (by simpa [misaligned] using hm)]

variable (hw : o.ty.isWindow = true) (ho : leNat (slice q.msg 8 8) % o.ty.entrySize = 0)
  (hl : (blockData q.msg).length % o.ty.entrySize = 0)
include hw ho hl

theorem moduleBlock_warned (hp1 : s.power.warn = true) (hp2 : s.power.warnWritten = true) :
    Answered s q 4 (writeMessage q.msg 0x0403) := by
  refine writeBlock_answered h hx he hs fun b hb => ?_
  unfold State.writeEntries
  rw [hb.place, hp, hb.power]
  dsimp only
  rw [if_neg (by simp [h1, h2]), if_neg (by simp [misaligned, hw, ho, hl]), if_pos (by simp [hp1, hp2])]

variable (hpw : s.power.warn = false ∨ s.power.warnWritten = false)
include hpw

theorem moduleBlock_busy (hj : s.flash.microJob.isSome = true) : Answered s q 4 (writeMessage q.msg 0x0401) := by
  refine writeBlock_answered h hx he hs fun b hb => ?_
  unfold State.writeEntries
  rw [hb.place, hp, hb.power, hb.flash]
  dsimp only
  rw [if_neg (by simp [h1, h2]), if_neg (by simp [misaligned, hw, ho, hl]),
    if_neg (by rcases hpw with hpw | hpw <;> simp [hpw]), if_pos (by simp [hj])]

variable (hj : s.flash.microJob = none) (h0 : 0 < (blockData q.msg).length)
  (hr : leNat (slice q.msg 8 8) + (blockData q.msg).length ≤
    o.ty.entrySize * windowEntries s.unit.variant q.index o)
  (hm : (blockData q.msg).length ≤ 65536)
include hj h0 hr hm

omit h hx he hs in
/-- Past its checks a WRITE-BLOCK of the staging window writes its entries. -/
theorem moduleBlock_stages {b : State} (hb : Heard s b) :
    b.writeEntries q.index q.subIndex (leNat (slice q.msg 8 8)) (blockData q.msg) false =
      b.stageEntries (entryValues q.index o.ty.entrySize (leNat (slice q.msg 8 8) / o.ty.entrySize) (blockData q.msg)) := by
  have hfar : ¬(decide (o.ty.entrySize * windowEntries s.unit.variant q.index o <
      leNat (slice q.msg 8 8) + (blockData q.msg).length) || decide (65536 < (blockData q.msg).length)) = true := by
    simp only [Bool.or_eq_true, decide_eq_true_eq]
    omega
  unfold State.writeEntries
  rw [hb.place, hp, hb.power, hb.flash, hb.unit]
  dsimp only
  rw [if_neg (by simp [h1, h2]), if_neg (by simp [misaligned, hw, ho, hl]),
    if_neg (by rcases hpw with hpw | hpw <;> simp [hpw]), if_neg (by simp [hj]),
    if_neg (by omega), if_neg hfar]

theorem moduleBlock_written
    (hv : ∃ p ∈ entryValues q.index o.ty.entrySize (leNat (slice q.msg 8 8) / o.ty.entrySize) (blockData q.msg),
      p.1 ∈ (s.vendorSlot s.staging).written) : Answered s q 4 (writeMessage q.msg 0x0601) := by
  refine writeBlock_answered h hx he hs fun b hb => ?_
  rw [moduleBlock_stages hp h1 h2 hw ho hl hpw hj h0 hr hm hb]
  refine stageEntries_written ?_
  unfold State.staging State.vendorSlot
  rw [hb.flash]
  exact hv

/-- A WRITE-BLOCK of fresh entries writes them, in a slot that is then no delivered one (R590). -/
theorem moduleBlock_written_in
    (hv : ∀ p ∈ entryValues q.index o.ty.entrySize (leNat (slice q.msg 8 8) / o.ty.entrySize) (blockData q.msg),
      p.1 ∉ (s.vendorSlot s.staging).written) :
    ∃ t, hostRow q 4 s = .next t ∧ answers t q 4 (writeMessage q.msg 0) ∧ sameBoard { s with flash := t.flash } t ∧
      t.flash = s.flash.setSlot s.staging ((s.vendorSlot s.staging).stage
        (entryValues q.index o.ty.entrySize (leNat (slice q.msg 8 8) / o.ty.entrySize) (blockData q.msg))) := by
  obtain ⟨hrelay, hu⟩ := bus_of_taken h
  obtain ⟨b, hb, hrow⟩ := writeBlock_row h hx he hs
  have hslot : b.vendorSlot b.staging = s.vendorSlot s.staging ∧ b.staging = s.staging := by
    unfold State.staging State.vendorSlot
    rw [hb.flash]
    exact ⟨rfl, rfl⟩
  rw [moduleBlock_stages hp h1 h2 hw ho hl hpw hj h0 hr hm hb, stageEntries_fresh (by rw [hslot.1]; exact hv), hslot.1, hslot.2,
    hb.flash] at hrow
  set f := s.flash.setSlot s.staging ((s.vendorSlot s.staging).stage
    (entryValues q.index o.ty.entrySize (leNat (slice q.msg 8 8) / o.ty.entrySize) (blockData q.msg)))
  have hbus : ({ b with flash := f } : State).busUp q.bus = true := by
    rw [← hu, ← hb.busUp]
    cases q.bus <;> rfl
  have hboard : sameBoard { b with flash := f } (State.finish s (({ b with flash := f } : State).reply q 4
      (some (writeMessage q.msg 0)))) := sameBoard_finish hrelay _
  have ⟨_, _, _, _, hflash, _⟩ := hboard
  refine ⟨_, hrow, answers_finish hrelay hbus, ?_, hflash⟩
  rw [hflash]
  refine sameBoard_trans (t := { b with flash := f }) ?_ hboard
  obtain ⟨m, l, r, -, rfl⟩ := hb
  exact ⟨rfl, rfl, rfl, rfl, rfl, rfl, rfl, rfl, fun ch => by cases ch <;> rfl⟩

end Block

/-! ## The slots of the flash -/

theorem staging_cases (s : State) : s.staging = 0 ∨ s.staging = 1 := by
  unfold State.staging
  split
  · exact .inr rfl
  · exact .inl rfl

theorem vendorSlot_setSlot {t : State} {f : Flash} {k : Nat} {v : VendorSlot} (ht : t.flash = f.setSlot k v) :
    t.vendorSlot k = v := by
  unfold State.vendorSlot
  rw [ht]
  unfold Flash.setSlot
  split <;> rfl

theorem vendorSlot_setSlot_other {s t : State} {k : Nat} {v : VendorSlot} (ht : t.flash = s.flash.setSlot k v)
    (hk : k = 0 ∨ k = 1) : t.vendorSlot (1 - k) = s.vendorSlot (1 - k) := by
  unfold State.vendorSlot
  rw [ht]
  rcases hk with rfl | rfl <;> rfl

theorem setSlot_rest (f : Flash) (k : Nat) (v : VendorSlot) :
    (f.setSlot k v).imageA = f.imageA ∧ (f.setSlot k v).imageB = f.imageB ∧ (f.setSlot k v).selected = f.selected := by
  unfold Flash.setSlot
  split <;> exact ⟨rfl, rfl, rfl⟩

theorem module_writes (s : State) (q : Request) : moduleWrites s q := by
  refine ⟨fun h hd x o hx hp => ?_, fun h hd x o hx hp => ?_⟩
  · have he : s.rows12 q.index q.subIndex = 0 := rows12_pass (by rw [hp]; simp) hd
    refine ⟨fun hz hs => write_wrongSlot h hx he hz hs, fun hs => ⟨fun hf => module_fixed h hx hp he hs hf,
      fun hf hl => module_badLength h hx hp he hs hf hl, fun hf hl => ⟨fun hst => module_refused h hx hp he hs hf hl hst,
        fun hst hi hk => module_key h hx hp he hs hf hl hst hi hk,
        fun hst hi h4 hk hm => module_stored h hx hp he hs hf hl hst hi h4 hk hm⟩⟩⟩
  · have he : s.rows12 q.index q.subIndex = 0 := rows12_pass (by rw [hp]; simp) hd
    refine ⟨fun hz hs => writeBlock_wrongSlot h hx he hz hs, fun hs => ⟨fun hf => moduleBlock_fixed h hx hp he hs hf,
      fun h1 h2 => ⟨fun hm => moduleBlock_misaligned h hx hp he hs h1 h2 hm, fun hw ho hl =>
        ⟨fun p1 p2 => moduleBlock_warned h hx hp he hs h1 h2 hw ho hl p1 p2, fun hpw =>
          ⟨fun hj => moduleBlock_busy h hx hp he hs h1 h2 hw ho hl hpw hj, fun hj hn h0 hr hm =>
            ⟨fun hv => moduleBlock_written h hx hp he hs h1 h2 hw ho hl hpw hj h0 hr hm hv, fun hv => ?_⟩⟩⟩⟩⟩⟩
    obtain ⟨t, hrow, hans, hboard, hflash⟩ := moduleBlock_written_in h hx hp he hs h1 h2 hw ho hl hpw hj h0 hr hm hv
    obtain ⟨hA, hB, hsel⟩ := setSlot_rest s.flash s.staging ((s.vendorSlot s.staging).stage
      (entryValues q.index o.ty.entrySize (leNat (slice q.msg 8 8) / o.ty.entrySize) (blockData q.msg)))
    have hslot := vendorSlot_setSlot hflash
    have hempty : (entryValues q.index o.ty.entrySize (leNat (slice q.msg 8 8) / o.ty.entrySize) (blockData q.msg)).isEmpty =
        false := List.isEmpty_eq_false_iff.2 (entryValues_ne_nil hl h0)
    refine ⟨t, hrow, hans, hboard, vendorSlot_setSlot_other hflash (staging_cases s), by rw [hflash]; exact hA,
      by rw [hflash]; exact hB, by rw [hflash]; exact hsel, ?_, ?_, ?_, fun p hp => ?_, fun e hn => ?_⟩ <;>
      rw [hslot]
    · rfl
    · rfl
    · simp only [VendorSlot.stage]
      exact (congrArg _ hempty).trans (Bool.and_false _)
    · exact tabGet_foldl_tabSet_mem _ _ _ (entryValues_nodup _ _ _ _) hp
    · exact tabGet_foldl_tabSet_ne _ _ _ hn

end Sys2Proof.Machine
end

section
namespace Sys2Proof.Machine

/-! ## Objects that both channels must hold alike -/

/-- The flags that mark in both channels a setting they must hold alike. -/
def alikeFlags : List (Nat × Nat) := (0x410D, 1) :: (0x425D, 1) :: (upFrom 1 16).map fun k => (0x4206, k)

theorem both_chan (s : State) (i k m : Nat) (ch : Ch) :
    ((s.onChan .a fun _ c => c.flag i k m).onChan .b fun _ c => c.flag i k m).chan ch = ((s.chan ch).flag i k m).emptied := by
  cases ch
  · exact (onChan_chan_other _ .b _).trans (onChan_chan s .a _)
  · refine (onChan_chan _ .b _).trans ?_
    rw [show (s.onChan .a fun _ c => c.flag i k m).chan .b = s.chan .b from onChan_chan_other s .a _]

/-- Marking both channels changes the flags only. -/
theorem onlyRegs_both {s : State} {i k m : Nat} {ch : Ch} {d : Channel} (hk : k < 256) (hm : (i, k) ∈ alikeFlags)
    (h : onlyRegs d (s.chan ch) alikeFlags) :
    onlyRegs d (((s.onChan .a fun _ c => c.flag i k m).onChan .b fun _ c => c.flag i k m).chan ch) alikeFlags := by
  rw [both_chan]
  exact onlyRegs_emptied (onlyRegs_flag m hk h hm)

theorem onlyRegs_crossCheck {s : State} {ch : Ch} {d : Channel} (i : Nat) (h : onlyRegs d (s.chan ch) alikeFlags) :
    onlyRegs d ((s.crossCheck i).chan ch) alikeFlags := by
  have rows : ∀ (l : List Nat) (s : State), (∀ k ∈ l, k < 256 ∧ (0x4206, k) ∈ alikeFlags) →
      onlyRegs d (s.chan ch) alikeFlags →
      onlyRegs d ((l.foldl (fun s k => if s.chA.hwBit 0x4200 k 3 = s.chB.hwBit 0x4200 k 3 then s else
        (s.onChan .a fun _ c => c.flag 0x4206 k (2 ^ 5)).onChan .b fun _ c => c.flag 0x4206 k (2 ^ 5)) s).chan ch) alikeFlags := by
    intro l
    induction l with
    | nil => exact fun _ _ h => h
    | cons k l ih =>
      intro s hl hs
      refine ih _ (fun x hx => hl x (List.mem_cons_of_mem _ hx)) ?_
      dsimp only
      split
      · exact hs
      · exact onlyRegs_both (hl k List.mem_cons_self).1 (hl k List.mem_cons_self).2 hs
  unfold State.crossCheck
  dsimp only
  split
  · exact h
  · split
    · split
      · exact h
      · exact onlyRegs_both (by decide) (by decide) h
    · split
      · exact rows _ s (by decide) h
      · split
        · split
          · exact h
          · exact onlyRegs_both (by decide) (by decide) h
        · exact h

theorem crossCheck_other {s : State} {i : Nat} (h : i ∉ [0x410C, 0x410D, 0x4200, 0x4206, 0x4252, 0x425D]) : s.crossCheck i = s := by
  simp only [List.mem_cons, List.not_mem_nil, or_false, not_or] at h
  unfold State.crossCheck
  simp [h]

/-! ## WRITE and WRITE-BLOCK of a channel's objects -/

/-- No key slot is asked for a channel's objects. -/
theorem slotOk_of_chan {s : State} {idx sub : Nat} {ch : Ch} {i : Nat} {o : Obj} (h : s.place idx sub = .chan ch i o)
    (slot : Nat) : slotOk idx sub slot := by
  have hw : channelScope idx = true := by
    cases hw : channelScope idx
    · grind [State.place]
    · rfl
  have hi : 0x4000 ≤ idx := by simpa [channelScope] using hw
  intro hz
  have h1 : idx ≠ 0x1400 := by omega
  have h2 : idx ≠ 0x1500 := by omega
  have h3 : idx ≠ 0x1510 := by omega
  simp [slotZeroOnly, h1, h2, h3] at hz

theorem Beside.busUp {s t : State} (h : Beside s t) (bus : Bus) : t.busUp bus = s.busUp bus := by
  have hreg : t.mreg 0x1400 1 = s.mreg 0x1400 1 := h.mreg _ (by decide)
  cases bus with
  | canA => exact (congrArg (fun h : HostPort => h.canA == .active || h.canA == .passive) h.host :)
  | canB => exact (congrArg (fun h : HostPort => h.canB == .active || h.canB == .passive) h.host :)
  | eth d =>
    unfold State.busUp
    rw [hreg]
    exact (congrArg (fun h : HostPort => bitOf (s.mreg 0x1400 1) 3 && h.ethLink) h.host :)
  | relay m => rfl

/-- What a WRITE of a channel's object leaves. -/
structure ChStores (b u : State) (ch : Ch) (i : Nat) (d : Channel) : Prop where
  view : SameView b u
  board : i ≠ 0x4232 → sameBoard b u
  port : ∀ bus, u.busUp bus = b.busUp bus
  own : onlyRegs d (u.chan ch) alikeFlags
  other : onlyRegs (b.chan ch.other) (u.chan ch.other) alikeFlags
  exactly : i ∉ [0x410C, 0x410D, 0x4200, 0x4206, 0x4252, 0x425D] → u.chan ch = d ∧ u.chan ch.other = b.chan ch.other

theorem chStore_stores (b : State) (ch : Ch) (o : Obj) (i sub raw : Nat) :
    ChStores b (b.chStore ch o i sub raw) ch i ((b.chan ch).storeObj (b.ctx ch) o i sub raw).emptied := by
  set f : Ctx → Channel → Channel := fun cx c => c.storeObj cx o i sub raw
  have B : Beside b ((b.onChan ch f).crossCheck i) := (beside_onChan b ch f).trans (beside_crossCheck _ i)
  have V := B.sameView
  have own : onlyRegs ((b.chan ch).storeObj (b.ctx ch) o i sub raw).emptied (((b.onChan ch f).crossCheck i).chan ch) alikeFlags :=
    onlyRegs_crossCheck i (by rw [onChan_chan]; exact onlyRegs_refl _ _)
  have other : onlyRegs (b.chan ch.other) (((b.onChan ch f).crossCheck i).chan ch.other) alikeFlags :=
    onlyRegs_crossCheck i (by rw [onChan_chan_other]; exact onlyRegs_refl _ _)
  have exactly : i ∉ [0x410C, 0x410D, 0x4200, 0x4206, 0x4252, 0x425D] →
      ((b.onChan ch f).crossCheck i).chan ch = ((b.chan ch).storeObj (b.ctx ch) o i sub raw).emptied ∧
        ((b.onChan ch f).crossCheck i).chan ch.other = b.chan ch.other := fun h => by
    rw [crossCheck_other h]
    exact ⟨onChan_chan b ch f, onChan_chan_other b ch f⟩
  unfold State.chStore
  dsimp only
  split
  · rename_i hi
    have hc : ∀ (v : State) (gone : WakeCause → Bool) (c : Ch), (v.releaseWake gone).chan c = v.chan c := fun v _ c => by cases c <;> rfl
    refine ⟨⟨V.unit, V.arb, V.mode, V.roleA, V.roleB, V.asked⟩, fun h => absurd hi h, fun bus => ?_, ?_, ?_, ?_⟩
    · rw [← B.busUp]
      cases bus <;> rfl
    · rw [hc]
      exact own
    · rw [hc]
      exact other
    · rw [hc, hc]
      exact exactly
  · exact ⟨V, fun _ => B.sameBoard, B.busUp, own, other, exactly⟩

section Chan
variable {s : State} {q : Request} {x : Session} {ch : Ch} {i : Nat} {o : Obj}

section Write
variable (h : taken s q 2) (hx : signedBy s q 2 x) (hp : s.place q.index q.subIndex = .chan ch i o)
  (he : s.rows12 q.index q.subIndex = 0)
include h hx hp he

theorem chan_fixed (hf : o.acc = .ro ∨ o.acc = .roh ∨ o.ty.isWindow = true) : Answered s q 2 (writeMessage q.msg 0x0301) := by
  refine write_answered h hx he (slotOk_of_chan hp _) fun b hb => ?_
  unfold State.writeObject
  rw [hb.place, hp]
  refine if_pos ?_
  rcases hf with hf | hf | hf <;> simp [hf]

variable (hf : ¬(o.acc = .ro ∨ o.acc = .roh ∨ o.ty.isWindow = true)) (hl : (writeData q.msg).length = o.ty.readSize)
include hf hl

omit h hx he in
theorem chan_writeObject {b : State} (hb : Heard s b) :
    b.writeObject q.index q.subIndex (writeData q.msg) false =
      if (s.chan ch).objStatus (s.ctx ch) (s.partnerTime ch) o i q.subIndex (objOf i q.subIndex (writeData q.msg)) = 0 then
        (0, b.chStore ch o i q.subIndex (objOf i q.subIndex (writeData q.msg)))
      else ((s.chan ch).objStatus (s.ctx ch) (s.partnerTime ch) o i q.subIndex (objOf i q.subIndex (writeData q.msg)), b) := by
  unfold State.writeObject
  rw [hb.place, hp]
  dsimp only
  rw [notFixed hf, if_neg (by simp), if_neg (by simpa using hl), hb.chan, hb.ctx, hb.partnerTime]
  rfl

theorem chan_refused
    (hst : (s.chan ch).objStatus (s.ctx ch) (s.partnerTime ch) o i q.subIndex (objOf i q.subIndex (writeData q.msg)) ≠ 0) :
    Answered s q 2 (writeMessage q.msg
      ((s.chan ch).objStatus (s.ctx ch) (s.partnerTime ch) o i q.subIndex (objOf i q.subIndex (writeData q.msg)))) :=
  write_answered h hx he (slotOk_of_chan hp _) fun b hb => by rw [chan_writeObject hp hf hl hb, if_neg hst]

/-- A WRITE of a channel's object that its checks let pass is carried out (R609). -/
theorem chan_stored
    (hst : (s.chan ch).objStatus (s.ctx ch) (s.partnerTime ch) o i q.subIndex (objOf i q.subIndex (writeData q.msg)) = 0) :
    ∃ t, hostRow q 2 s = .next t ∧ answers t q 2 (writeMessage q.msg 0) ∧ (i ≠ 0x4232 → sameBoard s t) ∧
      (modeStands s →
        let d := ((s.chan ch).storeObj (s.ctx ch) o i q.subIndex (objOf i q.subIndex (writeData q.msg))).emptied
        onlyRegs d (t.chan ch) alikeFlags ∧ onlyRegs (s.chan ch.other) (t.chan ch.other) alikeFlags ∧
        (i ∉ [0x410C, 0x410D, 0x4200, 0x4206, 0x4252, 0x425D] → t.chan ch = d ∧ t.chan ch.other = s.chan ch.other)) := by
  obtain ⟨hr, hu⟩ := bus_of_taken h
  obtain ⟨b, hb, hrow⟩ := write_row h hx he (slotOk_of_chan hp _)
  rw [chan_writeObject hp hf hl hb, if_pos hst] at hrow
  obtain ⟨V, board, port, own, other, exactly⟩ := chStore_stores b ch o i q.subIndex (objOf i q.subIndex (writeData q.msg))
  rw [hb.chan, hb.ctx] at own
  rw [hb.chan] at other
  rw [hb.chan, hb.chan, hb.ctx] at exactly
  refine ⟨_, hrow, answers_finish hr (by rw [port, hb.busUp, hu]), fun hi => ?_, fun hm => ?_⟩
  · exact sameBoard_trans hb.sameBoard (sameBoard_trans (board hi) (sameBoard_finish hr _))
  · dsimp only
    rw [chan_finish hr _ (hb.sameView.trans V) hm, chan_finish hr _ (hb.sameView.trans V) hm]
    exact ⟨own, other, exactly⟩

end Write

/-- A WRITE-BLOCK of a channel's window that passes its checks writes its entries in order (R611). -/
theorem chan_block (h : taken s q 4) (hx : signedBy s q 4 x) (hp : s.place q.index q.subIndex = .chan ch i o)
    (hd : s.inDawn q.index = false) (hw : o.ty.isWindow = true) (h1 : o.acc ≠ .ro) (h2 : o.acc ≠ .roh)
    (ho : leNat (slice q.msg 8 8) % o.ty.entrySize = 0) (hl : (blockData q.msg).length % o.ty.entrySize = 0)
    (hin : leNat (slice q.msg 8 8) + (blockData q.msg).length ≤ o.ty.entrySize * windowEntries s.unit.variant i o)
    (hm : (blockData q.msg).length ≤ 65536) (h0 : 0 < (blockData q.msg).length)
    (hn : (s.chan ch).notNow (s.ctx ch) o i 0 0 = false) (hb' : (s.chan ch).busyNow i 0 0 = false) {es : List (Nat × Nat)}
    (hes : es = entryValues i o.ty.entrySize (leNat (slice q.msg 8 8) / o.ty.entrySize) (blockData q.msg))
    (hr : (es.all fun p => reservedEntry i p.1) = false) (hst : (s.chan ch).entriesStatus (s.ctx ch) o i es = 0) :
    ∃ t, hostRow q 4 s = .next t ∧ sameBoard s t ∧ answers t q 4 (writeMessage q.msg 0) ∧
      (modeStands s → t.chan ch.other = s.chan ch.other ∧
        t.chan ch = (es.foldl (fun c p => c.storeEntry (s.ctx ch) o i p.1 p.2) (s.chan ch)).emptied) := by
  obtain ⟨hrelay, hu⟩ := bus_of_taken h
  obtain ⟨b, hb, hrow⟩ := writeBlock_row h hx (rows12_pass (by rw [hp]; simp) hd) (slotOk_of_chan hp _)
  have hreach : o.ty.entrySize * windowEntries s.unit.variant i o ≤ o.ty.entrySize * entryReach s.unit.variant i o :=
    Nat.mul_le_mul_left _ (Nat.le_add_right _ _)
  have hfar : ¬(decide (o.ty.entrySize * entryReach s.unit.variant i o <
      leNat (slice q.msg 8 8) + (blockData q.msg).length) || decide (65536 < (blockData q.msg).length)) = true := by
    simp only [Bool.or_eq_true, decide_eq_true_eq]
    omega
  have hentries : b.writeEntries q.index q.subIndex (leNat (slice q.msg 8 8)) (blockData q.msg) false =
      (0, b.onChan ch fun cx c => es.foldl (fun c p => c.storeEntry cx o i p.1 p.2) c) := by
    unfold State.writeEntries
    rw [hb.place, hp]
    dsimp only
    rw [← hes, hr, hb.chan, hb.ctx, hn, hb', hb.unit, if_neg (by simp [h1, h2]), if_neg (by simp [misaligned, hw, ho, hl]),
      if_neg (by simp), if_neg (by simp), if_neg (by simp), if_neg (by omega), if_neg hfar, if_neg (by simpa using hst)]
  rw [hentries] at hrow
  have B := beside_onChan b ch fun cx c => es.foldl (fun c p => c.storeEntry cx o i p.1 p.2) c
  have V := hb.sameView.trans B.sameView
  refine ⟨_, hrow, ?_, answers_finish hrelay (by rw [B.busUp, hb.busUp, hu]), fun hstands => ⟨?_, ?_⟩⟩
  · exact sameBoard_trans hb.sameBoard (sameBoard_trans B.sameBoard (sameBoard_finish hrelay _))
  · rw [chan_finish hrelay _ V hstands, onChan_chan_other, hb.chan]
  · rw [chan_finish hrelay _ V hstands, onChan_chan, hb.chan, hb.ctx]

end Chan

end Sys2Proof.Machine
end

section
namespace Sys2Proof.Machine

/-! ## SNAPSHOT (R619) -/

/-- The parts of a table that a predicate of the key keeps read as before. -/
theorem tabGet_filter {α : Type} (d : Nat → α) (f : Nat → Bool) (t : Tab α) {k : Nat} (h : f k = true) :
    tabGet d (t.filter fun p => f p.1) k = tabGet d t k := by
  induction t with
  | nil => rfl
  | cons p t ih =>
    obtain ⟨j, v⟩ := p
    by_cases hj : f j = true
    · simp only [List.filter_cons, hj, if_true, tabGet, ih]
    · have hne : k ≠ j := fun e => hj (e ▸ h)
      simp only [List.filter_cons, hj, if_false, tabGet, hne, ih, Bool.false_eq_true]

/-- A snapshot holds the counters of its scope as they are (R619). -/
theorem takeSnapshot_holding (c : Channel) (kind sel : Nat) :
    ∃ h, (c.takeSnapshot kind sel).holding kind = some h ∧ h.selector = sel ∧
      (∀ i k o, k < 256 → objIn channelObjs i k = some o → o.acc = .counter → counterScope i k 0 = some (kind, sel) →
        tabGet chDflt h.dict (objKey i k) = c.reg i k) ∧
      ∀ i e o, e < 2 ^ 40 → objIn channelObjs i 0 = some o → o.acc = .counter → counterScope i 0 e = some (kind, sel) →
        tabGet winDflt h.win (winKey i e) = c.wget i e := by
  unfold Channel.takeSnapshot
  extract_lets isCounter d w c'
  have counts : ∀ {i k o}, objIn channelObjs i k = some o → o.acc = .counter → isCounter i k = true := fun ho ha => by
    simp [isCounter, ho, ha]
  refine ⟨⟨kind, sel, d, w⟩, ?_, rfl, fun i k o hk ho ha hc => ?_, fun i e o he ho ha hc => ?_⟩
  · unfold Channel.holding
    show List.find? _ (_ :: _) = _
    rw [List.find?_cons_of_pos (by simp)]
  · have e1 : objKey i k / 256 = i := by unfold objKey; omega
    have e2 : objKey i k % 256 = k := by unfold objKey; omega
    refine tabGet_filter chDflt (fun j => isCounter (j / 256) (j % 256) && counterScope (j / 256) (j % 256) 0 == some (kind, sel))
      c.dict ?_
    rw [e1, e2, counts ho ha, hc]
    simp
  · have e1 : winKey i e / 2 ^ 40 = i := by unfold winKey; omega
    have e2 : winKey i e % 2 ^ 40 = e := by unfold winKey; omega
    refine tabGet_filter winDflt (fun j => isCounter (j / 2 ^ 40) 0 && counterScope (j / 2 ^ 40) 0 (j % 2 ^ 40) == some (kind, sel))
      c.win ?_
    rw [e1, e2, counts ho ha, hc]
    simp

/-- Whether an earlier snapshot is still being copied is a free value (log entry 49). -/
def State.drawCopy (b : State) (ch : Ch) : Nat × State := if (b.chan ch).copying then b.draw else (0, b)

section Draw
variable (b : State) (ch : Ch)

theorem drawCopy_chan (c : Ch) : (b.drawCopy ch).2.chan c = b.chan c := by
  unfold State.drawCopy
  split
  · cases c <;> rfl
  · rfl

theorem drawCopy_present (c : Ch) : (b.drawCopy ch).2.present c = b.present c := by
  unfold State.drawCopy
  split <;> rfl

theorem drawCopy_unit : (b.drawCopy ch).2.unit = b.unit := by
  unfold State.drawCopy
  split <;> rfl

theorem drawCopy_busUp (bus : Bus) : (b.drawCopy ch).2.busUp bus = b.busUp bus := by
  unfold State.drawCopy
  split
  · cases bus <;> rfl
  · rfl

theorem drawCopy_sameView : SameView b (b.drawCopy ch).2 := by
  unfold State.drawCopy
  split <;> exact ⟨rfl, rfl, rfl, rfl, rfl, rfl⟩

theorem drawCopy_sameBoard : sameBoard b (b.drawCopy ch).2 := by
  unfold State.drawCopy
  split
  · exact ⟨rfl, rfl, rfl, rfl, rfl, rfl, rfl, rfl, fun c => by cases c <;> rfl⟩
  · exact ⟨rfl, rfl, rfl, rfl, rfl, rfl, rfl, rfl, fun c => by cases c <;> rfl⟩

/-- Only a snapshot of the very tick can be in the way. -/
theorem drawCopy_even (h : (b.drawCopy ch).1 % 2 = 1) : (b.chan ch).copying = true := by
  unfold State.drawCopy at h
  split at h
  · assumption
  · cases h

end Draw

/-- CHANNEL of a SNAPSHOT. -/
theorem snapshot_channel {m : List Byte} {ch : Ch} (h : byteAt m 1 = ch.num) : (if byteAt m 1 = 1 then Ch.b else .a) = ch := by
  rw [h]
  cases ch <;> rfl

theorem ch_num_le (ch : Ch) : ch.num ≤ 1 := by cases ch <;> decide

/-- Where SELECTOR of a SNAPSHOT stands. -/
theorem snapshot_selector (m : List Byte) :
    leNat (slice m (if hasAuth 5 m then 8 else 4) 4) = leNat (slice m (if bitOf (flagsOf 5 m) 0 then 8 else 4) 4) := by
  simp [hasAuth]

/-- A SNAPSHOT with good AUTH fields of an existing scope is carried out, but where an earlier one is in the way. -/
theorem doSnapshot_vouched {b b' : State} {q : Request} {ch : Ch} {slot : Option Nat} {sel : Nat}
    (hj : b.judge q 5 b.readAuth = (0, slot, b')) (hd : b.mode.dawn = false) (hch : byteAt q.msg 1 = ch.num)
    (hpr : b'.present ch = true) (hsel : sel = leNat (slice q.msg (if hasAuth 5 q.msg then 8 else 4) 4))
    (hok : selectorOk b'.unit.variant (byteAt q.msg 0) sel = true) :
    b.doSnapshot q false =
      if (b'.drawCopy ch).1 % 2 = 1 then (some (leBytes 2 0x0401 ++ leBytes 13 0), (b'.drawCopy ch).2)
      else (some (leBytes 4 0 ++ beBytes 11 (b'.chan ch).time.stamp),
        (b'.drawCopy ch).2.onChan ch fun _ c => c.takeSnapshot (byteAt q.msg 0) sel) := by
  have hnum : byteAt q.msg 1 ≤ 1 := hch ▸ ch_num_le ch
  have hdef : (if (b'.chan ch).copying then b'.draw else (0, b')) = b'.drawCopy ch := rfl
  unfold State.doSnapshot
  simp only [hj, hd, snapshot_channel hch, hdef, ← hsel, drawCopy_present, hpr, drawCopy_unit, hok, Nat.not_lt.2 hnum]
  by_cases hc : (b'.drawCopy ch).1 % 2 = 1
  · simp [hc, noteStatus_other, statusAnswer]
  · simp [hc, drawCopy_chan]

section Snapshot
variable {s : State} {q : Request} {ch : Ch} (h : taken s q 5)
include h

/-- A SNAPSHOT that is refused leaves the channels. -/
theorem snapshot_refused {b b' : State} {st : Nat} (hb : Heard s b')
    (hrow : hostRow q 5 s = .next (s.finish ((b.perform q 5 false).2.reply q 5 (b.perform q 5 false).1)))
    (hperf : b.perform q 5 false = (some (leBytes 2 st ++ leBytes 13 0), (b'.drawCopy ch).2)) :
    Answered s q 5 (leBytes 2 st ++ leBytes 13 0) := by
  obtain ⟨hr, hu⟩ := bus_of_taken h
  rw [hperf] at hrow
  refine ⟨_, hrow, ⟨?_, fun hm c => ?_⟩, answers_finish hr (by rw [drawCopy_busUp, hb.busUp, hu])⟩
  · exact sameBoard_trans hb.sameBoard (sameBoard_trans (drawCopy_sameBoard b' ch) (sameBoard_finish hr _))
  · rw [chan_finish hr _ (hb.sameView.trans (drawCopy_sameView b' ch)) hm, drawCopy_chan, hb.chan]

variable (hch : byteAt q.msg 1 = ch.num)
include hch

/-- With READ_AUTH set a SNAPSHOT wants AUTH (R607). -/
theorem snapshot_unsigned (hu : unsigned q 5) (ha : s.readAuth = true) (hd : s.mode.dawn = false) :
    Answered s q 5 (leBytes 2 0x0501 ++ leBytes 13 0) := by
  obtain ⟨b, hb, hrow⟩ := taken_row h rfl (by decide)
  refine snapshot_refused h (ch := ch) hb.heard hrow ?_
  have hdawn : b.mode.dawn = false := by rw [hb.heard.sameView.mode, hd]
  show b.doSnapshot q false = _
  unfold State.doSnapshot
  simp only [judge_unsigned hu, hb.heard.readAuth, ha, hdawn, snapshot_channel hch, if_true, Bool.false_eq_true, if_false]
  rfl

/-- A SNAPSHOT of an existing scope copies the counters and answers the time, but where an earlier one is in the way (R619). -/
theorem snapshot_taken (ha : admits s q 5) (hm : modeStands s) (hpr : s.present ch = true) {sel : Nat}
    (hsel : sel = leNat (slice q.msg (if bitOf (flagsOf 5 q.msg) 0 then 8 else 4) 4))
    (hok : selectorOk s.unit.variant (byteAt q.msg 0) sel = true) :
    ∃ t, hostRow q 5 s = .next t ∧ sameBoard s t ∧ t.chan ch.other = s.chan ch.other ∧
      ((t.chan ch = ((s.chan ch).takeSnapshot (byteAt q.msg 0) sel).emptied ∧
          answers t q 5 (leBytes 4 0 ++ beBytes 11 (s.chan ch).time.stamp)) ∨
        ((s.chan ch).copying = true ∧ t.chan ch = s.chan ch ∧ answers t q 5 (leBytes 2 0x0401 ++ leBytes 13 0))) := by
  obtain ⟨hr, hu⟩ := bus_of_taken h
  obtain ⟨hdawn, -, -⟩ := id hm
  obtain ⟨b, hb, hrow⟩ := taken_row h rfl (by decide)
  obtain ⟨b', slot, hh, -, hj⟩ := judge_admits ha hb true
  rw [Bool.and_true] at hj
  have hd : b.mode.dawn = false := by rw [hb.heard.sameView.mode, hdawn]
  have hperf : b.perform q 5 false = _ := doSnapshot_vouched hj hd hch (by rw [hh.present, hpr])
    (hsel.trans (snapshot_selector q.msg).symm) (by rw [hh.unit, hok])
  by_cases hc : (b'.drawCopy ch).1 % 2 = 1
  · rw [if_pos hc] at hperf
    obtain ⟨t, ht, ⟨hboard, hchan⟩, hans⟩ := snapshot_refused h hh hrow hperf
    exact ⟨t, ht, hboard, hchan hm _, .inr ⟨by rw [← hh.chan]; exact drawCopy_even b' ch hc, hchan hm _, hans⟩⟩
  · rw [if_neg hc, hh.chan] at hperf
    rw [hperf] at hrow
    have B := beside_onChan (b'.drawCopy ch).2 ch fun _ c => c.takeSnapshot (byteAt q.msg 0) sel
    have V := (hh.sameView.trans (drawCopy_sameView b' ch)).trans B.sameView
    refine ⟨_, hrow, ?_, ?_, .inl ⟨?_, answers_finish hr (by rw [B.busUp, drawCopy_busUp, hh.busUp, hu])⟩⟩
    · exact sameBoard_trans hh.sameBoard (sameBoard_trans (drawCopy_sameBoard b' ch) (sameBoard_trans B.sameBoard
        (sameBoard_finish hr _)))
    · rw [chan_finish hr _ V hm, onChan_chan_other, drawCopy_chan, hh.chan]
    · rw [chan_finish hr _ V hm, onChan_chan, drawCopy_chan, hh.chan]

end Snapshot

end Sys2Proof.Machine
end

section
open Sys2Proof.Machine

/-- Settles O44: the row of a request that the host port takes is the request carried out on a state that differs from the old one in
the host port's counters and sessions only, then the answer and the end of the command; each clause is what carrying it out gives. -/
theorem readsAndWrites : Obligations.ReadsAndWrites := by
  intro s q
  refine ⟨reads_are_answered s q, module_writes s q, fun h hd => ⟨fun o hp hu => ?_, fun x ch i o hx hp => ?_⟩,
    fun h x ch i o hx hp hd hw h1 h2 ho hl hin hm h0 hn hnow hbusy hres hst => ?_,
    fun h ha hm ch hch hpr hok => ?_, fun ch h hu ha hd hch => snapshot_unsigned h hch hu ha hd⟩
  · have he : s.rows12 q.index q.subIndex = 0 :=
      rows12_pass (by rcases hp with hp | ⟨ch, i, hp⟩ <;> simp [hp]) hd
    exact write_unsigned h hu he
  · have he : s.rows12 q.index q.subIndex = 0 := rows12_pass (by rw [hp]; simp) hd
    refine ⟨fun hf => chan_fixed h hx hp he hf, fun h1 h2 hw hl => ?_⟩
    have hf : ¬(o.acc = .ro ∨ o.acc = .roh ∨ o.ty.isWindow = true) := by simp [h1, h2, hw]
    exact ⟨fun hst => chan_refused h hx hp he hf hl hst,
      fun hst => chan_stored h hx hp he hf hl hst⟩
  · exact chan_block h hx hp hd hw h1 h2 ho hl hin hm h0 hnow hbusy rfl hres hst
  · obtain ⟨t, ht, hboard, hother, ⟨hown, hans⟩ | hans⟩ := snapshot_taken h hch ha hm hpr rfl hok
    · obtain ⟨held, hheld, hsel, hdict, hwin⟩ := takeSnapshot_holding (s.chan ch) (byteAt q.msg 0)
        (leNat (slice q.msg (if bitOf (flagsOf 5 q.msg) 0 then 8 else 4) 4))
      exact ⟨t, ht, hboard, hother, .inl ⟨hown, hans, held, by rw [hown]; exact hheld, hsel, hdict, hwin⟩⟩
    · exact ⟨t, ht, hboard, hother, .inr hans⟩

end

section
namespace Sys2Proof.Machine

/-! ## What the arbiter's operations leave of the rest of the service block -/

@[simp] theorem State.mput_role (s : State) (i k v : Nat) (ch : Ch) : (s.mput i k v).role ch = s.role ch := by cases ch <;> rfl
@[simp] theorem State.minc_role (s : State) (i k : Nat) (ch : Ch) : (s.minc i k).role ch = s.role ch := by cases ch <;> rfl
@[simp] theorem State.mflag_role (s : State) (i k m : Nat) (ch : Ch) : (s.mflag i k m).role ch = s.role ch := by cases ch <;> simp
@[simp] theorem State.logEvent_role (s : State) (a b d : Nat) (ch : Ch) : (s.logEvent a b d).role ch = s.role ch := by cases ch <;> simp

/-- The unit, the slot count and the objects of the service block but the listed ones and the count of lost log entries stay. -/
structure Books (l : List (Nat × Nat)) (s t : State) : Prop where
  unit : t.unit = s.unit
  sbTime : t.sbTime = s.sbTime
  mreg : ∀ i k, k < 256 → (i, k) ≠ (0x1600, 2) → (i, k) ∉ l → t.mreg i k = s.mreg i k

/-- The same, with the arbiter and, but for MIRROR_STALE, the roles as they were. -/
structure Aside (l : List (Nat × Nat)) (s t : State) : Prop extends Books l s t where
  arb : t.arb = s.arb
  role : ∀ ch, (t.role ch).unstale = (s.role ch).unstale

variable {l m : List (Nat × Nat)} {s t u : State}

theorem Books.refl (l : List (Nat × Nat)) (s : State) : Books l s s := ⟨rfl, rfl, fun _ _ _ _ _ => rfl⟩

theorem Books.trans (a : Books l s t) (b : Books l t u) : Books l s u :=
  ⟨b.unit.trans a.unit, b.sbTime.trans a.sbTime, fun i k hk hn hl => (b.mreg i k hk hn hl).trans (a.mreg i k hk hn hl)⟩

theorem Books.mono (h : Books l s t) (hl : l ⊆ m) : Books m s t :=
  ⟨h.unit, h.sbTime, fun i k hk hn hm => h.mreg i k hk hn fun e => hm (hl e)⟩

theorem Aside.refl (l : List (Nat × Nat)) (s : State) : Aside l s s := ⟨Books.refl l s, rfl, fun _ => rfl⟩

theorem Aside.trans (a : Aside l s t) (b : Aside l t u) : Aside l s u :=
  ⟨a.toBooks.trans b.toBooks, b.arb.trans a.arb, fun ch => (b.role ch).trans (a.role ch)⟩

theorem Aside.mono (h : Aside l s t) (hl : l ⊆ m) : Aside m s t := ⟨h.toBooks.mono hl, h.arb, h.role⟩

theorem Aside.ite {c : Prop} [Decidable c] (ht : Aside l s t) (hu : Aside l s u) : Aside l s (if c then t else u) := by
  split
  · exact ht
  · exact hu

theorem Aside.foldl {α : Type} {f : State → α → State} (hf : ∀ s a, Aside l s (f s a)) (x : List α) (s : State) :
    Aside l s (x.foldl f s) := by
  induction x generalizing s with
  | nil => exact Aside.refl l s
  | cons a x ih => exact (hf s a).trans (ih (f s a))

theorem Aside.st (h : Aside l s t) (ch : Ch) : (t.role ch).st = (s.role ch).st := (congrArg ChanRole.st (h.role ch) :)

theorem Aside.present (h : Aside l s t) (ch : Ch) : t.present ch = s.present ch := present_of_unit h.unit ch

theorem objKey_ne {i k j n : Nat} (hk : k < 256) (hn : n < 256) (h : (i, k) ≠ (j, n)) : objKey i k ≠ objKey j n := fun e =>
  h (Prod.ext_iff.2 ((objKey_eq hk hn).1 e))

theorem Beside.aside (h : Beside s t) (l : List (Nat × Nat)) : Aside l s t :=
  ⟨⟨h.unit, h.sbTime, fun i k hk hn _ => h.mreg _ (objKey_ne hk (by decide) hn)⟩, h.arb, h.role⟩

theorem Around.aside (h : Around s t) : Aside [(0x1106, 0), (0x1108, 2)] s t := by
  refine ⟨⟨h.unit, h.sbTime, fun i k hk hn hl => ?_⟩, h.arb, h.role⟩
  simp only [List.mem_cons, List.not_mem_nil, or_false, not_or] at hl
  exact h.mreg _ (objKey_ne hk (by decide) hn) (objKey_ne hk (by decide) hl.1) (objKey_ne hk (by decide) hl.2)

theorem aside_onChan (l : List (Nat × Nat)) (s : State) (ch : Ch) (f : Ctx → Channel → Channel) : Aside l s (s.onChan ch f) :=
  (beside_onChan s ch f).aside l

theorem aside_eachChan (l : List (Nat × Nat)) (s : State) (f : Ctx → Channel → Channel) : Aside l s (s.eachChan f) :=
  (beside_eachChan s f).aside l

theorem aside_logEvent (l : List (Nat × Nat)) (s : State) (a b d : Nat) : Aside l s (s.logEvent a b d) :=
  (beside_logEvent s a b d).aside l

theorem aside_mput {i k : Nat} (hk : k < 256) (s : State) (v : Nat) : Aside [(i, k)] s (s.mput i k v) :=
  ⟨⟨rfl, rfl, fun _ _ hn _ hl => mreg_mput_ne s hk hn fun e => hl (List.mem_singleton.2 e)⟩, rfl, fun ch => by simp⟩

theorem aside_minc {i k : Nat} (hk : k < 256) (s : State) : Aside [(i, k)] s (s.minc i k) := aside_mput hk s _

theorem aside_mflag {i k : Nat} (hk : k < 256) (s : State) (m : Nat) : Aside [(i, k)] s (s.mflag i k m) :=
  ⟨⟨by simp, by simp, fun _ _ hn _ hl => mreg_mflag_ne s hk hn fun e => hl (List.mem_singleton.2 e)⟩, by simp, fun ch => by simp⟩

theorem aside_finish (b s : State) : Aside [(0x1106, 0), (0x1108, 2)] s (State.finish b s) := (around_finish b s).aside

@[simp] theorem mreg_minc_self (s : State) (i k : Nat) : (s.minc i k).mreg i k = (s.mreg i k + 1) % 2 ^ 64 := mreg_mput_self s i k _

theorem Around.settles (h : Around s t) : settles s t := by
  refine ⟨h.sameBoard, ?_, fun i k hk hl => ?_⟩
  · exact congrArg (fun x : HostPort => { x with watchNew := s.host.watchNew, relayIn := s.host.relayIn }) h.host
  · simp only [List.mem_cons, List.not_mem_nil, or_false, not_or] at hl
    exact h.mreg _ (objKey_ne hk (by decide) hl.1) (objKey_ne hk (by decide) hl.2.1) (objKey_ne hk (by decide) hl.2.2)

/-- A command that ends with nothing changed settles (R648). -/
theorem settles_finish (b s : State) : settles s (State.finish b s) := (around_finish b s).settles

/-! ## A grant in full (R46, R496, R529) -/

/-- The objects that a grant records itself in. -/
def grantObjs : List (Nat × Nat) := [(0x1300, 0xB), (0x1310, 1), (0x1300, 0xA), (0x1310, 2)]

/-- What a grant writes to its objects. -/
structure Recorded (g : Grant) (epoch : Nat) (s t : State) : Prop where
  count : t.mreg 0x1310 1 = if g.counted then (s.mreg 0x1310 1 + 1) % 2 ^ 64 else s.mreg 0x1310 1
  flag : t.mreg 0x1300 0xA = if g.counted then s.mreg 0x1300 0xA ||| 1 else s.mreg 0x1300 0xA
  back : t.mreg 0x1310 2 = if g.cause = .reinstatement then (s.mreg 0x1310 2 + 1) % 2 ^ 64 else s.mreg 0x1310 2
  record : g.record = true → ∃ us, t.mreg 0x1300 0xB =
    epoch * 2 ^ 32 + g.cause.code * 2 ^ 16 + g.declared.num * 2 ^ 8 + min 255 (10 * (s.sbTime - g.since) + us)
  unrecorded : g.record = false → t.mreg 0x1300 0xB = s.mreg 0x1300 0xB

/-- A grant's record, count and count of reinstatements, each in its own objects. -/
theorem recordGrant_steps (s : State) (g : Grant) (epoch : Nat) :
    ∃ t u, Aside [(0x1300, 0xB)] s t ∧ Aside [(0x1310, 1), (0x1300, 0xA)] t u ∧ Aside [(0x1310, 2)] u (s.recordGrant g epoch) ∧
      (g.record = true → ∃ us, t.mreg 0x1300 0xB =
        epoch * 2 ^ 32 + g.cause.code * 2 ^ 16 + g.declared.num * 2 ^ 8 + min 255 (10 * (s.sbTime - g.since) + us)) ∧
      (g.record = false → t = s) ∧
      u.mreg 0x1310 1 = (if g.counted then (t.mreg 0x1310 1 + 1) % 2 ^ 64 else t.mreg 0x1310 1) ∧
      u.mreg 0x1300 0xA = (if g.counted then t.mreg 0x1300 0xA ||| 1 else t.mreg 0x1300 0xA) ∧
      (s.recordGrant g epoch).mreg 0x1310 2 =
        if g.cause = .reinstatement then (u.mreg 0x1310 2 + 1) % 2 ^ 64 else u.mreg 0x1310 2 := by
  have h0 : Aside [(0x1300, 0xB)] s s.draw.2 := ⟨⟨rfl, rfl, fun _ _ _ _ _ => rfl⟩, rfl, fun _ => rfl⟩
  unfold State.recordGrant
  extract_lets us t u
  refine ⟨t, u, Aside.ite (h0.trans (aside_mput (by decide) _ _)) (Aside.refl _ s), ?_, ?_, ?_, ?_, ?_, ?_, ?_⟩
  · exact Aside.ite (((aside_minc (by decide) t).mono (by simp)).trans ((aside_mflag (by decide) _ 1).mono (by simp))) (Aside.refl _ t)
  · exact Aside.ite (aside_minc (by decide) u) (Aside.refl _ u)
  · intro hr
    exact ⟨us.1, by simp only [t, hr, if_true, mreg_mput_self]⟩
  · intro hr
    simp only [t, hr, Bool.false_eq_true, if_false]
  · simp only [u]
    split
    · rw [mreg_mflag_ne _ (by decide) (by decide) (by decide), mreg_minc_self]
    · rfl
  · simp only [u]
    split
    · rw [mreg_mflag_self]
      exact congrArg (· ||| 1) (mreg_mput_ne t (by decide) (by decide) (by decide))
    · rfl
  · cases g.cause <;> simp [mreg_minc_self]

theorem aside_recordGrant (s : State) (g : Grant) (epoch : Nat) : Aside grantObjs s (s.recordGrant g epoch) := by
  obtain ⟨t, u, h1, h2, h3, -⟩ := recordGrant_steps s g epoch
  exact ((h1.mono (by simp [grantObjs])).trans (h2.mono (by simp [grantObjs]))).trans (h3.mono (by simp [grantObjs]))

theorem recordGrant_recorded (s : State) (g : Grant) (epoch : Nat) : Recorded g epoch s (s.recordGrant g epoch) := by
  obtain ⟨t, u, h1, h2, h3, hr, hn, hc, hf, hb⟩ := recordGrant_steps s g epoch
  refine ⟨?_, ?_, ?_, fun h => ?_, fun h => ?_⟩
  · rw [h3.mreg _ _ (by decide) (by decide) (by decide), hc, h1.mreg _ _ (by decide) (by decide) (by decide)]
  · rw [h3.mreg _ _ (by decide) (by decide) (by decide), hf, h1.mreg _ _ (by decide) (by decide) (by decide)]
  · rw [hb, h2.mreg _ _ (by decide) (by decide) (by decide), h1.mreg _ _ (by decide) (by decide) (by decide)]
  · obtain ⟨us, e⟩ := hr h
    exact ⟨us, by rw [h3.mreg _ _ (by decide) (by decide) (by decide), h2.mreg _ _ (by decide) (by decide) (by decide), e]⟩
  · rw [h3.mreg _ _ (by decide) (by decide) (by decide), h2.mreg _ _ (by decide) (by decide) (by decide), hn h]

/-- The record of a grant read after what leaves its objects alone. -/
theorem Recorded.after {g : Grant} {epoch : Nat} (h : Recorded g epoch s t) (a : Books l t u) (hl : ∀ x ∈ grantObjs, x ∉ l) :
    Recorded g epoch s u := by
  have e : ∀ i k, k < 256 → (i, k) ≠ (0x1600, 2) → (i, k) ∈ grantObjs → u.mreg i k = t.mreg i k := fun i k hk hn hm =>
    a.mreg i k hk hn (hl _ hm)
  have e1 := e 0x1310 1 (by decide) (by decide) (by decide)
  have e2 := e 0x1300 0xA (by decide) (by decide) (by decide)
  have e3 := e 0x1310 2 (by decide) (by decide) (by decide)
  have e4 := e 0x1300 0xB (by decide) (by decide) (by decide)
  obtain ⟨c, f, b, r, n⟩ := h
  constructor
  · rw [e1, c]
  · rw [e2, f]
  · rw [e3, b]
  · rw [e4]; exact r
  · rw [e4]; exact n

/-- The record of a grant counts from what the objects held before. -/
theorem Recorded.before {g : Grant} {epoch : Nat} (h : Recorded g epoch t u) (a : Books l s t) (hl : ∀ x ∈ grantObjs, x ∉ l) :
    Recorded g epoch s u := by
  have e : ∀ i k, k < 256 → (i, k) ≠ (0x1600, 2) → (i, k) ∈ grantObjs → t.mreg i k = s.mreg i k := fun i k hk hn hm =>
    a.mreg i k hk hn (hl _ hm)
  have e1 := e 0x1310 1 (by decide) (by decide) (by decide)
  have e2 := e 0x1300 0xA (by decide) (by decide) (by decide)
  have e3 := e 0x1310 2 (by decide) (by decide) (by decide)
  have e4 := e 0x1300 0xB (by decide) (by decide) (by decide)
  obtain ⟨c, f, b, r, n⟩ := h
  constructor
  · rw [c, e1]
  · rw [f, e2]
  · rw [b, e3]
  · rw [← a.sbTime]; exact r
  · rw [← e4]; exact n

/-- The channel that a grant puts into service (R45, R496), but for MIRROR_STALE. -/
def ChanRole.leased (r : ChanRole) (epoch : Nat) : ChanRole :=
  { r with
    st := .active, stage := 15, attempt := 0, restarts := 0, waitArb := false, orphan := false, silent := false, stale := false,
    epoch := epoch }

/-- A channel that has completed stage 9 (R561, R567). -/
def ChanRole.stoodBy (r : ChanRole) : ChanRole :=
  { r with st := .standby, stage := 15, attempt := 0, restarts := 0, waitArb := false }

/-- What a grant leaves and changes. -/
structure Leased (g : Grant) (s t : State) : Prop where
  books : Books grantObjs s t
  arb : t.arb = s.arb.lease g.dest s.sbTime
  recorded : Recorded g (s.arb.nextEpoch g.dest) s t
  dest : (t.role g.dest).unstale = ((s.role g.dest).leased (s.arb.nextEpoch g.dest)).unstale
  other : (t.role g.dest.other).unstale =
    if s.waitsRole g.dest.other then (s.role g.dest.other).stoodBy.unstale else (s.role g.dest.other).unstale

theorem waitsRole_congr (ch : Ch) (h : (t.role ch).unstale = (s.role ch).unstale) : t.waitsRole ch = s.waitsRole ch := by
  have h1 : (t.role ch).st = (s.role ch).st := (congrArg ChanRole.st h :)
  have h2 : (t.role ch).stage = (s.role ch).stage := (congrArg ChanRole.stage h :)
  have h3 : (t.role ch).waitArb = (s.role ch).waitArb := (congrArg ChanRole.waitArb h :)
  simp only [State.waitsRole, h1, h2, h3]

theorem stoodBy_congr {r q : ChanRole} (h : r.unstale = q.unstale) : r.stoodBy.unstale = q.stoodBy.unstale :=
  (congrArg ChanRole.stoodBy h :)

theorem leaseTo_leased (s : State) (g : Grant) : Leased g s (s.leaseTo g) := by
  -- the steps: lease and role, record, the other channel's stage 9, the new active's channel
  let u := (s.leased g.dest).recordGrant g (s.arb.nextEpoch g.dest)
  let v := if u.waitsRole g.dest.other then u.completeStandby g.dest.other else u
  have e : s.leaseTo g = v.onChan g.dest fun cx c => c.newActive cx := leaseTo_eq s g
  have b1 : Books [] s (s.leased g.dest) := ⟨(fixed_leased s g.dest).unit, by simp [State.leased], fun i k _ _ _ => by
    unfold State.mreg State.leased; simp⟩
  have a2 : Aside grantObjs (s.leased g.dest) u := aside_recordGrant ..
  have b3 : Books [] u v := by
    show Books [] u (ite _ _ _)
    split
    · exact ⟨by simp [State.completeStandby], by simp [State.completeStandby], fun i k _ _ _ => by
        unfold State.mreg State.completeStandby; simp⟩
    · exact Books.refl _ u
  have a4 : Aside [] v (s.leaseTo g) := by rw [e]; exact aside_onChan ..
  have b : Books [] u (s.leaseTo g) := b3.trans a4.toBooks
  have ho : (u.role g.dest.other).unstale = (s.role g.dest.other).unstale := by
    rw [a2.role]; simp [State.leased]; rfl
  refine ⟨((b1.mono (by simp)).trans a2.toBooks).trans (b.mono (by simp)), leaseTo_arb s g, ?_, ?_, ?_⟩
  · exact ((recordGrant_recorded ..).after b (by simp)).before b1 (by simp)
  · rw [a4.role]
    have hv : v.role g.dest = u.role g.dest := by
      show (ite _ _ _ : State).role g.dest = _
      split
      · unfold State.completeStandby
        have := State.modRole_role_other u g.dest.other fun r => r.stoodBy
        rwa [Ch.other_other] at this
      · rfl
    rw [hv, a2.role]
    simp [State.leased, ChanRole.leased]
    rfl
  · rw [a4.role]
    have hw : u.waitsRole g.dest.other = s.waitsRole g.dest.other := waitsRole_congr _ ho
    show (State.role (ite _ _ _ : State) g.dest.other).unstale = _
    rw [hw]
    split
    · rw [State.completeStandby, State.modRole_role]
      exact stoodBy_congr ho
    · exact ho

end Sys2Proof.Machine
end

section
namespace Sys2Proof.Machine

/-! ## A slot in which no channel fails (R487) -/

/-- The clocks of a slot: the slot count, the LACP time and the mode counters. -/
def State.ticked (s : State) : State := ({ s with sbTime := s.sbTime + 1 }).lacpTick.modeTick

/-- A grant that waits for the lease record after FENCE_FAULT (R495). -/
def State.lateGrant (s : State) : State :=
  match s.arb.pending with
  | some g => if g.faulted && s.arb.leaseAt + 110 ≤ s.sbTime then s.grantNow g else s
  | none => s

theorem slot_eq (s : State) : s.slot = if !s.ticked.arb.ok then s.ticked else
    (s.ticked.channels.foldl State.slotOf s.ticked.comeBack).lateGrant := rfl

/-- The objects that a slot counts in. -/
def slotObjs : List (Nat × Nat) := [(0x1108, 4), (0x1108, 5), (0x1108, 6), (0x1310, 7), (0x1310, 8)]

theorem aside_ticked (s : State) : Aside slotObjs { s with sbTime := s.sbTime + 1 } s.ticked := by
  have h1 : ∀ u : State, Aside slotObjs u u.lacpTick := fun u => by
    unfold State.lacpTick
    exact Aside.ite (Aside.refl _ u) (aside_eachChan _ u _)
  have h2 : ∀ u : State, Aside slotObjs u u.modeTick := fun u => by
    have inc : ∀ k, k < 256 → (0x1108, k) ∈ slotObjs → Aside slotObjs u (u.minc 0x1108 k) := fun k hk hm =>
      (aside_minc hk u).mono (by simpa using hm)
    unfold State.modeTick
    exact Aside.ite (Aside.refl _ u) (Aside.ite (inc 4 (by decide) (by decide)) (Aside.ite (inc 5 (by decide) (by decide))
      (Aside.ite (inc 6 (by decide) (by decide)) (Aside.refl _ u))))
  exact (h1 _).trans (h2 _)

/-- A channel that the end of a slot does not fail: its heartbeat came, none is due, or fewer than three are missing (R487). -/
def ChanRole.survives (r : ChanRole) : Prop := r.hbSeen = true ∨ r.beats = false ∨ r.misses < 2

/-- A role but what a slot counts of its heartbeats, and MIRROR_STALE. -/
def ChanRole.unpolled (r : ChanRole) : ChanRole := { r with hbSeen := false, misses := 0, goodRun := 0, stale := false }

theorem ChanRole.unpolled_of_unstale {r q : ChanRole} (h : r.unstale = q.unstale) : r.unpolled = q.unpolled :=
  (congrArg ChanRole.unpolled h :)

/-- What the heartbeat counts of a slot leave. -/
structure Polled (s t : State) : Prop where
  books : Books slotObjs s t
  arb : t.arb = s.arb
  relay : t.relay = s.relay
  role : ∀ ch, (t.role ch).unpolled = (s.role ch).unpolled

variable {s t u : State}

theorem Polled.refl (s : State) : Polled s s := ⟨Books.refl _ s, rfl, rfl, fun _ => rfl⟩

theorem Polled.trans (a : Polled s t) (b : Polled t u) : Polled s u :=
  ⟨a.books.trans b.books, b.arb.trans a.arb, b.relay.trans a.relay, fun ch => (b.role ch).trans (a.role ch)⟩

theorem Polled.st (h : Polled s t) (ch : Ch) : (t.role ch).st = (s.role ch).st := (congrArg ChanRole.st (h.role ch) :)

theorem polled_setRole (s : State) (ch : Ch) {r : ChanRole} (h : r.unpolled = (s.role ch).unpolled) : Polled s (s.setRole ch r) := by
  refine ⟨⟨by simp, by simp, fun i k _ _ _ => by unfold State.mreg; simp⟩, by simp, by simp, fun c => ?_⟩
  rcases Ch.eq_or_other c ch with rfl | rfl
  · simpa using h
  · simp

/-- The end of a slot that a channel survives writes its role and may count one missing heartbeat. -/
theorem slotOf_survives {s : State} {ch : Ch} (h : (s.role ch).survives) : ∃ r : ChanRole, r.unpolled = (s.role ch).unpolled ∧
    (s.slotOf ch = s.setRole ch r ∨ s.slotOf ch = (s.setRole ch r).minc 0x1310 (7 + ch.num)) := by
  unfold State.slotOf
  extract_lets r s1
  split
  · exact ⟨{ r with hbSeen := false }, rfl, .inl rfl⟩
  · split
    · exact ⟨{ r with goodRun := 0 }, rfl, .inl rfl⟩
    · rename_i hs hb
      have hm : r.misses < 2 := (h.resolve_left hs).resolve_left (by simpa using hb)
      rw [if_neg (by omega)]
      exact ⟨{ r with misses := r.misses + 1, goodRun := 0 }, rfl, .inr rfl⟩

theorem polled_slotOf {s : State} {ch : Ch} (h : (s.role ch).survives) : Polled s (s.slotOf ch) := by
  obtain ⟨r, hr, e | e⟩ := slotOf_survives h <;> rw [e]
  · exact polled_setRole s ch hr
  · have h2 := (aside_minc (i := 0x1310) (k := 7 + ch.num) (by cases ch <;> decide) (s.setRole ch r)).mono (m := slotObjs)
      (by cases ch <;> decide)
    exact (polled_setRole s ch hr).trans ⟨h2.toBooks, h2.arb, rfl, fun c => ChanRole.unpolled_of_unstale (h2.role c)⟩

theorem slotOf_role_other {s : State} {ch : Ch} (h : (s.role ch).survives) :
    (s.slotOf ch).role ch.other = s.role ch.other := by
  obtain ⟨r, -, e | e⟩ := slotOf_survives h <;> simp [e]

/-- A slot in which every present channel survives counts and decides nothing. -/
theorem polled_slots {u s : State} (hu : ∀ ch, u.present ch = true → (s.role ch).survives) :
    Polled s (u.channels.foldl State.slotOf s) := by
  unfold State.channels
  split
  · rename_i hb
    have ha := hu .a rfl
    have e : (s.slotOf .a).role .b = s.role .b := slotOf_role_other ha
    exact (polled_slotOf ha).trans (polled_slotOf (by rw [e]; exact hu .b hb))
  · exact polled_slotOf (hu .a rfl)

/-- The roles that a slot polls survive as those before its clocks do. -/
theorem survives_congr {r q : ChanRole} (h : r.unstale = q.unstale) (hq : q.survives) : r.survives := by
  have h1 : r.hbSeen = q.hbSeen := (congrArg ChanRole.hbSeen h :)
  have h2 : r.misses = q.misses := (congrArg ChanRole.misses h :)
  have h3 : r.beats = q.beats := (congrArg ChanRole.beats h :)
  unfold ChanRole.survives
  rwa [h1, h2, h3]

end Sys2Proof.Machine
end

section
namespace Sys2Proof.Machine
variable {s t u : State}

/-! ## Fences and the grants that wait for them (R495) -/

/-- A slot that ends while a grant waits after FENCE_FAULT, no channel fails and none returns, up to that grant. -/
theorem slot_pending {g : Grant} (hok : s.arb.ok = true) (hb : s.arb.back = none) (hp : s.arb.pending = some g) (hf : g.faulted = true)
    (hs : ∀ c, s.present c = true → (s.role c).survives) :
    ∃ u, Polled s.ticked u ∧ s.slot = if s.arb.leaseAt + 110 ≤ s.sbTime + 1 then u.grantNow g else u := by
  have ht := aside_ticked s
  have hc : s.ticked.comeBack = s.ticked := by
    unfold State.comeBack
    rw [ht.arb]
    simp only [hb]
  have P : Polled s.ticked (s.ticked.channels.foldl State.slotOf s.ticked) := polled_slots fun ch hc =>
    survives_congr (ht.role ch) (hs ch ((ht.present ch).symm.trans hc))
  refine ⟨_, P, ?_⟩
  have hno : (!s.ticked.arb.ok) = false := by rw [ht.arb, Bool.not_eq_false']; exact hok
  have hpu := congrArg Arbiter.pending (P.arb.trans ht.arb)
  have hlu := congrArg Arbiter.leaseAt (P.arb.trans ht.arb)
  have htu := P.books.sbTime.trans ht.sbTime
  rw [slot_eq, hno, if_neg Bool.false_ne_true, hc]
  generalize s.ticked.channels.foldl State.slotOf s.ticked = u at hpu hlu htu
  simp only at hpu hlu htu
  unfold State.lateGrant
  simp only [hpu, hp, hf, hlu, htu, Bool.true_and, decide_eq_true_eq]

theorem grantNow_eq {g : Grant} (h : (s.role g.dest).st = .standby ∨ (s.role g.dest).st = .starting) : s.grantNow g = s.leaseTo g := by
  unfold State.grantNow
  rcases h with h | h <;> simp [h]

/-- What a recorded grant shows in 0x1300:0B (R529). -/
theorem Recorded.shows {g : Grant} {epoch : Nat} (h : Recorded g epoch s t) (hr : g.record = true) :
    t.mreg 0x1300 0xB / 2 ^ 8 = epoch * 2 ^ 24 + g.cause.code * 2 ^ 8 + g.declared.num ∧
    (g.since + 25 < s.sbTime → t.mreg 0x1300 0xB % 2 ^ 8 = 255) := by
  obtain ⟨us, e⟩ := h.record hr
  rw [e]
  constructor <;> omega

theorem nextEpoch_eq (a : Arbiter) (d : Ch) : a.nextEpoch d = if a.last = some d then a.epoch else (a.epoch + 1) % 2 ^ 32 := by
  simp [Arbiter.nextEpoch]

/-- A grant that has waited for the lease record takes place with the slot (R495). -/
theorem late_grant {g : Grant} (hok : s.arb.ok = true) (hb : s.arb.back = none) (hp : s.arb.pending = some g) (hf : g.faulted = true)
    (hs : ∀ c, s.present c = true → (s.role c).survives) (hl : s.arb.leaseAt + 110 ≤ s.sbTime + 1)
    (hd : (s.role g.dest).st = .standby ∨ (s.role g.dest).st = .starting) :
    s.slot.arb = s.arb.lease g.dest (s.sbTime + 1) ∧ (s.slot.role g.dest).st = .active ∧
      ∃ u : State, u.sbTime = s.sbTime + 1 ∧ Recorded g (s.arb.nextEpoch g.dest) u s.slot := by
  obtain ⟨u, P, e⟩ := slot_pending hok hb hp hf hs
  have T := aside_ticked s
  have hst : (u.role g.dest).st = (s.role g.dest).st := (P.st _).trans (T.st _)
  rw [if_pos hl, grantNow_eq (by rwa [hst])] at e
  have L := leaseTo_leased u g
  have ha : u.arb = s.arb := P.arb.trans T.arb
  have ht : u.sbTime = s.sbTime + 1 := P.books.sbTime.trans T.sbTime
  rw [e]
  refine ⟨by rw [L.arb, ha, ht], (congrArg ChanRole.st L.dest :), u, ht, ?_⟩
  rw [← ha]
  exact L.recorded

/-- A confirmed fence lets the grant that waits for it take place (R495). -/
theorem fenceConfirm_grants {ch : Ch} {g : Grant} (hf : (s.role ch).fence = true) (hp : s.arb.pending = some g) (hd : g.dest = ch.other)
    (hg : g.faulted = false) (hok : s.arb.ok = true) (hs : (s.role g.dest).st = .standby ∨ (s.role g.dest).st = .starting) :
    Leased g (s.setRole ch { s.role ch with fenceDone := true }) (s.fenceConfirm ch) := by
  have e : s.fenceConfirm ch = (s.setRole ch { s.role ch with fenceDone := true }).grantNow g := by
    unfold State.fenceConfirm
    simp [hf, hp, hd, hg, hok]
  rw [e, grantNow_eq]
  · exact leaseTo_leased _ g
  · rw [hd] at hs ⊢
    simpa using hs

theorem books_setRole (l : List (Nat × Nat)) (s : State) (ch : Ch) (r : ChanRole) : Books l s (s.setRole ch r) :=
  ⟨by simp, by simp, fun i k _ _ _ => by unfold State.mreg; simp⟩

/-- What becomes of the other channel in a grant keeps its fence. -/
theorem Leased.other_fenceDone {g : Grant} (h : Leased g s t) : (t.role g.dest.other).fenceDone = (s.role g.dest.other).fenceDone := by
  have e := congrArg ChanRole.fenceDone h.other
  split at e <;> exact e

theorem ChanRole.survives_of {r : ChanRole} (h : r.beats = true → r.hbSeen = true ∨ r.misses < 2) : r.survives := by
  unfold ChanRole.survives
  cases hb : r.beats
  · exact .inr (.inl rfl)
  · exact (h hb).imp id .inr

/-- The end of a command keeps what a grant has recorded (R529). -/
theorem Recorded.finish {g : Grant} {epoch : Nat} (h : Recorded g epoch s t) (b : State) : Recorded g epoch s (State.finish b t) :=
  h.after (aside_finish b t).toBooks (by decide)

/-- FENCE_FAULT of an unconfirmed fence sets its flag and marks the grant that waits for it (R495). -/
theorem fenceFault_eq {ch : Ch} (hf : (s.role ch).fence = true) (hd : (s.role ch).fenceDone = false)
    (hl : (s.role ch).fenceLate = false) :
    s.fenceFault ch = { (s.setRole ch { s.role ch with fenceLate := true }).mflag 0x1300 0xA (2 ^ 7) with
      arb := { s.arb with pending := s.arb.pending.map fun g => if g.dest = ch.other then { g with faulted := true } else g } } := by
  unfold State.fenceFault
  extract_lets +onlyGivenNames r s1
  have ha : s1.arb = s.arb := by simp [s1]
  rw [if_neg (by simp [r, hf, hd, hl]), ha]
  have same : s1 = { s1 with arb := s.arb } := by rw [← ha]
  cases hp : s.arb.pending with
  | none =>
    refine same.trans ?_
    rw [Option.map_none, ← hp]
  | some g =>
    by_cases hg : g.dest = ch.other
    · simp only [hg, beq_self_eq_true, if_true, Option.map_some]
    · simp only [beq_eq_false_iff_ne.2 hg, hg, if_false, Bool.false_eq_true, Option.map_some]
      refine same.trans ?_
      rw [← hp]

end Sys2Proof.Machine
end

section
namespace Sys2Proof.Machine

/-- Settles O31: a slot without a failure up to the late grant, and the two fence commands, each grant by what `leaseTo` records. -/
theorem fencesAndGrants : Obligations.FencesAndGrants := by
  intro s ch hc
  have confirm : exec (.fenceConfirm ch) s = .next (s.finish (s.fenceConfirm ch)) := by
    show execFenceConfirm ch s = _
    simp [execFenceConfirm, hc]
  have fault : exec (.fenceFault ch) s = .next (s.finish (s.fenceFault ch)) := by
    show execFenceFault ch s = _
    simp [execFenceFault, hc]
  refine ⟨fun hf => ⟨⟨_, confirm, ?_⟩, ⟨_, fault, ?_⟩⟩, fun g hp hg hok hb hs => ⟨fun hl => ⟨_, rfl, ?_⟩, fun hl hd => ⟨_, rfl, ?_⟩⟩,
    fun hf => ⟨fun hp => ⟨_, confirm, ?_⟩, fun g hp hd hg hok hs => ⟨_, confirm, ?_⟩, fun hd hl => ⟨_, fault, ?_⟩⟩⟩
  · have e : s.fenceConfirm ch = s := by unfold State.fenceConfirm; simp [hf]
    rw [e]
    exact settles_finish s s
  · have e : s.fenceFault ch = s := by unfold State.fenceFault; simp [hf]
    rw [e]
    exact settles_finish s s
  · -- the lease record has not lapsed for 100 us yet
    obtain ⟨u, P, e⟩ := slot_pending hok hb hp hg fun c hc => ChanRole.survives_of (hs c hc)
    rw [if_neg (by omega)] at e
    rw [(aside_finish s s.slot).arb, e, P.arb, (aside_ticked s).arb]
  · obtain ⟨ha, hst, u, hu, R⟩ := late_grant hok hb hp hg (fun c hc => ChanRole.survives_of (hs c hc)) hl hd
    have F := aside_finish s s.slot
    rw [F.arb, F.st, ha, ← nextEpoch_eq]
    refine ⟨rfl, rfl, rfl, hst, rfl, rfl, rfl, fun hr => ?_⟩
    obtain ⟨h1, h2⟩ := (R.finish s).shows hr
    exact ⟨h1, fun hn => h2 (by omega)⟩
  · have e : s.fenceConfirm ch = s.setRole ch { s.role ch with fenceDone := true } := by
      unfold State.fenceConfirm
      simp [hf, hp]
    rw [e]
    exact settles_finish s _
  · have L := fenceConfirm_grants hf hp hd hg hok hs
    have F := aside_finish s (s.fenceConfirm ch)
    have R := (L.recorded.before (books_setRole [] s ch _) (by simp)).finish s
    have hch : g.dest.other = ch := by rw [hd, Ch.other_other]
    have hx := L.other_fenceDone
    have e1 : (State.setRole s ch { s.role ch with fenceDone := true }).arb = s.arb := State.setRole_arb ..
    have e2 : (State.setRole s ch { s.role ch with fenceDone := true }).sbTime = s.sbTime := State.setRole_sbTime ..
    rw [e1] at R
    rw [hch, State.setRole_role] at hx
    have hx : (((s.finish (s.fenceConfirm ch))).role ch).fenceDone = true := (congrArg ChanRole.fenceDone (F.role ch) :).trans hx
    have D := (F.role g.dest).trans L.dest
    rw [e1] at D
    rw [F.arb, L.arb, e1, e2, ← nextEpoch_eq]
    refine ⟨hx, rfl, rfl, rfl, (congrArg ChanRole.st D :), (congrArg ChanRole.orphan D :), rfl, (congrArg ChanRole.epoch D :),
      rfl, rfl, fun h => ?_, fun h => ?_, fun h => (R.shows h).1, R.unrecorded⟩
    · refine ⟨by rw [R.count, if_pos h], ?_⟩
      rw [R.flag, if_pos h]
      exact bitOf_or_two_pow _ 0
    · rw [R.count, h]
      rfl
  · have F := aside_finish s (s.fenceFault ch)
    have e := fenceFault_eq hf hd hl
    refine ⟨(congrArg ChanRole.fenceLate (F.role ch) :).trans ?_, ?_, F.arb.trans (by rw [e])⟩
    · rw [e]
      change (State.role (State.mflag _ _ _ _) ch).fenceLate = true
      simp
    · rw [F.mreg _ _ (by decide) (by decide) (by decide), e]
      change bitOf ((State.mflag _ 0x1300 0xA (2 ^ 7)).mreg 0x1300 0xA) 7 = true
      rw [mreg_mflag_self]
      exact bitOf_or_two_pow _ 7

end Sys2Proof.Machine
end

section
namespace Sys2Proof.Machine
variable {l m : List (Nat × Nat)} {s t u : State}

/-! ## Waking, holds and resets as the arbiter sees them -/

/-- The service block's books, the arbiter and the state of every channel stay. -/
structure InPlace (l : List (Nat × Nat)) (s t : State) : Prop extends Books l s t where
  arb : t.arb = s.arb
  st : ∀ ch, (t.role ch).st = (s.role ch).st

theorem Aside.inPlace (h : Aside l s t) : InPlace l s t := ⟨h.toBooks, h.arb, h.st⟩

theorem InPlace.refl (l : List (Nat × Nat)) (s : State) : InPlace l s s := (Aside.refl l s).inPlace

theorem InPlace.trans (a : InPlace l s t) (b : InPlace l t u) : InPlace l s u :=
  ⟨a.toBooks.trans b.toBooks, b.arb.trans a.arb, fun ch => (b.st ch).trans (a.st ch)⟩

theorem InPlace.mono (h : InPlace l s t) (hl : l ⊆ m) : InPlace m s t := ⟨h.toBooks.mono hl, h.arb, h.st⟩

theorem InPlace.ite {c : Prop} [Decidable c] (ht : InPlace l s t) (hu : InPlace l s u) : InPlace l s (if c then t else u) := by
  split
  · exact ht
  · exact hu

theorem InPlace.foldl {α : Type} {f : State → α → State} (hf : ∀ s a, InPlace l s (f s a)) (x : List α) (s : State) :
    InPlace l s (x.foldl f s) := by
  induction x generalizing s with
  | nil => exact InPlace.refl l s
  | cons a x ih => exact (hf s a).trans (ih (f s a))

theorem books_modRole (l : List (Nat × Nat)) (s : State) (ch : Ch) (f : ChanRole → ChanRole) : Books l s (s.modRole ch f) :=
  books_setRole l s ch _

theorem books_arb (l : List (Nat × Nat)) (s : State) (a : Arbiter) : Books l s { s with arb := a } := ⟨rfl, rfl, fun _ _ _ _ _ => rfl⟩

theorem books_relay (l : List (Nat × Nat)) (s : State) (r : Relay) : Books l s { s with relay := r } :=
  ⟨rfl, rfl, fun _ _ _ _ _ => rfl⟩

/-- A change of a role that keeps the state of its channel. -/
theorem inPlace_modRole (l : List (Nat × Nat)) (s : State) (ch : Ch) {f : ChanRole → ChanRole} (hf : ∀ r, (f r).st = r.st) :
    InPlace l s (s.modRole ch f) := by
  refine ⟨books_modRole l s ch f, by simp, fun c => ?_⟩
  rcases Ch.eq_or_other c ch with rfl | rfl
  · simpa using hf _
  · simp

theorem inPlace_mode (l : List (Nat × Nat)) (s : State) (m : ModeSt) : InPlace l s { s with mode := m } :=
  ⟨⟨rfl, rfl, fun _ _ _ _ _ => rfl⟩, rfl, fun _ => rfl⟩

theorem inPlace_power (l : List (Nat × Nat)) (s : State) (p : Power) : InPlace l s { s with power := p } :=
  ⟨⟨rfl, rfl, fun _ _ _ _ _ => rfl⟩, rfl, fun _ => rfl⟩

/-- The objects that a wake writes (R541, R542). -/
def wakeObjs : List (Nat × Nat) := [(0x1101, 0), (0x1107, 0), (0x1106, 0), (0x1108, 3), (0x1108, 2)]

theorem inPlace_wakeNow (s : State) (cause : WakeCause) (all : List WakeCause) : InPlace wakeObjs s (s.wakeNow cause all) := by
  have put : ∀ (u : State) (i k v : Nat), k < 256 → (i, k) ∈ wakeObjs → InPlace wakeObjs u (u.mput i k v) := fun u i k v hk hm =>
    ((aside_mput hk u v).mono (by simpa using hm)).inPlace
  have flag : ∀ (u : State) (m : Nat), InPlace wakeObjs u (u.mflag 0x1106 0 m) := fun u m =>
    ((aside_mflag (by decide) u m).mono (by decide)).inPlace
  have stage8 : ∀ (u : State) (ch : Ch), InPlace wakeObjs u (u.beginStage8 ch) := fun u ch => by
    unfold State.beginStage8
    refine (inPlace_modRole _ u ch ?_).trans (aside_onChan ..).inPlace
    exact fun _ => rfl
  unfold State.wakeNow
  extract_lets _ s1 s2 s3 _ s4 s5 s6
  have h1 : InPlace wakeObjs s s1 := inPlace_mode _ s _
  have h2 : InPlace wakeObjs s s2 := h1.ite (h1.trans (put _ _ _ _ (by decide) (by decide)))
  have h3 : InPlace wakeObjs s s3 := (((h2.trans (put _ 0x1107 0 _ (by decide) (by decide))).trans (flag _ _)).trans
    (InPlace.foldl (fun u w => flag u _) all _)).trans (put _ 0x1108 3 _ (by decide) (by decide))
  have h4 : InPlace wakeObjs s s4 := h3.trans (inPlace_power _ s3 _)
  have h5 : InPlace wakeObjs s s5 := h4.trans (InPlace.foldl (fun u ch => (stage8 u ch).ite (InPlace.refl _ u)) _ _)
  have h6 : InPlace wakeObjs s s6 := h5.trans (aside_eachChan ..).inPlace
  exact (h6.trans ((around_enterNight s6).aside.mono (by decide)).inPlace).ite h6

theorem inPlace_wakeBy (s : State) (cause : WakeCause) : InPlace wakeObjs s (s.wakeBy cause) := by
  simp only [State.wakeBy, State.wakeByAll]
  split
  · exact InPlace.refl _ s
  · exact inPlace_mode _ s _
  · exact inPlace_wakeNow s _ _

theorem inPlace_fence (l : List (Nat × Nat)) (s : State) (ch : Ch) (lost : Bool) : InPlace l s (s.fence ch lost) := by
  unfold State.fence
  extract_lets r s1
  have h1 : InPlace l s s1 := (InPlace.refl l s).ite (inPlace_modRole l s ch fun q => (rfl : ChanRole.st { q with
    fence := true, fenceDone := false, fenceLate := false } = q.st))
  exact h1.trans (aside_onChan ..).inPlace

/-- A fence leaves the other channel's role. -/
theorem fence_other (s : State) (ch : Ch) (lost : Bool) :
    ((s.fence ch lost).role ch.other).unstale = (s.role ch.other).unstale := by
  unfold State.fence
  extract_lets r s1
  rw [(aside_onChan [] s1 ch _).role]
  simp only [s1]
  split
  · rfl
  · simp

/-- The objects that a reset of a channel writes (R586). -/
def resetObjs : List (Nat × Nat) := [(0x110A, 2), (0x110A, 3)]

/-- What a reset of a channel leaves of the rest (R579). -/
structure ResetOf (ch : Ch) (s t : State) : Prop where
  books : Books resetObjs s t
  arb : t.arb = s.arb.dropped ch
  other : (t.role ch.other).unstale = (s.role ch.other).unstale
  st : (t.role ch).st = .off
  fence : (t.role ch).fence = true
  restartDue : (t.role ch).restartDue = true

theorem resetOf_beginReset (s : State) (ch : Ch) (cause : ResetCause) : ResetOf ch s (s.beginReset ch cause) := by
  have rule := beginReset_role s ch cause
  refine ⟨?_, beginReset_arb s ch cause, ?_, congrArg Prod.fst rule, congrArg (fun x => x.2.1) rule, ?_⟩
  · have h1 : Books resetObjs s (s.fence ch true) := (inPlace_fence resetObjs s ch true).toBooks
    unfold State.beginReset
    extract_lets +onlyGivenNames u r s1 s2 s3 a s4
    have h2 : Books resetObjs u s1 := books_setRole ..
    have h3 : Books resetObjs s1 s2 := ((aside_mput (by cases ch <;> decide) s1 _).mono (by cases ch <;> decide)).toBooks
    have h4 : Books resetObjs s2 s3 := ((beside_setChan s2 ch _).aside resetObjs).toBooks
    have h5 : Books resetObjs s s4 := (((h1.trans h2).trans h3).trans h4).trans (books_arb _ s3 _)
    split
    · exact h5.trans (books_relay _ s4 _)
    · exact h5
  · rw [← fence_other s ch true]
    unfold State.beginReset
    generalize s.fence ch true = u
    dsimp only
    split <;> cases ch <;> rfl
  · unfold State.beginReset
    generalize s.fence ch true = u
    dsimp only
    split <;> cases ch <;> rfl

/-- The objects that the end of a drill writes (R518 to R520). -/
def drillObjs : List (Nat × Nat) := [(0x1300, 7), (0x1310, 4), (0x1310, 5), (0x1310, 6), (0x1300, 0xA)]

theorem books_endDrill (s : State) (result table : Nat) : Books drillObjs s (s.endDrill result table) ∧
    ∀ ch, ((s.endDrill result table).role ch).unstale = (s.role ch).unstale := by
  have put : ∀ (u : State) (i k v : Nat), k < 256 → (i, k) ∈ drillObjs → Aside drillObjs u (u.mput i k v) := fun u i k v hk hm =>
    (aside_mput hk u v).mono (by simpa using hm)
  have flag : ∀ (u : State) (m : Nat), Aside drillObjs u (u.mflag 0x1300 0xA m) := fun u m =>
    (aside_mflag (by decide) u m).mono (by decide)
  unfold State.endDrill
  split
  · exact ⟨Books.refl _ s, fun _ => rfl⟩
  · extract_lets ms _ s1 s2 s3 s4 s5 _ s6
    have h1 : Aside drillObjs { s with arb := { s.arb with drill := none } } s1 := aside_eachChan ..
    have h2 : Aside drillObjs _ s2 := h1.trans (put s1 0x1300 7 _ (by decide) (by decide))
    have h3 : Aside drillObjs _ s3 := (h2.trans (put s2 0x1310 4 _ (by decide) (by decide))).ite
      ((h2.trans (put s2 0x1310 5 _ (by decide) (by decide))).ite (h2.trans (put s2 0x1310 6 _ (by decide) (by decide))))
    have h4 : Aside drillObjs _ s4 := (h3.trans (flag s3 _)).ite h3
    have h5 : Aside drillObjs _ s5 := (h4.trans (flag s4 _)).ite h4
    have h6 : Books drillObjs s5 s6 ∧ ∀ ch, (s6.role ch) = s5.role ch := by
      show Books drillObjs s5 (ite _ _ _) ∧ _
      simp only [s6]
      split
      · exact ⟨books_arb _ s5 _, fun ch => by cases ch <;> rfl⟩
      · exact ⟨Books.refl _ _, fun _ => rfl⟩
    have h7 := aside_logEvent drillObjs s6 0 0x23 (result + table * 2 ^ 8)
    refine ⟨((books_arb _ s _).trans h5.toBooks).trans (h6.1.trans h7.toBooks), fun ch => ?_⟩
    rw [h7.role, h6.2, h5.role]
    cases ch <;> rfl

/-! ## Holds and declarations -/

/-- What a hold leaves and changes in a module with both channels (R512). -/
structure HoldOf (s t : State) : Prop where
  holder : t.arb.holder = none
  back : t.arb.back = none
  pending : t.arb.pending = none
  hold : t.arb.hold.isSome = true
  window : t.arb.window = s.arb.window
  flag : t.mreg 0x1300 0xA = s.mreg 0x1300 0xA ||| 2 ^ 4
  count : t.mreg 0x1310 3 = (s.mreg 0x1310 3 + 1) % 2 ^ 64
  off : ∀ ch, (s.role ch).st = .off → (t.role ch).st = .off

theorem ResetOf.off {ch : Ch} (h : ResetOf ch s t) (c : Ch) (hc : (s.role c).st = .off) : (t.role c).st = .off := by
  rcases Ch.eq_or_other c ch with rfl | rfl
  · exact h.st
  · exact (congrArg ChanRole.st h.other :).trans hc

/-- A reset, or none, once a hold has begun. -/
theorem HoldOf.reset (h : HoldOf s t) {c : Prop} [Decidable c] (ch : Ch) (cause : ResetCause) :
    HoldOf s (if c then t.beginReset ch cause else t) := by
  split
  · have R := resetOf_beginReset t ch cause
    have ha := R.arb
    constructor
    · rw [ha]; simp [Arbiter.dropped, h.holder]
    · rw [ha]; simp [Arbiter.dropped, h.back]
    · rw [ha]; simp [Arbiter.dropped, h.pending]
    · rw [ha]; exact h.hold
    · rw [ha]; exact h.window
    · rw [R.books.mreg _ _ (by decide) (by decide) (by decide), h.flag]
    · rw [R.books.mreg _ _ (by decide) (by decide) (by decide), h.count]
    · exact fun c hc => R.off c (h.off c hc)
  · exact h

theorem HoldOf.inPlace (h : HoldOf s t) (k : InPlace wakeObjs t u) : HoldOf s u := by
  obtain ⟨h1, h2, h3, h4, h5, h6, h7, h8⟩ := h
  rw [← k.arb] at h1 h2 h3 h4 h5
  refine ⟨h1, h2, h3, h4, h5, ?_, ?_, fun ch hc => (k.st ch).trans (h8 ch hc)⟩
  · rw [k.mreg _ _ (by decide) (by decide) (by decide), h6]
  · rw [k.mreg _ _ (by decide) (by decide) (by decide), h7]

theorem holdOf_begun (s : State) : HoldOf s s.holdBegun := by
  let a : State := { s with arb := s.arb.held s.firstTurn }
  have h1 : Aside [(0x1310, 3)] a (a.minc 0x1310 3) := aside_minc (by decide) a
  have h2 : Aside [(0x1300, 0xA)] (a.minc 0x1310 3) ((a.minc 0x1310 3).mflag 0x1300 0xA (2 ^ 4)) := aside_mflag (by decide) _ _
  have h3 : Aside [] ((a.minc 0x1310 3).mflag 0x1300 0xA (2 ^ 4)) s.holdBegun := aside_logEvent ..
  have ha : s.holdBegun.arb = s.arb.held s.firstTurn := h3.arb.trans (h2.arb.trans h1.arb)
  refine ⟨by rw [ha]; rfl, by rw [ha]; rfl, by rw [ha]; rfl, by rw [ha]; rfl, by rw [ha]; rfl, ?_, ?_, fun ch hc => ?_⟩
  · rw [h3.mreg _ _ (by decide) (by decide) (by decide), mreg_mflag_self, h1.mreg _ _ (by decide) (by decide) (by decide)]
    rfl
  · rw [h3.mreg _ _ (by decide) (by decide) (by decide), h2.mreg _ _ (by decide) (by decide) (by decide), mreg_minc_self]
    rfl
  · rw [h3.st, h2.st, h1.st]
    exact (by cases ch <;> rfl : a.role ch = s.role ch) ▸ hc

theorem holdOf_enterHold (hb : s.present .b = true) : HoldOf s s.enterHold := by
  rw [enterHold_eq, hb, if_neg (by decide)]
  refine HoldOf.inPlace ?_ (inPlace_wakeBy _ _)
  have h1 : HoldOf s (s.holdBegun.resetWaiting s.firstTurn.other) := (holdOf_begun s).reset _ _
  split
  · exact h1
  · have h2 := h1.reset (c := True) s.firstTurn .hold
    rwa [if_pos trivial] at h2

/-- The objects that a declaration writes before the arbiter decides. -/
theorem struck_books (s : State) (c : Ch) (cause : DeclCause) :
    Books drillObjs s (s.struck c cause) ∧ ((s.struck c cause).role c.other).unstale = (s.role c.other).unstale := by
  unfold State.struck
  extract_lets s1 s2 s3
  have h1 := inPlace_fence drillObjs s c true
  have h3 : Aside drillObjs s2 s3 := aside_logEvent ..
  obtain ⟨h4, h5⟩ := books_endDrill s3 5 0
  refine ⟨((h1.toBooks.trans (books_modRole _ s1 c _)).trans h3.toBooks).trans h4, ?_⟩
  rw [h5, h3.role, State.modRole_role_other]
  exact fence_other s c true

/-- A holder that fails in its own recovery window (R511). -/
theorem declare_windowFault {c : Ch} {w : Window} {cause : DeclCause} (hh : s.arb.holder = some c) (hs : (s.role c).st = .active)
    (hw : s.arb.window = some w) (hn : w.new = c) :
    s.declare c cause = State.windowFault { s.struck c cause with arb := { (s.struck c cause).arb with holder := none } } c w cause
      (if cause == .trip then .trip else .arbiter) := by
  obtain ⟨d, n, -, ha⟩ := (struck_view s c cause).arb
  rw [declare_eq]
  simp only [hs, ha, hh, hw, hn]
  rw [if_neg (by decide), if_neg (by simp), if_pos (by simp)]

/-- The objects that a heartbeat's word is shown in (R488). -/
def wordObjs : List (Nat × Nat) := [(0x1300, 8), (0x1300, 9)]

/-- A heartbeat that reports its channel unfit is a declaration (R491). -/
theorem heartbeat_unfit {ch : Ch} (hok : s.arb.ok = true) (hb : (s.role ch).beats = true) (hw : bitOf (s.healthWord ch) 7 = true) :
    ∃ u, s.heartbeat ch = u.declare ch .unfit ∧ Books wordObjs s u ∧ u.arb = s.arb ∧
      (∀ c, (u.role c).st = (s.role c).st) ∧ u.role ch.other = s.role ch.other := by
  unfold State.heartbeat
  extract_lets w th score good low s1 s2 r holder s3
  have hr : r.beats = true := by
    simp only [r, s2, s1, State.mput_role, State.modRole_role]
    exact hb
  have hok2 : s2.arb.ok = true := by simpa [s2, s1] using hok
  have h1 : InPlace wordObjs s s1 := inPlace_modRole _ s ch fun q => (rfl : ChanRole.st { q with
    health := w, misses := 0, goodRun := if good then (if q.hbSeen then q.goodRun else q.goodRun + 1) else 0,
    lowRun := if low then q.lowRun + 1 else 0, hbSeen := true } = q.st)
  have h2 : InPlace wordObjs s s2 := h1.trans
    ((aside_mput (by cases ch <;> decide) s1 w).mono (by cases ch <;> decide)).inPlace
  refine ⟨s2, ?_, h2.toBooks, h2.arb, h2.st, by simp [s2, s1]⟩
  simp [hok2, hr, w, hw]

end Sys2Proof.Machine
end

section
namespace Sys2Proof.Machine
variable {s t u : State}

/-! ## The failure of the new holder in its recovery window (R511, R512) -/

theorem role_withArb (s : State) (a : Arbiter) (ch : Ch) : State.role { s with arb := a } ch = s.role ch := by cases ch <;> rfl

/-- The new holder declared failed and reset, with the flag of a double fault, before the arbiter decides between the return of the
first one and a hold. -/
structure DoubleFault (c : Ch) (s t : State) : Prop where
  unit : t.unit = s.unit
  sbTime : t.sbTime = s.sbTime
  holder : t.arb.holder = none
  window : t.arb.window = s.arb.window
  back : t.arb.back = s.arb.back.filter fun b => b.chan != c
  st : (t.role c).st = .off
  fence : (t.role c).fence = true
  restartDue : (t.role c).restartDue = true
  other : (t.role c.other).unstale = (s.role c.other).unstale
  flag : bitOf (t.mreg 0x1300 0xA) 5 = true
  count : t.mreg 0x1310 3 = s.mreg 0x1310 3

/-- Whether the channel that failed first may return without a reset (R511). -/
def State.mayReturn (s : State) (w : Window) : Bool :=
  w.cause == .heartbeat && (s.role w.first).st == .failed && (s.role w.first).deferred && s.healthy w.first

/-- An unfit heartbeat of the new holder in its window (R511): both ways on, from the state after its reset. -/
theorem heartbeat_doubleFault {c : Ch} {w : Window} (hok : s.arb.ok = true) (hh : s.arb.holder = some c)
    (hs : (s.role c).st = .active) (hw : s.arb.window = some w) (hn : w.new = c) (hf : w.first = c.other)
    (hu : bitOf (s.healthWord c) 7 = true) : ∃ t, DoubleFault c s t ∧
      (s.mayReturn w = true → s.heartbeat c = (t.reinstate w.first c).openWindow c w.first .unfit) ∧
      (s.mayReturn w = false → s.heartbeat c = t.enterHold) := by
  obtain ⟨u, e, bu, au, stu, ou⟩ := heartbeat_unfit (ch := c) hok (by simp [ChanRole.beats, hs]) hu
  rw [declare_windowFault (by rw [au, hh]) (by rw [stu, hs]) (by rw [au, hw]) hn] at e
  obtain ⟨bs, os⟩ := struck_books u c .unfit
  obtain ⟨d, n, -, as⟩ := (struck_view u c .unfit).arb
  generalize hv : ({ u.struck c .unfit with arb := { (u.struck c .unfit).arb with holder := none } } : State) = v at e
  have bv : Books drillObjs u v := hv ▸ bs.trans (books_arb _ _ _)
  have av : v.arb = { s.arb with holder := none, drill := d, drillBase := n } := by rw [← hv, ← au]; simp [as]
  have ov : (v.role c.other).unstale = (s.role c.other).unstale := by
    rw [← ou, ← os, ← hv, role_withArb]
  have R := resetOf_beginReset v c .arbiter
  have F := aside_mflag (i := 0x1300) (k := 0xA) (by decide) (v.beginReset c .arbiter) (2 ^ 5)
  have flag : bitOf (((v.beginReset c .arbiter).mflag 0x1300 0xA (2 ^ 5)).mreg 0x1300 0xA) 5 = true := by
    rw [mreg_mflag_self]
    exact bitOf_or_two_pow _ 5
  have wf : v.windowFault c w .unfit .arbiter = (fun t : State => if t.mayReturn w then
      (t.reinstate w.first c).openWindow c w.first .unfit else t.enterHold) ((v.beginReset c .arbiter).mflag 0x1300 0xA (2 ^ 5)) := rfl
  generalize (v.beginReset c .arbiter).mflag 0x1300 0xA (2 ^ 5) = t at F flag wf
  dsimp only at wf
  have other : (t.role c.other).unstale = (s.role c.other).unstale := (F.role _).trans (R.other.trans ov)
  have at' : t.arb = v.arb.dropped c := F.arb.trans R.arb
  refine ⟨t, ⟨?_, ?_, ?_, ?_, ?_, ?_, ?_, ?_, other, ?_, ?_⟩, ?_⟩
  · rw [F.unit, R.books.unit, bv.unit, bu.unit]
  · rw [F.sbTime, R.books.sbTime, bv.sbTime, bu.sbTime]
  · rw [at', av]; rfl
  · rw [at', av]; rfl
  · rw [at', av]; rfl
  · rw [F.st, R.st]
  · exact (congrArg ChanRole.fence (F.role c) :).trans R.fence
  · exact (congrArg ChanRole.restartDue (F.role c) :).trans R.restartDue
  · exact flag
  · rw [F.mreg _ _ (by decide) (by decide) (by decide), R.books.mreg _ _ (by decide) (by decide) (by decide),
      bv.mreg _ _ (by decide) (by decide) (by decide), bu.mreg _ _ (by decide) (by decide) (by decide)]
  · have h1 : (t.role c.other).st = (s.role c.other).st := (congrArg ChanRole.st other :)
    have h2 : (t.role c.other).deferred = (s.role c.other).deferred := (congrArg ChanRole.deferred other :)
    have h3 : t.healthy c.other = s.healthy c.other := (congrArg (fun r : ChanRole => Nat.ble 3 r.goodRun) other :)
    have hm : t.mayReturn w = s.mayReturn w := by simp only [State.mayReturn, hf, h1, h2, h3]
    rw [e, show (if DeclCause.unfit == .trip then ResetCause.trip else .arbiter) = .arbiter from rfl, wf, hm]
    exact ⟨fun h => if_pos h, fun h => by rw [h]; rfl⟩

end Sys2Proof.Machine
end

section
namespace Sys2Proof.Machine
variable {s t u : State}

/-! ## The relay while no channel holds the lease (R498) -/

/-- The arbiter stays, and so does the relay where no channel holds the lease: no delta is queued then (R498). -/
structure Unrelayed (s t : State) : Prop where
  arb : t.arb = s.arb
  up : t.relay.up = s.relay.up
  relay : s.arb.holder = none → t.relay = s.relay

theorem Unrelayed.refl (s : State) : Unrelayed s s := ⟨rfl, rfl, fun _ => rfl⟩

theorem Unrelayed.trans (a : Unrelayed s t) (b : Unrelayed t u) : Unrelayed s u :=
  ⟨b.arb.trans a.arb, b.up.trans a.up, fun h => (b.relay (by rw [a.arb]; exact h)).trans (a.relay h)⟩

theorem Unrelayed.ite {c : Prop} [Decidable c] (ht : Unrelayed s t) (hu : Unrelayed s u) : Unrelayed s (if c then t else u) := by
  split
  · exact ht
  · exact hu

theorem Unrelayed.foldl {α : Type} {f : State → α → State} (hf : ∀ s a, Unrelayed s (f s a)) (x : List α) (s : State) :
    Unrelayed s (x.foldl f s) := by
  induction x generalizing s with
  | nil => exact Unrelayed.refl s
  | cons a x ih => exact (hf s a).trans (ih (f s a))

theorem unrelayed_relayDelta (s : State) (ch : Ch) (d : Delta) : Unrelayed s (s.relayDelta ch d) := by
  refine ⟨(beside_relayDelta s ch d).arb, ?_, fun h => ?_⟩
  · have ite : ∀ {p : Prop} [Decidable p] {x y : State}, x.relay.up = s.relay.up → y.relay.up = s.relay.up →
        (if p then x else y).relay.up = s.relay.up := fun {p} _ {x y} hx hy => by
      split
      · exact hx
      · exact hy
    have stale : ∀ o : Ch, (s.modRole o fun r => { r with stale := true }).relay.up = s.relay.up := fun o => by simp
    unfold State.relayDelta
    exact ite rfl (ite (ite (stale _) rfl) (ite (ite (stale _) (ite (stale _) rfl)) rfl))
  · unfold State.relayDelta
    simp [h]

theorem unrelayed_logEvent (s : State) (a b d : Nat) : Unrelayed s (s.logEvent a b d) := ⟨by simp, by simp, fun _ => by simp⟩

theorem unrelayed_mflag (s : State) (i k m : Nat) : Unrelayed s (s.mflag i k m) := ⟨by simp, by simp, fun _ => by simp⟩

theorem unrelayed_noteFlags (s : State) (i k v : Nat) : Unrelayed s (s.noteFlags i k v) := ⟨rfl, rfl, fun _ => rfl⟩

theorem unrelayed_minc (s : State) (i k : Nat) : Unrelayed s (s.minc i k) := ⟨rfl, rfl, fun _ => rfl⟩

theorem unrelayed_mode (s : State) (m : ModeSt) : Unrelayed s { s with mode := m } := ⟨rfl, rfl, fun _ => rfl⟩

theorem unrelayed_onChan (s : State) (ch : Ch) (f : Ctx → Channel → Channel) : Unrelayed s (s.onChan ch f) := by
  unfold State.onChan State.drainBox
  extract_lets c b _ s1 s2 s3 s4
  have h2 : Unrelayed s s2 := by cases ch <;> exact ⟨rfl, rfl, fun _ => rfl⟩
  have h3 : Unrelayed s s3 := h2.trans (Unrelayed.foldl (fun s e => unrelayed_logEvent s _ _ _) _ _)
  have h4 : Unrelayed s s4 := h3.trans (Unrelayed.foldl (fun s e => unrelayed_noteFlags s _ _ _) _ _)
  exact h4.trans (Unrelayed.foldl (fun s d => unrelayed_relayDelta s ch d) _ _)

theorem unrelayed_eachChan (s : State) (f : Ctx → Channel → Channel) : Unrelayed s (s.eachChan f) :=
  Unrelayed.foldl (fun s ch => unrelayed_onChan s ch f) _ s

theorem unrelayed_crossCheck (s : State) (i : Nat) : Unrelayed s (s.crossCheck i) := by
  have both : ∀ (s : State) (i sub m : Nat),
      Unrelayed s ((s.onChan .a fun _ c => c.flag i sub m).onChan .b fun _ c => c.flag i sub m) :=
    fun s _ _ _ => (unrelayed_onChan s _ _).trans (unrelayed_onChan _ _ _)
  unfold State.crossCheck
  dsimp only
  refine (Unrelayed.refl s).ite (Unrelayed.ite ((Unrelayed.refl s).ite (both ..)) (Unrelayed.ite
    (Unrelayed.foldl (fun s k => (Unrelayed.refl s).ite (both ..)) _ s) (Unrelayed.ite ((Unrelayed.refl s).ite (both ..)) (Unrelayed.refl s))))

theorem unrelayed_enterNight (s : State) : Unrelayed s s.enterNight := by
  unfold State.enterNight
  exact (Unrelayed.refl s).ite (((unrelayed_mode s _).trans (unrelayed_minc _ _ _)).trans (unrelayed_eachChan _ _))

theorem unrelayed_leaveNoon (s : State) : Unrelayed s s.leaveNoon := by
  unfold State.leaveNoon
  split
  · exact Unrelayed.refl s
  · exact Unrelayed.foldl (fun s d => unrelayed_relayDelta s _ d) _ s

theorem unrelayed_noteMode (s : State) : Unrelayed s s.noteMode := by
  unfold State.noteMode
  extract_lets new old _ s1 s2
  have h1 : Unrelayed s s1 := unrelayed_mode s _
  have h2 : Unrelayed s s2 := (h1.trans (unrelayed_leaveNoon s1)).ite h1
  exact (Unrelayed.refl s).ite ((h2.trans (unrelayed_mflag s2 _ _ _)).trans (unrelayed_logEvent _ _ _ _))

theorem unrelayed_finish (b s : State) : Unrelayed s (State.finish b s) := by
  have dawn : Unrelayed s s.leaveDawn := by
    unfold State.leaveDawn
    refine Unrelayed.ite ?_ (Unrelayed.refl s)
    extract_lets _ s1
    have h1 : Unrelayed s s1 := unrelayed_mode s _
    exact (h1.trans (unrelayed_enterNight s1)).ite h1
  have roles : ∀ u : State, Unrelayed u (State.followRoles b u) := fun u => Unrelayed.foldl (fun s ch => (Unrelayed.refl s).ite
    ((unrelayed_onChan ..).trans (Unrelayed.foldl (fun s i => unrelayed_crossCheck s i) _ _))) _ u
  have dusk : ∀ u : State, Unrelayed u u.endDusk := fun u => by
    unfold State.endDusk State.leaveDusk
    exact (((unrelayed_mode u _).trans (unrelayed_mflag _ _ _ _)).trans (unrelayed_eachChan _ _)).ite (Unrelayed.refl u)
  have contacts : ∀ u : State, Unrelayed u u.followContacts := fun u => by
    unfold State.followContacts
    exact Unrelayed.ite ⟨rfl, rfl, fun _ => rfl⟩ ⟨rfl, rfl, fun _ => rfl⟩
  exact ((((dawn.trans (roles _)).trans (dusk _)).trans (unrelayed_noteMode _)).trans (contacts _)).trans ⟨rfl, rfl, fun _ => rfl⟩

theorem unrelayed_ticked (s : State) : Unrelayed s s.ticked := by
  have lacp : ∀ u : State, Unrelayed u u.lacpTick := fun u => by
    unfold State.lacpTick
    exact (Unrelayed.refl u).ite (unrelayed_eachChan ..)
  have mode : ∀ u : State, Unrelayed u u.modeTick := fun u => by
    have inc : ∀ k, Unrelayed u (u.minc 0x1108 k) := fun k => ⟨rfl, rfl, fun _ => rfl⟩
    unfold State.modeTick
    exact (Unrelayed.refl u).ite ((inc 4).ite ((inc 5).ite ((inc 6).ite (Unrelayed.refl u))))
  have time : Unrelayed s { s with sbTime := s.sbTime + 1 } := ⟨rfl, rfl, fun _ => rfl⟩
  exact (time.trans (lacp _)).trans (mode _)

/-! ## Held deltas (R498, R511) -/

theorem applyTo_apart (s : State) (r : Ch) (d : Delta) : Aside [(0x1310, 0xA)] s (s.applyTo r d) ∧ Unrelayed s (s.applyTo r d) := by
  have h1 : Aside [(0x1310, 0xA)] s (s.minc 0x1310 0xA) := aside_minc (by decide) s
  have k1 : Unrelayed s (s.minc 0x1310 0xA) := ⟨rfl, rfl, fun _ => rfl⟩
  unfold State.applyTo
  extract_lets s1
  have h2 : Aside [(0x1310, 0xA)] s s1 := h1.trans (aside_onChan ..)
  have k2 : Unrelayed s s1 := k1.trans (unrelayed_onChan ..)
  split
  · exact ⟨h2.trans ((beside_crossCheck s1 _).aside _), k2.trans (unrelayed_crossCheck s1 _)⟩
  · exact ⟨h2, k2⟩

/-- The held deltas that are applied are the oldest ones; those that need no object of a posted domain never wait. -/
theorem applyHeld_apart (n : Nat) (r : Ch) (s : State) (hh : s.arb.holder = none) :
    let t := State.applyHeld n r s
    Aside [(0x1310, 0xA)] s t ∧ t.relay.hold <:+ s.relay.hold ∧ t.relay.deltas = s.relay.deltas ∧
      ((∀ d ∈ s.relay.hold, ∀ u : State, u.deltaWaits r d = false) → s.relay.hold.length ≤ n → t.relay.hold = []) := by
  induction n generalizing s with
  | zero => exact ⟨Aside.refl _ s, List.suffix_refl _, rfl, fun _ h => List.length_eq_zero_iff.1 (Nat.le_zero.1 h)⟩
  | succ n ih =>
    simp only [State.applyHeld]
    split
    · rename_i he
      exact ⟨Aside.refl _ s, List.suffix_refl _, rfl, fun _ _ => he⟩
    · rename_i d rest he
      split
      · rename_i hw
        exact ⟨Aside.refl _ s, List.suffix_refl _, rfl, fun hd _ => absurd hw (by rw [hd d (by rw [he]; exact List.mem_cons_self) s]; decide)⟩
      · let v : State := { s with relay := { s.relay with hold := rest } }
        obtain ⟨a, k⟩ := applyTo_apart v r d
        have hv : (v.applyTo r d).arb.holder = none := by rw [a.arb]; exact hh
        have kr : (v.applyTo r d).relay = { s.relay with hold := rest } := k.relay hh
        obtain ⟨i1, i2, i3, i4⟩ := ih (v.applyTo r d) hv
        rw [kr] at i2 i3 i4
        have av : Aside [(0x1310, 0xA)] s v := ⟨books_relay _ s _, rfl, fun _ => rfl⟩
        refine ⟨(av.trans a).trans i1, i2.trans (he ▸ List.suffix_cons d rest), i3, fun hd hn => i4 (fun x hx => hd x ?_) ?_⟩
        · rw [he]
          exact List.mem_cons_of_mem d hx
        · rw [he, List.length_cons] at hn
          exact Nat.le_of_succ_le_succ hn

end Sys2Proof.Machine
end

section
namespace Sys2Proof.Machine

/-! ## Busy objects over the LACP time (R655) -/

/-- The indices of the busy objects of posted domains (R655). -/
def busyIdx : List Nat := [0x410E, 0x420E, 0x425E, 0x470E, 0x480E, 0x4B0E, 0x4C0E]

/-- The busy objects of a channel are as they were. -/
def KeepsBusy (c d : Channel) : Prop := ∀ i k, i ∈ busyIdx → k < 256 → d.reg i k = c.reg i k

variable {c d e : Channel}

theorem KeepsBusy.refl (c : Channel) : KeepsBusy c c := fun _ _ _ _ => rfl

theorem KeepsBusy.trans (a : KeepsBusy c d) (b : KeepsBusy d e) : KeepsBusy c e := fun i k hi hk => (b i k hi hk).trans (a i k hi hk)

theorem keepsBusy_emptied (c : Channel) : KeepsBusy c c.emptied := fun _ _ _ _ => rfl

theorem KeepsBusy.ite {p : Prop} [Decidable p] (hd : KeepsBusy c d) (he : KeepsBusy c e) : KeepsBusy c (if p then d else e) := by
  split
  · exact hd
  · exact he

theorem KeepsBusy.put (h : KeepsBusy c d) {i k : Nat} (v : Nat) (hi : i ∉ busyIdx) (hk : k < 256) : KeepsBusy c (d.put i k v) := by
  intro j l hj hl
  refine (reg_put_ne d hk hl fun x => ?_).trans (h j l hj hl)
  obtain ⟨rfl, -⟩ := Prod.mk.inj x
  exact hi hj

/-- An LACPDU that goes out on a front port is counted in objects of that port alone. -/
theorem keepsBusy_putControl (c : Channel) {p : Nat} (ch : Ch) (b : List Byte) (hp : p ≤ 48) :
    KeepsBusy c (c.putControl p (.lacpdu ch p b)) := by
  have h0 : KeepsBusy c (c.emit (.lacpdu ch p b)) := fun _ _ _ _ => rfl
  unfold Channel.putControl Channel.countOut
  simp only [hp, if_true]
  have h2 : KeepsBusy c (if decide True && (c.emit (.lacpdu ch p b)).bit 0x4102 p 22 then
      (c.emit (.lacpdu ch p b)).putBit 0x4102 p 22 false else c.emit (.lacpdu ch p b)) :=
    (h0.put (i := 0x4102) _ (by decide) (by omega)).ite h0
  exact ((h2.put (i := 0x4120) _ (by decide) (by omega)).put (i := 0x4121) _ (by decide) (by omega)).put (i := 0x4124) _ (by decide)
    (by omega)

theorem keepsBusy_sendOwed (c : Channel) (cx : Ctx) {p : Nat} (hp : p ≤ 48) : KeepsBusy c (c.sendOwed cx p) := by
  have control : ∀ (d : Channel) (b : List Byte), KeepsBusy d (d.putControl p (.lacpdu cx.ch p b)) := fun d b =>
    keepsBusy_putControl d cx.ch b hp
  have guarded : ∀ (d : Channel) (b : List Byte), KeepsBusy d (d.sendGuarded p (.lacpdu cx.ch p b)) := fun d b => by
    unfold Channel.sendGuarded Channel.sendControl Channel.goOut
    refine KeepsBusy.ite (KeepsBusy.ite (fun _ _ _ _ => rfl) (control d b)) ?_
    refine KeepsBusy.ite (fun _ _ _ _ => rfl) (KeepsBusy.ite (control d b) ?_)
    refine KeepsBusy.ite (fun _ _ _ _ => rfl) ?_
    exact KeepsBusy.put (d := Channel.setPort d p _) (fun _ _ _ _ => rfl) _ (by decide) (by omega)
  unfold Channel.sendOwed Channel.sendLacpdu
  refine KeepsBusy.ite (KeepsBusy.ite (KeepsBusy.refl c) (KeepsBusy.ite (fun _ _ _ _ => rfl) ?_)) (KeepsBusy.refl c)
  exact KeepsBusy.trans (d := Channel.setPort c p _) (fun _ _ _ _ => rfl) (guarded _ _)

/-- What a delta waits for is told by the busy objects of its channel (R499, R655). -/
theorem KeepsBusy.domainBusy (h : KeepsBusy c d) {idx sub : Nat} (hs : sub < 256) : d.domainBusy idx sub = c.domainBusy idx sub := by
  have key : ∀ x ∈ domainsOf idx sub, tabGet chDflt d.dict (busyKey x) = tabGet chDflt c.dict (busyKey x) := by
    intro x hx
    have hd : x = .portMacro ((sub + 3) / 4) ∨ x = .multidrop ∨ x = .fabricMacro ((sub + 1) / 2) ∨ x = .fabricMacro 1 ∨ x = .fabricMacro 2 ∨
        x = .controlStore ∨ x = .buffer ∨ x = .time ∨ x = .capture := by
      unfold domainsOf postedDomain at hx
      grind
    rcases hd with rfl | rfl | rfl | rfl | rfl | rfl | rfl | rfl | rfl
    · exact h 0x410E _ (by decide) (by omega)
    · exact h 0x420E _ (by decide) (by omega)
    · exact h 0x425E _ (by decide) (by omega)
    · exact h 0x425E _ (by decide) (by omega)
    · exact h 0x425E _ (by decide) (by omega)
    · exact h 0x470E _ (by decide) (by omega)
    · exact h 0x480E _ (by decide) (by omega)
    · exact h 0x4B0E _ (by decide) (by omega)
    · exact h 0x4C0E _ (by decide) (by omega)
  unfold Channel.domainBusy
  rw [Bool.eq_iff_iff, List.any_eq_true, List.any_eq_true]
  exact exists_congr fun x => and_congr_right fun hx => by rw [key x hx]

/-- The clocks of a slot leave what a delta waits for. -/
theorem ticked_deltaWaits (s : State) (r : Ch) (x : Delta) : s.ticked.deltaWaits r x = s.deltaWaits r x := by
  have foldPorts : ∀ (cx : Ctx) (l : List Nat) (c : Channel), (∀ p ∈ l, p ≤ 48) → KeepsBusy c (l.foldl (fun c p => c.sendOwed cx p) c) := by
    intro cx l
    induction l with
    | nil => exact fun c _ => KeepsBusy.refl c
    | cons p l ih => exact fun c hl => (keepsBusy_sendOwed c cx (hl p List.mem_cons_self)).trans (ih _ fun q hq => hl q (List.mem_cons_of_mem p hq))
  have each : ∀ (u : State) (l : List Ch), KeepsBusy (u.chan r) ((l.foldl (fun s ch => s.onChan ch
      fun cx c => (upFrom 1 48).foldl (fun c p => c.sendOwed cx p) c) u).chan r) := by
    intro u l
    induction l generalizing u with
    | nil => exact KeepsBusy.refl _
    | cons ch l ih =>
      refine KeepsBusy.trans ?_ (ih _)
      rcases Ch.eq_or_other r ch with rfl | rfl
      · rw [onChan_chan]
        have ports : ∀ p ∈ upFrom 1 48, p ≤ 48 := by decide
        exact (foldPorts (u.ctx r) (upFrom 1 48) (u.chan r) ports).trans (keepsBusy_emptied _)
      · rw [onChan_chan_other]
        exact KeepsBusy.refl _
  have modes : ∀ u : State, u.modeTick.chan r = u.chan r := fun u => by
    unfold State.modeTick
    (repeat' split) <;> cases r <;> rfl
  have kept : KeepsBusy (s.chan r) (s.ticked.chan r) := by
    unfold State.ticked
    rw [modes]
    unfold State.lacpTick
    split
    · cases r <;> exact KeepsBusy.refl _
    · exact KeepsBusy.trans (d := State.chan { s with sbTime := s.sbTime + 1 } r) (by cases r <;> exact KeepsBusy.refl _) (each _ _)
  cases x with
  | obj key v => exact kept.domainBusy (Nat.mod_lt _ (by decide))
  | win key v => exact kept.domainBusy (by decide)
  | slot => rfl
  | entry => rfl

end Sys2Proof.Machine
end

section
namespace Sys2Proof.Machine
variable {s t u : State}

/-! ## The steps of a reinstatement (R511) -/

/-- The objects that a step of a reinstatement writes, but those of its grant. -/
def backObjs : List (Nat × Nat) := (0x1310, 0xA) :: slotObjs

theorem mayReturn_iff {w : Window} : s.mayReturn w = true ↔
    w.cause = .heartbeat ∧ (s.role w.first).st = .failed ∧ (s.role w.first).deferred = true ∧ s.healthy w.first = true := by
  simp [State.mayReturn, and_assoc]

theorem bitOf_or_of_bitOf {a n : Nat} (m : Nat) (h : bitOf a n = true) : bitOf (a ||| m) n = true := by
  have key : ∀ x : Nat, bitOf x n = x.testBit n := fun x => by simp [bitOf, Nat.testBit, Nat.one_and_eq_mod_two]
  rw [key] at h ⊢
  rw [Nat.testBit_or, h, Bool.true_or]

/-- What the first failed channel's return without a reset writes (R511). -/
theorem reinstate_openWindow (s : State) (f d : Ch) (cause : DeclCause) :
    let t := (s.reinstate f d).openWindow d f cause
    t.arb = { s.arb with back := some ⟨f, d, false, s.sbTime⟩, window := some ⟨d, f, cause⟩, stable := false } ∧ Books [] s t ∧
      t.role f = { s.role f with st := .off, fence := false, fenceDone := false, fenceLate := false, deferred := false } ∧
      t.role f.other = s.role f.other := by
  refine ⟨?_, ?_, ?_, ?_⟩
  · simp [State.reinstate, State.openWindow]
  · exact ((books_arb [] s _).trans (books_modRole [] _ f _)).trans (books_arb [] _ _)
  · unfold State.openWindow State.reinstate
    rw [role_withArb, State.modRole_role, role_withArb]
  · unfold State.openWindow State.reinstate
    rw [role_withArb, State.modRole_role_other, role_withArb]

/-- A slot with the arbiter at work, from the state after its clocks and its step of a reinstatement, when no channel fails and no
grant waits for the lease record. -/
theorem slot_afterBack (hok : s.arb.ok = true) (ha : s.ticked.comeBack.arb.pending = none ∨
    ∃ g, s.ticked.comeBack.arb.pending = some g ∧ g.faulted = false)
    (hs : ∀ ch, s.present ch = true → (s.ticked.comeBack.role ch).survives) : Polled s.ticked.comeBack s.slot := by
  have T := aside_ticked s
  have P : Polled s.ticked.comeBack (s.ticked.channels.foldl State.slotOf s.ticked.comeBack) := polled_slots fun ch hc =>
    hs ch ((T.present ch).symm.trans hc)
  have hno : (!s.ticked.arb.ok) = false := by rw [T.arb, Bool.not_eq_false']; exact hok
  rw [slot_eq, hno, if_neg Bool.false_ne_true]
  have e : (s.ticked.channels.foldl State.slotOf s.ticked.comeBack).lateGrant = s.ticked.channels.foldl State.slotOf s.ticked.comeBack := by
    unfold State.lateGrant
    rw [P.arb]
    rcases ha with h | ⟨g, h, hg⟩
    · rw [h]
    · simp [h, hg]
  rw [e]
  exact P

/-- The clocks of a slot leave the relay while no channel holds the lease. -/
theorem ticked_relay (hh : s.arb.holder = none) : s.ticked.relay = s.relay := (unrelayed_ticked s).relay hh

theorem applyAllHeld_waits {ch : Ch} {d : Delta} {rest : List Delta} (h : s.relay.hold = d :: rest) (hw : s.deltaWaits ch d = true) :
    s.applyAllHeld ch = s := by
  unfold State.applyAllHeld
  rw [h, List.length_cons]
  simp [State.applyHeld, h, hw]

theorem applyAllHeld_none {ch : Ch} (h : s.relay.hold = []) : s.applyAllHeld ch = s := by
  unfold State.applyAllHeld
  rw [h]
  rfl

/-- A channel that does not deliver heartbeats waits for no role. -/
theorem waitsRole_of_silent {ch : Ch} (h : (s.role ch).beats = false) : s.waitsRole ch = false := by
  unfold State.waitsRole
  unfold ChanRole.beats at h
  cases hst : (s.role ch).st <;> simp_all

theorem beats_congr {r q : ChanRole} (h : r.unstale = q.unstale) : r.beats = q.beats := (congrArg ChanRole.beats h :)

theorem mayGrant_congr (g : Grant) (hu : t.unit = s.unit) (hr : (t.role g.dest.other).unstale = (s.role g.dest.other).unstale)
    (hd : t.arb.drainer = s.arb.drainer) (hh : t.arb.holder = s.arb.holder) : t.mayGrant g = s.mayGrant g := by
  have h1 : (t.role g.dest.other).st = (s.role g.dest.other).st := (congrArg ChanRole.st hr :)
  have h2 : (t.role g.dest.other).fence = (s.role g.dest.other).fence := (congrArg ChanRole.fence hr :)
  have h3 : (t.role g.dest.other).fenceDone = (s.role g.dest.other).fenceDone := (congrArg ChanRole.fenceDone hr :)
  simp only [State.mayGrant, present_of_unit hu, h1, h2, h3, hd, hh]

theorem fenceWasLate_congr {r q : ChanRole} (h : r.unstale = q.unstale) : fenceWasLate r = fenceWasLate q :=
  (congrArg fenceWasLate h :)

/-- A grant that may take place. -/
theorem grant_may {g : Grant} (hok : s.arb.ok = true) (hg : s.mayGrant g = true) (hd : (s.role g.dest).st = .starting) :
    s.grant g = s.leaseTo g := by
  unfold State.grant
  rw [hok, hg, Bool.and_true, if_pos rfl, grantNow_eq (.inr hd)]

/-- A grant that waits for the other channel's fence (R495). -/
theorem grant_waits {g : Grant} (hg : s.mayGrant g = false) : s.grant g =
    { s with arb := { s.arb with pending := some { g with faulted := fenceWasLate (s.role g.dest.other) } } } := by
  unfold State.grant
  rw [hg, Bool.and_false, if_neg Bool.false_ne_true]
  rfl

/-- What the slots of a reinstatement share: the arbiter works, the channel that returns delivers its heartbeats, and no other does. -/
structure Returning (s : State) (b : Comeback) : Prop where
  ok : s.arb.ok = true
  back : s.arb.back = some b
  holder : s.arb.holder = none
  pending : s.arb.pending = none
  counted : (s.role b.chan).hbSeen = true ∨ (s.role b.chan).misses < 2
  silent : s.present b.chan.other = true → (s.role b.chan.other).beats = false

/-- A channel on its way back to the lease (R45, R511). -/
def ChanRole.started (r : ChanRole) : ChanRole := { r with st := .starting, stage := 9, waitArb := true }

theorem backStarts_role (s : State) (b : Comeback) : (s.backStarts b).role b.chan = (s.role b.chan).started := by
  unfold State.backStarts
  rw [role_withArb, State.modRole_role]
  rfl

theorem backStarts_role_other (s : State) (b : Comeback) : (s.backStarts b).role b.chan.other = s.role b.chan.other := by
  unfold State.backStarts
  rw [role_withArb, State.modRole_role_other]

theorem survives_counted {r : ChanRole} (h : r.hbSeen = true ∨ r.misses < 2) : r.survives := h.imp id .inr

theorem counted_congr {r q : ChanRole} (h : r.unstale = q.unstale) (hq : q.hbSeen = true ∨ q.misses < 2) :
    r.hbSeen = true ∨ r.misses < 2 := by
  have h1 : r.hbSeen = q.hbSeen := (congrArg ChanRole.hbSeen h :)
  have h2 : r.misses = q.misses := (congrArg ChanRole.misses h :)
  rwa [h1, h2]

/-- The first step of a reinstatement: OFF to STARTING with the held deltas (R511). -/
theorem Returning.starts {b : Comeback} (R : Returning s b) (hb : b.starting = false) :
    s.slot.arb = { s.arb with back := some { b with starting := true } } ∧ (s.slot.role b.chan).st = .starting ∧
      (s.slot.role b.chan).stage = 9 ∧ (s.slot.role b.chan).fence = (s.role b.chan).fence ∧ Books backObjs { s with sbTime := s.sbTime + 1 } s.slot ∧
      s.slot.relay.hold <:+ s.relay.hold ∧ s.slot.relay.deltas = s.relay.deltas ∧
      ((∀ d ∈ s.relay.hold, ∀ u : State, u.deltaWaits b.chan d = false) → s.slot.relay.hold = []) := by
  have T := aside_ticked s
  let v := s.ticked.backStarts b
  have av : v.arb = { s.arb with back := some { b with starting := true } } := by simp [v, State.backStarts, T.arb]
  have rv : v.relay = s.relay := by simp [v, State.backStarts, ticked_relay R.holder]
  have e : s.ticked.comeBack = State.applyHeld s.relay.hold.length b.chan v := by
    rw [comeBack_some (by rw [T.arb]; exact R.back), hb, if_neg Bool.false_ne_true, ← rv]
    rfl
  have bv : Books backObjs s.ticked v := (books_modRole backObjs s.ticked b.chan _).trans (books_arb backObjs _ _)
  have cv : (v.role b.chan).unstale = (s.role b.chan).started.unstale := by
    rw [backStarts_role]
    exact (congrArg ChanRole.started (T.role b.chan) :)
  have ov : (v.role b.chan.other).unstale = (s.role b.chan.other).unstale := by
    rw [backStarts_role_other]
    exact T.role _
  obtain ⟨A, h1, h2, h3⟩ := applyHeld_apart s.relay.hold.length b.chan v (by rw [av]; exact R.holder)
  rw [← e] at A h1 h2 h3
  rw [rv] at h1 h2 h3
  have role : (s.ticked.comeBack.role b.chan).unstale = (s.role b.chan).started.unstale := (A.role _).trans cv
  have P : Polled s.ticked.comeBack s.slot := by
    refine slot_afterBack R.ok (.inl ?_) fun ch hc => ?_
    · rw [A.arb, av]
      exact R.pending
    · rcases Ch.eq_or_other ch b.chan with rfl | rfl
      · exact survives_congr role (survives_counted R.counted)
      · exact survives_congr ((A.role _).trans ov) (.inr (.inl (R.silent hc)))
  have pr := (P.role b.chan).trans (ChanRole.unpolled_of_unstale role)
  refine ⟨?_, (congrArg ChanRole.st pr :), (congrArg ChanRole.stage pr :), (congrArg ChanRole.fence pr :), ?_, ?_, ?_, fun hd => ?_⟩
  · rw [P.arb, A.arb, av]
  · exact (((T.toBooks.mono (by decide)).trans bv).trans (A.toBooks.mono (by decide))).trans (P.books.mono (by decide))
  · rw [P.relay]; exact h1
  · rw [P.relay]; exact h2
  · rw [P.relay]; exact h3 hd (Nat.le_refl _)

/-- A reinstatement waits while the oldest held delta waits for a busy object (R499). -/
theorem Returning.waits {b : Comeback} (R : Returning s b) (hb : b.starting = true) {d : Delta} {rest : List Delta}
    (hd : s.relay.hold = d :: rest) (hw : s.deltaWaits b.chan d = true) : s.slot.arb = s.arb ∧ s.slot.relay = s.relay := by
  have T := aside_ticked s
  have rt := ticked_relay R.holder
  have e : s.ticked.comeBack = s.ticked := by
    rw [comeBack_some (by rw [T.arb]; exact R.back), hb, if_pos rfl,
      applyAllHeld_waits (by rw [rt]; exact hd) (by rw [ticked_deltaWaits]; exact hw)]
    unfold State.backGrant
    simp [rt, hd]
  have P : Polled s.ticked.comeBack s.slot := by
    refine slot_afterBack R.ok (.inl ?_) fun ch hc => ?_
    · rw [e, T.arb]
      exact R.pending
    · rw [e]
      rcases Ch.eq_or_other ch b.chan with rfl | rfl
      · exact survives_congr (T.role _) (survives_counted R.counted)
      · exact survives_congr (T.role _) (.inr (.inl (R.silent hc)))
  rw [P.arb, P.relay, e, rt, T.arb]
  exact ⟨rfl, rfl⟩

/-- The grant of a reinstatement (R511). -/
def Comeback.grant (b : Comeback) : Grant := ⟨b.chan, b.declared, .reinstatement, true, true, false, b.since⟩

/-- The state in which the grant of a reinstatement is decided: none is held any more and the return has ended. -/
theorem Returning.ends {b : Comeback} (R : Returning s b) (hb : b.starting = true) (hd : s.relay.hold = []) :
    ∃ v, s.ticked.comeBack = v.grant b.grant ∧ Books slotObjs { s with sbTime := s.sbTime + 1 } v ∧
      v.arb = { s.arb with back := none } ∧ ∀ ch, (v.role ch).unstale = (s.role ch).unstale := by
  have T := aside_ticked s
  refine ⟨{ s.ticked with arb := { s.ticked.arb with back := none } }, ?_, T.toBooks.trans (books_arb _ _ _), ?_, fun ch => ?_⟩
  · have rt : s.ticked.relay.hold = [] := by rw [ticked_relay R.holder, hd]
    rw [comeBack_some (by rw [T.arb]; exact R.back), hb, if_pos rfl, applyAllHeld_none rt]
    unfold State.backGrant
    rw [rt]
    rfl
  · show ({ s.ticked.arb with back := none } : Arbiter) = _
    rw [T.arb]
  · rw [role_withArb]
    exact T.role ch

/-- The last step of a reinstatement: the lease, or the wait for the other channel's fence (R495, R511). -/
theorem Returning.granted {b : Comeback} (R : Returning s b) (hb : b.starting = true) (hd : s.relay.hold = [])
    (hst : (s.role b.chan).st = .starting) (hg : s.mayGrant b.grant = true) :
    s.slot.arb = { s.arb with back := none }.lease b.chan (s.sbTime + 1) ∧ (s.slot.role b.chan).st = .active ∧
      Recorded b.grant (s.arb.nextEpoch b.chan) { s with sbTime := s.sbTime + 1 } s.slot := by
  obtain ⟨v, e, bv, av, rv⟩ := R.ends hb hd
  have hm : v.mayGrant b.grant = true := by
    rw [mayGrant_congr b.grant bv.unit (rv _) (by rw [av]) (by rw [av])]
    exact hg
  rw [grant_may (by rw [av]; exact R.ok) hm ((congrArg ChanRole.st (rv _) :).trans hst)] at e
  have L := leaseTo_leased v b.grant
  rw [← e] at L
  obtain ⟨bl, al, rl, dl, ol⟩ := L
  change s.ticked.comeBack.arb = v.arb.lease b.chan v.sbTime at al
  change Recorded b.grant (v.arb.nextEpoch b.chan) v _ at rl
  change (s.ticked.comeBack.role b.chan).unstale = ((v.role b.chan).leased _).unstale at dl
  change (s.ticked.comeBack.role b.chan.other).unstale = if v.waitsRole b.chan.other then _ else (v.role b.chan.other).unstale at ol
  have hv : (v.role b.chan).hbSeen = true ∨ (v.role b.chan).misses < 2 := counted_congr (rv _) R.counted
  have P : Polled s.ticked.comeBack s.slot := by
    refine slot_afterBack R.ok (.inl ?_) fun ch hc => ?_
    · rw [al]; rfl
    · rcases Ch.eq_or_other ch b.chan with rfl | rfl
      · exact survives_congr dl (survives_counted (r := (v.role b.chan).leased _) hv)
      · have hq : (v.role b.chan.other).beats = false := (beats_congr (rv _)).trans (R.silent hc)
        rw [waitsRole_of_silent hq] at ol
        exact survives_congr ol (.inr (.inl hq))
  refine ⟨?_, (P.st _).trans (congrArg ChanRole.st dl :), ?_⟩
  · rw [P.arb, al, av, bv.sbTime]
  · have h := (rl.after P.books (by decide)).before bv (by decide)
    rw [av] at h
    exact h

theorem Returning.fenced {b : Comeback} (R : Returning s b) (hb : b.starting = true) (hd : s.relay.hold = [])
    (hg : s.mayGrant b.grant = false) (hl : fenceWasLate (s.role b.chan.other) = false) :
    s.slot.arb = { s.arb with back := none, pending := some b.grant } ∧ (s.slot.role b.chan).st = (s.role b.chan).st := by
  obtain ⟨v, e, bv, av, rv⟩ := R.ends hb hd
  have hm : v.mayGrant b.grant = false := by
    rw [mayGrant_congr b.grant bv.unit (rv _) (by rw [av]) (by rw [av])]
    exact hg
  have hf : fenceWasLate (v.role b.chan.other) = false := (fenceWasLate_congr (rv _)).trans hl
  have e : s.ticked.comeBack = { v with arb := { s.arb with back := none, pending := some b.grant } } := by
    rw [e, grant_waits hm, av]
    show ({ v with arb := { s.arb with back := none, pending := some { b.grant with faulted := fenceWasLate (v.role b.chan.other) } } } : State) = _
    rw [hf]
    rfl
  have P : Polled s.ticked.comeBack s.slot := by
    refine slot_afterBack R.ok (.inr ⟨b.grant, by rw [e], rfl⟩) fun ch hc => ?_
    rw [e, role_withArb]
    rcases Ch.eq_or_other ch b.chan with rfl | rfl
    · exact survives_congr (rv _) (survives_counted R.counted)
    · exact survives_congr (rv _) (.inr (.inl (R.silent hc)))
  rw [P.arb, P.st, e, role_withArb]
  exact ⟨rfl, (congrArg ChanRole.st (rv _) :)⟩

end Sys2Proof.Machine
end

section
namespace Sys2Proof.Machine

/-- Settles O29: the declaration of the new holder by both ways on from its reset, and the slots of a reinstatement step by step. -/
theorem secondFailureAndReinstatement : Obligations.SecondFailureAndReinstatement := by
  refine ⟨fun s c w hok hp hpo hh hst hw hn hf hdr hu => ?_, fun s b hok hb hh hp hpr hc hq => ?_⟩
  · obtain ⟨v, V, back, hold⟩ := heartbeat_doubleFault hok hh hst hw hn hf hu
    have F := aside_finish s (s.heartbeat c)
    have run : exec (.heartbeatArrival c) s = .next (s.finish (s.heartbeat c)) := by
      show execHeartbeatArrival c s = _
      simp [execHeartbeatArrival, hp]
    refine ⟨fun h1 h2 h3 h4 => ⟨_, run, ?_⟩, fun h => ⟨_, run, ?_⟩⟩
    · have e := back (mayReturn_iff.2 (by rw [hf]; exact ⟨h1, h2, h3, h4⟩))
      rw [hf] at e
      obtain ⟨ra, rb, rf, ro⟩ := reinstate_openWindow v c.other c .unfit
      rw [← e] at ra rb rf ro
      rw [Ch.other_other] at ro
      rw [F.arb, F.st, F.st, ra, ro, rf]
      refine ⟨V.st, (congrArg ChanRole.fence (F.role c) :).trans (ro ▸ V.fence), ?_, rfl, ?_, ?_, V.holder, ?_, rfl, ?_⟩
      · exact (congrArg ChanRole.restartDue (F.role c) :).trans (ro ▸ V.restartDue)
      · exact (congrArg ChanRole.fence (F.role c.other) :).trans (congrArg ChanRole.fence rf :)
      · exact (congrArg ChanRole.deferred (F.role c.other) :).trans (congrArg ChanRole.deferred rf :)
      · rw [V.sbTime]
      · rw [F.mreg _ _ (by decide) (by decide) (by decide), rb.mreg _ _ (by decide) (by decide) (by decide)]
        exact V.flag
    · have e := hold (by rw [← Bool.not_eq_true]; intro hm; exact h (by rw [← hf]; exact mayReturn_iff.1 hm))
      have hpb : v.present .b = true := by
        rw [present_of_unit V.unit]
        cases c
        · exact hpo
        · exact hp
      have H := holdOf_enterHold hpb
      rw [← e] at H
      rw [F.arb, F.st]
      refine ⟨H.off c V.st, H.holder, H.back, H.window.trans (V.window.trans hw), H.hold, ?_, ?_⟩
      · rw [F.mreg _ _ (by decide) (by decide) (by decide), H.flag]
        exact bitOf_or_of_bitOf _ V.flag
      · rw [F.mreg _ _ (by decide) (by decide) (by decide), H.count, V.count]
  · have R : Returning s b := ⟨hok, hb, hh, hp, hc, hq⟩
    have F := aside_finish s s.slot
    have U := unrelayed_finish s s.slot
    refine ⟨fun h => ⟨_, rfl, ?_⟩, fun d rest h hd hw => ⟨_, rfl, ?_⟩, fun h hst hd hl =>
      ⟨fun hg => ⟨_, rfl, ?_⟩, fun hg => ⟨_, rfl, ?_⟩⟩⟩
    · obtain ⟨h1, h2, h3, h4, hm, h5, h6, h7⟩ := R.starts h
      have rel := U.relay (by rw [h1]; exact hh)
      rw [F.arb, F.st, rel]
      refine ⟨h1, h2, (congrArg ChanRole.stage (F.role _) :).trans h3, (congrArg ChanRole.fence (F.role _) :).trans h4, h5,
        fun hd => h7 fun d hm u => ?_, h6, ?_⟩
      · cases d with
        | obj | win => exact (hd _ hm).elim
        | slot | entry => rfl
      · rw [F.mreg _ _ (by decide) (by decide) (by decide), hm.mreg _ _ (by decide) (by decide) (by decide)]
        rfl
    · obtain ⟨h1, h2⟩ := R.waits h hd hw
      rw [F.arb, U.relay (by rw [h1]; exact hh), h1, h2]
      exact ⟨rfl, rfl⟩
    · obtain ⟨h1, h2, h3⟩ := R.granted h hd hst hg
      have h3 := h3.finish s
      rw [F.arb, F.st, h1, ← nextEpoch_eq]
      refine ⟨rfl, rfl, h2, rfl, rfl, rfl, h3.count, h3.back, ?_⟩
      obtain ⟨us, e⟩ := h3.record rfl
      rw [e, bits, Nat.shiftRight_eq_div_pow]
      show _ = 5 * 2 ^ 8 + b.declared.num
      have hn : b.declared.num < 2 := by cases b.declared <;> decide
      change ((_ + 5 * 2 ^ 16 + b.declared.num * 2 ^ 8 + _) / 2 ^ 8) % 2 ^ 24 = _
      omega
    · obtain ⟨h1, h2⟩ := R.fenced h hd hg hl
      rw [F.arb, F.st, h1, h2]
      exact ⟨rfl, hst⟩

end Sys2Proof.Machine
end

section
namespace Sys2Proof.Machine

/-! ## Fields of an object -/

theorem bitOf_eq_testBit (v i : Nat) : bitOf v i = v.testBit i := by simp [bitOf, Nat.testBit, Nat.one_and_eq_mod_two]

theorem testBit_bits (v hi lo i : Nat) : (bits v hi lo).testBit i = (decide (i < hi + 1 - lo) && v.testBit (lo + i)) := by
  rw [bits, Nat.testBit_mod_two_pow, Nat.testBit_shiftRight]

/-- A field replaced, by the parts above, in and below it. -/
theorem setBits_parts (v hi lo x : Nat) : setBits v hi lo x =
    2 ^ lo * (2 ^ (hi + 1 - lo) * (v / 2 ^ lo / 2 ^ (hi + 1 - lo)) + x % 2 ^ (hi + 1 - lo)) + v % 2 ^ lo := by
  rw [setBits, bits, Nat.shiftRight_eq_div_pow]
  have h1 := Nat.div_add_mod v (2 ^ lo)
  have h2 := Nat.div_add_mod (v / 2 ^ lo) (2 ^ (hi + 1 - lo))
  generalize 2 ^ (hi + 1 - lo) = m at *
  generalize 2 ^ lo = l at *
  generalize hq : v / l = q at *
  rw [Nat.mul_add, Nat.mul_comm (x % m) l, Nat.mul_comm (q % m) l]
  have h3 : l * (m * (q / m)) + l * (q % m) = l * q := by rw [← Nat.mul_add, h2]
  omega

/-- A field replaced: its bits are those of the new value, and all others stay. -/
theorem testBit_setBits (v x i : Nat) {hi lo : Nat} (h : lo ≤ hi) :
    (setBits v hi lo x).testBit i = if lo ≤ i ∧ i ≤ hi then x.testBit (i - lo) else v.testBit i := by
  rw [setBits_parts, Nat.testBit_two_pow_mul_add _ (Nat.mod_lt _ (by positivity)),
    Nat.testBit_two_pow_mul_add _ (Nat.mod_lt _ (by positivity)), Nat.testBit_mod_two_pow, Nat.testBit_mod_two_pow,
    Nat.testBit_div_two_pow, Nat.testBit_div_two_pow]
  rcases Nat.lt_or_ge i lo with h1 | h1
  · simp [h1, Nat.not_le.2 h1]
  · rcases Nat.lt_or_ge hi i with h2 | h2
    · rw [if_neg (by omega), if_neg (by omega), if_neg (by omega)]
      congr 1
      omega
    · rw [if_neg (by omega), if_pos (by omega), if_pos ⟨h1, h2⟩, decide_eq_true (by omega), Bool.true_and]

theorem bits_setBits_self (v x : Nat) {hi lo : Nat} (h : lo ≤ hi) : bits (setBits v hi lo x) hi lo = x % 2 ^ (hi + 1 - lo) := by
  refine Nat.eq_of_testBit_eq fun i => ?_
  rw [testBit_bits, testBit_setBits v x _ h, Nat.testBit_mod_two_pow]
  by_cases hi : i < hi + 1 - lo
  · rw [if_pos (by omega), Nat.add_sub_cancel_left]
  · simp [hi]

/-- A field apart from the one replaced. -/
theorem bits_setBits_ne (v x : Nat) {hi lo hi' lo' : Nat} (h : lo ≤ hi) (hn : hi < lo' ∨ hi' < lo) :
    bits (setBits v hi lo x) hi' lo' = bits v hi' lo' := by
  refine Nat.eq_of_testBit_eq fun i => ?_
  rw [testBit_bits, testBit_bits, testBit_setBits v x _ h]
  by_cases hi : i < hi' + 1 - lo'
  · rw [if_neg (by omega)]
  · simp [hi]

theorem bitOf_setBits_ne (v x : Nat) {hi lo i : Nat} (h : lo ≤ hi) (hn : hi < i ∨ i < lo) :
    bitOf (setBits v hi lo x) i = bitOf v i := by
  rw [bitOf_eq_testBit, bitOf_eq_testBit, testBit_setBits v x _ h, if_neg (by omega)]

@[simp] theorem bitOf_setBit_self (v i : Nat) (b : Bool) : bitOf (setBit v i b) i = b := by
  rw [bitOf_eq_testBit, setBit, testBit_setBits _ _ _ (Nat.le_refl i), if_pos ⟨Nat.le_refl i, Nat.le_refl i⟩, Nat.sub_self]
  cases b <;> rfl

theorem bitOf_setBit_ne (v : Nat) (b : Bool) {i j : Nat} (h : i ≠ j) : bitOf (setBit v i b) j = bitOf v j :=
  bitOf_setBits_ne v _ (Nat.le_refl i) (by omega)

theorem bits_setBit_ne (v : Nat) (b : Bool) {i hi lo : Nat} (h : i < lo ∨ hi < i) : bits (setBit v i b) hi lo = bits v hi lo :=
  bits_setBits_ne v _ (Nat.le_refl i) h

end Sys2Proof.Machine
end

section
namespace Sys2Proof.Machine
variable {s t u : State}

/-! ## The supply and the relay (R28, R549) -/

/-- The supply, the arbiter, the relay's condition and the state of every channel stay. -/
structure Supplied (s t : State) : Prop where
  power : t.power = s.power
  arb : t.arb = s.arb
  up : t.relay.up = s.relay.up
  st : ∀ ch, (t.role ch).st = (s.role ch).st

theorem Supplied.refl (s : State) : Supplied s s := ⟨rfl, rfl, rfl, fun _ => rfl⟩

theorem Supplied.trans (a : Supplied s t) (b : Supplied t u) : Supplied s u :=
  ⟨b.power.trans a.power, b.arb.trans a.arb, b.up.trans a.up, fun ch => (b.st ch).trans (a.st ch)⟩

theorem Supplied.ite {c : Prop} [Decidable c] (ht : Supplied s t) (hu : Supplied s u) : Supplied s (if c then t else u) := by
  split
  · exact ht
  · exact hu

theorem Supplied.foldl {α : Type} {f : State → α → State} (hf : ∀ s a, Supplied s (f s a)) (x : List α) (s : State) :
    Supplied s (x.foldl f s) := by
  induction x generalizing s with
  | nil => exact Supplied.refl s
  | cons a x ih => exact (hf s a).trans (ih (f s a))

theorem Beside.supplied (h : Beside s t) (k : Unrelayed s t) : Supplied s t :=
  ⟨h.power, h.arb, k.up, fun ch => (congrArg ChanRole.st (h.role ch) :)⟩

theorem supplied_onChan (s : State) (ch : Ch) (f : Ctx → Channel → Channel) : Supplied s (s.onChan ch f) :=
  (beside_onChan s ch f).supplied (unrelayed_onChan s ch f)

theorem supplied_eachChan (s : State) (f : Ctx → Channel → Channel) : Supplied s (s.eachChan f) :=
  (beside_eachChan s f).supplied (unrelayed_eachChan s f)

theorem supplied_logEvent (s : State) (a b d : Nat) : Supplied s (s.logEvent a b d) :=
  (beside_logEvent s a b d).supplied (unrelayed_logEvent s a b d)

theorem supplied_mflag (s : State) (i k m : Nat) : Supplied s (s.mflag i k m) := ⟨by simp, by simp, by simp, fun ch => by simp⟩

theorem supplied_minc (s : State) (i k : Nat) : Supplied s (s.minc i k) := ⟨rfl, rfl, rfl, fun ch => by simp⟩

theorem supplied_stale (s : State) (ch : Ch) : Supplied s (s.modRole ch fun r => { r with stale := true }) := by
  refine ⟨by simp, by simp, by simp, fun c => ?_⟩
  rcases Ch.eq_or_other c ch with rfl | rfl <;> simp

/-- The relay is down, and the rest of the module stays as the supply knows it (R502). -/
theorem relayLost_supplied (s : State) : Supplied { s with relay := ⟨false, [], s.relay.hold, none, 0⟩ } s.relayLost := by
  unfold State.relayLost
  extract_lets cut s1 s2
  have h2 : Supplied s1 s2 := by
    simp only [s2, cut]
    split
    · exact (supplied_onChan ..).ite (Supplied.refl s1)
    · exact Supplied.refl s1
  exact h2.trans (Supplied.foldl (fun s ch => (supplied_stale s ch).ite (Supplied.refl s)) _ _)

theorem supplied_startResync (s : State) (r : Ch) : Supplied s (s.startResync r) := by
  unfold State.startResync
  extract_lets s1 copies deltas
  have h1 : Supplied s s1 := (supplied_onChan ..).trans (supplied_minc ..)
  exact ⟨h1.power, h1.arb, h1.up, h1.st⟩

/-- The relay is up, and a resync may have begun (R502). -/
theorem autoResync_supplied (s : State) : Supplied { s with relay := { s.relay with up := true } } s.autoResync := by
  unfold State.autoResync
  extract_lets _ s1
  split
  · exact Supplied.refl s1
  · exact (Supplied.refl s1).ite (supplied_startResync ..)

/-- The arbiter is lost; a lost one stays so (R497). -/
theorem loseArbiter_supplied (s : State) : Supplied { s with arb := { s.arb with ok := false } } s.loseArbiter := by
  unfold State.loseArbiter
  split
  · rename_i h
    exact ⟨rfl, by simp [← show s.arb.ok = false by simpa using h], rfl, fun _ => rfl⟩
  · exact (supplied_mflag ..).trans (supplied_logEvent ..)

theorem loseController_supplied (s : State) : Supplied { s with power := { s.power with ctrlOk := false } } s.loseController :=
  (supplied_mflag ..).trans (supplied_eachChan ..)

/-- A trip of the service block's output (R549). -/
theorem tripSb_out (h : s.power.sbOut = true) : s.tripSb.power.sbOut = false ∧ s.tripSb.power.ctrlOk = false ∧
    s.tripSb.arb = { s.arb with ok := false } ∧ s.tripSb.relay.up = false ∧ ∀ ch, (s.tripSb.role ch).st = (s.role ch).st := by
  unfold State.tripSb
  rw [h, Bool.not_true, if_neg Bool.false_ne_true]
  extract_lets _ s1 s2
  have h1 : Supplied _ s1 := supplied_logEvent _ 0 5 0
  have h2 := loseArbiter_supplied s1
  have h3 : Supplied _ s2 := relayLost_supplied s1.loseArbiter
  have p2 : s2.power = { s.power with sbOut := false } := h3.power.trans (h2.power.trans h1.power)
  have a2 : s2.arb = { s.arb with ok := false } := by
    rw [h3.arb]
    exact h2.arb.trans (congrArg (fun a : Arbiter => { a with ok := false }) h1.arb)
  have r2 : ∀ ch, (s2.role ch).st = (s.role ch).st := fun ch => (h3.st ch).trans ((h2.st ch).trans (h1.st ch))
  split
  · have h4 := loseController_supplied s2
    refine ⟨?_, ?_, h4.arb.trans a2, h4.up.trans h3.up, fun ch => (h4.st ch).trans (r2 ch)⟩
    · rw [h4.power, p2]
    · rw [h4.power]
  · rename_i hc
    exact ⟨by rw [p2], by simpa using hc, a2, h3.up, r2⟩

/-- A retry of the service block's output that holds (R549). -/
theorem retrySb_out (h : s.power.sbOut = false) : (s.retrySb true).power.sbOut = true ∧ (s.retrySb true).power.ctrlOk = true ∧
    (s.retrySb true).relay.up = true ∧ (s.retrySb true).arb = s.arb := by
  unfold State.retrySb
  rw [h, Bool.not_true, Bool.or_false, if_neg Bool.false_ne_true]
  extract_lets _ s1
  obtain ⟨p, a, up, -⟩ := autoResync_supplied s1
  exact ⟨congrArg Power.sbOut p, congrArg Power.ctrlOk p, up, a⟩

/-- The end of a command leaves of the supply all but its contacts. -/
theorem finish_power (b s : State) : (State.finish b s).power.sbOut = s.power.sbOut ∧ (State.finish b s).power.ctrlOk = s.power.ctrlOk ∧
    (State.finish b s).power.powered = s.power.powered := by
  have h := (around_finish b s).power
  exact ⟨(congrArg Power.sbOut h :), (congrArg Power.ctrlOk h :), (congrArg Power.powered h :)⟩

/-! ## Core voltages without the controller (R28) -/

/-- An operation on every channel that does not look at the module. -/
theorem eachChan_chan (f : Channel → Channel) {ch : Ch} (h : s.present ch = true) :
    (s.eachChan fun _ c => f c).chan ch = (f (s.chan ch)).emptied := by
  unfold State.eachChan State.channels
  cases ch with
  | a =>
    have ha : ∀ u : State, (u.onChan .b fun _ c => f c).chan .a = u.chan .a := fun u => onChan_chan_other u .b _
    split
    · rw [List.foldl_cons, List.foldl_cons, List.foldl_nil, ha, onChan_chan]
    · rw [List.foldl_cons, List.foldl_nil, onChan_chan]
  | b =>
    have hb : ∀ u : State, (u.onChan .a fun _ c => f c).chan .b = u.chan .b := fun u => onChan_chan_other u .a _
    rw [if_pos h, List.foldl_cons, List.foldl_cons, List.foldl_nil, onChan_chan, hb]

theorem showSetPoint_core (c : Channel) : c.showSetPoint.core = c.core := rfl

/-- The controller lost and flagged, before the channels' set points freeze. -/
def State.uncontrolled (s : State) : State := ({ s with power := { s.power with ctrlOk := false } }).mflag 0x1200 6 1

/-- A set point that freezes at DAY voltage or above it (R28). -/
def Channel.frozen (c : Channel) : Channel :=
  ({ c with core := { c.core with setMv := max 750 c.core.setMv } }).showSetPoint

theorem loseController_eq (s : State) : s.loseController = s.uncontrolled.eachChan fun _ c => c.frozen := rfl

theorem loseController_core {ch : Ch} (h : s.present ch = true) : (s.loseController.chan ch).core =
    { (s.chan ch).core with setMv := max 750 (s.chan ch).core.setMv } := by
  have hc : s.uncontrolled.chan ch = s.chan ch := by unfold State.uncontrolled; rw [mflag_chan]; cases ch <;> rfl
  have hp : s.uncontrolled.present ch = true := (present_of_unit (by simp [State.uncontrolled]) ch).trans h
  rw [loseController_eq, eachChan_chan Channel.frozen hp, hc]
  rfl

/-- FAULT_HOLD is computed where 0x4000:11 is read (R28). -/
theorem view_setPoint (c : Channel) (cx : Ctx) : c.view cx 0x4000 0x11 = setBit (c.reg 0x4000 0x11) 12 (!cx.ctrlOk) := by
  unfold Channel.view
  rw [if_neg (by decide), if_pos (by decide)]

theorem loseController_view (s : State) : SameView s s.loseController := by
  have h1 : SameView s s.uncontrolled := by
    unfold State.uncontrolled
    refine ⟨by simp, by simp, by simp, by simp, by simp, ?_⟩
    exact mreg_mflag_ne _ (by decide) (by decide) (by decide)
  exact h1.trans (beside_eachChan _ _).sameView

theorem loseController_flag (s : State) : bitOf (s.loseController.mreg 0x1200 6) 0 = true := by
  rw [loseController_eq, (aside_eachChan [] _ _).mreg _ _ (by decide) (by decide) (by decide), State.uncontrolled, mreg_mflag_self]
  exact bitOf_or_two_pow _ 0

/-! ## The measurements (R557 to R559) -/

/-- What the measurements leave: the board, what modes and ports follow, and the channels. -/
structure Gauged (s t : State) : Prop where
  board : sameBoard s t
  view : SameView s t
  chan : ∀ ch, t.chan ch = s.chan ch

theorem Gauged.refl (s : State) : Gauged s s := ⟨(Beside.refl s).sameBoard, (Beside.refl s).sameView, fun _ => rfl⟩

theorem Gauged.trans (a : Gauged s t) (b : Gauged t u) : Gauged s u :=
  ⟨sameBoard_trans a.board b.board, a.view.trans b.view, fun ch => (b.chan ch).trans (a.chan ch)⟩

theorem Gauged.ite {c : Prop} [Decidable c] (ht : Gauged s t) (hu : Gauged s u) : Gauged s (if c then t else u) := by
  split
  · exact ht
  · exact hu

theorem gauged_mput {k : Nat} (hk : k < 256) (s : State) (v : Nat) : Gauged s (s.mput 0x1200 k v) :=
  ⟨⟨rfl, rfl, rfl, rfl, rfl, rfl, rfl, rfl, fun ch => by cases ch <;> rfl⟩, sameView_mput hk (by decide), fun ch => by cases ch <;> rfl⟩

theorem gauged_mflag (s : State) (m : Nat) : Gauged s (s.mflag 0x1200 6 m) :=
  ⟨⟨by simp, by simp, by simp, by simp, by simp, by simp, by simp, by simp, fun ch => by simp⟩,
    ⟨by simp, by simp, by simp, by simp, by simp, mreg_mflag_ne _ (by decide) (by decide) (by decide)⟩, mflag_chan s _ _ _⟩

/-- The measured values stored, before the alarms are judged. -/
def State.metered (s : State) (m : SupplyMeas) : State :=
  (((s.mput 0x1200 2 (m.inA % 2 ^ 64)).mput 0x1200 3 (m.inB % 2 ^ 64)).mput 0x1200 4
    ((m.chAW + m.chBW + m.sbW) % 2 ^ 16 * 2 ^ 48 + m.chAW % 2 ^ 16 * 2 ^ 32 + m.chBW % 2 ^ 16 * 2 ^ 16 + m.sbW % 2 ^ 16)).mput
      0x1200 5 (m.tempS % 2 ^ 16)

theorem measure_eq (s : State) (m : SupplyMeas) : s.measure m =
    if 800 ≤ signedOf 16 m.tempS then (s.metered m).judgePower.mflag 0x1200 6 (2 ^ 7) else (s.metered m).judgePower := rfl

theorem gauged_measure (s : State) (m : SupplyMeas) : Gauged s (s.measure m) := by
  have h1 : Gauged s (s.metered m) := (((gauged_mput (by decide) s _).trans (gauged_mput (by decide) _ _)).trans
    (gauged_mput (by decide) _ _)).trans (gauged_mput (by decide) _ _)
  have h2 : Gauged s (s.metered m).judgePower := h1.trans ((gauged_mflag _ _).ite (Gauged.refl _))
  rw [measure_eq]
  exact (h2.trans (gauged_mflag _ _)).ite h2

/-- The values that a measurement stores (R557). -/
theorem metered_mreg (s : State) (m : SupplyMeas) : (s.metered m).mreg 0x1200 2 = m.inA % 2 ^ 64 ∧
    (s.metered m).mreg 0x1200 3 = m.inB % 2 ^ 64 ∧ (s.metered m).mreg 0x1200 4 =
      (m.chAW + m.chBW + m.sbW) % 2 ^ 16 * 2 ^ 48 + m.chAW % 2 ^ 16 * 2 ^ 32 + m.chBW % 2 ^ 16 * 2 ^ 16 + m.sbW % 2 ^ 16 ∧
    (s.metered m).mreg 0x1200 5 = m.tempS % 2 ^ 16 ∧ (s.metered m).mreg 0x1200 7 = s.mreg 0x1200 7 := by
  have ne : ∀ (u : State) (i j v : Nat), i < 256 → j < 256 → j ≠ i → (u.mput 0x1200 i v).mreg 0x1200 j = u.mreg 0x1200 j :=
    fun u i j v hi hj h => mreg_mput_ne u hi hj fun e => h (congrArg Prod.snd e)
  unfold State.metered
  refine ⟨?_, ?_, ?_, mreg_mput_self .., ?_⟩
  · rw [ne _ 5 2 _ (by decide) (by decide) (by decide), ne _ 4 2 _ (by decide) (by decide) (by decide),
      ne _ 3 2 _ (by decide) (by decide) (by decide), mreg_mput_self]
  · rw [ne _ 5 3 _ (by decide) (by decide) (by decide), ne _ 4 3 _ (by decide) (by decide) (by decide), mreg_mput_self]
  · rw [ne _ 5 4 _ (by decide) (by decide) (by decide), mreg_mput_self]
  · rw [ne _ 5 7 _ (by decide) (by decide) (by decide), ne _ 4 7 _ (by decide) (by decide) (by decide),
      ne _ 3 7 _ (by decide) (by decide) (by decide), ne _ 2 7 _ (by decide) (by decide) (by decide)]

/-- The alarms leave the measured values. -/
theorem aside_alarms (s : State) (m : SupplyMeas) : Aside [(0x1200, 6)] (s.metered m) (s.measure m) := by
  have h1 : Aside [(0x1200, 6)] (s.metered m) (s.metered m).judgePower := (aside_mflag (by decide) _ _).ite (Aside.refl _ _)
  rw [measure_eq]
  exact (h1.trans (aside_mflag (by decide) _ _)).ite h1

/-- POWER_ALARM (R559). -/
theorem measure_powerAlarm (s : State) (m : SupplyMeas)
    (h : bits (s.mreg 0x1200 7) 15 0 < bits ((s.metered m).mreg 0x1200 4) 63 48) : bitOf ((s.measure m).mreg 0x1200 6) 6 = true := by
  obtain ⟨-, -, -, -, h7⟩ := metered_mreg s m
  have h1 : bitOf ((s.metered m).judgePower.mreg 0x1200 6) 6 = true := by
    unfold State.judgePower
    rw [h7, if_pos h, mreg_mflag_self]
    exact bitOf_or_two_pow _ 6
  rw [measure_eq]
  split
  · rw [mreg_mflag_self]
    exact bitOf_or_of_bitOf _ h1
  · exact h1

/-- TEMP_ALARM (R558). -/
theorem measure_tempAlarm (s : State) (m : SupplyMeas) (h : 800 ≤ signedOf 16 m.tempS) :
    bitOf ((s.measure m).mreg 0x1200 6) 7 = true := by
  rw [measure_eq, if_pos h, mreg_mflag_self]
  exact bitOf_or_two_pow _ 7

/-- The four halfwords of the power object. -/
theorem bits_halfwords {a b c d : Nat} (ha : a < 2 ^ 16) (hb : b < 2 ^ 16) (hc : c < 2 ^ 16) (hd : d < 2 ^ 16) :
    let v := a * 2 ^ 48 + b * 2 ^ 32 + c * 2 ^ 16 + d
    bits v 63 48 = a ∧ bits v 47 32 = b ∧ bits v 31 16 = c ∧ bits v 15 0 = d := by
  simp only [bits, Nat.shiftRight_eq_div_pow]
  omega

/-! ## The contacts and the end of the hold-up (R547, R674) -/

/-- What the conditions of the contacts are made of stays. -/
structure SameConds (s t : State) : Prop where
  modeCode : t.modeCode = s.modeCode
  bring : t.bring = s.bring
  arb : t.arb = s.arb
  power : t.power = s.power

theorem SameConds.refl (s : State) : SameConds s s := ⟨rfl, rfl, rfl, rfl⟩

theorem SameConds.trans (a : SameConds s t) (b : SameConds t u) : SameConds s u :=
  ⟨b.modeCode.trans a.modeCode, b.bring.trans a.bring, b.arb.trans a.arb, b.power.trans a.power⟩

theorem SameConds.ite {c : Prop} [Decidable c] (ht : SameConds s t) (hu : SameConds s u) : SameConds s (if c then t else u) := by
  split
  · exact ht
  · exact hu

theorem Beside.sameConds (h : Beside s t) : SameConds s t := ⟨h.sameView.modeCode, h.bring, h.arb, h.power⟩

theorem sameConds_mflag (s : State) (m : Nat) : SameConds s (s.mflag 0x1106 0 m) :=
  ⟨SameView.modeCode ⟨by simp, by simp, by simp, by simp, by simp, mreg_mflag_ne _ (by decide) (by decide) (by decide)⟩, by simp, by simp,
    by simp⟩

theorem SameConds.conds (h : SameConds s t) : t.faultCond = s.faultCond ∧ t.roleCond = s.roleCond := by
  obtain ⟨hm, hb, ha, hp⟩ := h
  unfold State.faultCond State.roleCond
  rw [hm, hb, ha, hp]
  exact ⟨rfl, rfl⟩

/-- A mode other than DUSK stands when DUSK ends below it. -/
theorem modeCode_noDusk (h : s.modeCode ≠ 3) (hd : s.mode.dusk = true) :
    State.modeCode { s with mode := { s.mode with dusk := false } } = s.modeCode := by
  change (if s.mode.dawn then 1 else if s.mode.night != .awake then 4 else if s.twilight then 5 else if s.mreg 0x1101 0 = 6 then 6
    else if false then 3 else 2) = s.modeCode
  unfold State.modeCode at h ⊢
  rw [hd] at h ⊢
  (repeat' split at h) <;> simp_all

theorem sameConds_endDusk (s : State) : SameConds s s.endDusk := by
  unfold State.endDusk
  split
  · rename_i h
    rw [Bool.and_eq_true, bne_iff_ne] at h
    have h1 : SameConds s { s with mode := { s.mode with dusk := false } } := ⟨modeCode_noDusk h.2 h.1, rfl, rfl, rfl⟩
    exact (h1.trans (sameConds_mflag _ _)).trans (beside_eachChan _ _).sameConds
  · exact SameConds.refl s

theorem sameConds_noteMode (s : State) : SameConds s s.noteMode := by
  unfold State.noteMode
  extract_lets new old _ s1 s2
  have h1 : SameConds s s1 := ⟨rfl, rfl, rfl, rfl⟩
  have h2 : SameConds s s2 := (h1.trans (beside_leaveNoon s1).sameConds).ite h1
  exact (SameConds.refl s).ite ((h2.trans (sameConds_mflag s2 _)).trans (beside_logEvent ..).sameConds)

/-- The contacts at the end of a command, outside DAWN, where no channel's view has changed (R674). -/
theorem finish_contacts {b : State} (hd : s.mode.dawn = false) (hv : ∀ ch, b.portView ch = s.portView ch) (hp : s.power.powered = true) :
    (State.finish b s).power.fault = s.power.fault.follow s.faultCond ∧ (State.finish b s).power.role = s.power.role.follow s.roleCond := by
  have hl : s.leaveDawn = s := by unfold State.leaveDawn; simp [hd]
  have W := (sameConds_endDusk s).trans (sameConds_noteMode s.endDusk)
  obtain ⟨w1, w2⟩ := W.conds
  unfold State.finish State.followContacts
  rw [hl, followRoles_same b s hv, W.power, hp, if_pos rfl, w1, w2]
  exact ⟨rfl, rfl⟩

/-- A contact whose hold ends shows its condition, or keeps it (R674). -/
theorem follow_released (c : ContactSt) (cond : Bool) :
    ContactSt.follow { c with held := false } cond = if c.on = cond then ⟨c.on, false⟩ else ⟨cond, true⟩ := by
  unfold ContactSt.follow
  simp

/-- The contacts are no part of the board. -/
theorem sameBoard_contacts (s : State) (p : Power) (h : { p with fault := s.power.fault, role := s.power.role } = s.power) :
    sameBoard s { s with power := p } :=
  ⟨rfl, rfl, rfl, rfl, rfl, rfl, rfl, h, fun ch => by cases ch <;> rfl⟩

/-- The module off: its contacts drop out. -/
theorem finish_dropOut {b : State} (hp : s.power.powered = false) :
    (State.finish b s).power.fault = ⟨false, false⟩ ∧ (State.finish b s).power.role = ⟨false, false⟩ := by
  have W := ((around_leaveDawn s).trans (beside_followRoles b _).around).trans ((around_endDusk _).trans (around_noteMode _))
  have hw : ((State.followRoles b s.leaveDawn).endDusk.noteMode).power.powered = false :=
    (congrArg Power.powered W.power :).trans hp
  unfold State.finish State.followContacts
  rw [hw, if_neg Bool.false_ne_true]
  exact ⟨rfl, rfl⟩

/-- The mode noted is the last one, and nothing else of the modes changes (R533). -/
theorem noteMode_mode (s : State) : s.noteMode.mode = { s.mode with last := s.modeCode } := by
  unfold State.noteMode
  extract_lets new old _ s1 s2
  have h2 : s2.mode = { s.mode with last := s.modeCode } := by
    simp only [s2]
    split
    · rw [(beside_leaveNoon s1).mode]
    · rfl
  split
  · rename_i h
    rw [show s.modeCode = s.mode.last from h]
  · simpa using h2

theorem followContacts_mode (s : State) : s.followContacts.mode = s.mode := by
  unfold State.followContacts
  split <;> rfl

/-- DAWN at the end of a command. -/
theorem finish_dawn (b s : State) : (State.finish b s).mode.dawn = s.leaveDawn.mode.dawn := by
  have dusk : ∀ u : State, u.endDusk.mode.dawn = u.mode.dawn := fun u => by
    unfold State.endDusk State.leaveDusk
    split
    · rw [(beside_eachChan _ _).mode]
      simp
    · rfl
  have note : ∀ u : State, u.noteMode.mode.dawn = u.mode.dawn := fun u => by rw [noteMode_mode]
  have e : (State.finish b s).mode = ((State.followRoles b s.leaveDawn).endDusk.noteMode).followContacts.mode := rfl
  rw [e, followContacts_mode, note, dusk, (beside_followRoles b s.leaveDawn).mode]

/-- A module that has lost its power (R547). -/
theorem losePower_off (hp : s.power.powered = true) (hf : s.fed = false) : s.losePower.power.powered = false ∧
    s.losePower.mode = State.reset.mode ∧ s.losePower.arb = State.reset.arb ∧ (∀ ch, s.losePower.role ch = State.reset.role ch) ∧
    s.losePower.flash = s.flash.afterReset s.staging ∧ s.losePower.host.keys = s.host.keys := by
  unfold State.losePower
  rw [hp, hf, Bool.not_true, Bool.or_self, if_neg Bool.false_ne_true]
  exact ⟨rfl, rfl, rfl, fun ch => by cases ch <;> rfl, rfl, rfl⟩

theorem afterReset_images (f : Flash) (k : Nat) : (f.afterReset k).imageA = f.imageA ∧ (f.afterReset k).imageB = f.imageB := by
  unfold Flash.afterReset
  split
  · split <;> exact ⟨rfl, rfl⟩
  · exact ⟨rfl, rfl⟩

/-! ## A trip in stage 3 (R549) -/

/-- A failed stage that is tried again at once (R561). -/
theorem chanStageFailed_again {ch : Ch} {cause : Nat} (hst : (s.role ch).st = .starting) (hn : (s.role ch).waitNight = false)
    (ha : (s.role ch).waitArb = false) (hf : stageFails (s.role ch).stage cause = true) (h5 : (s.role ch).stage ≠ 5)
    (hlt : (s.role ch).attempt < 4) : Books [] s (s.chanStageFailed ch cause) ∧ (s.chanStageFailed ch cause).role ch =
      { s.role ch with failStage := (s.role ch).stage, failCause := cause, attempt := (s.role ch).attempt + 1, outputOn := true } := by
  unfold State.chanStageFailed
  extract_lets r s1 s2 s3
  have h1 : Books [] s s1 := (aside_logEvent ..).toBooks
  have h3 : Books [] s s3 := (h1.trans (books_modRole ..)).trans (books_modRole ..)
  have hr : s3.role ch = { s.role ch with
      failStage := (s.role ch).stage, failCause := cause, attempt := (s.role ch).attempt + 1, outputOn := true } := by
    simp [s3, s2, s1]
  rw [if_neg (by simp [r, hst, hn, ha, hf]), if_pos hlt, if_neg h5]
  exact ⟨h3, hr⟩

/-- A channel whose output has tripped in stage 3, tried again (R549). -/
def State.stage3Tripped (s : State) (ch : Ch) : State :=
  (((s.setRole ch { s.role ch with outputOn := false }).mflag 0x1200 6 (2 ^ (4 + ch.num))).logEvent 0 5 (1 + ch.num)).chanStageFailed ch 1

theorem execOutputTrip_stage3 {ch : Ch} (hp : s.present ch = true) (hst : (s.role ch).st = .starting) (h3 : (s.role ch).stage = 3)
    (hon : (s.role ch).outputOn = true) : exec (.outputTrip (.chan ch)) s = .next (s.finish (s.stage3Tripped ch)) := by
  show (if !s.present ch then _ else Host.Outcome.next (s.finish (if (s.role ch).st == .starting && (s.role ch).stage == 3 &&
    (s.role ch).outputOn then s.stage3Tripped ch else s.tripChan ch))) = _
  rw [if_neg (by simp [hp]), if_pos (by simp [hst, h3, hon])]

/-- The role and the flag of a channel whose output trips in stage 3. -/
theorem stage3Tripped_again {ch : Ch} (hst : (s.role ch).st = .starting) (h3 : (s.role ch).stage = 3) (hon : (s.role ch).outputOn = true)
    (hn : (s.role ch).waitNight = false) (ha : (s.role ch).waitArb = false) (hlt : (s.role ch).attempt < 4) :
    (s.stage3Tripped ch).role ch = { s.role ch with attempt := (s.role ch).attempt + 1, failStage := 3, failCause := 1 } ∧
      bitOf ((s.stage3Tripped ch).mreg 0x1200 6) (4 + ch.num) = true := by
  let v := (s.setRole ch { s.role ch with outputOn := false }).mflag 0x1200 6 (2 ^ (4 + ch.num))
  let u := v.logEvent 0 5 (1 + ch.num)
  have hu : u.role ch = { s.role ch with outputOn := false } := by simp [u, v]
  have hb : bitOf (u.mreg 0x1200 6) (4 + ch.num) = true := by
    rw [(aside_logEvent [] v 0 5 (1 + ch.num)).mreg _ _ (by decide) (by decide) (by decide), mreg_mflag_self]
    exact bitOf_or_two_pow _ _
  obtain ⟨b, e⟩ := chanStageFailed_again (s := u) (ch := ch) (cause := 1) (by rw [hu]; exact hst) (by rw [hu]; exact hn)
    (by rw [hu]; exact ha) (by rw [hu, h3]; decide) (by rw [hu, h3]; decide) (by rw [hu]; exact hlt)
  change (s.stage3Tripped ch).role ch = _ at e
  refine ⟨?_, (congrArg (fun v => bitOf v (4 + ch.num)) (b.mreg 0x1200 6 (by decide) (by decide) (by decide))).trans hb⟩
  rw [e, hu, ← hon, h3]

end Sys2Proof.Machine
end

section
namespace Sys2Proof.Machine

/-- Settles O39: each command by what it makes of the supply, and what the end of a command leaves of it. -/
theorem supplyOutputs : Obligations.SupplyOutputs := by
  intro s
  have board : ∀ p : Power, { p with fault := s.power.fault, role := s.power.role } = s.power →
      sameBoard s (s.finish { s with power := p }) := fun p h => sameBoard_trans (sameBoard_contacts s p h) (around_finish s _).sameBoard
  refine ⟨fun h => ⟨_, rfl, ?_⟩, fun h => ⟨_, rfl, ?_⟩, fun h => ⟨_, rfl, ?_⟩, fun h => ⟨_, rfl, ?_⟩,
    fun ch hp hst h3 hon hn ha hlt => ?_, fun b h => ⟨_, rfl, ?_⟩, fun h => ⟨_, rfl, ?_⟩, fun m => ⟨_, rfl, ?_⟩,
    fun hp hd => ⟨⟨_, rfl, ?_⟩, ⟨_, rfl, ?_⟩⟩, fun hp hf => ⟨_, rfl, ?_⟩, fun h => ⟨_, rfl, ?_⟩⟩
  · -- the controller is lost
    rw [if_pos h]
    have F := aside_finish s s.loseController
    have L := loseController_supplied s
    have V := loseController_view s
    refine ⟨?_, ?_, ?_, fun ch hd hk hp => ?_⟩
    · rw [(finish_power s _).2.1, L.power]
    · exact F.arb.trans L.arb
    · rw [F.mreg _ _ (by decide) (by decide) (by decide)]
      exact loseController_flag s
    · rw [finish_chan s _ ch (by rw [V.mode]; exact hd) (by rw [V.mode, V.modeCode]; exact hk) fun c => (V.portView c).symm]
      refine ⟨loseController_core hp, ?_⟩
      rw [view_setPoint, bitOf_setBit_self]
      show (!(s.finish s.loseController).power.ctrlOk) = true
      rw [(finish_power s _).2.1, L.power]
      rfl
  · rw [h, if_neg Bool.false_ne_true]
    exact settles_finish s s
  · -- the service block's output trips
    have F := aside_finish s s.tripSb
    obtain ⟨h1, h2, h3, h4, h5⟩ := tripSb_out h
    refine ⟨?_, ?_, F.arb.trans h3, (unrelayed_finish s _).up.trans h4, fun ch => (F.st ch).trans (h5 ch)⟩
    · rw [(finish_power s _).1, h1]
    · rw [(finish_power s _).2.1, h2]
  · have e : s.tripSb = s := by unfold State.tripSb; simp [h]
    rw [e]
    exact settles_finish s s
  · obtain ⟨e, hb⟩ := stage3Tripped_again hst h3 hon hn ha hlt
    have F := aside_finish s (s.stage3Tripped ch)
    refine ⟨_, execOutputTrip_stage3 hp hst h3 hon, ?_, ?_⟩
    · rw [F.mreg _ _ (by decide) (by decide) (by decide)]
      exact hb
    · have hr := congrArg (fun r : ChanRole => { r with stale := (s.role ch).stale }) (F.role ch)
      rw [e] at hr
      exact hr
  · have e : s.retrySb b = s := by
      unfold State.retrySb
      rw [if_pos]
      rcases h with h | h <;> simp [h]
    rw [e]
    exact settles_finish s s
  · obtain ⟨h1, h2, h3, h4⟩ := retrySb_out h
    refine ⟨?_, ?_, (unrelayed_finish s _).up.trans h3, (aside_finish s _).arb.trans h4⟩
    · rw [(finish_power s _).1, h1]
    · rw [(finish_power s _).2.1, h2]
  · -- the measurements
    have G := gauged_measure s m
    have F := aside_finish s (s.measure m)
    have A := aside_alarms s m
    obtain ⟨v2, v3, v4, v5, v7⟩ := metered_mreg s m
    have stored : ∀ k, k < 256 → k ≠ 6 → (s.finish (s.measure m)).mreg 0x1200 k = (s.metered m).mreg 0x1200 k := fun k hk h6 =>
      (F.mreg 0x1200 k hk (by simp) (by simp)).trans (A.mreg 0x1200 k hk (by simp) (by simpa using h6))
    have flag : (s.finish (s.measure m)).mreg 0x1200 6 = (s.measure m).mreg 0x1200 6 := F.mreg _ _ (by decide) (by decide) (by decide)
    have small : ∀ x, x % 2 ^ 16 < 2 ^ 16 := fun x => Nat.mod_lt x (by decide)
    obtain ⟨b1, b2, b3, b4⟩ := bits_halfwords (small (m.chAW + m.chBW + m.sbW)) (small m.chAW) (small m.chBW) (small m.sbW)
    rw [stored 2 (by decide) (by decide), stored 3 (by decide) (by decide), stored 4 (by decide) (by decide),
      stored 5 (by decide) (by decide), flag, v4]
    refine ⟨sameBoard_trans G.board (around_finish s _).sameBoard, v2, v3, b1, b2, b3, b4, v5, fun h => ?_, measure_tempAlarm s m,
      fun ch hd hk => ?_⟩
    · exact measure_powerAlarm s m (by rw [v4, b1]; exact h)
    · rw [finish_chan s _ ch (by rw [G.view.mode]; exact hd) (by rw [G.view.mode, G.view.modeCode]; exact hk)
        fun c => (G.view.portView c).symm]
      exact G.chan ch
  · obtain ⟨e, -⟩ := finish_contacts (b := s) (s := { s with power := { s.power with fault := { s.power.fault with held := false } } }) hd
      (fun ch => by cases ch <;> rfl) hp
    exact ⟨board _ (by rfl), e.trans (follow_released _ _)⟩
  · obtain ⟨-, e⟩ := finish_contacts (b := s) (s := { s with power := { s.power with role := { s.power.role with held := false } } }) hd
      (fun ch => by cases ch <;> rfl) hp
    exact ⟨board _ (by rfl), e.trans (follow_released _ _)⟩
  · obtain ⟨h1, h2, h3, h4, h5, h6⟩ := losePower_off hp hf
    have F := around_finish s s.losePower
    obtain ⟨c1, c2⟩ := finish_dropOut (b := s) h1
    have awake : s.losePower.leaveDawn = s.losePower := by
      unfold State.leaveDawn
      rw [if_neg]
      rw [Bool.and_eq_true, List.any_eq_true]
      rintro ⟨-, ch, -, h⟩
      rw [h4] at h
      cases ch <;> exact absurd h (by decide)
    obtain ⟨i1, i2⟩ := afterReset_images s.flash s.staging
    refine ⟨?_, ?_, c1, c2, ?_, fun ch => ?_, ?_, ?_, ?_⟩
    · rw [(finish_power s _).2.2, h1]
    · rw [finish_dawn, awake, h2]
      rfl
    · rw [F.arb, h3]
      rfl
    · rw [(aside_finish s _).st, h4]
      cases ch <;> rfl
    · rw [F.flash, h5, i1]
    · rw [F.flash, h5, i2]
    · exact (congrArg HostPort.keys F.host :).trans h6
  · have e : s.losePower = s := by
      unfold State.losePower
      rw [if_pos]
      rcases h with h | h <;> simp [h]
    rw [e]
    exact settles_finish s s

end Sys2Proof.Machine
end

section
namespace Sys2Proof.Machine

/-! ## What the loop reads of a channel (R60 to R64) -/

/-- The buffer, the queues, the objects 0x4000 but the listed ones, and the core but its run of quiet windows and its pending exit from
DUSK stay. -/
structure Tracks (l : List Nat) (c d : Channel) : Prop where
  pools : d.pools = c.pools
  queues : d.queues = c.queues
  core : d.core = { c.core with exitPend := d.core.exitPend, quietRun := d.core.quietRun }
  reg : ∀ k, k < 256 → k ∉ l → d.reg 0x4000 k = c.reg 0x4000 k

variable {l m : List Nat} {c d e : Channel}

theorem Tracks.refl (l : List Nat) (c : Channel) : Tracks l c c := ⟨rfl, rfl, rfl, fun _ _ _ => rfl⟩

theorem Tracks.trans (a : Tracks l c d) (b : Tracks l d e) : Tracks l c e := by
  refine ⟨b.pools.trans a.pools, b.queues.trans a.queues, ?_, fun k hk hl => (b.reg k hk hl).trans (a.reg k hk hl)⟩
  rw [b.core, a.core]

theorem Tracks.mono (h : Tracks l c d) (hl : l ⊆ m) : Tracks m c d := ⟨h.pools, h.queues, h.core, fun k hk hm => h.reg k hk fun x => hm (hl x)⟩

theorem Tracks.ite {p : Prop} [Decidable p] (hd : Tracks l c d) (he : Tracks l c e) : Tracks l c (if p then d else e) := by
  split
  · exact hd
  · exact he

theorem tracks_emptied (c : Channel) : Tracks [] c c.emptied := ⟨rfl, rfl, rfl, fun _ _ _ => rfl⟩

theorem tracks_log (c : Channel) (a b : Nat) : Tracks [] c (c.log a b) := ⟨rfl, rfl, rfl, fun _ _ _ => rfl⟩

theorem tracks_put {k : Nat} (hk : k < 256) (c : Channel) (v : Nat) : Tracks [k] c (c.put 0x4000 k v) :=
  ⟨rfl, rfl, rfl, fun _ hj hl => reg_put_ne c hk hj fun x => hl (List.mem_singleton.2 (congrArg Prod.snd x))⟩

theorem tracks_flag {k : Nat} (hk : k < 256) (c : Channel) (m : Nat) : Tracks [k] c (c.flag 0x4000 k m) := by
  have h := tracks_put hk c (c.reg 0x4000 k ||| m)
  unfold Channel.flag
  dsimp only
  split
  · exact Tracks.refl _ c
  · exact ⟨h.pools, h.queues, h.core, h.reg⟩

/-- The junction's report writes 0x4000:1C, and the flag of R73. -/
theorem tracks_junction (c : Channel) (tj : Nat) : Tracks [0x1C, 0x21] c (c.junction tj) := by
  have h1 : Tracks [0x1C, 0x21] c (c.put 0x4000 0x1C (tj % 2 ^ 16)) := (tracks_put (by decide) c _).mono (by simp)
  have h2 := h1.trans ((tracks_flag (k := 0x21) (by decide) _ 2).mono (by simp))
  unfold Channel.junction
  exact ((h2.trans ((tracks_log _ _ _).mono (by simp))).ite h2).ite h1

theorem junction_reg (c : Channel) (tj : Nat) : (c.junction tj).reg 0x4000 0x1C = tj % 2 ^ 16 := by
  have flag : ∀ u : Channel, (u.flag 0x4000 0x21 2).reg 0x4000 0x1C = u.reg 0x4000 0x1C := fun u =>
    (tracks_flag (k := 0x21) (by decide) u 2).reg _ (by decide) (by decide)
  unfold Channel.junction
  dsimp only
  (repeat' split)
  · exact (flag _).trans (reg_put_self ..)
  · exact (flag _).trans (reg_put_self ..)
  · exact reg_put_self ..

/-! ## The set point's object (R75 to R77) -/

/-- The word of 0x4000:11 once a set point is shown. -/
theorem showSetPoint_reg (c : Channel) :
    let w := c.showSetPoint.reg 0x4000 0x11
    let v := c.core.setMv
    bits w 9 0 = v % 2 ^ 10 ∧ bits w 25 16 = bits (c.reg 0x4000 0x11) 25 16 ∧ bitOf w 14 = (v == 550) ∧ bitOf w 13 = (v == 850) ∧
      bitOf w 15 = decide (bits (c.reg 0x4000 0x11) 25 16 < v) := by
  have keep : ∀ (w x : Nat), bits (setBits w 9 0 x) 25 16 = bits w 25 16 := fun w x => bits_setBits_ne w x (by decide) (by decide)
  simp only [Channel.showSetPoint, reg_putBit_self, reg_putBits_self, keep]
  refine ⟨?_, ?_, ?_, bitOf_setBit_self .., ?_⟩
  · rw [bits_setBit_ne _ _ (by decide), bits_setBit_ne _ _ (by decide), bits_setBit_ne _ _ (by decide),
      bits_setBits_self _ _ (by decide)]
  · rw [bits_setBit_ne _ _ (by decide), bits_setBit_ne _ _ (by decide), bits_setBit_ne _ _ (by decide), keep]
  · rw [bitOf_setBit_ne _ _ (by decide), bitOf_setBit_self]
  · rw [bitOf_setBit_ne _ _ (by decide), bitOf_setBit_ne _ _ (by decide), bitOf_setBit_self]

theorem tracks_showSetPoint (c : Channel) : Tracks [0x11] c c.showSetPoint := by
  have put := fun (d : Channel) (v : Nat) => tracks_put (k := 0x11) (by decide) d v
  unfold Channel.showSetPoint
  exact (((put c _).trans (put _ _)).trans (put _ _)).trans (put _ _)

/-! ## The observations of a window (R75, R76) -/

/-- The objects that the observations of a window write. -/
def observed : List Nat := [0x13, 0x14, 0x15, 0x16, 0x17, 0x18, 0x19, 0x1A, 0x12, 0x1B, 0x11]

/-- What a window's observations show. -/
structure Observed (c : Channel) (ps : List Nat) (meas : Nat) (d : Channel) : Prop where
  tracks : Tracks observed c d
  load : d.reg 0x4000 0x1B = c.core.load.2 / 800 % 2 ^ 16 * 2 ^ 16 + c.core.load.1 / 5600 % 2 ^ 16
  longest : d.reg 0x4000 0x12 = if 0xFFFF ∈ ps then 0xFFFF else ps.foldl max 0 % 2 ^ 16
  measured : bits (d.reg 0x4000 0x11) 25 16 = meas % 2 ^ 10

theorem observe_observed (c : Channel) (ps : List Nat) (meas : Nat) : Observed c ps meas (c.observe ps meas) := by
  have groups : ∀ (l : List Nat) (u : Channel), (∀ g ∈ l, g < 8) →
      Tracks observed u (l.foldl (fun c g => c.put 0x4000 (0x13 + g) (ps.getD g 0xFFFF % 2 ^ 16)) u) := by
    intro l
    induction l with
    | nil => exact fun u _ => Tracks.refl _ u
    | cons g l ih =>
      intro u hl
      have hg : g < 8 := hl g List.mem_cons_self
      refine ((tracks_put (k := 0x13 + g) (by omega) u _).mono fun k hk => ?_).trans (ih _ fun x hx => hl x (List.mem_cons_of_mem g hx))
      rw [List.mem_singleton.1 hk]
      simp only [observed, List.mem_cons]
      omega
  unfold Channel.observe
  extract_lets pm cl c1 c2 c3
  have h1 : Tracks observed c c1 := groups (upFrom 0 8) c (by decide)
  have h2 : Tracks observed c c2 := h1.trans ((tracks_put (by decide) c1 _).mono (by decide))
  have h3 : Tracks observed c c3 := h2.trans ((tracks_put (by decide) c2 _).mono (by decide))
  have h4 : Tracks [0x11] c3 (c3.putBits 0x4000 0x11 25 16 meas) := tracks_put (by decide) c3 _
  refine ⟨h3.trans (h4.mono (by decide)), ?_, ?_, ?_⟩
  · rw [h4.reg _ (by decide) (by decide), reg_put_self]
  · rw [h4.reg _ (by decide) (by decide)]
    refine (reg_put_ne c2 (by decide) (by decide) (by decide)).trans ((reg_put_self ..).trans ?_)
    simp
  · rw [reg_putBits_self, bits_setBits_self _ _ (by decide)]

end Sys2Proof.Machine
end

section
namespace Sys2Proof.Machine
variable {c d e : Channel} {ps : List Nat} {meas tj : Nat}

/-! ## The end of a window (R60, R64, R74) -/

/-- What an ended window has written, whatever the set point becomes. -/
structure Windowed (c : Channel) (ps : List Nat) (meas tj : Nat) (d : Channel) : Prop where
  heard : d.core.heard = List.replicate 8 0
  unmarked : d.core.markDue = false
  mark : d.reg 0x4000 0x1E = if c.core.markDue then c.poolUse15 else c.reg 0x4000 0x1E
  load : d.reg 0x4000 0x1B = c.core.load.2 / 800 % 2 ^ 16 * 2 ^ 16 + c.core.load.1 / 5600 % 2 ^ 16
  longest : d.reg 0x4000 0x12 = if 0xFFFF ∈ ps then 0xFFFF else ps.foldl max 0 % 2 ^ 16
  measured : bits (d.reg 0x4000 0x11) 25 16 = meas % 2 ^ 10
  junction : d.reg 0x4000 0x1C = tj

/-- What leaves the window's objects and the next window as they are. -/
theorem Windowed.after (h : Windowed c ps meas tj d) (hh : e.core.heard = d.core.heard) (hm : e.core.markDue = d.core.markDue)
    (hr : ∀ k, k < 256 → k ∉ [0x21, 0x1D, 0x11] → e.reg 0x4000 k = d.reg 0x4000 k)
    (hw : bits (e.reg 0x4000 0x11) 25 16 = bits (d.reg 0x4000 0x11) 25 16) : Windowed c ps meas tj e := by
  obtain ⟨h1, h2, h3, h4, h5, h6, h7⟩ := h
  exact ⟨hh.trans h1, hm.trans h2, (hr _ (by decide) (by decide)).trans h3, (hr _ (by decide) (by decide)).trans h4,
    (hr _ (by decide) (by decide)).trans h5, hw.trans h6, (hr _ (by decide) (by decide)).trans h7⟩

theorem Windowed.tracks (h : Windowed c ps meas tj d) (k : Tracks [0x21, 0x1D] d e) : Windowed c ps meas tj e :=
  h.after (by rw [k.core]) (by rw [k.core]) (fun j hj hl => k.reg j hj fun x => hl (by simp at x ⊢; omega)) (by rw [k.reg _ (by decide) (by decide)])

/-- The monitors write their flag and their own fields of the core. -/
structure Monitored (c : Channel) (ps : List Nat) (d : Channel) : Prop where
  pools : d.pools = c.pools
  reg : ∀ k, k < 256 → k ≠ 0x21 → d.reg 0x4000 k = c.reg 0x4000 k
  core : d.core = { c.core with monFault := d.core.monFault, validRun := d.core.validRun }
  bad : (∃ q ∈ ps, q < 400 ∨ 4000 < q) → d.core.monFault = true
  good : (∀ q ∈ ps, 400 ≤ q ∧ q ≤ 4000) → c.core.monFault = false → d.core.monFault = false

theorem flag_core (c : Channel) (i k m : Nat) : (c.flag i k m).core = c.core := by
  unfold Channel.flag
  dsimp only
  split <;> rfl

theorem any_monitorBad : ps.any monitorBad = true ↔ ∃ q ∈ ps, q < 400 ∨ 4000 < q := by
  simp [monitorBad]

theorem monitors_monitored (c : Channel) (ps : List Nat) : Monitored c ps (c.monitors ps) := by
  unfold Channel.monitors
  by_cases hb : ps.any monitorBad = true
  · rw [if_pos hb]
    have h := tracks_flag (k := 0x21) (by decide) c 1
    refine ⟨h.pools, fun k hk hn => h.reg k hk (by simpa using hn), ?_, fun _ => rfl, fun hg => ?_⟩
    · show ({ (c.flag 0x4000 0x21 1).core with monFault := true, validRun := 0 } : CoreSt) = _
      rw [flag_core]
    · obtain ⟨q, hq, h⟩ := any_monitorBad.1 hb
      have := hg q hq
      omega
  · rw [if_neg hb]
    have no : ¬ ∃ q ∈ ps, q < 400 ∨ 4000 < q := fun h => hb (any_monitorBad.2 h)
    split
    · exact ⟨rfl, fun _ _ _ => rfl, rfl, fun h => absurd h no, fun _ h => h⟩
    · exact ⟨rfl, fun _ _ _ => rfl, rfl, fun h => absurd h no, fun _ h => by simp [h]⟩

/-- The channel of an update once its window has ended. -/
def Channel.windowEnded (c : Channel) (ps : List Nat) (meas : Nat) : Channel := ((c.observe ps meas).monitors ps).nextWindow

theorem nextWindow_reg (c : Channel) : (c.nextWindow).reg 0x4000 0x1E = (if c.core.markDue then c.poolUse15 else c.reg 0x4000 0x1E) ∧
    ∀ k, k < 256 → k ≠ 0x1E → c.nextWindow.reg 0x4000 k = c.reg 0x4000 k := by
  unfold Channel.nextWindow
  split
  · exact ⟨reg_put_self .., fun k hk hn => reg_put_ne c (by decide) hk fun x => hn (congrArg Prod.snd x)⟩
  · exact ⟨rfl, fun _ _ _ => rfl⟩

theorem nextWindow_core (c : Channel) : c.nextWindow.core = { c.core with heard := List.replicate 8 0, markDue := false } ∧
    c.nextWindow.pools = c.pools := by
  unfold Channel.nextWindow
  split <;> exact ⟨rfl, rfl⟩

/-- The core of a channel whose window has ended. -/
structure Ended (c : Channel) (ps : List Nat) (d : Channel) : Prop where
  pools : d.pools = c.pools
  track : d.reg 0x4000 0x10 = c.reg 0x4000 0x10
  setMv : d.core.setMv = c.core.setMv
  exitPend : d.core.exitPend = c.core.exitPend
  drain : d.core.drain = c.core.drain
  bad : (∃ q ∈ ps, q < 400 ∨ 4000 < q) → d.core.monFault = true
  good : (∀ q ∈ ps, 400 ≤ q ∧ q ≤ 4000) → c.core.monFault = false → d.core.monFault = false

theorem observe_core (c : Channel) (ps : List Nat) (meas : Nat) : (c.observe ps meas).core = c.core := by
  have groups : ∀ (l : List Nat) (u : Channel),
      (l.foldl (fun c g => c.put 0x4000 (0x13 + g) (ps.getD g 0xFFFF % 2 ^ 16)) u).core = u.core := by
    intro l
    induction l with
    | nil => exact fun _ => rfl
    | cons g l ih => exact fun u => ih _
  exact groups (upFrom 0 8) c

theorem windowEnded_spec (c : Channel) (ps : List Nat) (meas : Nat) :
    Windowed c ps meas (c.reg 0x4000 0x1C) (c.windowEnded ps meas) ∧ Ended c ps (c.windowEnded ps meas) := by
  have O := observe_observed c ps meas
  have M := monitors_monitored (c.observe ps meas) ps
  obtain ⟨r1, r2⟩ := nextWindow_reg ((c.observe ps meas).monitors ps)
  obtain ⟨k, kp⟩ := nextWindow_core ((c.observe ps meas).monitors ps)
  have hc : (c.observe ps meas).core = c.core := observe_core c ps meas
  have same : ∀ k, k < 256 → k ≠ 0x1E → k ≠ 0x21 → (c.windowEnded ps meas).reg 0x4000 k = (c.observe ps meas).reg 0x4000 k :=
    fun k hk h1 h2 => (r2 k hk h1).trans (M.reg k hk h2)
  have hk : (c.windowEnded ps meas).core = { c.core with
      heard := List.replicate 8 0, markDue := false, monFault := ((c.observe ps meas).monitors ps).core.monFault,
      validRun := ((c.observe ps meas).monitors ps).core.validRun } := by
    show ((c.observe ps meas).monitors ps).nextWindow.core = _
    rw [k, M.core, hc]
  refine ⟨⟨by rw [hk], by rw [hk], ?_, ?_, ?_, ?_, ?_⟩, ⟨?_, ?_, by rw [hk], by rw [hk], by rw [hk], ?_, ?_⟩⟩
  · have hp : ((c.observe ps meas).monitors ps).poolUse15 = c.poolUse15 := by
      unfold Channel.poolUse15 Channel.pool
      rw [M.pools, O.tracks.pools]
    have hm : ((c.observe ps meas).monitors ps).core.markDue = c.core.markDue := by rw [M.core, hc]
    refine r1.trans ?_
    rw [hp, hm, M.reg _ (by decide) (by decide), O.tracks.reg _ (by decide) (by decide)]
  · rw [same _ (by decide) (by decide) (by decide), O.load]
  · rw [same _ (by decide) (by decide) (by decide), O.longest]
  · rw [same _ (by decide) (by decide) (by decide), O.measured]
  · rw [same _ (by decide) (by decide) (by decide), O.tracks.reg _ (by decide) (by decide)]
  · exact kp.trans (M.pools.trans O.tracks.pools)
  · rw [same _ (by decide) (by decide) (by decide), O.tracks.reg _ (by decide) (by decide)]
  · rw [hk]
    exact M.bad
  · rw [hk]
    exact fun h1 h2 => M.good h1 (by rw [hc]; exact h2)

/-! ## The set point (R63, R75 to R79) -/

/-- The word of 0x4000:11 shows the set point. -/
structure Shown (c : Channel) : Prop where
  voltage : bits (c.reg 0x4000 0x11) 9 0 = c.core.setMv % 2 ^ 10
  low : bitOf (c.reg 0x4000 0x11) 14 = (c.core.setMv == 550)
  high : bitOf (c.reg 0x4000 0x11) 13 = (c.core.setMv == 850)
  ramping : bitOf (c.reg 0x4000 0x11) 15 = decide (bits (c.reg 0x4000 0x11) 25 16 < c.core.setMv)

theorem shown_showSetPoint (c : Channel) : Shown c.showSetPoint := by
  obtain ⟨h1, h2, h3, h4, h5⟩ := showSetPoint_reg c
  exact ⟨h1, h3, h4, by rw [h2]; exact h5⟩

theorem Shown.of (h : Shown c) (hr : d.reg 0x4000 0x11 = c.reg 0x4000 0x11) (hv : d.core.setMv = c.core.setMv) : Shown d := by
  obtain ⟨h1, h2, h3, h4⟩ := h
  constructor <;> rw [hr, hv]
  · exact h1
  · exact h2
  · exact h3
  · exact h4

theorem Shown.tracks (h : Shown c) (k : Tracks [] c d) : Shown d := h.of (k.reg _ (by decide) (by simp)) (by rw [k.core])

/-- A set point taken: it is shown, and an exit from DUSK is no longer pending. -/
def Channel.setTo (c : Channel) (v : Nat) : Channel := ({ c with core := { c.core with setMv := v, exitPend := false } }).showSetPoint

/-- The reserve trigger after an update (R63). -/
def Channel.drains (c : Channel) : Bool := if 4096 < c.poolUse15 then true else if c.poolUse15 < 1024 then false else c.core.drain

/-- The track mode of 0x4000:10. -/
def Channel.trackMode (c : Channel) : Nat := bits (c.reg 0x4000 0x10) 5 4

/-- The set point of an update outside NIGHT, with the monitor fault after it (R63, R536). -/
def Channel.aim (c : Channel) (cx : Ctx) (ps : List Nat) (fault : Bool) : Nat :=
  let t := min 850 (max 550 (loopTarget c.trackMode (fault || c.drains) (cx.mode == 3) c.core.exitPend (ps.foldl max 0) c.core.offered
    c.core.setMv))
  if cx.st == .standby && cx.mode != 3 then max 750 t else t

theorem Ended.drains (h : Ended c ps d) : d.drains = c.drains := by
  have hp : d.poolUse15 = c.poolUse15 := by unfold Channel.poolUse15 Channel.pool; rw [h.pools]
  simp only [Channel.drains, hp, h.drain]

/-- An update: its window has ended, and a set point is taken. -/
theorem update_sets (c : Channel) (cx : Ctx) (ps : List Nat) (meas : Nat) (ok : Bool) :
    ∃ e, Windowed c ps meas (c.reg 0x4000 0x1C) e ∧ c.update cx ps meas ok =
      e.setTo (if cx.night == .asleep then 550 else c.aim cx ps (c.windowEnded ps meas).core.monFault) := by
  obtain ⟨W, E⟩ := windowEnded_spec c ps meas
  unfold Channel.update
  extract_lets load c1 used drain c2 track quiet _ c3 _ v p t0 t1 t2 ramp c4 _
  have hd : drain = c.drains := E.drains
  have k2 : c2.core = c1.core := by
    simp only [c2]
    split
    · exact flag_core ..
    · rfl
  have h2 : Tracks [0x21, 0x1D] c1 c2 := ((tracks_flag (k := 0x21) (by decide) c1 4).mono (by simp)).ite (Tracks.refl _ c1)
  have w3 : Windowed c ps meas (c.reg 0x4000 0x1C) c3 := (W.tracks h2).after rfl rfl (fun _ _ _ => rfl) rfl
  have w4 : Windowed c ps meas (c.reg 0x4000 0x1C) c4 := by
    simp only [c4]
    split
    · exact w3.tracks ((tracks_put (k := 0x1D) (by decide) c3 _).mono (by simp))
    · exact w3
  split
  · exact ⟨c3, w3, rfl⟩
  · refine ⟨c4, w4, ?_⟩
    have ht : track = c.trackMode := congrArg (fun w => bits w 5 4) ((h2.reg _ (by decide) (by decide)).trans E.track)
    have h3 : c3.core = { c1.core with drain := drain, quietRun := c3.core.quietRun } :=
      congrArg (fun k : CoreSt => { k with drain := drain, quietRun := c3.core.quietRun }) k2
    have hv : v = c.core.setMv := by
      show c3.core.setMv = _
      rw [h3]
      exact E.setMv
    have hx : c3.core.exitPend = c.core.exitPend := by
      rw [h3]
      exact E.exitPend
    have hf : c3.core.monFault = (c.windowEnded ps meas).core.monFault := by
      rw [h3]
      rfl
    have e : t2 = c.aim cx ps (c.windowEnded ps meas).core.monFault := by
      simp only [t2, t1, t0, ht, hf, hd, hx, hv]
      rfl
    rw [← e]
    rfl

end Sys2Proof.Machine
end

section
namespace Sys2Proof.Machine
variable {c d e : Channel} {ps : List Nat} {meas tj : Nat} {s t u : State}

/-! ## The set points of an update, case by case (R63) -/

/-- A channel as the loop reads it, seen through what the junction's report and the end of DUSK change. -/
theorem Tracks.poolUse15 {l : List Nat} (h : Tracks l c d) : d.poolUse15 = c.poolUse15 := by
  unfold Channel.poolUse15 Channel.pool
  rw [h.pools]

theorem Tracks.drains {l : List Nat} (h : Tracks l c d) : d.drains = c.drains := by
  have hd : d.core.drain = c.core.drain := by rw [h.core]
  simp only [Channel.drains, h.poolUse15, hd]

theorem Tracks.trackMode (h : Tracks [0x1C, 0x21] c d) : d.trackMode = c.trackMode :=
  congrArg (fun w => bits w 5 4) (h.reg 0x10 (by decide) (by decide))

theorem Tracks.aim (h : Tracks [0x1C, 0x21] c d) (hx : d.core.exitPend = c.core.exitPend) (cx : Ctx) (f : Bool) :
    d.aim cx ps f = c.aim cx ps f := by
  have h1 : d.core.offered = c.core.offered := by rw [h.core]; rfl
  have h2 : d.core.setMv = c.core.setMv := by rw [h.core]
  simp only [Channel.aim, h.drains, h.trackMode, hx, h1, h2]

theorem Windowed.of_tracks (h : Windowed d ps meas tj e) (k : Tracks [0x1C, 0x21] c d) : Windowed c ps meas tj e := by
  obtain ⟨h1, h2, h3, h4, h5, h6, h7⟩ := h
  have hm : d.core.markDue = c.core.markDue := by rw [k.core]
  have hl : d.core.load = c.core.load := by rw [k.core]; rfl
  exact ⟨h1, h2, by rw [h3, hm, k.poolUse15, k.reg _ (by decide) (by decide)], by rw [h4, hl], h5, h6, h7⟩

theorem Windowed.of_emptied (h : Windowed c ps meas tj d) : Windowed c ps meas tj d.emptied := h.tracks ((tracks_emptied d).mono (by simp))

/-- The largest set point: on the fixed track mode, a monitor fault or the reserve trigger (R63, R64). -/
theorem aim_full (cx : Ctx) {f : Bool} (h : f = true ∨ c.drains = true ∨ c.trackMode = 2) : c.aim cx ps f = 850 := by
  have hl : loopTarget c.trackMode (f || c.drains) (cx.mode == 3) c.core.exitPend (ps.foldl max 0) c.core.offered c.core.setMv = 850 := by
    unfold loopTarget
    rw [if_pos]
    rcases h with h | h | h <;> simp [h]
  unfold Channel.aim
  simp only [hl]
  split <;> decide

/-- A standby outside DUSK stays at DAY voltage at least (R536). -/
def Ctx.floor (cx : Ctx) (v : Nat) : Nat := if cx.st = .standby ∧ cx.mode ≠ 3 then max 750 v else v

theorem aim_eq (cx : Ctx) (f : Bool) : c.aim cx ps f = cx.floor (min 850 (max 550
    (loopTarget c.trackMode (f || c.drains) (cx.mode == 3) c.core.exitPend (ps.foldl max 0) c.core.offered c.core.setMv))) := by
  unfold Channel.aim Ctx.floor
  simp

theorem floor_dusk {cx : Ctx} (h : cx.mode = 3) (v : Nat) : cx.floor v = v := by simp [Ctx.floor, h]

theorem floor_day (cx : Ctx) : cx.floor 750 = 750 := by
  unfold Ctx.floor
  split <;> rfl

/-- The tracking rule of R63 on the product `x` of load and period. -/
def loopStep (x v : Nat) : Nat :=
  if 604800000000 < x ∧ v < 750 then 750
  else if 560000000000 < x then v + 5 * ((x - 560000000000 + 8399999999) / 8400000000)
  else if x < 543200000000 then v - 5 else v

theorem loopTarget_day (full : Bool) (hf : full = false) (dusk exit : Bool) (p load v : Nat) : loopTarget 1 full dusk exit p load v = 750 := by
  simp [loopTarget, hf]

theorem loopTarget_dusk (p load v : Nat) : loopTarget 0 false true false p load v = 550 := by simp [loopTarget]

theorem loopTarget_tracks (p load v : Nat) : loopTarget 0 false false false p load v = loopStep (108 * load * p) v := by
  simp [loopTarget, loopStep]

theorem loopTarget_exits (dusk : Bool) (p load v : Nat) :
    loopTarget 0 false dusk true p load v = max (loopStep (108 * load * p) v) 750 := by
  simp [loopTarget, loopStep]

/-! ## An update of the module (R63, R73) -/

/-- The module when an update of channel `ch`'s loop begins: the junction reported, and DUSK ended by a trigger (R535). -/
def State.primed (s : State) (ch : Ch) (tj : Nat) : State :=
  let s1 := s.onChan ch fun _ c => c.junction tj
  if s1.mode.dusk && s1.duskTrigger ch then s1.leaveDusk else s1

/-- The module when an update of channel `ch`'s loop has been made. -/
def State.setPointUpdated (s : State) (ch : Ch) (ps : List Nat) (meas tj : Nat) : State :=
  (s.onChan ch fun _ c => c.junction tj).updateLoop ch ps meas

theorem execSetPointUpdate_eq {ch : Ch} (rs silent : List Nat) (meas tj : Nat) (hp : s.present ch = true) :
    exec (.setPointUpdate ch rs silent meas tj) s = .next (s.finish (s.setPointUpdated ch (monitorReadings rs silent) meas tj)) := by
  show (if !s.present ch then _ else Host.Outcome.next (s.finish (s.setPointUpdated ch (monitorReadings rs silent) meas tj))) = _
  rw [if_neg (by simp [hp])]

/-- The channel's part of an update without the controller (R28, R75). -/
def Channel.heldUpdate (c : Channel) (ps : List Nat) (meas : Nat) : Channel :=
  { (c.observe ps meas).showSetPoint with core := { c.core with heard := List.replicate 8 0, quietRun := 0 } }

theorem setPointUpdated_lost {ch : Ch} (h : s.power.ctrlOk = false) : s.setPointUpdated ch ps meas tj =
    (s.onChan ch fun _ c => c.junction tj).onChan ch fun _ c => c.heldUpdate ps meas := by
  have hc : (s.onChan ch fun _ c => c.junction tj).power.ctrlOk = false := by rw [(beside_onChan ..).power]; exact h
  unfold State.setPointUpdated State.updateLoop
  rw [hc, Bool.not_false, if_pos rfl]
  rfl

theorem setPointUpdated_runs {ch : Ch} (h : s.power.ctrlOk = true) : ∃ ok, s.setPointUpdated ch ps meas tj =
    (s.primed ch tj).onChan ch fun cx c => c.update cx ps meas ok := by
  have hc : (s.onChan ch fun _ c => c.junction tj).power.ctrlOk = true := by rw [(beside_onChan ..).power]; exact h
  unfold State.setPointUpdated State.updateLoop
  rw [hc, Bool.not_true, if_neg Bool.false_ne_true]
  exact ⟨_, rfl⟩

theorem around_leaveDusk (s : State) : Around s s.leaveDusk :=
  ((around_mode s _).trans (around_mflag _ _)).trans (beside_eachChan _ _).around

theorem leaveDusk_mode (s : State) : s.leaveDusk.mode = { s.mode with dusk := false } := by
  unfold State.leaveDusk
  rw [(beside_eachChan _ _).mode]
  simp

/-- A channel that leaves DUSK (R535). -/
def Channel.undusked (c : Channel) : Channel := { c with core := { c.core with exitPend := true, quietRun := 0 } }

theorem leaveDusk_tracks {ch : Ch} (hp : s.present ch = true) : Tracks [] (s.chan ch) (s.leaveDusk.chan ch) := by
  have hc : (State.mflag { s with mode := { s.mode with dusk := false } } 0x1106 0 4).chan ch = s.chan ch := by
    rw [mflag_chan]
    cases ch <;> rfl
  have e : s.leaveDusk.chan ch = (s.chan ch).undusked.emptied := by
    rw [← hc]
    exact eachChan_chan Channel.undusked ((present_of_unit (by simp) ch).trans hp)
  rw [e]
  exact ⟨rfl, rfl, rfl, fun _ _ _ => rfl⟩

/-- What ports follow is no matter of DUSK. -/
theorem Around.portView (h : Around s t) (hn : t.mode.night = s.mode.night) (ch : Ch) : t.portView ch = s.portView ch := by
  have hr := h.role ch
  have h1 : (t.role ch).st = (s.role ch).st := (congrArg ChanRole.st hr :)
  have h2 : (t.role ch).silent = (s.role ch).silent := (congrArg ChanRole.silent hr :)
  have h3 : (t.role ch).fence = (s.role ch).fence := (congrArg ChanRole.fence hr :)
  simp only [State.portView, State.ctx, State.forwards, h1, h2, h3, h.arb, hn]

/-- The state in which an update begins. -/
theorem primed_around (s : State) (ch : Ch) (tj : Nat) : Around s (s.primed ch tj) := by
  have h1 : Around s (s.onChan ch fun _ c => c.junction tj) := (beside_onChan ..).around
  unfold State.primed
  dsimp only
  split
  · exact h1.trans (around_leaveDusk _)
  · exact h1

theorem primed_tracks {ch : Ch} (tj : Nat) (hp : s.present ch = true) : Tracks [0x1C, 0x21] (s.chan ch) ((s.primed ch tj).chan ch) ∧
    ((s.primed ch tj).chan ch).reg 0x4000 0x1C = tj % 2 ^ 16 := by
  have B : Beside s (s.onChan ch fun _ c => c.junction tj) := beside_onChan ..
  have e : (s.onChan ch fun _ c => c.junction tj).chan ch = ((s.chan ch).junction tj).emptied := onChan_chan s ch fun _ c => c.junction tj
  have h1 : Tracks [0x1C, 0x21] (s.chan ch) ((s.onChan ch fun _ c => c.junction tj).chan ch) := by
    rw [e]
    exact (tracks_junction _ tj).trans ((tracks_emptied _).mono (by simp))
  have hr : ((s.onChan ch fun _ c => c.junction tj).chan ch).reg 0x4000 0x1C = tj % 2 ^ 16 := by
    rw [e]
    exact junction_reg _ tj
  unfold State.primed
  dsimp only
  split
  · have h2 := leaveDusk_tracks ((present_of_unit B.unit ch).trans hp)
    exact ⟨h1.trans (h2.mono (by simp)), (h2.reg _ (by decide) (by simp)).trans hr⟩
  · exact ⟨h1, hr⟩

end Sys2Proof.Machine
end

section
namespace Sys2Proof.Machine
variable {c d e : Channel} {ps : List Nat} {meas tj : Nat} {s t u : State} {ch : Ch}

/-! ## The triggers of DUSK's end (R535) -/

theorem SameView.twilight (h : SameView s t) : t.twilight = s.twilight := by
  have ha : t.roleA.st = s.roleA.st := h.st .a
  have hb : t.roleB.st = s.roleB.st := h.st .b
  unfold State.twilight State.present
  rw [h.unit, ha, hb]

/-- What the triggers read of the other channel does not change with one channel's report. -/
theorem duskAllowed_congr (h : Beside s t) (hc : ∀ o, bits ((t.chan o).reg 0x4000 0x10) 5 4 = bits ((s.chan o).reg 0x4000 0x10) 5 4) :
    t.duskAllowed = s.duskAllowed := by
  have h1 : t.mreg 0x1104 0 = s.mreg 0x1104 0 := h.mreg _ (by decide)
  have h2 : t.mreg 0x1101 0 = s.mreg 0x1101 0 := h.mreg _ (by decide)
  have h3 : t.channels = s.channels := by unfold State.channels; rw [present_of_unit h.unit]
  simp only [State.duskAllowed, h1, h2, h3, h.sameView.twilight, hc]

theorem rampTrigger_congr {cx cy : Ctx} (hq : d.queues = c.queues) (hr : cy.rampQueue = cx.rampQueue) :
    d.rampTrigger cy = c.rampTrigger cx := by
  unfold Channel.rampTrigger
  rw [hq, hr]

/-- The report of the junction triggers nothing. -/
theorem duskTrigger_junction (s : State) (ch : Ch) (tj : Nat) : (s.onChan ch fun _ c => c.junction tj).duskTrigger ch = s.duskTrigger ch := by
  have B : Beside s (s.onChan ch fun _ c => c.junction tj) := beside_onChan ..
  have T : Tracks [0x1C, 0x21] (s.chan ch) ((s.onChan ch fun _ c => c.junction tj).chan ch) := by
    rw [onChan_chan]
    exact (tracks_junction _ tj).trans ((tracks_emptied _).mono (by simp))
  have allowed : (s.onChan ch fun _ c => c.junction tj).duskAllowed = s.duskAllowed := duskAllowed_congr B fun o => by
    rcases Ch.eq_or_other o ch with rfl | rfl
    · exact T.trackMode
    · rw [onChan_chan_other]
  have fwd : (s.onChan ch fun _ c => c.junction tj).forwards ch = s.forwards ch := by
    unfold State.forwards
    rw [B.sameView.st, B.sameView.silent]
  have load : ((s.onChan ch fun _ c => c.junction tj).chan ch).core.offered = (s.chan ch).core.offered := by rw [T.core]; rfl
  have ramp := rampTrigger_congr (cx := s.ctx ch) (cy := (s.onChan ch fun _ c => c.junction tj).ctx ch) T.queues
    (congrArg (fun w => bits w 47 40) (B.mreg 0x110400 (by decide)))
  unfold State.duskTrigger
  simp only [allowed, fwd, load, ramp, T.poolUse15]

/-- Without a trigger the update begins with the modes as they were. -/
theorem primed_quiet (hq : s.mode.dusk = false ∨ s.duskTrigger ch = false) : s.primed ch tj = s.onChan ch fun _ c => c.junction tj := by
  unfold State.primed
  dsimp only
  rw [duskTrigger_junction, (beside_onChan ..).mode, if_neg]
  rcases hq with h | h <;> simp [h]

theorem primed_trigger (hd : s.mode.dusk = true) (ht : s.duskTrigger ch = true) :
    s.primed ch tj = (s.onChan ch fun _ c => c.junction tj).leaveDusk := by
  unfold State.primed
  dsimp only
  rw [duskTrigger_junction, (beside_onChan ..).mode, hd, ht]
  rfl

/-- An update begins with the modes as they were, but that DUSK may have ended. -/
theorem primed_mode (s : State) (ch : Ch) (tj : Nat) : (s.primed ch tj).mode = s.mode ∨ (s.primed ch tj).mode = { s.mode with dusk := false } := by
  have B : Beside s (s.onChan ch fun _ c => c.junction tj) := beside_onChan ..
  unfold State.primed
  dsimp only
  split
  · exact .inr (by rw [leaveDusk_mode, B.mode])
  · exact .inl B.mode

/-! ## The end of an update -/

/-- The end of a command of the module outside DAWN may end DUSK; of the channels the loop reads nothing else changes. -/
theorem finish_tracks {b : State} (hp : s.present ch = true) (hd : s.mode.dawn = false) (hv : ∀ o, b.portView o = s.portView o) :
    Tracks [] (s.chan ch) ((State.finish b s).chan ch) := by
  have hl : s.leaveDawn = s := by unfold State.leaveDawn; simp [hd]
  unfold State.finish
  rw [State.orderLog_chan, followContacts_chan, noteMode_chan, hl, followRoles_same b s hv]
  unfold State.endDusk
  split
  · exact leaveDusk_tracks hp
  · exact Tracks.refl _ _

/-- The flags of 0x1106 that a mode change sets are added to those that stand. -/
theorem noteMode_flags (s : State) : ∃ m, s.noteMode.mreg 0x1106 0 = s.mreg 0x1106 0 ||| m := by
  unfold State.noteMode
  extract_lets new old _ s1 s2
  have h2 : s2.mreg 0x1106 0 = s.mreg 0x1106 0 := by
    simp only [s2]
    split
    · exact (beside_leaveNoon s1).mreg _ (by decide)
    · rfl
  split
  · exact ⟨0, (Nat.or_zero _).symm⟩
  · refine ⟨1, ?_⟩
    rw [(aside_logEvent [] _ _ _ _).mreg _ _ (by decide) (by decide) (by decide), mreg_mflag_self, h2]

/-- A command that ends DUSK leaves it ended, with its flag (R535). -/
theorem finish_ended {b : State} (hd : s.mode.dawn = false) (hk : s.mode.dusk = false) (hv : ∀ o, b.portView o = s.portView o)
    (hf : bitOf (s.mreg 0x1106 0) 2 = true) : (State.finish b s).mode.dusk = false ∧ bitOf ((State.finish b s).mreg 0x1106 0) 2 = true := by
  have hl : s.leaveDawn = s := by unfold State.leaveDawn; simp [hd]
  have he : s.endDusk = s := by unfold State.endDusk; simp [hk]
  have hm : (State.finish b s).mode = s.noteMode.followContacts.mode := by
    show (State.followRoles b s.leaveDawn).endDusk.noteMode.followContacts.mode = _
    rw [hl, followRoles_same b s hv, he]
  have hr : (State.finish b s).mreg 0x1106 0 = s.noteMode.mreg 0x1106 0 := by
    have hc : ∀ u : State, u.followContacts.mreg 0x1106 0 = u.mreg 0x1106 0 := fun u => by unfold State.followContacts; split <;> rfl
    show (State.followRoles b s.leaveDawn).endDusk.noteMode.followContacts.mreg 0x1106 0 = _
    rw [hl, followRoles_same b s hv, he, hc]
  obtain ⟨m, e⟩ := noteMode_flags s
  rw [hm, followContacts_mode, noteMode_mode, hr, e]
  exact ⟨hk, bitOf_or_of_bitOf m hf⟩

/-- What an update leaves of a channel whose set point it takes. -/
structure Updated (c : Channel) (ps : List Nat) (meas tj v : Nat) (d : Channel) : Prop where
  windowed : Windowed c ps meas tj d
  shown : Shown d
  setMv : d.core.setMv = v
  exitPend : d.core.exitPend = false

theorem Windowed.setTo (h : Windowed c ps meas tj d) (v : Nat) : Updated c ps meas tj v (d.setTo v) := by
  have h1 := h.after (e := { d with core := { d.core with setMv := v, exitPend := false } }) rfl rfl (fun _ _ _ => rfl) rfl
  obtain ⟨-, keep, -⟩ := showSetPoint_reg { d with core := { d.core with setMv := v, exitPend := false } }
  exact ⟨h1.after rfl rfl (fun k hk hl => (tracks_showSetPoint _).reg k hk fun x => hl (by simp at x; simp [x])) keep,
    shown_showSetPoint _, rfl, rfl⟩

/-- An update with the controller at work. -/
theorem update_chan (hp : s.present ch = true) (hok : s.power.ctrlOk = true) :
    ∃ f, ((∃ q ∈ ps, q < 400 ∨ 4000 < q) → f = true) ∧
      ((∀ q ∈ ps, 400 ≤ q ∧ q ≤ 4000) → (s.chan ch).core.monFault = false → f = false) ∧
      Updated (s.chan ch) ps meas (tj % 2 ^ 16) (if s.mode.night == .asleep then 550 else
        ((s.primed ch tj).chan ch).aim ((s.primed ch tj).ctx ch) ps f) ((s.setPointUpdated ch ps meas tj).chan ch) := by
  obtain ⟨ok, e⟩ := setPointUpdated_runs (ps := ps) (meas := meas) (tj := tj) (ch := ch) hok
  obtain ⟨T, hr⟩ := primed_tracks tj hp
  obtain ⟨-, E⟩ := windowEnded_spec ((s.primed ch tj).chan ch) ps meas
  obtain ⟨d, W, eu⟩ := update_sets ((s.primed ch tj).chan ch) ((s.primed ch tj).ctx ch) ps meas ok
  have hm : ((s.primed ch tj).chan ch).core.monFault = (s.chan ch).core.monFault := by rw [T.core]
  have hn : ((s.primed ch tj).ctx ch).night = s.mode.night := by
    show (s.primed ch tj).mode.night = _
    rcases primed_mode s ch tj with h | h <;> rw [h]
  refine ⟨_, E.bad, fun h1 h2 => E.good h1 (hm.trans h2), ?_⟩
  rw [e, onChan_chan, eu, hn]
  rw [hr] at W
  obtain ⟨w1, w2, w3, w4⟩ := (W.of_tracks T).setTo (if s.mode.night == .asleep then 550 else
    ((s.primed ch tj).chan ch).aim ((s.primed ch tj).ctx ch) ps (((s.primed ch tj).chan ch).windowEnded ps meas).core.monFault)
  exact ⟨w1.of_emptied, w2.tracks (tracks_emptied _), w3, w4⟩

theorem junction_core (c : Channel) (tj : Nat) : (c.junction tj).core = c.core := by
  unfold Channel.junction
  dsimp only
  (repeat' split)
  · exact flag_core ..
  · exact flag_core ..
  · rfl

theorem reg_withCore (c : Channel) (k : CoreSt) (i j : Nat) : ({ c with core := k } : Channel).reg i j = c.reg i j := rfl

/-- What an update without the controller leaves of a channel. -/
structure Held (c : Channel) (ps : List Nat) (meas tj : Nat) (d : Channel) : Prop where
  core : d.core = { c.core with heard := List.replicate 8 0, quietRun := 0 }
  load : d.reg 0x4000 0x1B = c.core.load.2 / 800 % 2 ^ 16 * 2 ^ 16 + c.core.load.1 / 5600 % 2 ^ 16
  longest : d.reg 0x4000 0x12 = if 0xFFFF ∈ ps then 0xFFFF else ps.foldl max 0 % 2 ^ 16
  measured : bits (d.reg 0x4000 0x11) 25 16 = meas % 2 ^ 10
  junction : d.reg 0x4000 0x1C = tj
  shown : Shown d

theorem heldUpdate_held (c : Channel) (ps : List Nat) (meas : Nat) : Held c ps meas (c.reg 0x4000 0x1C) (c.heldUpdate ps meas) := by
  have O := observe_observed c ps meas
  have T := tracks_showSetPoint (c.observe ps meas)
  obtain ⟨-, keep, -⟩ := showSetPoint_reg (c.observe ps meas)
  have S := shown_showSetPoint (c.observe ps meas)
  have hk : (c.heldUpdate ps meas).core = { c.core with heard := List.replicate 8 0, quietRun := 0 } := rfl
  have same : ∀ k, (c.heldUpdate ps meas).reg 0x4000 k = (c.observe ps meas).showSetPoint.reg 0x4000 k := fun k =>
    reg_withCore _ _ 0x4000 k
  have hv : (c.heldUpdate ps meas).core.setMv = (c.observe ps meas).showSetPoint.core.setMv := by
    rw [hk, showSetPoint_core, observe_core]
  generalize c.heldUpdate ps meas = d at hk same hv
  refine ⟨hk, ?_, ?_, ?_, ?_, S.of (same _) hv⟩
  · rw [same, T.reg _ (by decide) (by decide), O.load]
  · rw [same, T.reg _ (by decide) (by decide), O.longest]
  · rw [same, keep, O.measured]
  · rw [same, T.reg _ (by decide) (by decide), O.tracks.reg _ (by decide) (by decide)]

theorem Held.of_emptied (h : Held c ps meas tj d) : Held c ps meas tj d.emptied := by
  obtain ⟨h1, h2, h3, h4, h5, h6⟩ := h
  exact ⟨h1, h2, h3, h4, h5, h6.of rfl rfl⟩

theorem Held.of_core (h : Held d ps meas tj e) (k : d.core = c.core) : Held c ps meas tj e := by
  obtain ⟨h1, h2, h3, h4, h5, h6⟩ := h
  rw [k] at h1 h2
  exact ⟨h1, h2, h3, h4, h5, h6⟩

/-- An update without the controller (R28, R75). -/
theorem held_chan (hok : s.power.ctrlOk = false) : Held (s.chan ch) ps meas (tj % 2 ^ 16) ((s.setPointUpdated ch ps meas tj).chan ch) ∧
    (s.setPointUpdated ch ps meas tj).chan ch.other = s.chan ch.other := by
  have H := heldUpdate_held (((s.chan ch).junction tj).emptied) ps meas
  have hr : (((s.chan ch).junction tj).emptied).reg 0x4000 0x1C = tj % 2 ^ 16 := junction_reg _ tj
  rw [setPointUpdated_lost hok, onChan_chan, onChan_chan, onChan_chan_other, onChan_chan_other, ← hr]
  exact ⟨(H.of_core (junction_core _ tj)).of_emptied, rfl⟩

/-- What an update leaves of the module. -/
theorem update_around (s : State) (ch : Ch) (ps : List Nat) (meas tj : Nat) : Around s (s.setPointUpdated ch ps meas tj) := by
  cases hok : s.power.ctrlOk with
  | true =>
    obtain ⟨ok, e⟩ := setPointUpdated_runs (ps := ps) (meas := meas) (tj := tj) (ch := ch) hok
    rw [e]
    exact (primed_around s ch tj).trans (beside_onChan ..).around
  | false =>
    rw [setPointUpdated_lost hok]
    exact ((beside_onChan ..).trans (beside_onChan ..)).around

/-- An update leaves the modes, but that DUSK may have ended by a trigger. -/
theorem update_mode (s : State) (ch : Ch) (ps : List Nat) (meas tj : Nat) :
    ((s.setPointUpdated ch ps meas tj).mode = s.mode ∧ (s.setPointUpdated ch ps meas tj).modeCode = s.modeCode) ∨
      (s.setPointUpdated ch ps meas tj).mode = { s.mode with dusk := false } := by
  have B : Beside s (s.onChan ch fun _ c => c.junction tj) := beside_onChan ..
  cases hok : s.power.ctrlOk with
  | true =>
    obtain ⟨ok, e⟩ := setPointUpdated_runs (ps := ps) (meas := meas) (tj := tj) (ch := ch) hok
    have B2 : Beside (s.primed ch tj) ((s.primed ch tj).onChan ch fun cx c => c.update cx ps meas ok) := beside_onChan ..
    rw [e, B2.mode, B2.sameView.modeCode]
    cases hd : s.mode.dusk with
    | false =>
      rw [primed_quiet (.inl hd), B.mode, B.sameView.modeCode]
      exact .inl ⟨rfl, rfl⟩
    | true =>
      cases ht : s.duskTrigger ch with
      | false =>
        rw [primed_quiet (.inr ht), B.mode, B.sameView.modeCode]
        exact .inl ⟨rfl, rfl⟩
      | true =>
        rw [primed_trigger hd ht, leaveDusk_mode, B.mode]
        exact .inr rfl
  | false =>
    have B2 := B.trans (beside_onChan _ ch fun _ c => c.heldUpdate ps meas)
    rw [setPointUpdated_lost hok]
    exact .inl ⟨B2.mode, B2.sameView.modeCode⟩

/-- An update at the end of its command, where DUSK was not about to end: the channel as the update left it. -/
theorem setPointUpdated_chan (hd : s.mode.dawn = false) (hk : (s.mode.dusk && s.modeCode != 3) = false) (o : Ch) :
    (s.finish (s.setPointUpdated ch ps meas tj)).chan o = (s.setPointUpdated ch ps meas tj).chan o := by
  have A := update_around s ch ps meas tj
  rcases update_mode s ch ps meas tj with ⟨h1, h2⟩ | h
  · exact finish_chan s _ o (by rw [h1]; exact hd) (by rw [h1, h2]; exact hk) fun c => (A.portView (by rw [h1]) c).symm
  · exact finish_chan s _ o (by rw [h]; exact hd) (by rw [h]; rfl) fun c => (A.portView (by rw [h]) c).symm

/-- An update leaves DAWN and what ports follow. -/
theorem setPointUpdated_views (hd : s.mode.dawn = false) (ch : Ch) (ps : List Nat) (meas tj : Nat) :
    (s.setPointUpdated ch ps meas tj).mode.dawn = false ∧ ∀ o, s.portView o = (s.setPointUpdated ch ps meas tj).portView o := by
  have A := update_around s ch ps meas tj
  rcases update_mode s ch ps meas tj with ⟨h, -⟩ | h
  · exact ⟨by rw [h]; exact hd, fun c => (A.portView (by rw [h]) c).symm⟩
  · exact ⟨by rw [h]; exact hd, fun c => (A.portView (by rw [h]) c).symm⟩

/-- An update at the end of its command, whatever becomes of DUSK. -/
theorem setPointUpdated_tracks (hp : s.present ch = true) (hd : s.mode.dawn = false) :
    Tracks [] ((s.setPointUpdated ch ps meas tj).chan ch) ((s.finish (s.setPointUpdated ch ps meas tj)).chan ch) := by
  obtain ⟨h1, h2⟩ := setPointUpdated_views hd ch ps meas tj
  exact finish_tracks ((present_of_unit (update_around s ch ps meas tj).unit ch).trans hp) h1 h2

/-- What an update shows in 0x4000:11 and 0x4000:1C, with the controller or without (R73, R75 to R77). -/
theorem setPointUpdated_shows (hp : s.present ch = true) (hd : s.mode.dawn = false) :
    let d := (s.finish (s.setPointUpdated ch ps meas tj)).chan ch
    Shown d ∧ bits (d.reg 0x4000 0x11) 25 16 = meas % 2 ^ 10 ∧ d.reg 0x4000 0x1C = tj % 2 ^ 16 := by
  have T := setPointUpdated_tracks (ps := ps) (meas := meas) (tj := tj) hp hd
  have h : Shown ((s.setPointUpdated ch ps meas tj).chan ch) ∧
      bits (((s.setPointUpdated ch ps meas tj).chan ch).reg 0x4000 0x11) 25 16 = meas % 2 ^ 10 ∧
      ((s.setPointUpdated ch ps meas tj).chan ch).reg 0x4000 0x1C = tj % 2 ^ 16 := by
    cases hok : s.power.ctrlOk with
    | true =>
      obtain ⟨f, -, -, U⟩ := update_chan (ps := ps) (meas := meas) (tj := tj) hp hok
      exact ⟨U.shown, U.windowed.measured, U.windowed.junction⟩
    | false =>
      obtain ⟨H, -⟩ := held_chan (ch := ch) (ps := ps) (meas := meas) (tj := tj) hok
      exact ⟨H.shown, H.measured, H.junction⟩
  obtain ⟨h1, h2, h3⟩ := h
  refine ⟨h1.tracks T, ?_, ?_⟩
  · rw [T.reg _ (by decide) (by simp), h2]
  · rw [T.reg _ (by decide) (by simp), h3]

/-- DUSK ended by a trigger in the update (R535). -/
theorem setPointUpdated_trigger (hok : s.power.ctrlOk = true) (hd : s.mode.dusk = true) (ht : s.duskTrigger ch = true) :
    (s.setPointUpdated ch ps meas tj).mode.dusk = false ∧ bitOf ((s.setPointUpdated ch ps meas tj).mreg 0x1106 0) 2 = true := by
  obtain ⟨ok, e⟩ := setPointUpdated_runs (ps := ps) (meas := meas) (tj := tj) (ch := ch) hok
  have B2 : Beside (s.primed ch tj) ((s.primed ch tj).onChan ch fun cx c => c.update cx ps meas ok) := beside_onChan ..
  rw [e, B2.mode, (B2.aside []).mreg _ _ (by decide) (by decide) (by decide), primed_trigger hd ht, leaveDusk_mode, State.leaveDusk]
  dsimp only
  rw [(aside_eachChan [] _ _).mreg _ _ (by decide) (by decide) (by decide), mreg_mflag_self]
  exact ⟨rfl, bitOf_or_two_pow _ 2⟩

/-- The set point of an update without a trigger, outside NIGHT, without a fault and below the reserve trigger (R63, R536). -/
theorem aim_quiet (hp : s.present ch = true) (hq : s.mode.dusk = false ∨ s.duskTrigger ch = false) (hr : (s.chan ch).drains = false) :
    ((s.primed ch tj).chan ch).aim ((s.primed ch tj).ctx ch) ps false = (s.ctx ch).floor (min 850 (max 550
      (loopTarget (s.chan ch).trackMode false (s.modeCode == 3) (s.chan ch).core.exitPend (ps.foldl max 0) (s.chan ch).core.offered
        (s.chan ch).core.setMv))) := by
  have B : Beside s (s.onChan ch fun _ c => c.junction tj) := beside_onChan ..
  obtain ⟨T, -⟩ := primed_tracks (s := s) (ch := ch) tj hp
  have hx : ((s.primed ch tj).chan ch).core.exitPend = (s.chan ch).core.exitPend := by
    rw [primed_quiet hq, onChan_chan]
    exact congrArg CoreSt.exitPend (junction_core _ tj)
  have hm : ((s.primed ch tj).ctx ch).mode = s.modeCode := by
    rw [primed_quiet hq]
    exact B.sameView.modeCode
  have hs : ((s.primed ch tj).ctx ch).st = (s.role ch).st := by
    rw [primed_quiet hq]
    exact B.sameView.st ch
  rw [T.aim hx, aim_eq, hr, Bool.or_false, hm]
  unfold Ctx.floor
  rw [hm, hs]
  rfl

/-- The reserve trigger off (R63). -/
theorem drains_off (h1 : c.poolUse15 ≤ 4096) (h2 : c.core.drain = false ∨ c.poolUse15 < 1024) : c.drains = false := by
  unfold Channel.drains
  rw [if_neg (by omega)]
  rcases h2 with h | h
  · simp [h]
  · exact if_pos h

end Sys2Proof.Machine
end

section
namespace Sys2Proof.Machine

/-- Settles O35: the set point by the cases of R63, from what an update leaves of its channel and of the module. -/
theorem setPointUpdate : Obligations.SetPointUpdate := by
  refine ⟨fun s ch rs silent meas tj hp hd hk => ?_, fun s ch rs silent meas tj hp hd hm => ⟨_, execSetPointUpdate_eq rs silent meas tj hp, ?_⟩⟩
  · intro c ps used track p all most x shown runs
    have A := update_around s ch ps meas tj
    have run : exec (.setPointUpdate ch rs silent meas tj) s = .next (s.finish (s.setPointUpdated ch ps meas tj)) :=
      execSetPointUpdate_eq rs silent meas tj hp
    have F := setPointUpdated_chan (ch := ch) (ps := ps) (meas := meas) (tj := tj) hd hk
    have done : ∀ v, v < 1024 → Updated c ps meas (tj % 2 ^ 16) v ((s.setPointUpdated ch ps meas tj).chan ch) → runs v := fun v hv U => by
      obtain ⟨W, S, hset, hx⟩ := U
      refine ⟨_, run, (A.trans (around_finish s _)).sameBoard, ?_⟩
      rw [F]
      refine ⟨hset, hx, ?_, ⟨W.heard, W.load, W.longest⟩, W.unmarked, W.mark⟩
      rw [S.voltage, hset]
      exact Nat.mod_eq_of_lt hv
    refine ⟨fun hok => ?_, fun hok => ?_, fun hok hdusk htrig => ⟨_, run, ?_⟩⟩
    · -- the controller is lost
      obtain ⟨H, ho⟩ := held_chan (ch := ch) (ps := ps) (meas := meas) (tj := tj) hok
      refine ⟨_, run, (A.trans (around_finish s _)).settles, (F _).trans ho, ?_⟩
      rw [F]
      refine ⟨⟨by rw [H.core], H.load, H.longest⟩, H.core, fun hv => ?_⟩
      rw [H.shown.voltage, H.core]
      exact Nat.mod_eq_of_lt hv
    · obtain ⟨f, bad, good, U⟩ := update_chan (ps := ps) (meas := meas) (tj := tj) hp hok
      obtain ⟨T, -⟩ := primed_tracks (s := s) (ch := ch) tj hp
      refine ⟨fun hn => done 550 (by decide) ?_, fun hn h => done 850 (by decide) ?_, fun hn hg hf hu hdr hq => ?_⟩
      · rw [hn] at U
        exact U
      · rw [if_neg (by simpa using hn), aim_full] at U
        · exact U
        · rw [T.drains, T.trackMode]
          rcases h with h | h | h
          · exact .inl (bad h)
          · exact .inr (.inl (if_pos h))
          · exact .inr (.inr h)
      · -- no fault, no trigger: the tracking rule
        intro floor loop
        rw [if_neg (by simpa using hn), good hg hf, aim_quiet hp hq (drains_off hu hdr)] at U
        have small : ∀ y, (s.ctx ch).floor (min 850 (max 550 y)) < 1024 := fun y => by
          unfold Ctx.floor
          split <;> omega
        have mode : ∀ b : Bool, (s.modeCode == 3) = b → (s.chan ch).trackMode = 0 → (s.chan ch).core.exitPend = false →
            Updated c ps meas (tj % 2 ^ 16) ((s.ctx ch).floor (min 850 (max 550 (loopTarget 0 false b false p c.core.offered c.core.setMv))))
              ((s.setPointUpdated ch ps meas tj).chan ch) := fun b hb ht hx => by
          rw [ht, hb, hx] at U
          exact U
        refine ⟨fun ht => done 750 (by decide) ?_, fun ht hm hx => done 550 (by decide) ?_, fun ht hm hx => ?_, fun ht hx => ?_⟩
        · rw [show (s.chan ch).trackMode = 1 from ht, loopTarget_day _ rfl] at U
          exact floor_day (s.ctx ch) ▸ U
        · have V := mode true (by simp [hm]) ht hx
          rw [loopTarget_dusk, floor_dusk (show (s.ctx ch).mode = 3 from hm)] at V
          exact V
        · have V := mode false (by simp [hm]) ht hx
          rw [loopTarget_tracks] at V
          exact done _ (small (loopStep x c.core.setMv)) V
        · rw [show (s.chan ch).trackMode = 0 from ht, show (s.chan ch).core.exitPend = true from hx, loopTarget_exits] at U
          exact done _ (small (max (loopStep x c.core.setMv) 750)) U
    · obtain ⟨h1, h2⟩ := setPointUpdated_views hd ch ps meas tj
      obtain ⟨h3, h4⟩ := setPointUpdated_trigger (ps := ps) (meas := meas) (tj := tj) hok hdusk htrig
      exact finish_ended h1 h3 h2 h4
  · obtain ⟨S, hw, hj⟩ := setPointUpdated_shows (ch := ch) (ps := monitorReadings rs silent) (meas := meas) (tj := tj) hp hd
    have ctrl : (s.finish (s.setPointUpdated ch (monitorReadings rs silent) meas tj)).power.ctrlOk = s.power.ctrlOk :=
      (finish_power s _).2.1.trans (congrArg Power.ctrlOk (update_around s ch _ meas tj).power :)
    have hw := hw.trans (Nat.mod_eq_of_lt hm)
    refine ⟨hw, ?_, ?_, ?_, hj, ?_⟩
    · rw [S.low, beq_iff_eq]
    · rw [S.high, beq_iff_eq]
    · rw [S.ramping, hw, decide_eq_true_eq]
    · rw [view_setPoint, bitOf_setBit_self]
      exact congrArg not ctrl

end Sys2Proof.Machine
end

section
namespace Sys2Proof.Machine
variable {s t u : State}

/-! ## How a channel comes into service (R45, R46)

Every command but a start of channels, a slot and the exchange of a drill leaves a resting channel resting, and gives no drain
permission; the others are shown to let no resting channel into service. -/

/-- A state from which no command leads into service (R45). -/
def ChState.resting (x : ChState) : Prop := x = .off ∨ x = .isolated

/-- A state of service (R45). -/
def ChState.serving (x : ChState) : Prop := x = .active ∨ x = .standby ∨ x = .draining

/-- No drain permission is given, and a resting channel without one rests. -/
structure Rests (s t : State) : Prop where
  drainer : ∀ ch, t.arb.drainer = some ch → s.arb.drainer = some ch
  rest : ∀ ch, s.arb.drainer ≠ some ch → (s.role ch).st.resting → (t.role ch).st.resting

theorem Rests.refl (s : State) : Rests s s := ⟨fun _ => id, fun _ _ => id⟩

theorem Rests.trans (a : Rests s t) (b : Rests t u) : Rests s u :=
  ⟨fun ch h => a.drainer ch (b.drainer ch h), fun ch hd h => b.rest ch (fun e => hd (a.drainer ch e)) (a.rest ch hd h)⟩

theorem Rests.ite {c : Prop} [Decidable c] (ht : Rests s t) (hu : Rests s u) : Rests s (if c then t else u) := by
  split
  · exact ht
  · exact hu

theorem Rests.foldl {α : Type} {f : State → α → State} (hf : ∀ s a, Rests s (f s a)) (x : List α) (s : State) :
    Rests s (x.foldl f s) := by
  induction x generalizing s with
  | nil => exact Rests.refl s
  | cons a x ih => exact (hf s a).trans (ih (f s a))

theorem rests_of (hd : t.arb.drainer = s.arb.drainer) (hs : ∀ ch, (t.role ch).st = (s.role ch).st) : Rests s t :=
  ⟨fun ch h => by rwa [← hd], fun ch _ h => by rwa [hs]⟩

theorem Calm.rests (h : Calm s t) : Rests s t := rests_of (by rw [h.arb]) h.st

theorem InPlace.rests {l : List (Nat × Nat)} (h : InPlace l s t) : Rests s t := rests_of (by rw [h.arb]) h.st

theorem rests_arb (s : State) {a : Arbiter} (h : ∀ ch, a.drainer = some ch → s.arb.drainer = some ch) : Rests s { s with arb := a } :=
  ⟨h, fun ch _ hr => by rwa [role_withArb]⟩

/-- One channel changes its state: it did not rest, or it rests. -/
theorem rests_modRole (s : State) (ch : Ch) {f : ChanRole → ChanRole} (h : (s.role ch).st.resting → (f (s.role ch)).st.resting) :
    Rests s (s.modRole ch f) := by
  refine ⟨fun c hc => by simpa using hc, fun c _ hr => ?_⟩
  rcases Ch.eq_or_other c ch with rfl | rfl
  · rw [State.modRole_role]
    exact h hr
  · rwa [State.modRole_role_other]

theorem not_resting {x : ChState} (h1 : x ≠ .off) (h2 : x ≠ .isolated) : ¬ x.resting := fun h => h.elim h1 h2

/-! ## Resets, grants, holds -/

/-- Equal rules name the same state. -/
theorem st_of_rule {q r : ChanRole} (h : q.rule = r.rule) : q.st = r.st := congrArg Prod.fst h

theorem rests_fence (s : State) (ch : Ch) (lost : Bool) : Rests s (s.fence ch lost) := (inPlace_fence [] s ch lost).rests

theorem rests_beginReset (s : State) (ch : Ch) (cause : ResetCause) : Rests s (s.beginReset ch cause) := by
  refine ⟨fun c hc => ?_, fun c _ hr => ?_⟩
  · rw [beginReset_arb] at hc
    simp only [Arbiter.dropped] at hc
    split at hc
    · cases hc
    · exact hc
  · rcases Ch.eq_or_other c ch with rfl | rfl
    · exact .inl (congrArg Prod.fst (beginReset_role s c cause))
    · rwa [st_of_rule (beginReset_role_other s ch cause)]

/-- Only a channel in STANDBY or STARTING takes the lease (R46). -/
theorem rests_leaseTo {g : Grant} (h : (s.role g.dest).st = .standby ∨ (s.role g.dest).st = .starting) : Rests s (s.leaseTo g) := by
  have L := leaseTo_leased s g
  refine ⟨fun c hc => by rw [L.arb] at hc; exact hc, fun c _ hr => ?_⟩
  rcases Ch.eq_or_other c g.dest with rfl | rfl
  · rcases h with h | h <;> exact absurd (h ▸ hr) (not_resting (by decide) (by decide))
  · have ho := L.other
    split at ho
    · rename_i hw
      exact absurd ((waitsRole_iff.1 hw).1 ▸ hr) (not_resting (by decide) (by decide))
    · exact (congrArg ChanRole.st ho :) ▸ hr

theorem rests_grantNow (s : State) (g : Grant) : Rests s (s.grantNow g) := by
  unfold State.grantNow
  dsimp only
  split
  · rename_i h
    exact rests_leaseTo (by simpa using h)
  · exact rests_arb s fun _ => id

theorem rests_grant (s : State) (g : Grant) : Rests s (s.grant g) := by
  unfold State.grant
  exact (rests_grantNow s g).ite (rests_arb s fun _ => id)

theorem inPlace_wakeByAll (s : State) (l : List WakeCause) : InPlace wakeObjs s (s.wakeByAll l) := by
  cases l with
  | nil => exact InPlace.refl _ s
  | cons cause more =>
    simp only [State.wakeByAll]
    split
    · exact InPlace.refl _ s
    · exact inPlace_mode _ s _
    · exact inPlace_wakeNow s _ _

theorem rests_wakeBy (s : State) (cause : WakeCause) : Rests s (s.wakeBy cause) := (inPlace_wakeBy s cause).rests

theorem rests_enterHold (s : State) : Rests s s.enterHold := by
  have h1 : Rests s s.holdBegun := (rests_arb s (a := s.arb.held s.firstTurn) fun _ => id).trans (holdBegun_calm s).rests
  have h2 : Rests s (s.holdBegun.resetWaiting s.firstTurn.other) := by
    unfold State.resetWaiting
    exact (h1.trans (rests_beginReset ..)).ite h1
  rw [enterHold_eq]
  exact (Rests.refl s).ite ((h2.ite (h2.trans (rests_beginReset ..))).trans (rests_wakeBy ..))

theorem rests_endDrill (s : State) (result table : Nat) : Rests s (s.endDrill result table) := by
  have h := endDrill_over s result table
  obtain ⟨d, n, -, ha⟩ := h.arb
  exact rests_of (by rw [ha]) fun ch => congrArg Prod.fst (h.role ch)

/-! ## Declarations -/

/-- The early end of a drain leaves its channel, which did not rest, in STANDBY. -/
theorem rests_endDrainNow {o : Ch} (h : s.arb.drainer = some o) : Rests s (s.endDrainNow o) := by
  obtain ⟨ha, -, ho⟩ := endDrainNow_view s o
  refine ⟨fun c hc => ?_, fun c hc hr => ?_⟩
  · rw [ha] at hc
    cases hc
  · rcases Ch.eq_or_other c o with rfl | rfl
    · exact absurd h hc
    · rwa [st_of_rule ho]

theorem rests_afterMove (s : State) (c o : Ch) (cause : DeclCause) (rc : ResetCause) : Rests s (s.afterMove c o cause rc) := by
  unfold State.afterMove
  extract_lets _ s1 s2
  have h1 : Rests s s1 := rests_arb s fun _ => id
  have h2 : Rests s s2 := (h1.trans (calm_modRole s1 c (f := fun r => { r with deferred := true }) fun _ => rfl).rests).ite
    (h1.trans (rests_beginReset ..))
  exact h2.trans (rests_arb s2 fun _ => id)

theorem rests_decideMove (s : State) (c o : Ch) (cause : DeclCause) (rc : ResetCause) : Rests s (s.decideMove c o cause rc) := by
  rw [decideMove_eq]
  extract_lets g
  split
  · rename_i hd
    have hd : s.arb.drainer = some o := by simpa using (Bool.and_eq_true_iff.1 hd).1
    exact ((rests_endDrainNow hd).trans (rests_grant ..)).trans (rests_afterMove ..)
  · exact ((rests_grant s g).trans (rests_afterMove ..)).ite ((rests_beginReset ..).trans (rests_enterHold _))

theorem rests_openWindow (s : State) (first new : Ch) (cause : DeclCause) : Rests s (s.openWindow first new cause) :=
  rests_arb s fun _ => id

/-- The channel that returns passes to OFF (R511). -/
theorem rests_reinstate (s : State) (f declared : Ch) : Rests s (s.reinstate f declared) := by
  unfold State.reinstate
  refine ⟨fun c hc => by simpa using hc, fun c _ hr => ?_⟩
  rcases Ch.eq_or_other c f with rfl | rfl
  · exact .inl (by simp)
  · rwa [State.modRole_role_other, role_withArb]

theorem rests_windowFault (s : State) (c : Ch) (w : Window) (cause : DeclCause) (rc : ResetCause) :
    Rests s (s.windowFault c w cause rc) := by
  unfold State.windowFault
  extract_lets s1
  have h1 : Rests s s1 := (rests_beginReset s c rc).trans (calm_mflag ..).rests
  have h2 : Rests s1 ((s1.reinstate w.first c).openWindow c w.first cause) :=
    (rests_reinstate s1 w.first c).trans (rests_openWindow ..)
  exact (h1.trans h2).ite (h1.trans (rests_enterHold s1))

/-- Nothing is drained any more. -/
theorem rests_noDrainer (s : State) : Rests s { s with arb := { s.arb with drainer := none } } :=
  rests_arb s fun _ h => absurd h (by simp)

theorem rests_struck {c : Ch} (h : ¬ (s.role c).st.resting) (cause : DeclCause) : Rests s (s.struck c cause) := by
  have k := struck_view s c cause
  obtain ⟨d, n, -, ha⟩ := k.arb
  refine ⟨fun ch hc => by rw [ha] at hc; exact hc, fun ch _ hr => ?_⟩
  rcases Ch.eq_or_other ch c with rfl | rfl
  · exact absurd hr h
  · rwa [st_of_rule k.other]

theorem rests_declare (s : State) (c : Ch) (cause : DeclCause) : Rests s (s.declare c cause) := by
  rw [declare_eq]
  split
  · exact Rests.refl s
  · rename_i hst
    simp only [Bool.or_eq_true, beq_iff_eq, not_or] at hst
    extract_lets t rc _ t'
    have ht : Rests s t := rests_struck (not_resting hst.1 hst.2) cause
    have ht' : Rests s t' := ht.trans (rests_arb t fun _ => id)
    have hd : Rests s (if t.arb.drainer == some c then { t with arb := { t.arb with drainer := none } } else t) :=
      (ht.trans (rests_noDrainer t)).ite ht
    split
    · exact hd.trans (rests_beginReset ..)
    · split
      · exact (ht'.trans (rests_windowFault ..)).ite (ht'.trans (rests_decideMove ..))
      · exact ht'.trans (rests_decideMove ..)

end Sys2Proof.Machine
end

section
namespace Sys2Proof.Machine
variable {s t u : State}

/-! ## Heartbeats, fences, windows -/

/-- A change that leaves the state of the channel leaves every state. -/
theorem rests_sameSt (s : State) (ch : Ch) {f : ChanRole → ChanRole} (h : (f (s.role ch)).st = (s.role ch).st) :
    Rests s (s.modRole ch f) :=
  rests_modRole s ch fun hr => by rwa [h]

/-- A channel that did not rest may go to any state. -/
theorem rests_awake {ch : Ch} (f : ChanRole → ChanRole) (h : ¬ (s.role ch).st.resting) : Rests s (s.modRole ch f) :=
  rests_modRole s ch fun hr => absurd hr h

theorem rests_heartbeat (s : State) (ch : Ch) : Rests s (s.heartbeat ch) := by
  unfold State.heartbeat
  extract_lets w th score good low s1 s2 r holder s3
  have h2 : Calm s s2 := Calm.trans (t := s1) (calm_modRole s ch fun _ => rfl) (calm_mput ..)
  have h3 : Calm s s3 := Calm.ite (h2.trans (calm_mflag ..)) h2
  have hd : ∀ cause, Rests s (s2.declare ch cause) := fun cause => h2.rests.trans (rests_declare s2 ch cause)
  refine Rests.ite (h2.trans (calm_orphanUnfit _ _)).rests ?_
  refine Rests.ite h2.rests ?_
  refine Rests.ite (hd _) ?_
  refine Rests.ite (hd _) ?_
  split
  · exact h3.rests.trans (rests_arb s3 fun _ => id)
  · exact h3.rests

theorem rests_slotOf (s : State) (ch : Ch) : Rests s (s.slotOf ch) := by
  unfold State.slotOf
  extract_lets r s1
  have h1 : Calm s s1 := (calm_setRole s ch (r := { r with misses := r.misses + 1, goodRun := 0 }) rfl).minc _ _
  refine Rests.ite (calm_setRole s ch (r := { r with hbSeen := false }) rfl).rests ?_
  refine Rests.ite (calm_setRole s ch (r := { r with goodRun := 0 }) rfl).rests ?_
  exact (h1.rests.trans (rests_declare ..)).ite h1.rests

theorem rests_selfDeclare (s : State) (ch : Ch) (f : Bool) : Rests s (s.selfDeclare ch f) := by
  unfold State.selfDeclare
  extract_lets c _ s1 w
  have h1 : Calm s s1 := Calm.ite (calm_setChan ..) (Calm.refl s)
  have h2 : Calm s1 ((s1.modRole ch fun r => { r with health := w }).mput 0x1300 (8 + ch.num) w) :=
    (calm_modRole s1 ch (f := fun r => { r with health := w }) fun _ => rfl).mput _ _ _
  exact Rests.ite h1.rests (((h1.trans h2).rests.trans (rests_declare ..)).ite (h1.trans (calm_orphanUnfit s1 ch)).rests)

theorem rests_leaseLapse (s : State) : Rests s s.leaseLapse := by
  unfold State.leaseLapse
  split
  · exact Rests.refl s
  · rename_i h _
    have c : Calm s ((s.modRole h fun r => { r with orphan := true }).orphanUnfit h) :=
      (calm_modRole s h (f := fun r => { r with orphan := true }) fun _ => rfl).trans (calm_orphanUnfit _ _)
    exact (rests_declare ..).ite (c.rests.ite (Rests.refl s))

theorem rests_fenceConfirm (s : State) (ch : Ch) : Rests s (s.fenceConfirm ch) := by
  unfold State.fenceConfirm
  extract_lets r s1
  have h1 : Rests s s1 := (calm_setRole s ch (r := { r with fenceDone := true }) rfl).rests
  refine (Rests.refl s).ite ?_
  split
  · exact (h1.trans (rests_grantNow ..)).ite h1
  · exact h1

theorem rests_fenceFault (s : State) (ch : Ch) : Rests s (s.fenceFault ch) := by
  unfold State.fenceFault
  extract_lets r s1
  have h1 : Rests s s1 := ((calm_setRole s ch (r := { r with fenceLate := true }) rfl).mflag _ _ _).rests
  refine (Rests.refl s).ite ?_
  split
  · split
    · exact h1.trans (rests_arb s1 fun _ => id)
    · exact h1
  · exact h1

theorem rests_beginDeferred (s : State) : Rests s s.beginDeferred :=
  Rests.foldl (fun s ch => (rests_beginReset s ch .arbiter).ite (Rests.refl s)) _ s

theorem rests_windowEnd (s : State) : Rests s s.windowEnd := by
  unfold State.windowEnd
  split
  · exact Rests.refl s
  · have h1 : ∀ b, Rests s { s with arb := { s.arb with window := none, stable := b } } := fun b => rests_arb s fun _ => id
    exact ((h1 _).trans (rests_beginDeferred _)).ite (h1 _)

/-! ## The arbiter lost and back, the turns of a hold -/

theorem rests_loseArbiter (s : State) : Rests s s.loseArbiter := by
  unfold State.loseArbiter
  exact (Rests.refl s).ite ((rests_arb s (a := { s.arb with ok := false }) fun _ => id).trans ((calm_mflag ..).logEvent _ _ _).rests)

theorem rests_endHold (s : State) (ch : Ch) : Rests s (s.endHold ch) := by
  unfold State.endHold
  extract_lets _ s1 s2 w
  have h1 : Rests s s1 := rests_arb s fun _ => id
  have h2 : Rests s s2 := (h1.trans (calm_restarts s1 ch).rests).trans (rests_grant ..)
  exact (h2.trans (rests_beginReset ..)).ite h2

/-- A role is assigned only to a channel in STARTING (R564). -/
theorem rests_assignRole {ch : Ch} (h : (s.role ch).st = .starting) : Rests s (s.assignRole ch) := by
  unfold State.assignRole
  extract_lets fresh
  split
  · exact (rests_endHold s ch).ite (Rests.refl s)
  · split
    · exact rests_awake _ (not_resting (by simp [h]) (by simp [h]))
    · exact (Rests.refl s).ite ((calm_restarts s ch).rests.trans (rests_grant ..))

theorem rests_restartedArbiter (s : State) : Rests s s.restartedArbiter :=
  (rests_arb s (a := { s.arb with ok := true, pending := none, back := none }) fun _ => id).trans (calm_minc _ 0x1310 0xB).rests

theorem rests_declareTripped (s : State) : Rests s s.declareTripped :=
  Rests.foldl (fun s ch => (rests_declare s ch .trip).ite (Rests.refl s)) _ s

theorem rests_keepLease (s : State) (h : Ch) : Rests s (s.keepLease h) :=
  (rests_arb s (a := { s.arb with
    holder := some h, leaseAt := s.sbTime, drainer := s.arb.drainer.filter fun d => d != h }) fun _ hd => (filter_eq_some.1 hd).1).trans
      (rests_sameSt _ h rfl)

theorem rests_giveLease (s : State) (ch : Ch) : Rests s (s.giveLease ch) := (rests_endHold s ch).ite (rests_grant ..)

theorem rests_decideReturn (s : State) (before : Option Ch) : Rests s (s.decideReturn before) :=
  (Rests.refl s).ite ((rests_giveLease s .a).ite ((rests_giveLease s .b).ite (rests_enterHold s)))

theorem rests_settleReturn (s : State) : Rests s s.settleReturn := by
  unfold State.settleReturn
  extract_lets s1
  have h1 : Rests s s1 := (rests_beginDeferred s).ite (Rests.refl s)
  refine h1.trans (Rests.foldl (fun s ch => ?_) _ s1)
  split
  · rename_i hw
    exact rests_assignRole (waitsRole_iff.1 hw).1
  · exact Rests.refl s

theorem rests_returnArbiter (s : State) : Rests s s.returnArbiter := by
  rw [returnArbiter_eq]
  extract_lets t
  have ht : Rests s t := (rests_restartedArbiter s).trans (rests_declareTripped _)
  refine (Rests.refl s).ite (Rests.trans ?_ (rests_settleReturn _))
  split
  · exact ht.trans (rests_keepLease ..)
  · exact ht.trans (rests_decideReturn ..)

theorem rests_turnExpire (s : State) : Rests s s.turnExpire := by
  unfold State.turnExpire
  split
  · exact Rests.refl s
  rename_i r _
  extract_lets o s1 s2 _ s3
  have h1 : Rests s s1 := (Rests.refl s).ite (rests_beginReset ..)
  have h2 : Rests s s2 := h1.trans (rests_sameSt s1 r rfl)
  have h3 : Rests s s3 := h2.trans (rests_arb s2 fun _ => id)
  exact (Rests.refl s).ite (h3.ite (h3.trans (rests_beginReset ..)))

/-! ## The course of a drill -/

theorem rests_drill (s : State) (d : Option Drill) : Rests s { s with arb := { s.arb with drill := d } } := rests_arb s fun _ => id

theorem rests_startDrill (s : State) : Rests s s.startDrill := by
  unfold State.startDrill
  split
  · exact Rests.refl s
  · exact (rests_drill s _).trans (calm_beginItem _).rests

theorem rests_skipDrill (s : State) : Rests s s.skipDrill := by
  unfold State.skipDrill
  extract_lets s1 now
  have h1 : Calm s s1 := (calm_mput ..).minc _ _
  exact (h1.rests.trans (rests_arb s1 (a := { s1.arb with retryAt := now + 600 }) fun _ => id)).trans (calm_logEvent ..).rests

theorem rests_drillDue (s : State) : Rests s
    (if !s.drillDue then s
    else if s.drillReady && !s.arb.suspended then
      let free := s.unitsFree
      if free.1 then free.2.startDrill else free.2.skipDrill
    else s.skipDrill) := by
  have c := (calm_unitsFree s).rests
  exact (Rests.refl s).ite (((c.trans (rests_startDrill _)).ite (c.trans (rests_skipDrill _))).ite (rests_skipDrill s))

theorem rests_releasePoint (s : State) : Rests s s.releasePoint := by
  unfold State.releasePoint
  split
  · exact Rests.refl s
  · exact (Rests.refl s).ite ((rests_drill s _).trans (calm_onChan ..).rests)

theorem rests_drainEnd (s : State) : Rests s s.drainEnd := by
  unfold State.drainEnd
  split
  · exact Rests.refl s
  split
  · exact Rests.refl s
  · rename_i o _ hs
    extract_lets s1
    have h1 : Rests s s1 := rests_awake _ (not_resting (by simp_all) (by simp_all))
    refine (h1.trans (rests_arb s1 (a := { s1.arb with drill := s1.arb.drill.map fun d => { d with phase := 3 } }) fun _ => id)).trans ?_
    exact (calm_relay _ _).rests

theorem rests_drainComplete (s : State) : Rests s s.drainComplete := by
  unfold State.drainComplete
  split
  · exact Rests.refl s
  split
  · exact Rests.refl s
  · rename_i o _ hs
    extract_lets s1 s2 _ s3
    have c1 : Calm s s1 := calm_onChan s o _
    have h2 : Rests s1 s2 := rests_awake _ (by rw [c1.st]; exact not_resting (by simp_all) (by simp_all))
    have h3 : Rests s s3 := (c1.rests.trans h2).trans (rests_noDrainer s2)
    split
    · exact h3
    · exact h3.trans (rests_endDrill ..)

/-! ## The role commands -/

theorem rests_switchCommand (s : State) : Rests s s.switchCommand.2 := by
  have c := (calm_unitsFree s).rests
  unfold State.switchCommand
  split
  · exact Rests.refl s
  · dsimp only
    split
    · exact c.trans (rests_startDrill _)
    · exact c

theorem rests_rearmCommand (s : State) : Rests s s.rearmCommand.2 := rests_arb s fun _ => id

theorem rests_releaseCommand (s : State) (ch : Ch) : Rests s (s.releaseCommand ch).2 := by
  unfold State.releaseCommand
  split
  · exact Rests.refl s
  · exact rests_beginReset s ch .release

theorem rests_moveLease (s : State) (ch : Ch) (record : Bool) : Rests s (s.moveLease ch record) :=
  (rests_arb s (a := { s.arb with holder := none }) fun _ => id).trans (rests_grant ..)

theorem rests_isolated (s : State) (ch : Ch) : Rests s (s.isolated ch) := by
  obtain ⟨va, vr, vo⟩ := isolated_view s ch
  refine ⟨fun c hc => ?_, fun c _ hr => ?_⟩
  · rw [va] at hc
    exact (filter_eq_some.1 hc).1
  · rcases Ch.eq_or_other c ch with rfl | rfl
    · exact .inr (congrArg Prod.fst vr)
    · rwa [st_of_rule vo]

theorem rests_isolateCommand (s : State) (ch : Ch) : Rests s (s.isolateCommand ch).2 := by
  rw [isolateCommand_eq]
  split
  · exact Rests.refl s
  · exact ((rests_isolated s ch).trans (rests_moveLease ..)).ite (rests_isolated s ch)

theorem rests_channelResetCommand (s : State) (ch : Ch) : Rests s (s.channelResetCommand ch).2 := by
  unfold State.channelResetCommand
  extract_lets holder s1
  have h1 : Rests s s1 := rests_endDrill s 5 0
  split
  · exact Rests.refl s
  split
  · exact Rests.refl s
  split
  · exact ((h1.trans (rests_fence ..)).trans (rests_moveLease ..)).trans (rests_beginReset ..)
  · exact h1.trans (rests_beginReset ..)

/-! ## Requests of the host -/

theorem Rests.snd_ite {α : Type} {c : Prop} [Decidable c] {x y : α × State} (hx : Rests s x.2) (hy : Rests s y.2) :
    Rests s (if c then x else y).2 := by
  split
  · exact hx
  · exact hy

theorem rests_resetCommand (s : State) (raw : Nat) : Rests s (s.resetCommand raw).2 := by
  unfold State.resetCommand
  extract_lets ch _ s1
  split
  · exact (calm_bring s _).rests
  · split
    · exact rests_channelResetCommand s ch
    · have h1 : Calm s s1 := calm_mput ..
      dsimp only
      exact (h1.onChan ch _).rests

theorem rests_roleCommand (s : State) (raw : Nat) : Rests s (s.roleCommand raw).2 := by
  unfold State.roleCommand
  extract_lets ch
  split
  · exact rests_switchCommand s
  · exact rests_rearmCommand s
  · exact rests_isolateCommand s ch
  · exact rests_releaseCommand s ch
  · exact (calm_resyncCommand s).rests

theorem rests_requestMode (s : State) (m : Nat) : Rests s (s.requestMode m) := by
  unfold State.requestMode
  extract_lets s1
  have h1 : Calm s s1 := calm_mput ..
  exact h1.rests.ite (Rests.ite (h1.trans (calm_enterNight s1)).rests (h1.rests.trans (rests_wakeBy s1 .host)))

theorem rests_mStore (s : State) (o : Obj) (idx sub raw : Nat) : Rests s (s.mStore o idx sub raw).2 := by
  unfold State.mStore
  extract_lets +onlyGivenNames old v stored
  have h1 : Calm s stored := calm_mput ..
  refine Rests.snd_ite (rests_requestMode s raw) ?_
  refine Rests.snd_ite (h1.trans (calm_releaseWake stored _)).rests ?_
  refine Rests.snd_ite (h1.trans (calm_judgePower stored)).rests ?_
  refine Rests.snd_ite (Rests.snd_ite (h1.rests.trans (rests_resetCommand stored raw)) (Rests.refl s)) ?_
  refine Rests.snd_ite (Rests.snd_ite (h1.rests.trans (rests_roleCommand stored raw)) (calm_free s _).rests) ?_
  refine Rests.snd_ite (h1.trans (calm_host stored _)).rests ?_
  refine Rests.snd_ite (calm_host s _).rests ?_
  refine Rests.snd_ite (h1.trans (calm_host stored _)).rests ?_
  refine Rests.snd_ite ?_ (Rests.snd_ite (calm_flash s _).rests h1.rests)
  exact Rests.ite (h1.trans (calm_startSave stored _)).rests (h1.trans (calm_flash stored _)).rests

theorem rests_writeObject (s : State) (idx sub : Nat) (data : List Byte) (full : Bool) : Rests s (s.writeObject idx sub data full).2 := by
  have h0 := Rests.refl s
  unfold State.writeObject
  split
  · exact h0
  · exact h0
  · refine Rests.snd_ite h0 (Rests.snd_ite h0 (Rests.snd_ite h0 ?_))
    dsimp only
    exact Rests.snd_ite (rests_mStore ..) h0
  · exact Rests.snd_ite h0 (Rests.snd_ite h0 (Rests.snd_ite h0 (Rests.snd_ite (calm_chStore ..).rests h0)))

theorem rests_doWrite (s : State) (q : Request) (full : Bool) : Rests s (s.doWrite q full).2 := by
  unfold State.doWrite
  extract_lets _ _ j st s1 r
  have h1 : Calm s s1 := calm_judge ..
  exact Rests.snd_ite (h1.trans (calm_noteStatus s1 st)).rests (h1.rests.trans (rests_writeObject ..))

theorem rests_perform (s : State) (q : Request) (func : Nat) (full : Bool) : Rests s (s.perform q func full).2 := by
  unfold State.perform
  refine Rests.snd_ite (calm_doRead ..).rests ?_
  refine Rests.snd_ite (rests_doWrite ..) ?_
  refine Rests.snd_ite (calm_doReadBlock ..).rests ?_
  refine Rests.snd_ite (calm_doWriteBlock ..).rests ?_
  refine Rests.snd_ite (calm_doSnapshot ..).rests ?_
  refine Rests.snd_ite (calm_doFrameFromHost ..).rests ?_
  refine Rests.snd_ite (Rests.refl s) ?_
  refine Rests.snd_ite (calm_openSession ..).rests ?_
  exact Rests.snd_ite (calm_proveSession ..).rests (calm_doHeartbeat ..).rests

theorem rests_serve (s : State) (q : Request) (func : Nat) (full : Bool) : Rests s (s.serve q func full) := by
  unfold State.serve
  split
  · exact ((calm_minc ..).trans (calm_answer ..)).rests
  · extract_lets v r
    refine Rests.ite ?_ (Rests.ite ?_ ?_)
    · exact (((calm_noteSequence s).trans (calm_keepDup ..)).trans (calm_answer ..)).rests
    · exact ((calm_keepDup ..).trans (calm_answer ..)).rests
    · exact (rests_perform s q func full).trans (((calm_noteFull ..).trans (calm_keepDup ..)).trans (calm_answer ..)).rests

theorem rests_handle (s : State) (q : Request) (func : Nat) : Rests s (s.handle q func) := by
  unfold State.handle
  extract_lets p s1 s2
  have h1 : Calm s s1 := by
    show Calm s (ite _ _ _ : Bool × State).2
    split
    · exact calm_takePlace s
    · exact Calm.refl s
  have h2 : Calm s s2 := h1.trans (calm_judged ..)
  split
  · exact h1.rests
  · split
    · exact h2.rests
    · rename_i t ht
      have h3 : Calm s t := h2.trans (calm_arrived ht)
      repeat' split
      · exact h3.rests
      · exact (h3.minc _ _).rests
      · exact h3.rests.trans (rests_serve ..)
      · exact (h3.trans (calm_relayOut ..)).rests
      · exact (h3.minc _ _).rests
      · exact h3.rests

/-! ## Modes, supplies, bring-up -/

theorem rests_sleep (s : State) : Rests s s.sleep := by
  unfold State.sleep
  extract_lets _ s1 s2 _ s3
  have h1 : Calm s s1 := Calm.ite (calm_mflag ..) (Calm.refl s)
  have h3 : Calm s s3 := (h1.eachChan _).trans (calm_mode s2 _)
  refine (Rests.refl s).ite ?_
  split
  · exact h3.rests.trans (inPlace_wakeNow s3 _ _).rests
  · exact h3.rests

theorem rests_judgeWake (s : State) : Rests s s.judgeWake := by
  unfold State.judgeWake
  extract_lets w
  split
  · exact Rests.refl s
  dsimp only
  split
  · exact (calm_mput ..).rests.trans (rests_wakeBy _ .time)
  · exact Rests.refl s

theorem rests_handToken (s : State) (k : Nat) : Rests s (s.handToken k) := by
  unfold State.handToken
  extract_lets
  split
  · exact Rests.refl s
  · dsimp only
    split
    · exact Rests.refl s
    · exact rests_arb s fun _ => id

theorem rests_tripSb (s : State) : Rests s s.tripSb := by
  unfold State.tripSb
  extract_lets _ s1 s2
  have h1 : Calm s s1 := (calm_power s _).logEvent _ _ _
  have h2 : Rests s s2 := h1.rests.trans ((rests_loseArbiter s1).trans (calm_relayLost _).rests)
  exact (Rests.refl s).ite ((h2.trans (calm_loseController s2).rests).ite h2)

theorem rests_tripChan (s : State) (ch : Ch) : Rests s (s.tripChan ch) := by
  unfold State.tripChan
  extract_lets r s1 s2
  have h1 : Calm s s1 := calm_setRole s ch (r := { r with outputOn := false, ready := false }) rfl
  have h2 : Calm s s2 := (h1.mflag _ _ _).logEvent _ _ _
  refine (Rests.refl s).ite ((h2.rests.trans (rests_declare ..)).ite ?_)
  exact ((h2.modRole ch (f := fun r => { r with silent := true }) fun _ => rfl).onChan _ _).rests

theorem rests_chanStageFailed (s : State) (ch : Ch) (cause : Nat) : Rests s (s.chanStageFailed ch cause) := by
  unfold State.chanStageFailed
  extract_lets r s1 s2 s3 k
  have h1 : Calm s s1 := calm_logEvent ..
  have h2 : Calm s s2 := h1.modRole ch (f := fun r => { r with failStage := r.stage, failCause := cause }) fun _ => rfl
  have h3 : Calm s s3 := h2.modRole ch (f := fun x => { x with attempt := x.attempt + 1, outputOn := true }) fun _ => rfl
  refine (Rests.refl s).ite (Rests.ite (Calm.ite (h3.trans (calm_beginStage5 s3 ch)) h3).rests ?_)
  exact (h2.rests.trans (rests_beginReset s2 ch .bringup)).trans (rests_sameSt _ ch rfl)

theorem rests_outputTrip (s : State) (ch : Ch) : Rests s
    (if (s.role ch).st == .starting && (s.role ch).stage == 3 && (s.role ch).outputOn then
      (((s.setRole ch { s.role ch with outputOn := false }).mflag 0x1200 6 (2 ^ (4 + ch.num))).logEvent 0 5 (1 + ch.num)).chanStageFailed
        ch 1
    else s.tripChan ch) := by
  have c : Calm s (s.setRole ch { s.role ch with outputOn := false }) := calm_setRole s ch rfl
  exact (((c.mflag _ _ _).logEvent _ _ _).rests.trans (rests_chanStageFailed _ ch 1)).ite (rests_tripChan s ch)

theorem rests_beginStage8 (s : State) (ch : Ch) : Rests s (s.beginStage8 ch) :=
  (rests_sameSt s ch rfl).trans (calm_onChan ..).rests

theorem rests_completeStage5 (s : State) (ch : Ch) : Rests s (s.completeStage5 ch) := by
  unfold State.completeStage5
  exact (rests_sameSt s ch (by rfl)).trans (calm_onChan ..).rests

theorem rests_stage5 (s : State) (ch : Ch) : Rests s (s.stage5 ch) := by
  unfold State.stage5
  extract_lets v s1 s2 good s3
  have h1 : Calm s s1 := Calm.ite (calm_loadVendor s ch) (Calm.refl s)
  have h2 : Calm s s2 := h1.onChan _ _
  have h3 : Calm s s3 := h2.onChan _ _
  refine (rests_chanStageFailed s ch 4).ite (h2.rests.ite ?_)
  exact (h3.rests.trans (rests_completeStage5 ..)).ite (h3.rests.trans (rests_chanStageFailed s3 ch 5))

theorem rests_beginStage7 (s : State) (ch : Ch) : Rests s (s.beginStage7 ch) := by
  unfold State.beginStage7
  extract_lets s1
  have h1 : Rests s s1 := rests_sameSt s ch rfl
  exact ((h1.trans (calm_startResync s1 ch).rests).ite (h1.trans (calm_stale s1 ch true).rests)).ite h1

theorem rests_completeStage7 (s : State) (ch : Ch) : Rests s (s.completeStage7 ch) := by
  unfold State.completeStage7
  extract_lets _ s1
  have h1 : Calm s s1 := Calm.ite (((calm_relay s _).onChan _ _).trans (calm_stale _ ch true)) (Calm.refl s)
  exact Rests.ite (h1.modRole ch (f := fun r => { r with waitNight := true }) fun _ => rfl).rests
    (h1.rests.trans (rests_beginStage8 s1 ch))

theorem rests_completeStage9 {ch : Ch} (h : (s.role ch).st = .starting) : Rests s (s.completeStage9 ch) := by
  unfold State.completeStage9
  extract_lets s1
  have h1 : Calm s s1 := calm_modRole s ch (f := fun r => { r with ready := true, waitArb := true }) fun _ => rfl
  exact (h1.rests.trans (rests_assignRole ((h1.st ch).trans h))).ite h1.rests

theorem rests_chanStageDone (s : State) (ch : Ch) (captureTrained : Bool) (islands : Nat) :
    Rests s (s.chanStageDone ch captureTrained islands) := by
  unfold State.chanStageDone
  extract_lets r next
  have hnext : ∀ u, Rests u (next u) := fun u => rests_sameSt u ch rfl
  split
  · exact Rests.refl s
  rename_i hr
  have hs : (s.role ch).st = .starting := by
    simp only [Bool.or_eq_true, not_or, bne_iff_ne, ne_eq, not_not] at hr
    exact hr.1.1.1
  split
  · exact hnext s
  split
  · refine Rests.trans (Rests.trans (Calm.rests (Calm.ite (Calm.refl s) (calm_onChan ..))) (hnext _)) (calm_beginStage5 _ ch).rests
  split
  · exact rests_stage5 s ch
  split
  · exact rests_beginStage7 s ch
  split
  · exact rests_completeStage7 s ch
  split
  · exact ((calm_onChan ..).rests.trans (hnext _)).ite (Rests.refl s)
  split
  · exact rests_completeStage9 hs
  · exact Rests.refl s

/-! ## Resets of the module -/

/-- After a reset of the module every channel is in OFF and none drains. -/
theorem rests_wipe (s : State) (kind stage : Nat) : Rests s (s.wipe kind stage) := by
  refine ⟨fun ch h => absurd (show (none : Option Ch) = some ch from h) nofun, fun ch _ _ => .inl ?_⟩
  cases ch <;> rfl

theorem rests_moduleResetNow (s : State) (kind : Nat) : Rests s (s.moduleResetNow kind) := by
  unfold State.moduleResetNow
  extract_lets old s1
  have h1 : Calm s s1 := Calm.ite (Calm.refl s) (calm_logEvent ..)
  exact (h1.eachChan _).rests.trans (rests_wipe _ kind 1)

theorem rests_powerUp (s : State) : Rests s s.powerUp := by
  unfold State.powerUp
  extract_lets +onlyGivenNames kind _ s1
  have h1 : Calm s s1 := calm_power s _
  exact (Rests.refl s).ite (h1.rests.trans ((rests_wipe s1 kind 0).trans (calm_beginBringUp _).rests))

theorem rests_losePower (s : State) : Rests s s.losePower := by
  unfold State.losePower
  extract_lets s1
  refine (Rests.refl s).ite ((rests_wipe s 1 0).trans (u := _) (Calm.rests ?_))
  exact ⟨rfl, rfl, rfl, rfl, rfl⟩

theorem rests_resetPin (s : State) (lowUs : Nat) (released : Bool) : Rests s (s.resetPin lowUs released) := by
  unfold State.resetPin
  extract_lets +onlyGivenNames s1
  split
  · exact Rests.refl s
  · extract_lets +onlyGivenNames _ s2
    have h2 : Rests s s2 := (Rests.refl s).ite ((rests_moduleResetNow s 4).trans (calm_power _ _).rests)
    exact (h2.trans ((calm_power s2 _).trans (calm_beginBringUp _)).rests).ite h2

theorem rests_resetBegin (s : State) : Rests s (if s.bring.resetDue then (s.moduleResetNow 3).beginBringUp else s) :=
  ((rests_moduleResetNow s 3).trans (calm_beginBringUp _).rests).ite (Rests.refl s)

end Sys2Proof.Machine
end

section
namespace Sys2Proof.Machine
variable {s t u : State}

/-! ## Channels that start -/

/-- No drain permission is given, and no channel comes into service. -/
structure Sinks (s t : State) : Prop where
  drainer : ∀ ch, t.arb.drainer = some ch → s.arb.drainer = some ch
  serve : ∀ ch, (t.role ch).st.serving → (s.role ch).st.serving

theorem Sinks.refl (s : State) : Sinks s s := ⟨fun _ => id, fun _ => id⟩

theorem Sinks.trans (a : Sinks s t) (b : Sinks t u) : Sinks s u :=
  ⟨fun ch h => a.drainer ch (b.drainer ch h), fun ch h => a.serve ch (b.serve ch h)⟩

theorem Sinks.ite {c : Prop} [Decidable c] (ht : Sinks s t) (hu : Sinks s u) : Sinks s (if c then t else u) := by
  split
  · exact ht
  · exact hu

theorem Sinks.foldl {α : Type} {f : State → α → State} (hf : ∀ s a, Sinks s (f s a)) (l : List α) (s : State) :
    Sinks s (l.foldl f s) := by
  induction l generalizing s with
  | nil => exact Sinks.refl s
  | cons a l ih => exact (hf s a).trans (ih (f s a))

theorem Calm.sinks (h : Calm s t) : Sinks s t := ⟨fun ch hd => by rwa [← h.arb], fun ch hs => by rwa [← h.st]⟩

theorem sinks_startChannel (s : State) (ch : Ch) : Sinks s (s.startChannel ch) := by
  unfold State.startChannel State.beginStage3
  refine Sinks.ite (Sinks.trans ⟨fun c hc => by simpa using hc, fun c hc => ?_⟩ (calm_onChan ..).sinks) (Sinks.refl s)
  rcases Ch.eq_or_other c ch with rfl | rfl
  · rw [State.modRole_role] at hc
    exact absurd hc (by simp [ChState.serving])
  · rwa [State.modRole_role_other] at hc

theorem sinks_backoffOver (s : State) (ch : Ch) : Sinks s (s.backoffOver ch) := by
  unfold State.backoffOver
  have c : Calm s _ := calm_modRole s ch (f := fun r => { r with backoffEnd := none }) fun _ => rfl
  exact (Sinks.refl s).ite (c.sinks.trans (sinks_startChannel ..))

theorem sinks_completeStage2 (s : State) : Sinks s s.completeStage2 := by
  unfold State.completeStage2
  extract_lets +onlyGivenNames id _ s1 s2 ctl _ _ _ s3 s4
  have h1 : Calm s s1 := calm_bring s _
  have h2 : Calm s s2 := (h1.trans (calm_loadImage s1)).trans (calm_readHeaders _)
  have h3 : Calm s s3 := h2.trans ⟨rfl, rfl, rfl, rfl, rfl⟩
  have h4 : Calm s s4 := (h3.mput _ _ _).eachChan _
  exact h4.sinks.trans (Sinks.foldl sinks_startChannel _ s4)

theorem sinks_stageDone (s : State) : Sinks s s.stageDone := by
  unfold State.stageDone
  dsimp only
  refine (Sinks.refl s).ite (Sinks.ite ((calm_bring s _).sinks.ite (Sinks.refl s)) ?_)
  refine Sinks.ite ?_ ((sinks_completeStage2 s).ite (Sinks.refl s))
  refine ⟨fun _ => id, fun ch h => ?_⟩
  cases ch <;> exact h

/-! ## The first step of a reinstatement

It takes the channel to STARTING; while no channel holds the lease, the declarations of the same slot only reset channels. -/

/-- No channel holds the lease, and no grant waits. -/
structure Unheld (s : State) : Prop where
  holder : s.arb.holder = none
  grant : s.arb.pending = none

theorem Calm.unheld (c : Calm s t) (h : Unheld s) : Unheld t := ⟨by rw [c.arb, h.holder], by rw [c.arb, h.grant]⟩

theorem unheld_beginReset (h : Unheld s) (ch : Ch) (cause : ResetCause) : Unheld (s.beginReset ch cause) := by
  constructor
  · rw [beginReset_arb]
    simp [Arbiter.dropped, h.holder]
  · rw [beginReset_arb]
    exact filter_eq_none_of _ h.grant

theorem sinks_beginReset (s : State) (ch : Ch) (cause : ResetCause) : Sinks s (s.beginReset ch cause) := by
  refine ⟨(rests_beginReset s ch cause).drainer, fun c hc => ?_⟩
  rcases Ch.eq_or_other c ch with rfl | rfl
  · rw [show ((s.beginReset c cause).role c).st = .off from congrArg Prod.fst (beginReset_role s c cause)] at hc
    exact absurd hc (by simp [ChState.serving])
  · rwa [st_of_rule (beginReset_role_other s ch cause)] at hc

theorem sinks_struck (s : State) (c : Ch) (cause : DeclCause) : Sinks s (s.struck c cause) := by
  have k := struck_view s c cause
  obtain ⟨d, n, -, ha⟩ := k.arb
  refine ⟨fun ch hc => by rw [ha] at hc; exact hc, fun ch hs => ?_⟩
  rcases Ch.eq_or_other ch c with rfl | rfl
  · rw [show ((s.struck ch cause).role ch).st = .failed from congrArg Prod.fst k.self] at hs
    exact absurd hs (by simp [ChState.serving])
  · rwa [st_of_rule k.other] at hs

theorem unheld_struck (h : Unheld s) (c : Ch) (cause : DeclCause) : Unheld (s.struck c cause) := by
  obtain ⟨d, n, -, ha⟩ := (struck_view s c cause).arb
  exact ⟨by rw [ha]; exact h.holder, by rw [ha]; exact h.grant⟩

/-- A declaration that finds no lease resets the channel (R509). -/
theorem declare_unheld (h : Unheld s) (c : Ch) (cause : DeclCause) : Sinks s (s.declare c cause) ∧ Unheld (s.declare c cause) := by
  rw [declare_eq]
  split
  · exact ⟨Sinks.refl s, h⟩
  extract_lets t rc _ t'
  have ht : Sinks s t := sinks_struck s c cause
  have hu : Unheld t := unheld_struck h c cause
  rw [if_pos (by rw [hu.holder]; rfl)]
  split
  · have hd : Sinks t { t with arb := { t.arb with drainer := none } } :=
      ⟨fun _ e => absurd e nofun, fun ch hs => by rwa [role_withArb] at hs⟩
    exact ⟨(ht.trans hd).trans (sinks_beginReset ..), unheld_beginReset (s := { t with arb := { t.arb with drainer := none } })
      ⟨hu.holder, hu.grant⟩ c rc⟩
  · exact ⟨ht.trans (sinks_beginReset ..), unheld_beginReset hu c rc⟩

theorem slotOf_unheld (h : Unheld s) (ch : Ch) : Sinks s (s.slotOf ch) ∧ Unheld (s.slotOf ch) := by
  have calm : ∀ {t}, Calm s t → Sinks s t ∧ Unheld t := fun c => ⟨c.sinks, c.unheld h⟩
  unfold State.slotOf
  extract_lets r s1
  have h1 : Calm s s1 := (calm_setRole s ch (r := { r with misses := r.misses + 1, goodRun := 0 }) rfl).minc _ _
  split
  · exact calm (calm_setRole s ch rfl)
  split
  · exact calm (calm_setRole s ch rfl)
  split
  · obtain ⟨d, n⟩ := declare_unheld (h1.unheld h) ch .heartbeat
    exact ⟨h1.sinks.trans d, n⟩
  · exact calm h1

theorem slots_unheld (l : List Ch) (h : Unheld s) : Sinks s (l.foldl State.slotOf s) ∧ Unheld (l.foldl State.slotOf s) := by
  induction l generalizing s with
  | nil => exact ⟨Sinks.refl s, h⟩
  | cons ch l ih =>
    obtain ⟨h1, n1⟩ := slotOf_unheld h ch
    obtain ⟨h2, n2⟩ := ih n1
    exact ⟨h1.trans h2, n2⟩

theorem sinks_backStarts (s : State) (b : Comeback) : Sinks s (s.backStarts b) := by
  refine ⟨fun _ => id, fun ch h => ?_⟩
  rcases Ch.eq_or_other ch b.chan with rfl | rfl
  · rw [backStarts_role] at h
    exact absurd h (by simp [ChState.serving, ChanRole.started])
  · rwa [backStarts_role_other] at h

/-! ## Entry into service -/

/-- The entry rules over one command: a drain permission is given only to a channel in ACTIVE, and no resting channel without one comes
into service. -/
structure Entry (s t : State) : Prop where
  drainer : ∀ ch, t.arb.drainer = some ch → s.arb.drainer = some ch ∨ (s.role ch).st = .active
  rest : ∀ ch, s.arb.drainer ≠ some ch → (s.role ch).st.resting → ¬ (t.role ch).st.serving

theorem ChState.resting.not_serving {x : ChState} (h : x.resting) : ¬ x.serving := by
  rcases h with rfl | rfl <;> simp [ChState.serving]

theorem Rests.entry (h : Rests s t) : Entry s t :=
  ⟨fun ch hd => .inl (h.drainer ch hd), fun ch hd hr => (h.rest ch hd hr).not_serving⟩

theorem Sinks.entry (h : Sinks s t) : Entry s t :=
  ⟨fun ch hd => .inl (h.drainer ch hd), fun ch _ hr hs => hr.not_serving (h.serve ch hs)⟩

theorem Calm.entry (h : Calm s t) : Entry s t := h.rests.entry

theorem Entry.calm (h : Entry s t) (c : Calm t u) : Entry s u :=
  ⟨fun ch hd => h.drainer ch (by rwa [← c.arb]), fun ch hd hr => by rw [c.st]; exact h.rest ch hd hr⟩

theorem Calm.before (c : Calm s t) (h : Entry t u) : Entry s u :=
  ⟨fun ch hd => by simpa only [c.arb, c.st] using h.drainer ch hd,
    fun ch hd hr => h.rest ch (by rwa [c.arb]) (by rwa [c.st])⟩

theorem rests_lateGrant (s : State) : Rests s s.lateGrant := by
  unfold State.lateGrant
  split
  · exact (rests_grantNow ..).ite (Rests.refl s)
  · exact Rests.refl s

theorem lateGrant_of_none (h : s.arb.pending = none) : s.lateGrant = s := by
  unfold State.lateGrant
  rw [h]

theorem calm_ticked (s : State) : Calm s s.ticked :=
  (Calm.trans (s := s) (t := { s with sbTime := s.sbTime + 1 }) ⟨rfl, rfl, rfl, rfl, rfl⟩ (calm_lacpTick _)).trans (calm_modeTick _)

/-- A slot that finds no return, or one whose channel is in STARTING already. -/
theorem rests_comeBack (h : ∀ b, s.arb.back = some b → b.starting = true) : Rests s s.comeBack := by
  cases hb : s.arb.back with
  | none =>
    unfold State.comeBack
    rw [hb]
    exact Rests.refl s
  | some b =>
    rw [comeBack_some hb, if_pos (h b hb)]
    have c : Rests s (s.applyAllHeld b.chan) := (calm_applyHeld _ _ s).rests
    unfold State.backGrant
    split
    · exact (c.trans (rests_arb _ (a := { (s.applyAllHeld b.chan).arb with back := none }) fun _ => id)).trans (rests_grant ..)
    · exact c

theorem entry_slot (h : LeaseInv s) : Entry s s.slot := by
  rw [slot_eq]
  have T := calm_ticked s
  split
  · exact T.entry
  refine T.before ?_
  have hi := T.inv h
  generalize s.ticked = v at *
  by_cases hb : ∀ b, v.arb.back = some b → b.starting = true
  · exact (((rests_comeBack hb).trans (Rests.foldl rests_slotOf _ _)).trans (rests_lateGrant _)).entry
  · push Not at hb
    obtain ⟨b, hb, hs⟩ := hb
    obtain ⟨a1, -, a3, -⟩ := (hi.rules b.chan).backAlone.resolve_left (by simp [hb])
    rw [comeBack_some hb, if_neg hs]
    have c : Calm (v.backStarts b) ((v.backStarts b).applyAllHeld b.chan) := calm_applyHeld _ _ _
    obtain ⟨h2, n2⟩ := slots_unheld v.channels (c.unheld ⟨a1, a3⟩)
    rw [lateGrant_of_none n2.grant]
    exact (((sinks_backStarts v b).trans c.sinks).trans h2).entry

/-- Only an exchange of roles gives a drain permission, to the holder (R517). -/
theorem entry_swapGrant (h : LeaseInv s) {d : Drill} (he : Exchange s d) : Entry s (s.swapGrant d) := by
  have ha := ((h.rules d.old).holder he.holder).1
  unfold State.swapGrant
  extract_lets _ s1
  have h1 : Rests s1 _ := rests_grantNow s1 ⟨d.new, d.old, .unfit, false, false, false, s1.sbTime⟩
  refine ⟨fun ch hd => .inr ?_, fun ch hd hr => (h1.rest ch (fun e => ?_) ?_).not_serving⟩
  · rw [← Option.some.inj (h1.drainer ch hd), ha]
  · rw [← Option.some.inj e, ha] at hr
    exact not_resting (by decide) (by decide) hr
  · exact (role_withArb s _ ch).symm ▸ hr

theorem entry_digestItem (h : LeaseInv s) : Entry s s.digestItem := by
  unfold State.digestItem
  split
  · exact (Rests.refl s).entry
  rename_i d hd
  split
  · exact (Rests.refl s).entry
  rename_i hn
  simp only [Bool.or_eq_true, not_or, bne_iff_ne, ne_eq, not_not, Bool.not_eq_true', Bool.not_eq_false] at hn
  obtain ⟨⟨⟨⟨-, -⟩, hh⟩, hw⟩, hs⟩ := hn
  extract_lets +onlyGivenNames s1 s2
  have c2 : Calm s s2 := ((calm_beginItem s).onChan _ _).onChan _ _
  have c3 : Calm s s2.dropJobs := c2.trans (calm_dropJobs s2)
  split
  · exact c2.entry
  split
  · exact ((c2.trans (calm_stale s2 d.new true)).rests.trans (rests_endDrill ..)).entry
  split
  · split
    · exact c3.before (entry_swapGrant (c3.inv h) (c3.exchange ⟨hd, hh, hw, hs⟩))
    · exact c2.entry
  · refine Entry.calm (Rests.entry (c3.rests.trans ?_)) (calm_beginItem _)
    exact rests_arb s2.dropJobs fun _ hx => by rwa [(calm_dropJobs s2).arb]

end Sys2Proof.Machine
end

section
namespace Sys2Proof.Machine
variable {s t : State}

/-! ## Every command keeps the rules of entry -/

/-- The next state of an outcome, where there is one, keeps the rules of entry. -/
def Leads (s : State) (r : Host.Outcome State Fault Refusal) : Prop := ∀ t, r = .next t → Entry s t

theorem leads_next (h : Entry s t) : Leads s (.next t) := fun u hu => by
  cases hu
  exact h

theorem leads_finish (h : Entry s t) : Leads s (.next (s.finish t)) := leads_next (h.calm (calm_finish s t))

/-- A command that a check may stop. -/
theorem leads_checked {c : Prop} [Decidable c] {f : Fault} {r : Host.Outcome State Fault Refusal} (h : Leads s r) :
    Leads s (if c then .fault f else r) := by
  split
  · exact fun u hu => nomatch hu
  · exact h

theorem leads_onCh {ch : Ch} {found : Bool} {f : Ctx → Channel → Channel} : Leads s (onCh s ch found f) :=
  leads_checked (leads_checked (leads_next ((calm_onChan s ch f).trans (calm_orderLog ..)).entry))

theorem leads_onPipe {ch : Ch} {found : Bool} {f : Ctx → Channel → Channel} : Leads s (onPipe s ch found f) := leads_onCh

theorem leads_bringsFrame {ch : Ch} {found : Bool} {g : State → State} {f : Ctx → Channel → Channel} (hg : ∀ u, Calm u (g u)) :
    Leads s (bringsFrame s ch found g f) := by
  have c : Calm s (g (s.onChan ch f)) := (calm_onChan s ch f).trans (hg _)
  unfold bringsFrame
  refine leads_checked ?_
  extract_lets u
  refine leads_checked ?_
  split
  · exact leads_next (c.trans (calm_orderLog s _)).entry
  · exact leads_finish (c.before (inPlace_wakeByAll u _).rests.entry)

theorem leads_frameReceive (ch : Ch) (port : Nat) (bytes : List Byte) (err : LineErr) (fec : Nat) (s : State) :
    Leads s (execFrameReceive ch port bytes err fec s) := leads_bringsFrame fun u => calm_compareSplit u port

theorem leads_lacpduReceive (ch : Ch) (port : Nat) (info : LacpInfo) (s : State) : Leads s (execLacpduReceive ch port info s) :=
  leads_bringsFrame fun u => calm_compareSplit u port

theorem leads_pauseReceive (ch : Ch) (port : Nat) (m : MacControl) (s : State) : Leads s (execPauseReceive ch port m s) :=
  leads_bringsFrame Calm.refl

theorem leads_markerResponse (ch : Ch) (port : Nat) (s : State) : Leads s (execMarkerResponse ch port s) :=
  leads_bringsFrame Calm.refl

theorem leads_hostRow (q : Request) (func : Nat) (s : State) : Leads s (hostRow q func s) := leads_finish (rests_handle s q func).entry

theorem leads_moduleRow (h : AuthHdr) (idx sub v : Nat) (s : State) : Leads s (moduleRow h idx sub v s) := leads_hostRow _ 2 s

theorem leads_channelRow (h : AuthHdr) (ch : Ch) (idx sub v : Nat) (s : State) : Leads s (channelRow h ch idx sub v s) :=
  leads_hostRow _ 2 s

theorem leads_busOff (e : CanChange) (s : State) : Leads s (execBusOff e s) := by
  have c : ∀ b, Entry s (s.canChange b e.level) := fun b => (calm_canChange s b e.level).entry
  unfold execBusOff
  cases e.bus with
  | canA => exact leads_finish (c false)
  | canB => exact leads_finish (c true)
  | eth | relay => exact fun u hu => nomatch hu

theorem leads_busOffRecovery (b : Bus) (s : State) : Leads s (execBusOffRecovery b s) := by
  cases b with
  | canA | canB => exact leads_next (calm_host s _).entry
  | eth | relay => exact fun u hu => nomatch hu

theorem leads_resyncComplete (s : State) : Leads s (execResyncComplete s) := by
  have h0 : Leads s (.next s) := leads_next (Rests.refl s).entry
  unfold execResyncComplete
  split
  · exact h0
  · rename_i r hr
    split
    · exact leads_finish ((calm_relay s _).trans (calm_stale _ r false)).entry
    · exact h0

/-- Every command keeps the rules of entry. -/
theorem leads_exec (h : LeaseInv s) (i : Instr) : Leads s (exec i s) := by
  cases i with
  | read | write | readBlock | writeBlock | snapshot | sessionOpen | sessionProve | heartbeatRequest | frameFromHost
  | relayRequest =>
    exact leads_hostRow _ _ s
  | moduleReset | channelReset | portReset | save | invalidate | erase | commit | switch | rearm | isolate | release
  | requestNight | requestNoon | requestDay =>
    exact leads_moduleRow _ _ _ _ s
  | clrHighWater | raise | tableRead | tableWrite | tableInsert | tableDelete | tableSearch | tableNext | flushByPort | ageNow
  | flushVrf | cleanFilter | lpmSearch | searchEntryRead | searchEntryWrite | searchEntryClear | searchCommandSearch | nextMatch
  | clearAll | flush | freeze | captureRelease | locate | checkStart | abort | incrementWrite | offsetStep | timeSet
  | copyPartner | timestampPop =>
    exact leads_channelRow _ _ _ _ _ s
  | junctionOvertemp | releaseCells | wordRepair | controlStoreScrub | timeTrigger | shaperRefill | learn | move
  | stashMigration | ageTick | sweepRead | ageDelete | tableCommandDone | searchUpdateApply | searchScrub | captureIntake
  | blockAged | blockWriteDone | timeTick | ppsOutFall | ppsInEdge | captureCommandDone | directionFlush
  | islandLockLoss | islandRelock | pauseExpire | pauseRefresh | lockLoss | linkUp | lacpPeriodic | partnerExpire
  | linkDownHoldExpire | anTimeout | anComplete | receiveLowPowerIdle | plcaBeacon | transmitOpportunity | toTimerExpire
  | plcaBeaconReceive | plcaBeaconLoss | collision | lateCollision | collisionBackoffEnd | falseCarrier | fabricFrameReceive
  | beaconReceive | beaconSend | beaconExpire | cutThroughStart | cutThroughEnd | lpiEnter | lpiWake | launchStart | lateLaunch
  | sequencerResetEnd | requesterGrant | requesterWaitTimeout | checkChunk | checkJobEnd | flushFinished | transmitStart
  | frameSent =>
    exact leads_onCh
  | parseFrame | lookup | routeRound | associativeSearch | dispatch | framelessDispatch | policeFrame | admitCopy
  | matchingRound | recirculate | egressEdit | nextWord | jumpWord | branchT | branchF | callWord | returnWord | endWord
  | dropWord | trapWord | rttWord | stepWatchdog | resultRelease | selectFrame =>
    exact leads_onPipe
  | frameReceive => exact leads_frameReceive _ _ _ _ _ s
  | lacpduReceive => exact leads_lacpduReceive _ _ _ s
  | pauseReceive => exact leads_pauseReceive _ _ _ s
  | markerResponse => exact leads_markerResponse _ _ s
  | segmentTimeout => exact leads_finish (calm_segmentLate s _ _ _).entry
  | sequenceError => exact leads_finish (calm_takeSegment s _ _ _ _ _ _).entry
  | challengeExpire | sessionIdleExpire | lockoutEnd | managementLinkChange => exact leads_next (calm_host s _).entry
  | moduleHeartbeat => exact leads_finish (calm_sendHeartbeat s).entry
  | notify => exact leads_checked (leads_finish (calm_sendNotify s _).entry)
  | notifyIntervalEnd => exact leads_checked (leads_finish ((calm_host s _).trans (calm_sendNotify _ _)).entry)
  | frameToHost => exact leads_checked (leads_finish (calm_toHost s _).entry)
  | busOff => exact leads_busOff _ s
  | busOffRecovery => exact leads_busOffRecovery _ s
  | relayAnswer => exact leads_finish (calm_relayBack s).entry
  | relayTimeout => exact leads_finish (calm_relayLate s _).entry
  | postedWriteApply =>
    exact leads_checked (leads_checked (leads_next (((calm_onChan s _ _).trans (calm_crossCheck _ _)).trans (calm_orderLog s _)).entry))
  | coldStart | brownOut => exact leads_finish (rests_powerUp s).entry
  | resetPin => exact leads_finish (rests_resetPin s _ _).entry
  | moduleResetBegin => exact leads_finish (rests_resetBegin s).entry
  | channelRestart => exact leads_checked (leads_finish ((sinks_startChannel s _).ite (Sinks.refl s)).entry)
  | stageComplete p =>
    cases p with
    | sb => exact leads_finish (sinks_stageDone s).entry
    | chan ch => exact leads_checked (leads_finish (rests_chanStageDone s ch _ _).entry)
  | stageFail p =>
    cases p with
    | sb => exact leads_finish (calm_stageFailed s _).entry
    | chan ch => exact leads_checked (leads_finish (rests_chanStageFailed s ch _).entry)
  | backoffExpire p =>
    cases p with
    | sb => exact leads_finish (Calm.ite (Calm.refl s) (calm_bring s _)).entry
    | chan ch => exact leads_checked (leads_finish (sinks_backoffOver s ch).entry)
  | outputTrip p =>
    cases p with
    | sb => exact leads_finish (rests_tripSb s).entry
    | chan ch => exact leads_checked (leads_finish (rests_outputTrip s ch).entry)
  | saveDone => exact leads_finish (calm_saveDone s _).entry
  | microcodeCommandDone => exact leads_finish (calm_microDone s _).entry
  | eventLogWrite => exact leads_finish (calm_writeLog s).entry
  | resync h =>
    cases h with
    | some h => exact leads_moduleRow h _ _ _ s
    | none => exact leads_finish (calm_autoResync s).entry
  | resyncComplete => exact leads_resyncComplete s
  | heartbeatArrival => exact leads_checked (leads_finish (rests_heartbeat s _).entry)
  | heartbeatSlot => exact leads_finish (entry_slot h)
  | selfDeclare => exact leads_checked (leads_finish (rests_selfDeclare s _ _).entry)
  | leaseLapse => exact leads_finish (rests_leaseLapse s).entry
  | fenceConfirm => exact leads_checked (leads_finish (rests_fenceConfirm s _).entry)
  | fenceFault => exact leads_checked (leads_finish (rests_fenceFault s _).entry)
  | recoveryWindowEnd => exact leads_finish (rests_windowEnd s).entry
  | arbiterLost => exact leads_finish (rests_loseArbiter s).entry
  | arbiterReturn => exact leads_finish (rests_returnArbiter s).entry
  | holdTurnExpire => exact leads_finish (rests_turnExpire s).entry
  | drillDue => exact leads_finish (rests_drillDue s).entry
  | digestItemDone => exact leads_finish (entry_digestItem h)
  | releasePoint => exact leads_finish (rests_releasePoint s).entry
  | drainEnd => exact leads_finish (rests_drainEnd s).entry
  | drainComplete => exact leads_finish (rests_drainComplete s).entry
  | deltaApply => exact leads_finish (calm_applyOne s).entry
  | relayDown => exact leads_finish (calm_relayLost s).entry
  | nightDrainEnd => exact leads_finish (rests_sleep s).entry
  | wakeTimeDue => exact leads_finish (rests_judgeWake s).entry
  | duskEntry => exact leads_finish (calm_duskEntry s).entry
  | setPointUpdate => exact leads_checked (leads_finish ((calm_onChan s _ _).trans (calm_updateLoop _ _ _ _)).entry)
  | supplyControllerFault => exact leads_finish (Calm.ite (calm_loseController s) (Calm.refl s)).entry
  | inputChange => exact leads_finish (calm_inputChange s _ _).entry
  | returningComplete => exact leads_finish (calm_returned s _).entry
  | powerLoss => exact leads_finish (rests_losePower s).entry
  | sbOutputRetry => exact leads_finish (calm_retrySb s _).entry
  | supplyMeasure => exact leads_finish (calm_measure s _).entry
  | mateLoopOpen => exact leads_finish (((calm_power s _).trans (calm_moveInput _ .a _)).trans (calm_moveInput _ .b _)).entry
  | mateLoopClose => exact leads_finish (calm_power s _).entry
  | contactHoldEnd => exact leads_finish (calm_contactHoldEnd s _).entry
  | tokenHandover => exact leads_checked (leads_next (rests_handToken s _).entry)
  | partnerTimeCopy => exact leads_checked (leads_next ((calm_partnerCopy s _).trans (calm_orderLog s _)).entry)
  | portResetDone => exact leads_finish (calm_mputBits s _ _ _ _ _).entry
  | invalidateDone => exact leads_finish (calm_invalidateDone s).entry

/-! ## What the rules of roles add -/

/-- A channel with a drain permission is in ACTIVE or DRAINING (R517). -/
theorem LeaseInv.no_drainer (h : LeaseInv s) {ch : Ch} (h1 : (s.role ch).st ≠ .active) (h2 : (s.role ch).st ≠ .draining) :
    s.arb.drainer ≠ some ch := fun e => ((h.rules ch).drainer e).elim h1 h2

/-- No command takes a resting channel into service (R45). -/
theorem exec_resting {i : Instr} {ch : Ch} (h : LeaseInv s) (hx : exec i s = .next t) (hr : (s.role ch).st.resting) :
    ¬ (t.role ch).st.serving := by
  have hd : s.arb.drainer ≠ some ch := by
    rcases hr with hr | hr <;> exact h.no_drainer (by simp [hr]) (by simp [hr])
  exact (leads_exec h i t hx).rest ch hd hr

/-- A channel that comes into ACTIVE holds the lease and no drain permission (R46). -/
theorem exec_active {i : Instr} {ch : Ch} (h : LeaseInv s) (hx : exec i s = .next t)
    (hs : (s.role ch).st = .standby ∨ (s.role ch).st = .starting) (ht : (t.role ch).st = .active) :
    t.arb.holder = some ch ∧ t.arb.drainer ≠ some ch := by
  obtain ⟨ha, hd⟩ : (s.role ch).st ≠ .active ∧ (s.role ch).st ≠ .draining := by rcases hs with hs | hs <;> simp [hs]
  have hn : t.arb.drainer ≠ some ch := fun e => ((leads_exec h i t hx).drainer ch e).elim (h.no_drainer ha hd) ha
  exact ⟨((((lawful_exec hx).inv h).rules ch).active ht).resolve_right hn, hn⟩

end Sys2Proof.Machine
end

section
namespace Sys2Proof.Machine

/-- Settles O9: no command but a start, a slot and the exchange of a drill moves a resting channel or gives a drain permission, a start
leads to STARTING and a slot of a reinstatement to STARTING or OFF, and the exchange gives the permission to the holder; so a channel
that comes into ACTIVE has no such permission and, by the rules of roles, holds the lease. -/
theorem serviceOnlyByGrant : Obligations.ServiceOnlyByGrant := by
  unfold Obligations.ServiceOnlyByGrant
  refine ⟨fun i s t ch h hx hr => ?_, fun i s t ch h hx hs ht => exec_active h hx hs ht⟩
  have hn := exec_resting h hx hr
  exact ⟨fun e => hn (.inl e), fun e => hn (.inr (.inl e)), fun e => hn (.inr (.inr e))⟩

end Sys2Proof.Machine
end

section
namespace Sys2Proof.Machine

/-! ## The junction and the islands (R73, R80) -/

variable {c d : Channel} {i k m : Nat}

theorem flagged_flag (h : d.reg i k = c.reg i k) (m : Nat) : flagged c (d.flag i k m) i k m :=
  (reg_flag_self d i k m).trans (by rw [h])

/-- The report of a junction at +105 °C or above: the temperature, the flag and perhaps an event (R73). -/
theorem junction_hot {tj : Nat} (h : 840 ≤ signedOf 16 tj) : flagged c (c.junction tj) 0x4000 0x21 2 ∧
    onlyRegs c (c.junction tj) [(0x4000, 0x1C), (0x4000, 0x21)] := by
  have stored : (c.put 0x4000 0x1C (tj % 2 ^ 16)).reg 0x4000 0x21 = c.reg 0x4000 0x21 :=
    reg_put_ne c (by decide) (by decide) (by decide)
  have only : onlyRegs c ((c.put 0x4000 0x1C (tj % 2 ^ 16)).flag 0x4000 0x21 2) [(0x4000, 0x1C), (0x4000, 0x21)] :=
    onlyRegs_flag 2 (by decide) (onlyRegs_put _ (by decide) (onlyRegs_refl c _) (by decide)) (by decide)
  unfold Channel.junction
  dsimp only
  rw [if_pos h]
  split
  · exact ⟨flagged_flag stored 2, onlyRegs_log _ _ only⟩
  · exact ⟨flagged_flag stored 2, only⟩

/-- Below +105 °C only the temperature is stored (R73). -/
theorem junction_cool {tj : Nat} (h : signedOf 16 tj < 840) : c.junction tj = c.put 0x4000 0x1C (tj % 2 ^ 16) :=
  if_neg (by omega)

theorem onlyRegs_junction (c : Channel) (tj : Nat) : onlyRegs c (c.junction tj) [(0x4000, 0x1C), (0x4000, 0x21)] := by
  rcases lt_or_ge (signedOf 16 tj) 840 with h | h
  · rw [junction_cool h]
    exact onlyRegs_put _ (by decide) (onlyRegs_refl c _) (by decide)
  · exact (junction_hot h).2

/-- An island without lock has none to lose (R80). -/
theorem lockLost_unlocked (cx : Ctx) (h : c.bit 0x4000 0x20 i = false) : c.lockLost cx i = c := by
  have hb : bitOf (c.reg 0x4000 0x20) i = false := h
  unfold Channel.lockLost
  simp [hb]

/-- A locked island that loses lock: its bit, the flag, the event, its ports (R80). -/
theorem lockLost_locked (cx : Ctx) (h : c.bit 0x4000 0x20 i = true) : c.lockLost cx i =
    (islandPorts i).foldl (fun d p => d.portDown cx p)
      (((c.putBit 0x4000 0x20 i false).flag 0x4000 0x21 (2 ^ 4)).log 0x34 (c.reg 0x4000 0x20)) := by
  have hb : bitOf (c.reg 0x4000 0x20) i = true := h
  unfold Channel.lockLost
  simp only [hb]
  rfl

/-- The buffer, time base and capture islands carry no port (R80). -/
theorem islandPorts_inner (h : 26 ≤ i) : islandPorts i = [] := by
  unfold islandPorts
  rw [if_neg (by omega), if_neg (by omega), if_neg (by omega), if_neg (by omega)]

/-- What the loss of lock of an island without ports shows (R80). -/
theorem lockLost_inner (c : Channel) (i a b : Nat) :
    let d := ((c.putBit 0x4000 0x20 i false).flag 0x4000 0x21 (2 ^ 4)).log a b
    d.bit 0x4000 0x20 i = false ∧ flagged c d 0x4000 0x21 (2 ^ 4) ∧ onlyRegs c d [(0x4000, 0x20), (0x4000, 0x21)] := by
  have kept : (c.putBit 0x4000 0x20 i false).reg 0x4000 0x21 = c.reg 0x4000 0x21 :=
    reg_putBit_ne c (by decide) (by decide) (by decide)
  have lock : ((c.putBit 0x4000 0x20 i false).flag 0x4000 0x21 (2 ^ 4)).reg 0x4000 0x20 = setBit (c.reg 0x4000 0x20) i false :=
    (reg_flag_ne _ (by decide) (by decide) (by decide)).trans (reg_putBit_self ..)
  refine ⟨?_, flagged_flag kept _, onlyRegs_log _ _ (onlyRegs_flag _ (by decide)
    (onlyRegs_putBit i false (by decide) (onlyRegs_refl c _) (by decide)) (by decide))⟩
  exact (congrArg (bitOf · i) lock).trans (bitOf_setBit_self _ i false)

theorem bit_putBit_self (c : Channel) (i k n : Nat) (b : Bool) : (c.putBit i k n b).bit i k n = b := by
  rw [Channel.bit, reg_putBit_self, bitOf_setBit_self]

theorem bit_putBit_ne (c : Channel) (i k : Nat) {n j : Nat} (b : Bool) (h : j ≠ n) :
    (c.putBit i k n b).bit i k j = c.bit i k j := by
  rw [Channel.bit, reg_putBit_self, bitOf_setBit_ne _ _ h.symm, Channel.bit]

end Sys2Proof.Machine
end

section
namespace Sys2Proof.Machine

/-- Settles O37: each row is an operation of its channel alone, and the operations say what they store. -/
theorem junctionAndIslands : Obligations.JunctionAndIslands := by
  intro s ch hp
  refine ⟨fun tj htj => ?_, fun i hi => ⟨fun hb => ?_, fun hb => ?_, ?_⟩⟩
  · obtain ⟨t, run, out, own⟩ := onCh_answers (fun _ c => c.junction tj) hp rfl
    refine ⟨t, run, out, ?_, ?_, fun hot => ?_, fun cool => ?_⟩ <;> rw [own]
    · exact (junction_reg _ tj).trans (Nat.mod_eq_of_lt htj)
    · exact onlyRegs_emptied (onlyRegs_junction _ tj)
    · exact (junction_hot hot).1
    · rw [junction_cool cool]
      exact reg_put_ne _ (by decide) (by decide) (by decide)
  · obtain ⟨t, run, out, own⟩ := onCh_answers (fun cx c => c.lockLost cx i) hp (Nat.ble_eq_true_of_le hi)
    exact ⟨t, run, out, by rw [own, lockLost_unlocked _ hb]⟩
  · obtain ⟨t, run, out, own⟩ := onCh_answers (fun cx c => c.lockLost cx i) hp (Nat.ble_eq_true_of_le hi)
    rw [lockLost_locked _ hb] at own
    refine ⟨t, run, out, own, fun inner => ?_⟩
    rw [own, islandPorts_inner inner]
    obtain ⟨lock, lost, only⟩ := lockLost_inner (s.chan ch) i 0x34 ((s.chan ch).reg 0x4000 0x20)
    exact ⟨lock, lost, onlyRegs_emptied only⟩
  · obtain ⟨t, run, out, own⟩ := onCh_answers (fun _ c => c.putBit 0x4000 0x20 i true) hp (Nat.ble_eq_true_of_le hi)
    refine ⟨t, run, out, ?_, fun j hj => ?_, ?_⟩ <;> rw [own]
    · exact bit_putBit_self _ _ _ i true
    · exact bit_putBit_ne _ _ _ true hj
    · exact onlyRegs_emptied (onlyRegs_putBit i true (by decide) (onlyRegs_refl _ _) (by decide))

end Sys2Proof.Machine
end

section
namespace Sys2Proof.Machine

/-! ## A signed WRITE of a channel object (R609) -/

/-- A line of the channel map whose object a WRITE carries as a number and which no cross-check follows. -/
structure Settable (idx sub : Nat) (o : Obj) : Prop where
  scope : 0x4000 ≤ idx ∧ idx < 0x6000 := by decide
  subIndex : sub < 256 := by decide
  line : objIn channelObjs idx sub = some o
  top : ∃ hi, highestSub channelObjs idx = some hi ∧ sub ≤ hi
  always : storeOnly idx = false := by decide
  access : (o.ty.isWindow || o.acc = .ro || o.acc = .roh) = false := by decide
  short : o.ty.readSize < 65536 := by decide
  number : isOct idx sub = false := by decide
  alone : idx ∉ [0x410C, 0x410D, 0x4200, 0x4206, 0x4252, 0x425D, 0x4232] := by decide

section Settable
variable {s : State} {h : AuthHdr} {ch : Ch} {idx sub v : Nat} {o : Obj} (S : Settable idx sub o)
include S

theorem Settable.place (hp : s.present ch = true) : s.place (idx + 0x2000 * ch.num) sub = .chan ch idx o := by
  obtain ⟨lo, hi⟩ := S.scope
  obtain ⟨top, htop, hle⟩ := S.top
  have hn : ch.num = 0 ∧ ch = .a ∨ ch.num = 1 ∧ ch = .b := by cases ch <;> simp [Ch.num]
  refine place_chan ?_ ?_ ?_ htop hle S.line hp S.always
  · simp only [documented, Bool.or_eq_true, Bool.and_eq_true, decide_eq_true_eq]
    omega
  · simp only [channelScope, decide_eq_true_eq]
    omega
  · unfold chanOf
    rcases hn with ⟨hn, rfl⟩ | ⟨hn, rfl⟩
    · rw [hn, if_pos (by omega), Nat.mul_zero, Nat.add_zero]
    · rw [hn, if_neg (by omega), Nat.mul_one, Nat.add_sub_cancel]

theorem Settable.valueSize : valueSize idx sub = o.ty.readSize := by
  have hc : channelScope idx = true := decide_eq_true S.scope.1
  have ho := S.access
  unfold Machine.valueSize
  rw [hc, if_pos rfl, S.line]
  cases hty : o.ty with
  | num n => simp [hty, Ty.readSize]
  | bool => simp [hty, Ty.readSize]
  | window n m => simp [hty, Ty.isWindow] at ho

/-- The row of a signed WRITE that no check turns away. -/
theorem Settable.row (sg : signedChannel s h ch idx sub v) (hv : v < 2 ^ (8 * o.ty.readSize))
    (hst : (s.chan ch).objStatus (s.ctx ch) (s.partnerTime ch) o idx sub v = 0) :
    ∃ t, channelRow h ch idx sub v s = .next t ∧ answeredOk t h (idx + 0x2000 * ch.num) sub ∧ sameBoard s t ∧
      t.chan ch.other = s.chan ch.other ∧ t.chan ch = ((s.chan ch).storeObj (s.ctx ch) o idx sub v).emptied := by
  obtain ⟨-, hp, -⟩ := id sg
  have hcarry : carryObj idx sub (Machine.valueSize idx sub) v = leBytes o.ty.readSize v := by
    rw [S.valueSize, carryObj, S.number]
    rfl
  refine channelRow_answers sg S.scope S.subIndex (S.place hp) S.access S.valueSize ?_ S.short ?_ hst S.alone
  · rw [hcarry, leBytes_length]
  · rw [hcarry, objOf, S.number]
    exact (leNat_leBytes _ v).trans (Nat.mod_eq_of_lt hv)

end Settable

/-- What a signed WRITE finds: its channel takes writes (R539, R569). -/
theorem notNow_of_signed {s : State} {h : AuthHdr} {ch : Ch} {idx sub v : Nat} (sg : signedChannel s h ch idx sub v) (o : Obj)
    (raw : Nat) (hi : idx ≠ 0x4710 ∧ idx ≠ 0x4C20) : (s.chan ch).notNow (s.ctx ch) o idx sub raw = false := by
  obtain ⟨-, -, holds, night, -⟩ := sg
  have h1 : (s.ctx ch).st.holdsWrites = false := holds
  have h2 : (s.ctx ch).night = .awake := night
  simp [Channel.notNow, h1, h2, hi]

/-- A plain object is busy with its posted domain only (R655). -/
theorem busyNow_plain {c : Channel} {idx sub raw : Nat} (hb : c.domainBusy idx sub = false) (hc : isCommand idx = false)
    (hi : idx ≠ 0x4707 ∧ idx < 0x4D01) : c.busyNow idx sub raw = false := by
  have hn : ¬ 0x4D01 ≤ idx := by omega
  simp [Channel.busyNow, hb, hc, hi, hn]

/-- The value checks decide over a signed WRITE that meets no busy object (R612). -/
theorem objStatus_of_signed {s : State} {h : AuthHdr} {ch : Ch} {idx sub v : Nat} {o : Obj} (sg : signedChannel s h ch idx sub v)
    (hb : (s.chan ch).domainBusy idx sub = false) (hc : isCommand idx = false)
    (hi : idx ≠ 0x4710 ∧ idx ≠ 0x4C20 ∧ idx ≠ 0x4707 ∧ idx < 0x4D01) (ho : o.acc ≠ .counter) (hty : o.ty = .bool → v ≤ 1)
    (hv : (s.chan ch).badValue (s.ctx ch) idx sub (written o idx sub ((s.chan ch).reg idx sub) v) v = false)
    (hu : (s.chan ch).unitRefuses (s.partnerTime ch) idx sub (written o idx sub ((s.chan ch).reg idx sub) v) = false) :
    (s.chan ch).objStatus (s.ctx ch) (s.partnerTime ch) o idx sub v = 0 := by
  obtain ⟨h1, h2, h3, h4⟩ := hi
  have hn : idx ≠ 0x4D08 := by omega
  have hty' : ¬(o.ty = .bool ∧ 1 < v) := fun x => by have := hty x.1; omega
  unfold Channel.objStatus
  simp [hn, notNow_of_signed sg o v ⟨h1, h2⟩, busyNow_plain hb hc ⟨h3, h4⟩, ho, hty', hv, hu]

/-! ## Objects of the posted time domain (R617, R655) -/

variable {c : Channel} {idx sub v : Nat}

theorem reg_setBusy (c : Channel) (d : Domain) (b : Bool) {i k : Nat} (h : objKey i k ≠ busyKey d) :
    (c.setBusy d b).reg i k = c.reg i k := (tabGet_tabSet _ _ _ _ _).trans (if_neg h)

theorem busy_setBusy (c : Channel) (d : Domain) : bitOf (tabGet chDflt (c.setBusy d true).dict (busyKey d)) 0 = true := by
  unfold Channel.setBusy
  rw [tabGet_tabSet, if_pos rfl, bitOf_setBit_self]

/-- A write of the object is accepted and not yet applied (R617). -/
def Posted.holds (idx sub : Nat) (p : Posted) : Bool := !p.win && p.key == objKey idx sub

theorem hw_eq (c : Channel) (idx sub : Nat) :
    c.hw idx sub = ((c.posted.find? (Posted.holds idx sub)).map Posted.old).getD (c.reg idx sub) := by
  have e : (fun p : Posted => !p.win && p.key == objKey idx sub) = Posted.holds idx sub := rfl
  unfold Channel.hw
  rw [e]
  cases c.posted.find? (Posted.holds idx sub) <;> rfl

/-- A WRITE of an object of one posted domain is noted, with the value in force unless one is noted already (R617). -/
theorem accept_posted (c : Channel) (cx : Ctx) (v : Nat) {d : Domain} (hd : domainsOf idx sub = [d]) :
    ∃ l p, c.accept cx idx sub v = (({ (c.mend (objKey idx sub)).put idx sub v with posted := l } : Channel).setBusy d true) ∧
      l.find? (Posted.holds idx sub) = some p ∧ p.old = c.hw idx sub := by
  have same : (fun p : Posted => p.win == false && p.key == objKey idx sub) = Posted.holds idx sub := by
    funext p
    cases hw : p.win <;> simp [Posted.holds, hw]
  have posted : ((c.mend (objKey idx sub)).put idx sub v).posted = c.posted := rfl
  unfold Channel.accept Channel.post
  simp only [hd, List.isEmpty_cons, Bool.false_eq_true, if_false, List.foldl_cons, List.foldl_nil, same, posted]
  rw [hw_eq]
  cases hf : c.posted.find? (Posted.holds idx sub) with
  | some p =>
    have noted : c.posted.any (Posted.holds idx sub) = true :=
      List.any_eq_true.2 ⟨p, List.mem_of_find?_eq_some hf, List.find?_some hf⟩
    rw [if_pos noted]
    exact ⟨c.posted, p, rfl, hf, rfl⟩
  | none =>
    have fresh : ¬c.posted.any (Posted.holds idx sub) = true := by
      simpa using List.find?_eq_none.1 hf
    rw [if_neg fresh]
    refine ⟨_, ⟨d, false, objKey idx sub, c.reg idx sub⟩, rfl, ?_, rfl⟩
    rw [List.find?_append, hf]
    simp [Posted.holds]

/-- A value accepted into a posted domain: the object reads it, the domain is busy, the value in force and the time base stay (R617). -/
theorem accept_pending (c : Channel) (cx : Ctx) (v : Nat) {d : Domain} (hd : domainsOf idx sub = [d])
    (hk : objKey idx sub ≠ busyKey d) :
    (c.accept cx idx sub v).domainBusy idx sub = true ∧ (c.accept cx idx sub v).reg idx sub = v ∧
      (c.accept cx idx sub v).hw idx sub = c.hw idx sub ∧ (c.accept cx idx sub v).time = c.time := by
  obtain ⟨l, p, e, found, old⟩ := accept_posted c cx v hd
  rw [e]
  refine ⟨?_, ?_, ?_, rfl⟩
  · rw [Channel.domainBusy, hd, List.any_cons, busy_setBusy, Bool.true_or]
  · exact (reg_setBusy _ d true hk).trans (reg_put_self _ idx sub v)
  · have kept : (({ (c.mend (objKey idx sub)).put idx sub v with posted := l } : Channel).setBusy d true).posted = l := rfl
    rw [hw_eq, kept, found]
    exact old

/-- The objects of the time domain that the rows write (R655). -/
structure TimeObject (idx sub : Nat) (o : Obj) : Prop extends Settable idx sub o where
  range : 0x4B00 ≤ idx ∧ idx ≤ 0x4B04 := by decide
  domain : domainsOf idx sub = [.time] := by decide
  kind : o.acc = .rw ∨ o.acc = .wo := by decide
  numeric : o.ty ≠ .bool := by decide

section TimeObject
variable {s : State} {h : AuthHdr} {ch : Ch} {o : Obj} (T : TimeObject idx sub o)
include T

theorem TimeObject.written (old raw : Nat) : written o idx sub old raw = maskWrite (fieldMask o idx sub) old raw := by
  obtain ⟨lo, hi⟩ := T.range
  have h1 : idx ≠ 0x4310 := by omega
  have h2 : idx ≠ 0x4410 := by omega
  unfold Machine.written
  rcases T.kind with hk | hk <;> simp [hk, h1, h2]

theorem TimeObject.notCommand : isCommand idx = false := by
  obtain ⟨lo, hi⟩ := T.range
  simp only [isCommand, Bool.or_eq_false_iff, beq_eq_false_iff_ne]
  omega

/-- The relay repeats no time object, so that the WRITE does no more than be accepted (R499). -/
theorem TimeObject.storeObj (c : Channel) (cx : Ctx) (raw : Nat) :
    c.storeObj cx o idx sub raw = c.accept cx idx sub (maskWrite (fieldMask o idx sub) (c.reg idx sub) raw) := by
  obtain ⟨lo, hi⟩ := T.range
  have relayed : relayedObj o idx = false := by
    have hle : idx ≤ 0x4BFF := by omega
    simp [relayedObj, lo, hle]
  have h1 : idx ≠ 0x4707 := by omega
  have h2 : idx ≠ 0x4D08 := by omega
  have h3 : idx ≠ 0x4B11 := by omega
  have h4 : idx ≠ 0x4000 := by omega
  unfold Channel.storeObj
  simp only [T.written]
  rcases T.kind with hk | hk <;> simp [hk, T.notCommand, relayed, h1, h2, h3, h4]

/-- The value checks of the time objects are those of R416, R417 and R420. -/
theorem TimeObject.badValue (c : Channel) (cx : Ctx) (v raw : Nat) : c.badValue cx idx sub v raw = c.badTime idx v raw := by
  obtain ⟨lo, hi⟩ := T.range
  unfold Channel.badValue
  rw [if_neg (by omega), if_neg (by simp; omega), if_neg (by omega), if_neg (by omega), if_neg (by omega), if_neg (by omega),
    if_neg (by omega), if_neg (by simp; omega), if_neg (by omega), if_pos (by omega)]

/-- The row of a signed WRITE of a time object that the unit does not refuse: the value is accepted and waits (R617). -/
theorem TimeObject.accepted {mask m : Nat} (hmask : fieldMask o idx sub = mask) (hm : m = maskWrite mask ((s.chan ch).reg idx sub) v)
    (sg : signedChannel s h ch idx sub v) (hv : v < 2 ^ (8 * o.ty.readSize)) (hb : (s.chan ch).domainBusy idx sub = false)
    (hbad : (s.chan ch).badTime idx m v = false) (hu : (s.chan ch).unitRefuses (s.partnerTime ch) idx sub m = false) :
    ∃ t, channelRow h ch idx sub v s = .next t ∧ answeredOk t h (idx + 0x2000 * ch.num) sub ∧ sameBoard s t ∧
      t.chan ch.other = s.chan ch.other ∧ t.chan ch = ((s.chan ch).accept (s.ctx ch) idx sub m).emptied ∧
      (t.chan ch).domainBusy idx sub = true ∧ (t.chan ch).reg idx sub = m ∧ (t.chan ch).hw idx sub = (s.chan ch).hw idx sub ∧
      (t.chan ch).time = (s.chan ch).time := by
  obtain ⟨lo, hi⟩ := T.range
  have value : Machine.written o idx sub ((s.chan ch).reg idx sub) v = m := by rw [T.written, hmask, hm]
  have status := objStatus_of_signed (o := o) sg hb T.notCommand (by omega) (by rcases T.kind with hk | hk <;> simp [hk])
    (fun ht => absurd ht T.numeric) (by rw [value, T.badValue, hbad]) (by rw [value, hu])
  obtain ⟨t, run, answer, board, other, own⟩ := T.row sg hv status
  rw [T.storeObj, hmask, ← hm] at own
  have key : objKey idx sub ≠ busyKey .time := by
    have := T.subIndex
    simp only [objKey, busyKey]
    omega
  refine ⟨t, run, answer, board, other, own, ?_⟩
  rw [own]
  exact accept_pending (s.chan ch) (s.ctx ch) m T.domain key

end TimeObject

/-! ## The lines of the map that the rows write -/

/-- 0x4B00:01 (R655). -/
def partnerLine : Obj := ⟨0x4B00, 0x4B00, [(1, 1)], .num 4, .rw, .P, 0x11, 0x0⟩

/-- 0x4B02 (R417). -/
def timeLine : Obj := ⟨0x4B02, 0x4B02, [(0, 0)], .num 10, .wo, .V, 0xFFFFFFFFFFFF3FFFFFFF, 0x0⟩

/-- 0x4B03 (R416). -/
def incrementLine : Obj := ⟨0x4B03, 0x4B03, [(0, 0)], .num 8, .rw, .V, 0xFFFFFFFFFF, 0x400000000⟩

/-- 0x4B04 (R417). -/
def offsetLine : Obj := ⟨0x4B04, 0x4B04, [(0, 0)], .num 8, .wo, .V, 0xFFFFFFFFFFFFFFFF, 0x0⟩

/-- 0x4B11 (R438). -/
def stampLine : Obj := ⟨0x4B11, 0x4B11, [(1, 52)], .bool, .rws, .V, 0x0, 0x0⟩

/-- 0x4000:10 (R74). -/
def trackLine : Obj := ⟨0x4000, 0x4000, [(16, 16)], .num 4, .rw, .P, 0x30, 0x0⟩

theorem partnerLine_time : TimeObject 0x4B00 1 partnerLine where
  line := by decide +kernel
  top := ⟨2, by decide +kernel, by decide⟩

theorem timeLine_time : TimeObject 0x4B02 0 timeLine where
  line := by decide +kernel
  top := ⟨0, by decide +kernel, by decide⟩

theorem incrementLine_time : TimeObject 0x4B03 0 incrementLine where
  line := by decide +kernel
  top := ⟨0, by decide +kernel, by decide⟩

theorem offsetLine_time : TimeObject 0x4B04 0 offsetLine where
  line := by decide +kernel
  top := ⟨0, by decide +kernel, by decide⟩

theorem stampLine_covers : ∀ p < 53, 1 ≤ p → objIn channelObjs 0x4B11 p = some stampLine := by decide +kernel

theorem stampLine_settable {p : Nat} (h1 : 1 ≤ p) (h2 : p ≤ 52) : Settable 0x4B11 p stampLine where
  subIndex := by omega
  line := stampLine_covers p (by omega) h1
  top := ⟨52, by decide +kernel, h2⟩
  number := by simp [isOct]

theorem trackLine_settable : Settable 0x4000 0x10 trackLine where
  line := by decide +kernel
  top := ⟨0x21, by decide +kernel, by decide⟩

/-! ## The ranges of R416 and R417 -/

theorem blt_eq_false {a b : Nat} (h : b ≤ a) : Nat.blt a b = false := by
  rw [← Bool.not_eq_true, Nat.blt_eq]
  omega

theorem increment_inRange {m raw : Nat} (lo : 7 * 2 ^ 32 ≤ 2 * bits m 39 0) (hi : 2 * bits m 39 0 ≤ 9 * 2 ^ 32) :
    c.badTime 0x4B03 m raw = false := by
  show (Nat.blt _ _ || Nat.blt _ _) = false
  rw [blt_eq_false lo, blt_eq_false hi, Bool.false_or]

theorem time_inRange {m raw : Nat} (hn : bits raw 31 30 = 0) (hns : bits m 29 0 ≤ 999999999)
    (hr : outOfTime ((bits m 79 32 * 1000000000 + bits m 29 0 : Nat) : Int) = false) : c.badTime 0x4B02 m raw = false := by
  show (_ != 0 || Nat.blt _ _ || outOfTime _) = false
  rw [hn, blt_eq_false hns, hr]
  rfl

/-! ## A field set in an object as it stands -/

theorem setBit_lt {v i n : Nat} (b : Bool) (hv : v < 2 ^ n) (hi : i < n) : setBit v i b < 2 ^ n := by
  refine Nat.lt_pow_two_of_testBit _ fun j hj => ?_
  rw [setBit, testBit_setBits _ _ _ (Nat.le_refl i), if_neg (by omega)]
  exact Nat.testBit_lt_two_pow (Nat.lt_of_lt_of_le hv (Nat.pow_le_pow_right (by decide) hj))

/-- A WRITE of the object as it stands but for a bit that no WRITE reaches leaves it. -/
theorem maskWrite_setBit {mask i : Nat} (v : Nat) (b : Bool) (h : mask.testBit i = false) :
    maskWrite mask v (setBit v i b) = v := by
  have same : setBit v i b &&& mask = v &&& mask := Nat.eq_of_testBit_eq fun j => by
    rw [Nat.testBit_and, Nat.testBit_and, setBit, testBit_setBits _ _ _ (Nat.le_refl i)]
    split
    · rw [show j = i by omega, h, Bool.and_false, Bool.and_false]
    · rfl
  rw [maskWrite, same, Nat.sub_add_cancel Nat.and_le_left]

/-! ## The rows that take effect at once -/

section Rows
variable {s : State} {h : AuthHdr} {ch : Ch}

/-- Writing 1 to a port's 0x4B11 removes the oldest entry of its queue (R438). -/
theorem stampPop_row {p : Nat} (h1 : 1 ≤ p) (h2 : p ≤ 52) (sg : signedChannel s h ch 0x4B11 p 1) :
    ∃ t, channelRow h ch 0x4B11 p 1 s = .next t ∧ answeredOk t h (0x4B11 + 0x2000 * ch.num) p ∧ sameBoard s t ∧
      t.chan ch.other = s.chan ch.other ∧ t.chan ch = ((s.chan ch).popStamp p).emptied := by
  have idle : (s.chan ch).domainBusy 0x4B11 p = false := rfl
  exact (stampLine_settable h1 h2).row sg (by decide) (objStatus_of_signed sg idle rfl (by decide) (by decide) (fun _ => Nat.le_refl 1)
    rfl rfl)

/-- CLR_HIGH_WATER, as it is noted for the next update of the loop (R74). -/
def Channel.markNoted (c : Channel) : Channel :=
  { c.put 0x4000 0x10 (setBit (c.reg 0x4000 0x10) 8 false) with core := { c.core with markDue := true } }

/-- A WRITE of 0x4000:10 stores its fields but CLR_HIGH_WATER, which is noted (R74). -/
theorem storeObj_track (c : Channel) (cx : Ctx) {raw : Nat}
    (hv : written trackLine 0x4000 0x10 (c.reg 0x4000 0x10) raw = c.reg 0x4000 0x10)
    (hr : bitOf raw 8 = true) : c.storeObj cx trackLine 0x4000 0x10 raw = c.markNoted := by
  have fields : c.storeObj cx trackLine 0x4000 0x10 raw =
      (let d := c.put 0x4000 0x10 (setBit (written trackLine 0x4000 0x10 (c.reg 0x4000 0x10) raw) 8 false)
       if bitOf raw 8 then { d with core := { d.core with markDue := true } } else d) := rfl
  rw [fields, hv, hr]
  rfl

theorem clrMark_row (hw : (s.chan ch).reg 0x4000 0x10 < 2 ^ 32) (ht : bits ((s.chan ch).reg 0x4000 0x10) 5 4 ≠ 3)
    (sg : signedChannel s h ch 0x4000 0x10 (setBit ((s.chan ch).reg 0x4000 0x10) 8 true)) :
    ∃ t, channelRow h ch 0x4000 0x10 (setBit ((s.chan ch).reg 0x4000 0x10) 8 true) s = .next t ∧
      answeredOk t h (0x4000 + 0x2000 * ch.num) 0x10 ∧ sameBoard s t ∧ t.chan ch.other = s.chan ch.other ∧
      t.chan ch = (s.chan ch).markNoted.emptied := by
  have value : written trackLine 0x4000 0x10 ((s.chan ch).reg 0x4000 0x10) (setBit ((s.chan ch).reg 0x4000 0x10) 8 true) =
      (s.chan ch).reg 0x4000 0x10 := maskWrite_setBit _ true (by decide)
  have fair : ∀ raw, (s.chan ch).badValue (s.ctx ch) 0x4000 0x10 ((s.chan ch).reg 0x4000 0x10) raw = false := fun _ =>
    beq_eq_false_iff_ne.2 ht
  have status := objStatus_of_signed (o := trackLine) sg rfl rfl (by decide) (by decide) (fun e => nomatch e)
    (by rw [value, fair]) rfl
  rw [← storeObj_track (s.chan ch) (s.ctx ch) value (bitOf_setBit_self _ 8 true)]
  exact trackLine_settable.row sg (setBit_lt true hw (by decide)) status

end Rows

end Sys2Proof.Machine
end

section
namespace Sys2Proof.Machine

/-- Settles O24: each row is a WRITE that the checks let pass; the time objects are accepted into their posted domain, the other two
take effect at once. -/
theorem timeAndWatermarkRows : Obligations.TimeAndWatermarkRows := by
  intro s h ch v
  refine ⟨fun sg hv hb lo hi => ?_, fun sg hv hb hr => ?_, fun sg hv hb hn hns hr => ?_, fun hw sg hb hp => ?_,
    fun h1 h2 sg => stampPop_row h1 h2 sg, fun hw ht sg => ?_⟩
  · exact incrementLine_time.accepted rfl rfl sg hv hb (increment_inRange lo hi) rfl
  · exact offsetLine_time.accepted rfl rfl sg hv hb hr rfl
  · exact timeLine_time.accepted rfl rfl sg hv hb (time_inRange hn hns hr) rfl
  · exact partnerLine_time.accepted rfl rfl sg (setBit_lt true hw (by decide)) hb rfl (by simp [Channel.unitRefuses, hp])
  · obtain ⟨t, run, answer, board, other, own⟩ := clrMark_row hw ht sg
    refine ⟨t, run, answer, board, other, ?_, ?_⟩ <;> rw [own]
    · exact onlyRegs_emptied ⟨rfl, (onlyRegs_put _ (by decide) (onlyRegs_refl _ _) (by decide)).2⟩
    · exact (congrArg (bitOf · 8) (reg_put_self ..)).trans (bitOf_setBit_self _ _ _)

end Sys2Proof.Machine
end

section
namespace Sys2Proof.Machine
/-! What a port keeps, and what the control frames that it sends leave as it was. -/

/-! ## The record of a port -/

theorem port_setPort (c : Channel) (p q : Nat) (x : PortSt) : (c.setPort p x).port q = if q = p then x else c.port q :=
  tabGet_tabSet _ _ _ _ _

@[simp] theorem port_setPort_self (c : Channel) (p : Nat) (x : PortSt) : (c.setPort p x).port p = x := by simp [port_setPort]

theorem port_setPort_ne (c : Channel) {p q : Nat} (x : PortSt) (h : q ≠ p) : (c.setPort p x).port q = c.port q := by
  simp [port_setPort, h]

@[simp] theorem reg_setPort (c : Channel) (p i k : Nat) (x : PortSt) : (c.setPort p x).reg i k = c.reg i k := rfl
@[simp] theorem port_put (c : Channel) (i k v p : Nat) : (c.put i k v).port p = c.port p := rfl
@[simp] theorem port_emit (c : Channel) (x : Sent) (p : Nat) : (c.emit x).port p = c.port p := rfl
@[simp] theorem reg_emit (c : Channel) (x : Sent) (i k : Nat) : (c.emit x).reg i k = c.reg i k := rfl
@[simp] theorem port_flag (c : Channel) (i k m p : Nat) : (c.flag i k m).port p = c.port p := by simp [Channel.port]
@[simp] theorem port_emptied (c : Channel) (p : Nat) : c.emptied.port p = c.port p := rfl
@[simp] theorem linkUp_emptied (c : Channel) (p : Nat) : c.emptied.linkUp p = c.linkUp p := rfl
@[simp] theorem tier_emptied (c : Channel) (e : Nat) : c.emptied.tier e = c.tier e := rfl

@[simp] theorem counts_emptied (c d : Channel) (i k n : Nat) : counts c d.emptied i k n ↔ counts c d i k n := Iff.rfl
@[simp] theorem flagged_emptied (c d : Channel) (i k m : Nat) : flagged c d.emptied i k m ↔ flagged c d i k m := Iff.rfl
@[simp] theorem keepsRegs_emptied (c d : Channel) (l : List (Nat × Nat)) : keepsRegs c d.emptied l ↔ keepsRegs c d l := Iff.rfl

theorem tier_setTier (c : Channel) (e k : Nat) (t : TierSt) : (c.setTier e t).tier k = if k = e then t else c.tier k :=
  tabGet_tabSet _ _ _ _ _

@[simp] theorem tier_setTier_self (c : Channel) (e : Nat) (t : TierSt) : (c.setTier e t).tier e = t := by simp [tier_setTier]

@[simp] theorem reg_setTier (c : Channel) (e i k : Nat) (t : TierSt) : (c.setTier e t).reg i k = c.reg i k := rfl
@[simp] theorem port_setTier (c : Channel) (e p : Nat) (t : TierSt) : (c.setTier e t).port p = c.port p := rfl

/-! ## Commands of a channel -/

/-- A command of a channel that exists, on a part that exists, gives what its operation makes of the channel. -/
theorem answersOn_onCh {i : Instr} {s : State} {ch : Ch} {part : Bool} {f : Ctx → Channel → Channel} {ok : State → Prop}
    (hi : exec i s = onCh s ch part f) (hc : s.present ch = true) (hp : part = true)
    (h : ∀ t, t.chan ch = (f (s.ctx ch) (s.chan ch)).emptied → t.sent = s.sent ++ (f (s.ctx ch) (s.chan ch)).box.out → ok t) :
    answersOn i ch s ok := by
  obtain ⟨t, run, out, own, sent⟩ := onCh_answers_sent f hc hp
  exact ⟨t, hi.trans run, out, h t own sent⟩

theorem isFront_of {p : Nat} (h1 : 1 ≤ p) (h : p ≤ 48) : isFront p = true := by simp [isFront, Nat.ble_eq, h1, h]

theorem isPaused_of {p : Nat} (h1 : 1 ≤ p) (h : p ≤ 52) : isPaused p = true := by simp [isPaused, Nat.ble_eq, h1, h]

end Sys2Proof.Machine
end

section
namespace Sys2Proof.Machine
/-! What a control frame that a port sends leaves of the channel (R98, R99, R102). -/

/-- The objects that a control frame of port `p` may touch: its status, its assertions and its counters. -/
def controlRegs (p : Nat) : List (Nat × Nat) :=
  [(0x4102, p), (0x4805, p), (0x4120, p), (0x4121, p), (0x4122, p), (0x4123, p), (0x4124, p), (0x4273, p - 48), (0x4274, p - 48),
    (0x4277, p - 48), (0x4279, p - 48), (0x427A, p - 48)]

/-- `d` is `c` but for what the control frames of port `p` touch: the outbox, the frames that wait there, low-power idle, and
`controlRegs`. -/
structure Sends (c d : Channel) (p : Nat) : Prop where
  rest : { d with dict := c.dict, box := c.box, ports := c.ports } = c
  port : d.port p = { c.port p with due := (d.port p).due }
  ports : ∀ q, q ≠ p → d.port q = c.port q
  regs : keepsRegs c d (controlRegs p)
  link : ∀ i, i ≠ 22 → bitOf (d.reg 0x4102 p) i = bitOf (c.reg 0x4102 p) i

theorem Sends.refl (c : Channel) (p : Nat) : Sends c c p := ⟨rfl, rfl, fun _ _ => rfl, keepsRegs_refl _ _, fun _ _ => rfl⟩

theorem keepsRegs_trans {c d e : Channel} {l : List (Nat × Nat)} (a : keepsRegs c d l) (b : keepsRegs d e l) : keepsRegs c e l :=
  fun i k hk hn => (b i k hk hn).trans (a i k hk hn)

theorem Sends.trans {c d e : Channel} {p : Nat} (a : Sends c d p) (b : Sends d e p) : Sends c e p := by
  refine ⟨?_, ?_, fun q hq => (b.ports q hq).trans (a.ports q hq), keepsRegs_trans a.regs b.regs,
    fun i hi => (b.link i hi).trans (a.link i hi)⟩
  · exact (congrArg (fun x : Channel => { x with dict := c.dict, box := c.box, ports := c.ports }) b.rest).trans a.rest
  · rw [b.port, a.port]

theorem Sends.ite {c d e : Channel} {p : Nat} {b : Prop} [Decidable b] (hd : Sends c d p) (he : Sends c e p) :
    Sends c (if b then d else e) p := by
  split
  · exact hd
  · exact he

theorem Sends.reg_ne {c d : Channel} {p i k : Nat} (h : Sends c d p) (hk : k < 256) (hn : (i, k) ∉ controlRegs p) :
    d.reg i k = c.reg i k := h.regs i k hk hn

theorem Sends.tiers {c d : Channel} {p : Nat} (h : Sends c d p) : d.tiers = c.tiers := by
  have e := congrArg Channel.tiers h.rest
  exact e

theorem Sends.posted {c d : Channel} {p : Nat} (h : Sends c d p) : d.posted = c.posted := by
  have e := congrArg Channel.posted h.rest
  exact e

/-- A counter of the port counts. -/
theorem sends_put {c : Channel} {p i k : Nat} (v : Nat) (hk : k < 256) (hm : (i, k) ∈ controlRegs p) (hp : p < 256)
    (hl : (i, k) = (0x4102, p) → ∀ j, j ≠ 22 → bitOf v j = bitOf (c.reg 0x4102 p) j) : Sends c (c.put i k v) p := by
  refine ⟨rfl, rfl, fun _ _ => rfl, keepsRegs_put v hk (keepsRegs_refl _ _) hm, fun j hj => ?_⟩
  by_cases e : (i, k) = (0x4102, p)
  · obtain ⟨rfl, rfl⟩ := Prod.mk.inj e
    rw [reg_put_self, hl e j hj]
  · rw [reg_put_ne c hk hp (Ne.symm e)]

theorem sends_counter {c : Channel} {p i k : Nat} (n : Nat) (hk : k < 256) (hm : (i, k) ∈ controlRegs p) (hp : p < 256)
    (hi : i ≠ 0x4102) : Sends c (c.add i k n) p :=
  sends_put _ hk hm hp fun e => absurd (Prod.mk.inj e).1 hi

/-- Low-power idle ends. -/
theorem sends_wake (c : Channel) {p : Nat} (hp : p < 256) : Sends c (c.putBit 0x4102 p 22 false) p :=
  sends_put _ hp (by simp [controlRegs]) hp fun _ j hj => bitOf_setBit_ne _ _ (Ne.symm hj)

theorem sends_emit (c : Channel) (p : Nat) (x : Sent) : Sends c (c.emit x) p :=
  ⟨rfl, rfl, fun _ _ => rfl, keepsRegs_refl _ _, fun _ _ => rfl⟩

theorem sends_countOut (c : Channel) {p : Nat} (n : Nat) (hp : p ≤ 52) : Sends c (c.countOut p n) p := by
  unfold Channel.countOut
  rcases Nat.lt_or_ge 48 p with h | h
  · simp only [Nat.not_le.2 h, hp, if_true, if_false]
    exact (sends_counter 1 (by omega) (by simp [controlRegs]) (by omega) (by decide)).trans
      (sends_counter n (by omega) (by simp [controlRegs]) (by omega) (by decide))
  · simp only [h, if_true]
    exact (sends_counter 1 (by omega) (by simp [controlRegs]) (by omega) (by decide)).trans
      (sends_counter n (by omega) (by simp [controlRegs]) (by omega) (by decide))

theorem sends_putControl (c : Channel) {p : Nat} (x : Sent) (hp : p ≤ 52) : Sends c (c.putControl p x) p := by
  have woken : Sends c (if p ≤ 48 && (c.emit x).bit 0x4102 p 22 then (c.emit x).putBit 0x4102 p 22 false else c.emit x) p :=
    Sends.ite ((sends_emit c p x).trans (sends_wake _ (by omega))) (sends_emit c p x)
  have counted : ∀ (d : Channel) (n i k : Nat), k < 256 → (i, k) ∈ controlRegs p → i ≠ 0x4102 → Sends d ((d.countOut p n).inc i k) p :=
    fun d n i k hk hm hi => (sends_countOut d n hp).trans (sends_counter 1 hk hm (by omega) hi)
  unfold Channel.putControl
  cases x with
  | pause _ _ pfc _ _ =>
    refine woken.trans (Sends.ite ?_ ?_) <;> cases pfc <;> exact counted _ _ _ _ (by omega) (by simp [controlRegs]) (by decide)
  | beacon | lacpdu | marker => exact woken.trans (counted _ _ _ _ (by omega) (by simp [controlRegs]) (by decide))
  | can | eth | frame | plcaBeacon | jam => exact woken

theorem sends_sendControl (c : Channel) {p : Nat} (x : Sent) (hp : p ≤ 52) : Sends c (c.sendControl p x) p := by
  refine Sends.ite ⟨rfl, ?_, fun q hq => port_setPort_ne c _ hq, keepsRegs_refl _ _, fun _ _ => rfl⟩ (sends_putControl c x hp)
  rw [port_setPort_self]

theorem sends_sendPause (c : Channel) (cx : Ctx) {p : Nat} (pfc : Bool) (enable quanta : Nat) (hp : p ≤ 52) :
    Sends c (c.sendPause cx p pfc enable quanta) p := Sends.ite (Sends.refl c p) (sends_sendControl c _ hp)

theorem sends_backPressure (c : Channel) (cx : Ctx) {p : Nat} (hp : p ≤ 52) : Sends c (c.backPressure cx p) p := by
  have step : ∀ {b : Prop} [Decidable b] {d : Channel} (pfc : Bool) (enable quanta : Nat), Sends c d p →
      Sends c (if b then d.sendPause cx p pfc enable quanta else d) p := fun pfc enable quanta h =>
    Sends.ite (h.trans (sends_sendPause _ cx pfc enable quanta hp)) h
  refine Sends.ite (Sends.refl c p) ?_
  exact (step _ _ _ (step _ _ _ (step _ _ _ (step _ _ _ (Sends.refl c p))))).trans
    (sends_put _ (by omega) (by simp [controlRegs]) (by omega) fun e => absurd (Prod.mk.inj e).1 (by decide))

end Sys2Proof.Machine
end

section
namespace Sys2Proof.Machine
/-! The link of a front port (R83 to R88, R99, R400). -/

/-! ## Link down -/

/-- Link down reported on a port whose link was up forgets what the port asserts, its partner, PAUSE and its lock. -/
theorem frontDown'_forgets (c : Channel) (cx : Ctx) {p : Nat} (hp : p ≤ 48) (hup : c.linkUp p = true) :
    (c.frontDown' cx p).reg 0x4805 p = 0 ∧ (c.frontDown' cx p).reg 0x4109 p = 0 ∧ (c.frontDown' cx p).reg 0x410B p = 0 ∧
      (c.frontDown' cx p).port p = (c.port p).dropped := by
  have up : (c.setPort p { c.port p with holding := false, locked := false }).linkUp p = true := hup
  have shape : ∃ d : Channel, c.frontDown' cx p = ((d.put 0x4805 p 0).dropPartner p).setPort p (c.port p).dropped := by
    simp only [Channel.frontDown', up, Bool.not_true, Bool.false_eq_true, if_false]
    exact ⟨_, rfl⟩
  obtain ⟨d, e⟩ := shape
  have ne : ∀ {i j : Nat}, i ≠ j → (i, p) ≠ (j, p) := fun h e => h (Prod.mk.inj e).1
  rw [e]
  refine ⟨?_, ?_, ?_, port_setPort_self ..⟩ <;> rw [reg_setPort, Channel.dropPartner]
  · rw [reg_put_ne _ (by omega) (by omega) (ne (by decide)), reg_put_ne _ (by omega) (by omega) (ne (by decide)), reg_setPort,
      reg_put_self]
  · rw [reg_put_ne _ (by omega) (by omega) (ne (by decide)), reg_put_self]
  · exact reg_put_self ..

/-- Of a port whose link was down only its hold and its lock go. -/
theorem frontDown'_of_down (c : Channel) (cx : Ctx) {p : Nat} (h : c.linkUp p = false) :
    c.frontDown' cx p = c.setPort p { c.port p with holding := false, locked := false } := by
  have down : (c.setPort p { c.port p with holding := false, locked := false }).linkUp p = false := h
  simp [Channel.frontDown', down]

/-! ## Link up -/

/-- The status of a member: DISTRIBUTING. -/
theorem updateActor_status (c : Channel) (cx : Ctx) {p : Nat} (hp : p < 256) : (c.updateActor cx p).reg 0x4102 p =
    setBit (c.reg 0x4102 p) 20 (c.linkUp p && c.hwBit 0x4100 p 26 && bitOf (c.actorOctet cx p) 5) := by
  unfold Channel.updateActor
  dsimp only
  split
  · exact (reg_putBits_ne _ hp hp (by simp)).trans (reg_putBit_self ..)
  · exact reg_putBit_self ..

theorem updateActor_only (c : Channel) (cx : Ctx) {p : Nat} (hp : p < 256) :
    onlyRegs c (c.updateActor cx p) [(0x4102, p), (0x4109, p)] := by
  have status := onlyRegs_putBit 20 (c.linkUp p && c.hwBit 0x4100 p 26 && bitOf (c.actorOctet cx p) 5) hp
    (onlyRegs_refl c [(0x4102, p), (0x4109, p)]) List.mem_cons_self
  unfold Channel.updateActor
  dsimp only
  split
  · exact onlyRegs_putBits 15 8 _ hp status (by simp)
  · exact status

theorem onlyRegs_port {c d : Channel} {l : List (Nat × Nat)} (h : onlyRegs c d l) (p : Nat) : d.port p = c.port p := by
  have e := congrArg Channel.ports h.1
  exact congrArg (fun t => tabGet (fun _ => PortSt.empty) t p) e

theorem onlyRegs_tier {c d : Channel} {l : List (Nat × Nat)} (h : onlyRegs c d l) (e : Nat) : d.tier e = c.tier e := by
  have tiers := congrArg Channel.tiers h.1
  exact congrArg (fun t => tabGet (fun _ => TierSt.empty) t e) tiers

/-- The partner runs the operation that SPEED, or negotiation, names (R83, R86). -/
def Channel.partnerFits (c : Channel) (p op : Nat) : Bool :=
  let speed := bits (c.hw 0x4100 p) 15 12
  (if speed = 0 then c.bit 0x4102 p 11 && (c.port p).anOp == op else speed == op) && op != 0

theorem partnerFits_iff (c : Channel) (p op : Nat) : c.partnerFits p op = true ↔
    (1 ≤ bits (c.hw 0x4100 p) 15 12 ∧ op = bits (c.hw 0x4100 p) 15 12) ∨
      (bits (c.hw 0x4100 p) 15 12 = 0 ∧ c.bit 0x4102 p 11 = true ∧ op = (c.port p).anOp ∧ op ≠ 0) := by
  unfold Channel.partnerFits
  dsimp only
  generalize bits (c.hw 0x4100 p) 15 12 = speed
  split
  · simp only [Bool.and_eq_true, beq_iff_eq, bne_iff_ne]
    grind
  · simp only [Bool.and_eq_true, beq_iff_eq, bne_iff_ne]
    omega

/-- The channel once the link of a port has come up and before its members and its back-pressure follow. -/
def Channel.linked (c : Channel) (p op : Nat) : Channel :=
  (((((c.putBit 0x4102 p 0 true).putBits 0x4102 p 15 12 op).setPort p
    { c.port p with locked := true, holding := false, tail := false, expired := c.hwBit 0x4100 p 26 }).flag 0x410D p 2).tierUp p)

theorem frontUp_of_down (c : Channel) (cx : Ctx) {p : Nat} (op : Nat) (hd : c.linkUp p = false) :
    c.frontUp cx p op = if c.linkAllowed cx p && c.partnerFits p op then ((c.linked p op).backPressure cx p).updateActor cx p
      else c := by
  unfold Channel.frontUp Channel.partnerFits Channel.linked
  simp only [hd]
  cases c.linkAllowed cx p
  · simp
  · generalize (if bits (c.hw 0x4100 p) 15 12 = 0 then c.bit 0x4102 p 11 && (c.port p).anOp == op
      else bits (c.hw 0x4100 p) 15 12 == op) = fits
    cases fits <;> by_cases h0 : op = 0 <;> simp [h0]

theorem linked_status (c : Channel) {p : Nat} (op : Nat) (hp : p ≤ 48) :
    (c.linked p op).reg 0x4102 p = setBits (setBit (c.reg 0x4102 p) 0 true) 15 12 op := by
  unfold Channel.linked Channel.tierUp
  rw [reg_setTier, reg_flag_ne _ (by omega) (by omega) (by simp), reg_setPort, reg_putBits_self, reg_putBit_self]

/-- A port that comes up: its link and its operation show, LINK_UP is set, its tier is up, and it regains its lock. -/
theorem frontUp_up (c : Channel) (cx : Ctx) {p : Nat} (op : Nat) (hp : p ≤ 48) (hd : c.linkUp p = false)
    (ha : c.linkAllowed cx p = true) (hf : c.partnerFits p op = true) :
    let d := c.frontUp cx p op
    d.linkUp p = true ∧ bits (d.reg 0x4102 p) 15 12 = op % 16 ∧ flagged c d 0x410D p 2 ∧ (d.tier p).down = false ∧
      d.port p = { c.port p with
        locked := true, holding := false, tail := false, expired := c.hwBit 0x4100 p 26, due := (d.port p).due } := by
  intro d
  have e : d = ((c.linked p op).backPressure cx p).updateActor cx p := by
    simp only [d, frontUp_of_down c cx op hd, ha, hf, Bool.and_self, if_true]
  have sends := sends_backPressure (c.linked p op) cx (p := p) (by omega)
  have only := updateActor_only ((c.linked p op).backPressure cx p) cx (p := p) (by omega)
  have status : ∀ i, i ≠ 20 → i ≠ 22 → bitOf (d.reg 0x4102 p) i = bitOf ((c.linked p op).reg 0x4102 p) i := fun i h1 h2 => by
    rw [e, updateActor_status _ _ (by omega), bitOf_setBit_ne _ _ (Ne.symm h1), sends.link i h2]
  have port : d.port p = ((c.linked p op).backPressure cx p).port p := by rw [e, onlyRegs_port only]
  refine ⟨?_, ?_, ?_, ?_, ?_⟩
  · rw [Channel.linkUp, if_pos hp, Channel.bit, status 0 (by decide) (by decide), linked_status c op hp,
      bitOf_setBits_ne _ _ (by decide) (by decide), bitOf_setBit_self]
  · refine Nat.eq_of_testBit_eq fun i => ?_
    have linkBits : bits ((c.linked p op).reg 0x4102 p) 15 12 = op % 16 := by
      exact (congrArg (bits · 15 12) (linked_status c op hp)).trans (bits_setBits_self _ _ (by decide))
    rw [← linkBits, testBit_bits, testBit_bits]
    by_cases hi : i < 15 + 1 - 12
    · rw [← bitOf_eq_testBit, ← bitOf_eq_testBit, status _ (by omega) (by omega)]
    · simp [hi]
  · unfold flagged
    rw [e, only.2 _ _ (by omega) (by simp), sends.reg_ne (by omega) (by simp [controlRegs])]
    unfold Channel.linked Channel.tierUp
    rw [reg_setTier, reg_flag_self, reg_setPort, reg_putBits_ne _ (by omega) (by omega) (by simp),
      reg_putBit_ne _ (by omega) (by omega) (by simp)]
  · rw [e, onlyRegs_tier only, Channel.tier, sends.tiers]
    exact congrArg TierSt.down (tier_setTier_self ..)
  · rw [port, sends.port]
    have own : (c.linked p op).port p =
        { c.port p with locked := true, holding := false, tail := false, expired := c.hwBit 0x4100 p 26 } := by
      simp [Channel.linked, Channel.tierUp]
    rw [own]

/-! ## Negotiation -/

theorem bitOf_or (a b i : Nat) : bitOf (a ||| b) i = (bitOf a i || bitOf b i) := by
  rw [bitOf_eq_testBit, bitOf_eq_testBit, bitOf_eq_testBit, Nat.testBit_or]

/-- An FEC that either end asks for is used (R85). -/
theorem resolveAn_eq (m own far : Nat) :
    let both := own &&& far
    let fec := fun (i : Nat) => bitOf own i || bitOf far i
    resolveAn m own far =
      if bitOf both 6 || bitOf both 5 then some 10 else if bitOf both 3 || bitOf both 2 then some (if fec 7 then 8 else 7)
      else if bitOf both 4 then some (if fec 8 then 6 else if fec 7 then 5 else 4)
      else if bitOf both 1 then some (if fec 7 then 3 else 2) else if bitOf both 0 && m == 0 then some 1 else none := by
  simp only [resolveAn, bitOf_or, beq_eq_decide]

end Sys2Proof.Machine
end

section
namespace Sys2Proof.Machine
/-! ## The rows of a front port's link -/

theorem portDown_front (c : Channel) (cx : Ctx) {p : Nat} (hp : p ≤ 48) : c.portDown cx p = c.frontDown' cx p := by
  rw [Channel.portDown, if_pos hp]

theorem loseLock_of_down {c : Channel} {p : Nat} (cx : Ctx) (h : c.linkUp p = false) : c.loseLock cx p = c := by
  simp [Channel.loseLock, h]

theorem loseLock_at_once {c : Channel} {p : Nat} (cx : Ctx) (hp : p ≤ 48) (h : c.linkUp p = true) (h0 : bits (c.hw 0x4107 p) 15 0 = 0) :
    c.loseLock cx p = c.frontDown' cx p := by
  simp [Channel.loseLock, h, h0, portDown_front c cx hp]

theorem loseLock_in_hold {c : Channel} {p : Nat} (cx : Ctx) (hp : p ≤ 48) (h : c.linkUp p = true) (h0 : bits (c.hw 0x4107 p) 15 0 ≠ 0) :
    c.loseLock cx p = if (c.port p).holding then c
      else c.setPort p { c.port p with locked := false, holding := true, tail := true } := by
  simp [Channel.loseLock, h, h0, Nat.not_lt.2 hp]

/-- A return of lock at a port whose link is up regains it within the hold, from the operation that ran (R86). -/
theorem frontUp_of_up {c : Channel} {p : Nat} (cx : Ctx) (op : Nat) (h : c.linkUp p = true) :
    c.frontUp cx p op = if (c.port p).holding && bits (c.reg 0x4102 p) 15 12 == op then
      c.setPort p { c.port p with holding := false, locked := true, tail := false } else c := by
  simp [Channel.frontUp, h]

/-- Negotiation that is not due, or finds no common ability, never completes (R85). -/
theorem completeAn_idle {c : Channel} {p far : Nat}
    (h : ¬(bitOf (c.hw 0x4100 p) 0 = true ∧ bits (c.hw 0x4100 p) 15 12 = 0 ∧ c.linkUp p = false) ∨
      resolveAn (bits (c.hw 0x4100 p) 11 10) (c.hw 0x4101 p) far = none) : c.completeAn p far = c := by
  rcases h with h | h
  · refine if_pos ?_
    cases he : bitOf (c.hw 0x4100 p) 0 <;> cases hu : c.linkUp p <;> simp_all
  · simp [Channel.completeAn, h]

theorem completeAn_resolved {c : Channel} {p far op : Nat}
    (h : bitOf (c.hw 0x4100 p) 0 = true ∧ bits (c.hw 0x4100 p) 15 12 = 0 ∧ c.linkUp p = false)
    (ho : resolveAn (bits (c.hw 0x4100 p) 11 10) (c.hw 0x4101 p) far = some op) : c.completeAn p far =
      (c.putBit 0x4102 p 11 true).setPort p { c.port p with anOp := op, eee := bitOf (c.hw 0x4101 p) 11 && bitOf far 11 } := by
  simp [Channel.completeAn, h, ho]

/-- What low-power idle of the receive side makes of a port with a link (R88). -/
def Channel.hearIdle (c : Channel) (p : Nat) (entered : Bool) : Channel :=
  if entered && !c.bit 0x4102 p 21 then (c.putBit 0x4102 p 21 entered).inc 0x4127 p else c.putBit 0x4102 p 21 entered

theorem hearIdle_status (c : Channel) {p : Nat} (b : Bool) (hp : p < 256) :
    (c.hearIdle p b).reg 0x4102 p = setBit (c.reg 0x4102 p) 21 b := by
  unfold Channel.hearIdle
  split
  · rw [reg_inc_ne _ hp hp (by simp), reg_putBit_self]
  · exact reg_putBit_self ..

theorem onlyRegs_hearIdle (c : Channel) {p : Nat} (b : Bool) (hp : p < 256) :
    onlyRegs c (c.hearIdle p b) [(0x4102, p), (0x4127, p)] := by
  have put := onlyRegs_putBit 21 b hp (onlyRegs_refl c [(0x4102, p), (0x4127, p)]) List.mem_cons_self
  unfold Channel.hearIdle
  split
  · exact onlyRegs_inc hp put (by simp)
  · exact put

theorem hearIdle_counts (c : Channel) {p : Nat} (hp : p < 256) (h : c.bit 0x4102 p 21 = false) :
    counts c (c.hearIdle p true) 0x4127 p 1 := by
  simp only [Channel.hearIdle, h, Bool.not_false, Bool.and_self, if_true, counts, reg_inc_self]
  rw [reg_putBit_ne _ hp hp (by simp)]

theorem hearIdle_uncounted (c : Channel) {p : Nat} {b : Bool} (hp : p < 256) (h : b = false ∨ c.bit 0x4102 p 21 = true) :
    (c.hearIdle p b).reg 0x4127 p = c.reg 0x4127 p := by
  have quiet : (b && !c.bit 0x4102 p 21) = false := by rcases h with h | h <;> simp [h]
  simp only [Channel.hearIdle, quiet, Bool.false_eq_true, if_false]
  exact reg_putBit_ne _ hp hp (by simp)

/-- Where a port may enter low-power idle it does, and counts it (R99). -/
theorem enterLpi_eq (c : Channel) {p : Nat} (hp : p ≤ 48) : c.enterLpi p =
    if bitOf (c.hw 0x4100 p) 23 && c.bit 0x4102 p 0 &&
        (if bits (c.hw 0x4100 p) 15 12 = 0 then (c.port p).eee else bitOf (c.hw 0x4101 p) 11) && !c.bit 0x4102 p 22 &&
        (c.port p).line.isNone && (c.tier p).picked.isEmpty && (c.queuedAt p).isEmpty
    then (c.putBit 0x4102 p 22 true).inc 0x4126 p else c := by
  have line : c.onLine p = (c.port p).line := by rw [Channel.onLine, if_pos (by omega)]
  simp only [Channel.enterLpi, line]

end Sys2Proof.Machine
end

section
namespace Sys2Proof.Machine

/-- Settles O49: each row is an operation of its port; a link that comes up by `frontUp_up`, one that is reported down by
`frontDown'_forgets`. -/
theorem frontLinks : Obligations.FrontLinks := by
  refine ⟨fun s ch p hc h1 hp => ?_, fun s ch e hc he => ?_, fun m own far _ _ => resolveAn_eq m own far⟩
  · have front := isFront_of h1 hp
    have paused := isPaused_of h1 (show p ≤ 52 by omega)
    have decided : (decide (1 ≤ p) && decide (p ≤ 48)) = true := by simp [h1, hp]
    have same : ∀ {i : Instr} {part : Bool} {f : Ctx → Channel → Channel} {d : Channel}, exec i s = onCh s ch part f → part = true →
        f (s.ctx ch) (s.chan ch) = d → answersOn i ch s fun t => t.chan ch = d.emptied := fun hi hpart hf =>
      answersOn_onCh hi hc hpart fun t own _ => hf ▸ own
    have down : ∀ {i : Instr} {part : Bool} {f : Ctx → Channel → Channel}, exec i s = onCh s ch part f → part = true →
        (s.chan ch).linkUp p = true → f (s.ctx ch) (s.chan ch) = (s.chan ch).frontDown' (s.ctx ch) p →
        answersOn i ch s fun t => t.chan ch = ((s.chan ch).frontDown' (s.ctx ch) p).emptied ∧
          (t.chan ch).reg 0x4805 p = 0 ∧ (t.chan ch).reg 0x4109 p = 0 ∧ (t.chan ch).reg 0x410B p = 0 ∧
          ((t.chan ch).port p).partner = false ∧ ((t.chan ch).port p).paused = false ∧ ((t.chan ch).port p).locked = false :=
      fun hi hpart hup hf => answersOn_onCh hi hc hpart fun t own _ => by
        obtain ⟨asserts, partner, system, port⟩ := frontDown'_forgets (s.chan ch) (s.ctx ch) hp hup
        rw [hf] at own
        refine ⟨own, ?_⟩
        simp only [own, reg_emptied, port_emptied, asserts, partner, system, port, PortSt.dropped, PortSt.empty, and_self]
    refine ⟨fun h => same rfl paused (loseLock_of_down _ h), fun h h0 => down rfl paused h (loseLock_at_once _ hp h h0),
      fun h h0 hh => same rfl paused (by rw [loseLock_in_hold _ hp h h0, if_pos hh]),
      fun h h0 hh => same rfl paused (by rw [loseLock_in_hold _ hp h h0, if_neg (by simp [hh])]),
      fun hh => same rfl front (if_neg (by simp [hh])), fun hh h => down rfl front h (by simp [hh, portDown_front _ _ hp]),
      fun hh h => same rfl front (by simp only [hh, if_true, portDown_front _ _ hp, frontDown'_of_down _ _ h]),
      fun op h hh ho => same rfl paused (by simp [hp, frontUp_of_up _ _ h, hh, ho]), fun op h hn => same rfl paused ?_,
      fun op h => ⟨fun hn => same rfl paused ?_, fun ha hf => ?_⟩, ⟨fun h => same rfl front (if_neg (by simp [h])), fun h => ?_⟩,
      fun far => ⟨fun hn => same rfl front (completeAn_idle hn), fun op hr ho => same rfl front (completeAn_resolved hr ho)⟩, ?_, ?_,
      fun b => ⟨fun h => same rfl front (by simp [h]), fun h => ?_⟩⟩
    · have calm : (((s.chan ch).port p).holding && bits ((s.chan ch).reg 0x4102 p) 15 12 == op) = false := by
        rcases hn with hn | hn <;> simp [hn]
      simp [hp, frontUp_of_up _ _ h, calm]
    · have barred : ((s.chan ch).linkAllowed (s.ctx ch) p && (s.chan ch).partnerFits p op) = false := by
        rw [Bool.and_eq_false_iff, ← Bool.not_eq_true ((s.chan ch).partnerFits p op), partnerFits_iff]
        exact hn
      simp [hp, frontUp_of_down _ _ _ h, barred]
    · refine answersOn_onCh rfl hc paused fun t own _ => ?_
      obtain ⟨link, oper, lit, tier, port⟩ :=
        frontUp_up (s.chan ch) (s.ctx ch) op hp h ha ((partnerFits_iff _ _ _).2 hf)
      simp only [hp, if_true] at own
      rw [own]
      refine ⟨?_, ?_, ?_, ?_, ?_⟩
      · rw [linkUp_emptied, link]
      · rw [reg_emptied, oper]
      · exact (flagged_emptied ..).2 lit
      · rw [tier_emptied, tier]
      · rw [port_emptied]
        exact port
    · refine answersOn_onCh rfl hc front fun t own _ => ?_
      rw [if_pos h] at own
      rw [own, flagged_emptied]
      exact ⟨reg_flag_self .., onlyRegs_emptied (onlyRegs_flag 4 (by omega) (onlyRegs_refl _ _) List.mem_cons_self)⟩
    · refine ⟨fun h => same rfl decided (by rw [enterLpi_eq _ hp]; exact if_neg (by simp [h])), fun h => ?_⟩
      refine answersOn_onCh rfl hc decided fun t own _ => ?_
      rw [enterLpi_eq _ hp, if_pos h] at own
      rw [own]
      refine ⟨?_, ?_, ?_⟩
      · rw [reg_emptied, reg_inc_ne _ (by omega) (by omega) (by simp), reg_putBit_self]
      · rw [counts_emptied, counts, reg_inc_self, reg_putBit_ne _ (by omega) (by omega) (by simp)]
      · exact onlyRegs_emptied (onlyRegs_inc (by omega) (onlyRegs_putBit 22 true (by omega) (onlyRegs_refl _ _) (by simp)) (by simp))
    · refine answersOn_onCh rfl hc decided fun t own _ => ?_
      rw [own, reg_emptied]
      exact ⟨reg_putBit_self .., onlyRegs_emptied (onlyRegs_putBit 22 false (by omega) (onlyRegs_refl _ _) (by simp))⟩
    · refine answersOn_onCh rfl hc front fun t own _ => ?_
      simp only [h, Bool.not_true, Bool.false_eq_true, if_false] at own
      have heard : t.chan ch = ((s.chan ch).hearIdle p b).emptied := own
      rw [heard, reg_emptied, reg_emptied, counts_emptied]
      exact ⟨hearIdle_status _ b (by omega), onlyRegs_emptied (onlyRegs_hearIdle _ b (by omega)),
        fun hb hq => hb ▸ hearIdle_counts _ (by omega) hq, fun hq => hearIdle_uncounted _ (by omega) hq⟩
  · exact answersOn_onCh rfl hc ((isTier_eq e).trans he) fun t own _ => own

end Sys2Proof.Machine
end

section
namespace Sys2Proof.Machine
/-! A wake that the outbox of a sleeping channel already holds names a pattern beyond the 32 of R111. Its control word is then another
object: here the count of skipped copies of session 0 (R444), whose bit 25 the frame itself clears. -/

/-- The number of a "pattern" whose control word 0x4231 would stand where 0x4C54:01 does. -/
def aliasPattern : Nat := objKey 0x4C54 1 - objKey 0x4231 0

/-- A sleeping module whose port 3 has its link, whose session 0 takes what port 3 receives to port 2, and in whose outbox the wake of
`aliasPattern` waits. -/
def aliasedWake : State :=
  let c := [(0x4102, 3, 1), (0x4C10, 1, 2 ^ 60 + 3 * 2 ^ 56 + 2 * 2 ^ 49 + 1), (0x4C11, 1, 2 ^ 123), (0x4C54, 1, 2 ^ 26 - 1)].foldl
    (fun (c : Channel) (x : Nat × Nat × Nat) => c.put x.1 x.2.1 x.2.2) State.reset.chA
  { State.reset with
    mode := { State.reset.mode with dawn := false, night := .asleep }
    chA := { c with box := { c.box with wake := some (3, [aliasPattern]) } } }

/-- After the command a wake source pulls WAKE low (R113). -/
def pulledAfter (o : Host.Outcome State Fault Refusal) (w : WakeCause) : Bool :=
  match o with
  | .next t => t.power.wakeBy.contains w
  | _ => false

/-- The fragment of no bytes is dropped with 0x03, and session 0 skips it. -/
theorem aliasedWake_facts :
    aliasedWake.leaveDawn = aliasedWake ∧ aliasedWake.drivesWake (.pattern .a 3 aliasPattern) = true ∧
      (aliasedWake.chA.receivePort (aliasedWake.ctx .a) 3 [] .none 0).box.wake = some (3, [aliasPattern]) ∧
      pulledAfter (exec (.frameReceive .a 3 [] .none 0) aliasedWake) (.pattern .a 3 aliasPattern) = false := by
  decide +kernel

/-- Refutes O47: the last clause on NIGHT reads DRIVE_PIN before the frame is taken in, for any pattern number that the outbox holds;
`aliasedWake` holds one whose control word the frame changes. -/
theorem not_frontFrames : ¬ Obligations.FrontFrames := by
  intro h
  obtain ⟨dawn, drives, wakes, stays⟩ := aliasedWake_facts
  obtain ⟨-, -, asleep⟩ := h.1 aliasedWake .a 3 [] .none 0 rfl (.inl ⟨by decide, by decide⟩) dawn rfl
  obtain ⟨t, run, -, woken⟩ := asleep rfl
  obtain ⟨-, -, -, -, -, pins⟩ := woken 3 aliasPattern [] wakes
  rw [run] at stays
  have pulled : pulledAfter (.next t) (.pattern .a 3 aliasPattern) = true :=
    List.contains_iff_mem.2 (pins aliasPattern List.mem_cons_self drives)
  rw [stays] at pulled
  exact absurd pulled (by decide)

end Sys2Proof.Machine
end

section
namespace Sys2Proof.Machine
/-! PAUSE_REFRESH of a port that asserts nothing leaves the channel as it is, while O48 has it write the record of the port back as it
stands. The two differ where the table of the ports is not in its canonical form. -/

/-- Fabric link 1 has its link and a frame is cut through to it; its port asserts nothing, and the table of the ports lists port 49 with
the value that an unlisted port has. -/
def looseTable : State :=
  { State.reset with chA := { State.reset.chA.put 0x4251 1 1 with
      ports := [(49, PortSt.empty)], cuts := [⟨2, 1, 0, [], 0, 0, 0, [], 0, 0, 0⟩] } }

/-- The table of the ports of channel A after a command that answers. -/
def portsAfter (o : Host.Outcome State Fault Refusal) : Option (Tab PortSt) :=
  match o with
  | .next t => some t.chA.ports
  | _ => none

/-- The refresh keeps the loose table; a write of the record drops the entry. -/
theorem looseTable_facts :
    looseTable.chA.linkUp 49 = true ∧ looseTable.chA.inProgress 49 = true ∧ looseTable.chA.reg 0x4805 49 = 0 ∧
      portsAfter (exec (.pauseRefresh .a 49) looseTable) = some [(49, PortSt.empty)] ∧
      (looseTable.chA.setPort 49 (looseTable.chA.port 49)).ports = [] := by
  decide +kernel

/-- Refutes O48: with nothing asserted and a frame in progress, the clause on PAUSE_REFRESH writes the record of port 49 of `looseTable`,
which changes its table of ports, and the command does not. -/
theorem not_frontControl : ¬ Obligations.FrontControl := by
  intro h
  obtain ⟨link, busy, quiet, kept, dropped⟩ := looseTable_facts
  obtain ⟨-, -, -, -, -, -, -, -, refresh, -⟩ := h.1 looseTable .a 49 rfl (by decide) (by decide)
  obtain ⟨t, run, -, own, -⟩ := refresh link busy
  have nothing : (looseTable.chan .a).reg 0x4805 49 = 0 := quiet
  have empties : t.chA.ports = [] := by
    simp only [nothing] at own
    exact (congrArg Channel.ports own).trans dropped
  rw [run] at kept
  have same : t.chA.ports = [(49, PortSt.empty)] := Option.some.inj kept
  rw [empties] at same
  exact absurd same (by decide)

end Sys2Proof.Machine
end

section
namespace Sys2Proof.Machine
/-! The frames of a channel and their copies (R363), and the fields of fabric tags (R143, R144). -/

/-! ## Frames -/

theorem frame_modFrame (c : Channel) (fid j : Nat) {h : Frame → Frame} (hid : ∀ f, (h f).id = f.id) :
    (c.modFrame fid h).frame j = (c.frame j).map fun f => if f.id = fid then h f else f := by
  unfold Channel.frame Channel.modFrame
  rw [List.find?_map]
  congr 2
  funext f
  by_cases e : f.id = fid <;> simp [e, hid]

theorem frame_id {c : Channel} {fid : Nat} {f : Frame} (h : c.frame fid = some f) : f.id = fid := by
  simpa using List.find?_some h

theorem frame_modFrame_self {c : Channel} {fid : Nat} {f : Frame} {h : Frame → Frame} (hid : ∀ f, (h f).id = f.id)
    (hf : c.frame fid = some f) : (c.modFrame fid h).frame fid = some (h f) := by
  simp [frame_modFrame c fid fid hid, hf, frame_id hf]

/-! ## Copies -/

/-- Frame `f` with copy `x` added (R363). -/
def Frame.grown (f : Frame) (x : Copy) : Frame :=
  { f with nextNo := f.nextNo + 1, share := f.share + 1, owner := (x.owner, x.no), copies := f.copies ++ [x] }

/-- Copy `mk` of frame `fid` is added under the next number. -/
theorem addCopy_eq {c : Channel} {fid : Nat} {f : Frame} (mk : Nat → Copy) (hf : c.frame fid = some f) (hn : f.nextNo < 255) :
    c.addCopy fid mk = (some f.nextNo, c.modFrame fid fun g => g.grown (mk f.nextNo)) := by
  simp only [Channel.addCopy, hf, Nat.not_le.2 hn, if_false, Frame.grown]

/-- The launch time that a frame's action record gives its forwarding copies (R305). -/
def Frame.launchTime (f : Frame) : Option Nat :=
  if bitOf (f.field 6) 2 then some (bits (f.field 9) 61 30 * 1000000000 + bits (f.field 9) 29 0) else none

/-- The forwarding copy of frame `f` to a tier. -/
def Frame.forward (f : Frame) (tier q : Nat) (tag : Option Nat) : Copy :=
  { Copy.mk0 f.nextNo tier .fwd .arrived tier q tag with
      launch := f.launchTime, info := f.info f.rx 15 0 tier q 0 f.stored f.tag.isSome }

theorem fwdCopy_eq {c : Channel} {fid : Nat} {f : Frame} (tier q : Nat) (tag : Option Nat) (hf : c.frame fid = some f)
    (hn : f.nextNo < 255) : c.fwdCopy fid tier q tag =
      { c.modFrame fid fun g => g.grown (f.forward tier q tag) with admitQ := c.admitQ ++ [(fid, f.nextNo)] } := by
  simp only [Channel.fwdCopy, Channel.placeCopy, hf, addCopy_eq _ hf hn]
  rfl

/-- What a forwarding copy is: all but its number, owner and metadata. -/
def Copy.shape (x : Copy) : CopyKind × CopyAt × Nat × Nat × Option Nat × Option Nat :=
  (x.kind, x.pos, x.tier, x.q, x.tag, x.launch)

/-- Forwarding copies to the tiers of `l`, in this order. -/
def Channel.fwdAll (c : Channel) (fid q : Nat) (l : List (Nat × Option Nat)) : Channel :=
  l.foldl (fun c z => c.fwdCopy fid z.1 q z.2) c

/-- Frame `fid` of `c`, which is `f`, has got the forwarding copies of `l`, and nothing else has changed. -/
structure Forwarded (c d : Channel) (fid q : Nat) (f : Frame) (l : List (Nat × Option Nat)) : Prop where
  rest : { d with frames := c.frames, admitQ := c.admitQ } = c
  queue : d.admitQ = c.admitQ ++ (List.range l.length).map fun i => (fid, f.nextNo + i)
  frame : ∃ g, d.frame fid = some g ∧ g.nextNo = f.nextNo + l.length ∧ g.act = f.act ∧
    g.copies.map Copy.shape = f.copies.map Copy.shape ++ l.map fun z => (.fwd, .arrived, z.1, q, z.2, f.launchTime)

theorem forwarded_fwdAll {fid q : Nat} (l : List (Nat × Option Nat)) :
    ∀ {c : Channel} {f : Frame}, c.frame fid = some f → f.nextNo + l.length ≤ 255 → Forwarded c (c.fwdAll fid q l) fid q f l := by
  induction l with
  | nil => exact fun hf _ => ⟨rfl, by simp [Channel.fwdAll], _, hf, by simp⟩
  | cons z l ih =>
    intro c f hf hn
    rw [List.length_cons] at hn
    have step := fwdCopy_eq z.1 q z.2 hf (by omega)
    have found : (c.fwdCopy fid z.1 q z.2).frame fid = some (f.grown (f.forward z.1 q z.2)) := by
      rw [step]; exact frame_modFrame_self (fun _ => rfl) hf
    obtain ⟨rest, queue, g, hg, no, act, copies⟩ := ih found (by simp only [Frame.grown]; omega)
    refine ⟨?_, ?_, g, hg, ?_, act, ?_⟩
    · have e := congrArg (fun x : Channel => { x with frames := c.frames, admitQ := c.admitQ }) rest
      refine e.trans ?_
      rw [step]; rfl
    · refine queue.trans ?_
      rw [step]
      simp [List.range_succ_eq_map, Function.comp_def, Frame.grown, Nat.add_assoc, Nat.add_comm 1]
    · rw [no]; simp only [Frame.grown, List.length_cons]; omega
    · rw [copies]; simp [Frame.grown, Frame.forward, Copy.shape, Copy.mk0, Frame.launchTime, Frame.field]

theorem fwdAll_append (c : Channel) (fid q : Nat) (l m : List (Nat × Option Nat)) :
    c.fwdAll fid q (l ++ m) = (c.fwdAll fid q l).fwdAll fid q m := List.foldl_append



end Sys2Proof.Machine
end

section
namespace Sys2Proof.Machine
/-! The fields of a fabric tag (R143, R144) and the way of a unicast frame (R158). -/

/-! ## Tags -/

/-- A tag as the sum of its fields. -/
def packTag (mc relay module port ch dest q colour pass hops : Nat) : Nat :=
  2 ^ 108 + mc * 2 ^ 107 + relay * 2 ^ 104 + module * 2 ^ 98 + port * 2 ^ 91 + ch * 2 ^ 90 + dest * 2 ^ 74 + q * 2 ^ 56
    + colour * 2 ^ 54 + pass * 2 ^ 52 + hops * 2 ^ 46

section
variable {mc relay module port ch dest q colour pass hops : Nat} (hmc : mc < 2) (hrelay : relay < 2) (hmodule : module < 2 ^ 6)
  (hport : port < 2 ^ 7) (hch : ch < 2) (hdest : dest < 2 ^ 16) (hq : q < 2 ^ 18) (hcolour : colour < 2 ^ 2) (hpass : pass < 2 ^ 2)
  (hhops : hops < 2 ^ 6)
include hmc hrelay hmodule hport hch hdest hq hcolour hpass hhops

theorem packTag_lt : packTag mc relay module port ch dest q colour pass hops < 2 ^ 112 := by unfold packTag; omega

/-- The fields above PASS. -/
theorem bits_packTag_upper : let v := packTag mc relay module port ch dest q colour pass hops
    bits v 111 108 = 1 ∧ bits v 107 107 = mc ∧ bits v 106 106 = 0 ∧ bits v 105 105 = 0 ∧ bits v 104 104 = relay ∧
      bits v 103 98 = module ∧ bits v 97 91 = port ∧ bits v 90 90 = ch := by
  simp only [bits, Nat.shiftRight_eq_div_pow, packTag]
  refine ⟨?_, ?_, ?_, ?_, ?_, ?_, ?_, ?_⟩ <;> omega

omit hmc hrelay hmodule hport hch in
theorem bits_packTag_lower : let v := packTag mc relay module port ch dest q colour pass hops
    bits v 89 74 = dest ∧ bits v 73 56 = q ∧ bits v 55 54 = colour ∧ bits v 53 52 = pass ∧ bits v 51 46 = hops ∧ bits v 45 0 = 0 := by
  simp only [bits, Nat.shiftRight_eq_div_pow, packTag]
  refine ⟨?_, ?_, ?_, ?_, ?_, ?_⟩ <;> omega

end

theorem bitOf_eq_bits (v i : Nat) : bitOf v i = (bits v i i == 1) := by
  rw [bitOf, bits, Nat.add_sub_cancel_left, Nat.pow_one]

/-- A tag holds its fields where R143 has them. -/
theorem mkTag_fields (mc relay : Bool) (cx : Ctx) (port dest q colour pass hops : Nat) (h1 : 1 ≤ cx.moduleId)
    (h64 : cx.moduleId ≤ 64) (hport : port < 2 ^ 7) (hdest : dest < 2 ^ 16) (hq : q < 2 ^ 18) (hcolour : colour < 4) (hpass : pass < 4)
    (hhops : hops < 64) : let v := mkTag mc relay cx port dest q colour pass hops
    v < 2 ^ 112 ∧ bits v 111 108 = 1 ∧ bitOf v 107 = mc ∧ bitOf v 106 = false ∧ bitOf v 105 = false ∧ bitOf v 104 = relay ∧
      bits v 103 98 + 1 = cx.moduleId ∧ bits v 97 91 = port ∧ bits v 90 90 = cx.ch.num ∧ bits v 89 74 = dest ∧ bits v 73 56 = q ∧
      bits v 55 54 = colour ∧ bits v 53 52 = pass ∧ bits v 51 46 = hops ∧ bits v 45 0 = 0 := by
  have hm : cx.moduleId - 1 < 2 ^ 6 := by omega
  have hch : cx.ch.num < 2 := by cases cx.ch <;> decide
  have packed : mkTag mc relay cx port dest q colour pass hops =
      packTag mc.toNat relay.toNat (cx.moduleId - 1) port cx.ch.num dest q colour pass hops := by
    simp only [mkTag, packTag, Nat.mod_eq_of_lt hdest, Nat.mod_eq_of_lt hq, Nat.mod_eq_of_lt hcolour, Nat.mod_eq_of_lt hpass,
      Nat.mod_eq_of_lt hhops, Nat.mod_eq_of_lt (show cx.moduleId - 1 < 64 from hm), Nat.mod_eq_of_lt (show port < 128 from hport)]
  have small := packTag_lt (Bool.toNat_lt mc) (Bool.toNat_lt relay) hm hport hch hdest hq hcolour hpass hhops
  obtain ⟨kind, group, ct, beacon, rel, module, source, chan⟩ :=
    bits_packTag_upper (Bool.toNat_lt mc) (Bool.toNat_lt relay) hm hport hch hdest hq hcolour hpass hhops
  obtain ⟨dst, queue, col, nth, left, zero⟩ :=
    bits_packTag_lower (mc := mc.toNat) (relay := relay.toNat) (module := cx.moduleId - 1) (port := port) (ch := cx.ch.num) hdest hq hcolour hpass hhops
  simp only [bitOf_eq_bits, packed, kind, group, ct, beacon, rel, module, source, chan, dst, queue, col, nth, left, zero]
  refine ⟨small, trivial, ?_, rfl, rfl, ?_, by omega, trivial, trivial, trivial, trivial, trivial, trivial, trivial, trivial⟩
  · cases mc <;> rfl
  · cases relay <;> rfl

/-- The tag of a frame that its record names a fabric port, where the frame has one: HOPS and COLOUR alone are new, and CUT is clear. -/
theorem portTag_fields (w colour : Nat) (hw : 0 < bits w 51 46) :
    let v := setBits (onwardTag w (bits w 51 46 - 1)) 55 54 colour
    bits v 51 46 = bits w 51 46 - 1 ∧ (colour < 4 → bits v 55 54 = colour) ∧ bitOf v 106 = false ∧
      bits v 105 56 = bits w 105 56 ∧ bits v 53 52 = bits w 53 52 ∧ bits v 111 107 = bits w 111 107 := by
  have apart : ∀ {hi lo : Nat}, 51 < lo ∧ hi < 54 ∨ 55 < lo ∧ hi < 106 ∨ 106 < lo →
      bits (setBits (onwardTag w (bits w 51 46 - 1)) 55 54 colour) hi lo = bits w hi lo := fun {hi lo} h => by
    rw [bits_setBits_ne _ _ (by decide) (by omega), onwardTag, bits_setBit_ne _ _ (by omega), bits_setBits_ne _ _ (by decide) (by omega)]
  have hops : bits w 51 46 < 64 := Nat.mod_lt _ (by decide)
  refine ⟨?_, fun h => ?_, ?_, apart (by omega), apart (by omega), apart (by omega)⟩
  · rw [bits_setBits_ne _ _ (by decide) (by omega), onwardTag, bits_setBit_ne _ _ (by omega), bits_setBits_self _ _ (by decide)]
    exact Nat.mod_eq_of_lt (by omega)
  · rw [bits_setBits_self _ _ (by decide)]
    exact Nat.mod_eq_of_lt h
  · rw [bitOf_setBits_ne _ _ (by decide) (by omega), onwardTag, bitOf_setBit_self]

/-! ## The way of a unicast frame -/

/-- A module that is in no ring and no line, or whose number is out of range, is not reached. -/
theorem way_nowhere {c : Channel} {cx : Ctx} {d : Nat} (h : c.topology = 0 ∨ d < 1 ∨ c.modules < d) : c.way cx d = .none := by
  unfold Channel.way
  rw [if_pos (by simpa [or_assoc] using h)]

section
variable {c : Channel} {cx : Ctx} {d : Nat} (ht : c.topology ≠ 0) (h1 : 1 ≤ d) (hn : d ≤ c.modules)
include ht h1 hn

theorem way_self (hd : d = cx.moduleId) : c.way cx d = .here := by
  unfold Channel.way
  rw [if_neg (by simp [ht]; omega), if_pos hd]

section
variable (hb : c.domainBad cx = false) (hd : d ≠ cx.moduleId)
include hb hd

omit ht in
/-- On a line a frame goes towards its module. -/
theorem way_line (hl : c.topology = 1) : c.way cx d =
    if (c.selected (if cx.moduleId < d then 51 else 49)).isSome
      then .to (if cx.moduleId < d then 51 else 49) (if cx.moduleId < d then d - cx.moduleId else cx.moduleId - d) else .none := by
  unfold Channel.way
  simp only [hb, hl, hd, if_false, if_true, Bool.false_eq_true]
  rw [if_neg (by simp; omega)]
  rcases c.selected (if cx.moduleId < d then 51 else 49) with _ | l <;> rfl

/-- In a ring a frame goes the shorter way round, to the right where both are as long, and the other way where that way has no link. -/
theorem way_ring (hl : c.topology ≠ 1) (hs : cx.moduleId ≤ c.modules) (hs1 : 1 ≤ cx.moduleId) :
    let n := c.modules
    let r := (d + n - cx.moduleId) % n
    c.way cx d = if r ≤ n - r
      then (if (c.selected 51).isSome then .to 51 r else if (c.selected 49).isSome then .to 49 (n - r) else .none)
      else (if (c.selected 49).isSome then .to 49 (n - r) else if (c.selected 51).isSome then .to 51 r else .none) := by
  have hr : (d + c.modules - cx.moduleId % c.modules) % c.modules = (d + c.modules - cx.moduleId) % c.modules := by
    rcases Nat.lt_or_ge cx.moduleId c.modules with h | h
    · rw [Nat.mod_eq_of_lt h]
    · have e : cx.moduleId = c.modules := by omega
      rw [e, Nat.mod_self, Nat.sub_zero, Nat.add_sub_cancel, Nat.add_mod_right]
  have hlt : (d + c.modules - cx.moduleId) % c.modules < c.modules := Nat.mod_lt _ (by omega)
  unfold Channel.way
  simp only [hb, hl, hd, if_false, Bool.false_eq_true, hr]
  rw [if_neg (by simp [ht]; omega)]
  generalize (d + c.modules - cx.moduleId) % c.modules = r at *
  by_cases hle : r ≤ c.modules - r
  · simp only [hle, if_true]
  · simp only [hle, if_false, Nat.sub_sub_self (Nat.le_of_lt hlt)]
    rfl

end
end

end Sys2Proof.Machine
end

section
namespace Sys2Proof.Machine
/-! The forwarding copies of a frame by its action record (R305, R684, R159). -/

/-- The directions and HOPS of the fabric copies of group `g` (R159). -/
def Channel.groupWays (c : Channel) (cx : Ctx) (g : Nat) : List (Nat × Nat) :=
  let dirs := c.wget 0x4257 g
  let n := bits (c.hw 0x4252 1) 22 16
  let s := cx.moduleId
  let ring := if bitOf dirs 0 = true ∧ bitOf dirs 1 = true then
      if (c.selected 49).isSome = (c.selected 51).isSome then [(49, (n - 1) / 2), (51, n / 2)]
      else if (c.selected 49).isSome then [(49, n - 1)] else [(51, n - 1)]
    else (if bitOf dirs 0 then [(49, n - 1)] else []) ++ (if bitOf dirs 1 then [(51, n - 1)] else [])
  let line := (if bitOf dirs 0 then [(49, s - 1)] else []) ++ (if bitOf dirs 1 then [(51, n - s)] else [])
  if c.domainBad cx = true ∨ c.topology = 0 then [] else (if c.topology = 1 then line else ring).filter fun z => z.2 != 0

/-- The tiers and tags of fabric copies with the directions and HOPS of `l`; one of HOPS 0 is none. -/
def groupSends (tag : Nat → Option Nat) (l : List (Nat × Nat)) : List (Nat × Option Nat) :=
  (l.filter fun z => z.2 != 0).map fun z => (z.1, tag z.2)

theorem fwdAll_groupSends_one (c : Channel) (fid q : Nat) (tag : Nat → Option Nat) (tier hops : Nat) :
    c.fwdAll fid q (groupSends tag [(tier, hops)]) = if hops = 0 then c else c.fwdCopy fid tier q (tag hops) := by
  by_cases h : hops = 0 <;> simp [groupSends, Channel.fwdAll, h]

theorem fwdAll_groupSends_append (c : Channel) (fid q : Nat) (tag : Nat → Option Nat) (l m : List (Nat × Nat)) :
    c.fwdAll fid q (groupSends tag (l ++ m)) = (c.fwdAll fid q (groupSends tag l)).fwdAll fid q (groupSends tag m) := by
  simp [groupSends, fwdAll_append]

theorem fwdAll_groupSends_ite (c : Channel) (fid q : Nat) (tag : Nat → Option Nat) (b : Bool) (tier hops : Nat) :
    c.fwdAll fid q (groupSends tag (if b then [(tier, hops)] else [])) =
      if b then (if hops = 0 then c else c.fwdCopy fid tier q (tag hops)) else c := by
  cases b
  · rfl
  · simp [fwdAll_groupSends_one]

theorem groupCopies_eq (c : Channel) (cx : Ctx) (f : Frame) (g q : Nat) : c.groupCopies cx f g q =
    c.fwdAll f.id q ((c.groupWays cx g).map fun z => (z.1, some (mkTag true false cx f.inPort g q f.colour f.pass z.2))) := by
  by_cases h0 : c.topology = 0 ∨ c.domainBad cx = true
  · rw [Channel.groupWays, if_pos h0.symm]
    unfold Channel.groupCopies
    rw [if_pos (by simpa using h0)]
    rfl
  have sends : ∀ l : List (Nat × Nat), (l.filter fun z => z.2 != 0).map
      (fun z => (z.1, some (mkTag true false cx f.inPort g q f.colour f.pass z.2))) =
      groupSends (fun n => some (mkTag true false cx f.inPort g q f.colour f.pass n)) l := fun _ => rfl
  rw [Channel.groupWays, if_neg fun h => h0 h.symm, sends]
  unfold Channel.groupCopies
  rw [if_neg (by simpa using h0)]
  by_cases h1 : c.topology = 1
  · simp only [h1, if_true, fwdAll_groupSends_append, fwdAll_groupSends_ite, Channel.modules]
  · simp only [h1, if_false, Channel.modules, Bool.and_eq_true, beq_iff_eq]
    by_cases hb : bitOf (c.wget 0x4257 g) 0 = true ∧ bitOf (c.wget 0x4257 g) 1 = true
    · simp only [hb, and_self, if_true]
      by_cases hl : (c.selected 49).isSome = (c.selected 51).isSome
      · have pair : ∀ a b : Nat × Nat, [a, b] = [a] ++ [b] := fun _ _ => rfl
        simp only [hl, if_true, pair, fwdAll_groupSends_append, fwdAll_groupSends_one] <;> rfl
      · simp only [hl, if_false]
        by_cases h49 : (c.selected 49).isSome = true
        · simp only [h49, if_true, fwdAll_groupSends_one] <;> rfl
        · simp only [h49, if_false, Bool.false_eq_true, fwdAll_groupSends_one] <;> rfl
    · simp only [hb, if_false, fwdAll_groupSends_append, fwdAll_groupSends_ite] <;> rfl

theorem groupWays_of_rest {c d : Channel} (cx : Ctx) (g : Nat) (h : { d with frames := c.frames, admitQ := c.admitQ } = c) :
    d.groupWays cx g = c.groupWays cx g := by
  have e := congrArg (fun x : Channel => x.groupWays cx g) h
  exact e

/-! ## The copies that a record names -/

section
variable {c : Channel} {cx : Ctx} {f : Frame}

theorem replicate_port (ht : bits (f.field 0) 26 24 = 1) (hp : ¬(49 ≤ bits (f.field 0) 6 0 ∧ bits (f.field 0) 6 0 ≤ 52)) :
    c.replicate cx f = .inr (c.fwdAll f.id (f.field 1) [(bits (f.field 0) 6 0, none)]) := by
  unfold Channel.replicate
  rw [if_pos ht, if_neg (by simpa using hp)]
  rfl

theorem replicate_link {w : Nat} (ht : bits (f.field 0) 26 24 = 1) (h49 : 49 ≤ bits (f.field 0) 6 0) (h52 : bits (f.field 0) 6 0 ≤ 52)
    (hw : f.tag = some w) : c.replicate cx f = .inr (c.fwdAll f.id (f.field 1)
      [(tierOf (bits (f.field 0) 6 0), some (setBits (onwardTag w (bits w 51 46 - 1)) 55 54 f.colour))]) := by
  unfold Channel.replicate
  rw [if_pos ht, if_pos (by simp [h49, h52])]
  simp only [Channel.portTag, hw]
  rfl

theorem replicate_here (ht : bits (f.field 0) 26 24 = 2) (hm : bits (f.field 0) 22 16 = cx.moduleId) :
    c.replicate cx f = .inr (c.fwdAll f.id (f.field 1) [(tierOf (bits (f.field 0) 6 0), none)]) := by
  unfold Channel.replicate
  rw [if_neg (by omega), if_pos ht, if_pos hm]
  rfl

theorem replicate_nowhere (ht : bits (f.field 0) 26 24 = 2) (hm : bits (f.field 0) 22 16 ≠ cx.moduleId) (hd : f.field 11 = 0)
    (hw : c.way cx (bits (f.field 0) 22 16) = .none) : c.replicate cx f = .inl 0x3D := by
  unfold Channel.replicate
  rw [if_neg (by omega), if_pos ht]
  simp only [hm, if_false, hd, if_true, hw]

theorem replicate_way {tier hops : Nat} (ht : bits (f.field 0) 26 24 = 2) (hm : bits (f.field 0) 22 16 ≠ cx.moduleId)
    (hd : f.field 11 = 0) (hw : c.way cx (bits (f.field 0) 22 16) = .to tier hops) :
    c.replicate cx f = .inr (c.fwdAll f.id (f.field 1) [(tier, some (mkTag false false cx f.inPort
      (tagDest (bits (f.field 0) 22 16) (bits (f.field 0) 6 0)) (f.field 1) f.colour f.pass hops))]) := by
  unfold Channel.replicate
  rw [if_neg (by omega), if_pos ht]
  simp only [hm, if_false, hd, if_true, hw]
  rfl

theorem bits_pair_eq_zero (v : Nat) : bits v 1 0 = 0 ↔ bitOf v 0 = false ∧ bitOf v 1 = false := by
  simp only [bits, bitOf, Nat.shiftRight_eq_div_pow]
  simp only [beq_eq_false_iff_ne]
  omega

theorem replicate_nobody (ht : bits (f.field 0) 26 24 = 3) (hl : c.members f (bits (f.field 0) 15 0) = []) (hf : f.transit = none)
    (h0 : bitOf (c.wget 0x4257 (bits (f.field 0) 15 0)) 0 = false) (h1 : bitOf (c.wget 0x4257 (bits (f.field 0) 15 0)) 1 = false) :
    c.replicate cx f = .inl 0x40 := by
  unfold Channel.replicate
  rw [if_neg (by omega), if_neg (by omega), if_pos ht]
  have nowhere := (bits_pair_eq_zero _).2 ⟨h0, h1⟩
  simp only [hl, hf, nowhere]
  rfl

/-- The members of a group, and ahead of them nothing; then its fabric copies. -/
theorem replicate_group (hfr : c.frame f.id = some f) (hno : f.nextNo + 90 ≤ 255) (ht : bits (f.field 0) 26 24 = 3)
    (h : c.members f (bits (f.field 0) 15 0) ≠ [] ∨ f.transit ≠ none ∨ bitOf (c.wget 0x4257 (bits (f.field 0) 15 0)) 0 = true ∨
      bitOf (c.wget 0x4257 (bits (f.field 0) 15 0)) 1 = true) :
    c.replicate cx f = .inr (c.fwdAll f.id (f.field 1) ((c.members f (bits (f.field 0) 15 0)).map (fun p => (p, none)) ++
      (if f.tag.isSome then [] else c.groupWays cx (bits (f.field 0) 15 0)).map fun z =>
        (z.1, some (mkTag true false cx f.inPort (bits (f.field 0) 15 0) (f.field 1) f.colour f.pass z.2)))) := by
  have some_ : ¬((c.members f (bits (f.field 0) 15 0)).isEmpty && f.transit.isNone &&
      decide (bits (c.wget 0x4257 (bits (f.field 0) 15 0)) 1 0 = 0)) = true := by
    simp only [Bool.and_eq_true, List.isEmpty_iff, Option.isNone_iff_eq_none, decide_eq_true_eq, bits_pair_eq_zero, and_assoc]
    rintro ⟨hl, hf, h0, h1⟩
    simp [hl, hf, h0, h1] at h
  have few : (c.members f (bits (f.field 0) 15 0)).length ≤ 80 := by
    refine (List.length_filter_le _ _).trans ?_
    simp [upFrom]
  have local_ : (c.members f (bits (f.field 0) 15 0)).foldl (fun c p => c.fwdCopy f.id p (f.field 1) none) c =
      c.fwdAll f.id (f.field 1) ((c.members f (bits (f.field 0) 15 0)).map fun p => (p, none)) := by
    rw [Channel.fwdAll, List.foldl_map]
  have made : Forwarded c _ f.id (f.field 1) f ((c.members f (bits (f.field 0) 15 0)).map fun p => (p, none)) :=
    forwarded_fwdAll _ hfr (by rw [List.length_map]; omega)
  unfold Channel.replicate
  rw [if_neg (by omega), if_neg (by omega), if_pos ht]
  simp only [some_, if_false, local_, groupCopies_eq, groupWays_of_rest cx _ made.rest, Bool.false_eq_true]
  rw [fwdAll_append]
  cases f.tag.isSome <;> rfl

theorem replicate_host (ht : bits (f.field 0) 26 24 = 4) :
    c.replicate cx f = .inr (c.fwdAll f.id (f.field 1) [(53, none)]) := by
  unfold Channel.replicate
  rw [if_neg (by omega), if_neg (by omega), if_neg (by omega), if_pos ht]
  rfl

theorem replicate_again (ht : bits (f.field 0) 26 24 = 5) :
    c.replicate cx f = .inr (c.fwdAll f.id (f.field 1) [(54, none)]) := by
  unfold Channel.replicate
  rw [if_neg (by omega), if_neg (by omega), if_neg (by omega), if_neg (by omega)]
  rfl

end

end Sys2Proof.Machine
end

section
namespace Sys2Proof.Machine
/-! The mirror sessions: what they take, and their copies (R441 to R446, R94). -/

/-! ## What a session takes -/

theorem qualifies_iff (c : Channel) (f : Frame) (m : Moment) (s : Nat) :
    let src := bits (c.hw 0x4C10 (s + 1)) 63 60
    let inSet := fun (p : Nat) => bitOf (c.hw 0x4C11 (s + 1)) ((15 - p / 8) * 8 + p % 8) = true
    c.qualifies f m s = true ↔
      (src = 1 ∧ m.rx = true ∧ inSet f.inPort ∧ m.drop ≠ 0x0C ∧ m.drop ≠ 0x0D) ∨ (src = 2 ∧ ∃ p, m.tx = some p ∧ inSet p) ∨
      (src = 3 ∧ ∃ q, m.queue = some q ∧ bits (c.hw 0x4C13 (s + 1)) 49 32 ≤ q ∧ q ≤ bits (c.hw 0x4C13 (s + 1)) 17 0) ∨
      (src = 4 ∧ m.drop ≠ 0 ∧ m.tx = none ∧ bitOf (c.hw 0x4C12 (s + 1)) ((31 - m.drop / 8) * 8 + m.drop % 8) = true) ∨
      (src = 5 ∧ m.act = true ∧ bitOf (f.field 5) s = true) := by
  unfold Channel.qualifies
  by_cases h1 : bits (c.hw 0x4C10 (s + 1)) 63 60 = 1
  · simp [h1, octBit, and_assoc]
  by_cases h2 : bits (c.hw 0x4C10 (s + 1)) 63 60 = 2
  · cases h : m.tx <;> simp [h2, octBit]
  by_cases h3 : bits (c.hw 0x4C10 (s + 1)) 63 60 = 3
  · cases h : m.queue <;> simp [h3, Nat.ble_eq]
  by_cases h4 : bits (c.hw 0x4C10 (s + 1)) 63 60 = 4
  · simp [h4, octBit, and_assoc]
  by_cases h5 : bits (c.hw 0x4C10 (s + 1)) 63 60 = 5
  · simp [h5]
  · simp [h1, h2, h3, h4, h5]

theorem qualifies_off {c : Channel} {s : Nat} (f : Frame) (m : Moment) (h : bits (c.hw 0x4C10 (s + 1)) 63 60 = 0) :
    c.qualifies f m s = false := by
  simp [Channel.qualifies, h]

/-- Session `s` takes frame `f` at a moment, but for its sample (R441 to R446). -/
def Channel.takes (c : Channel) (f : Frame) (m : Moment) (s : Nat) : Prop :=
  let cfg := c.hw 0x4C10 (s + 1)
  c.qualifies f m s = true ∧ (bitOf cfg 59 = true → bitOf (f.field 5) s = true) ∧ bits cfg 23 0 ≠ 0 ∧
    (bits cfg 63 60 ≠ 2 → s ∉ f.taken) ∧ (1 ≤ bits cfg 58 56 ∧ bits cfg 58 56 ≤ 2 → c.hwBit 0x4C00 1 0 = true)

/-- Session `s` looks at a frame that it takes: its sample counts, and is complete with a copy. -/
def Channel.sampled (c : Channel) (cx : Ctx) (fid : Nat) (m : Moment) (s : Nat) (f : Frame) : Channel :=
  let cfg := c.hw 0x4C10 (s + 1)
  let n := tabGet (fun _ => 0) c.cap.samples s + 1
  let marked := if bits cfg 63 60 ≠ 2 then c.modFrame fid fun f => { f with taken := f.taken ++ [s] } else c
  let count := fun (k : Nat) => { marked with cap := { c.cap with samples := tabSet (fun _ => 0) c.cap.samples s k } }
  if bits cfg 23 0 ≤ n then (count 0).sessionCopy cx f m s else count n

/-- Session `s` looks at frame `fid` at a moment. -/
def Channel.glance (c : Channel) (cx : Ctx) (fid : Nat) (m : Moment) (s : Nat) : Channel :=
  match c.frame fid with
  | none => c
  | some f =>
    let cfg := c.hw 0x4C10 (s + 1)
    let once := bits cfg 63 60 != 2
    let still := Nat.ble 1 (bits cfg 58 56) && Nat.ble (bits cfg 58 56) 2 && !c.hwBit 0x4C00 1 0
    if still || !c.qualifies f m s || (bitOf cfg 59 && !bitOf (f.field 5) s) || (once && f.taken.contains s) || bits cfg 23 0 == 0 then c
    else
      let n := tabGet (fun _ => 0) c.cap.samples s + 1
      let c := if once then c.modFrame fid fun f => { f with taken := f.taken ++ [s] } else c
      let take := Nat.ble (bits cfg 23 0) n
      let c := { c with cap := { c.cap with samples := tabSet (fun _ => 0) c.cap.samples s (if take then 0 else n) } }
      if take then c.sessionCopy cx f m s else c

theorem mirror_eq (c : Channel) (cx : Ctx) (fid : Nat) (m : Moment) :
    c.mirror cx fid m = (List.range 16).foldl (fun c s => c.glance cx fid m s) c := rfl

section
variable {c : Channel} {cx : Ctx} {fid s : Nat} {m : Moment} {f : Frame} (hf : c.frame fid = some f)
include hf

theorem glance_passed (h : ¬c.takes f m s) : c.glance cx fid m s = c := by
  unfold Channel.glance
  simp only [hf]
  refine if_pos ?_
  by_contra hn
  refine h ?_
  simp only [Bool.or_eq_true, Bool.and_eq_true, Bool.not_eq_true', Nat.ble_eq, bne_iff_ne, List.contains_iff_mem, beq_iff_eq,
    not_or, not_and, Bool.not_eq_false] at hn
  obtain ⟨⟨⟨⟨still, qual⟩, filter⟩, once⟩, zero⟩ := hn
  exact ⟨qual, filter, zero, once, still⟩

theorem glance_taken (h : c.takes f m s) : c.glance cx fid m s = c.sampled cx fid m s f := by
  obtain ⟨qual, filter, zero, once, still⟩ := h
  unfold Channel.glance
  simp only [hf]
  rw [if_neg]
  · unfold Channel.sampled
    by_cases h1 : bits (c.hw 0x4C10 (s + 1)) 63 60 = 2 <;>
      by_cases h2 : bits (c.hw 0x4C10 (s + 1)) 23 0 ≤ tabGet (fun _ => 0) c.cap.samples s + 1 <;>
        simp only [h1, h2, bne_self_eq_false, bne_iff_ne, ne_eq, not_false_eq_true, not_true, if_true, if_false, Nat.ble_eq, Bool.false_eq_true] <;>
        rfl
  · simp only [Bool.or_eq_true, Bool.and_eq_true, Bool.not_eq_true', Nat.ble_eq, bne_iff_ne, List.contains_iff_mem, beq_iff_eq,
      not_or, not_and, Bool.not_eq_false]
    exact ⟨⟨⟨⟨still, qual⟩, filter⟩, once⟩, zero⟩

end

theorem glance_off {c : Channel} (cx : Ctx) (fid : Nat) (m : Moment) {s : Nat} (h : bits (c.hw 0x4C10 (s + 1)) 63 60 = 0) :
    c.glance cx fid m s = c := by
  rcases hf : c.frame fid with _ | f
  · simp [Channel.glance, hf]
  · refine glance_passed hf fun ht => ?_
    obtain ⟨qual, _⟩ := ht
    simp [qualifies_off f m h] at qual

theorem glances_off {c : Channel} (cx : Ctx) (fid : Nat) (m : Moment) {l : List Nat}
    (h : ∀ s, s ∈ l → bits (c.hw 0x4C10 (s + 1)) 63 60 = 0) : l.foldl (fun c s => c.glance cx fid m s) c = c := by
  induction l with
  | nil => rfl
  | cons s l ih =>
    rw [List.foldl_cons, glance_off cx fid m (h s (by simp))]
    exact ih fun k hk => h k (List.mem_cons_of_mem _ hk)

/-! ## The copy of a session -/

/-- What a session's copy may count and show. -/
def sessionRegs (s : Nat) : List (Nat × Nat) :=
  [(0x4C53, s + 1), (0x4C54, s + 1), (0x4C0F, 1), (0x4C01, 3), (0x4C52, 1), (0x4C52, 3), (0x4825, 1), (0x480F, 1)]

/-- `d` is `c` but for a copy of a session: frames, line of admission, capture, drop counters, drawn values, and `sessionRegs`. -/
structure Mirrored (c d : Channel) (s : Nat) : Prop where
  rest : { d with
    dict := c.dict, box := c.box, frames := c.frames, admitQ := c.admitQ,
    cap := c.cap, drops := c.drops } = c
  out : d.box.out = c.box.out
  regs : keepsRegs c d (sessionRegs s)

@[simp] theorem out_flag (c : Channel) (i k m : Nat) : (c.flag i k m).box.out = c.box.out := by
  unfold Channel.flag
  dsimp only
  split <;> rfl

theorem Mirrored.refl (c : Channel) (s : Nat) : Mirrored c c s := ⟨rfl, rfl, keepsRegs_refl _ _⟩

theorem Mirrored.trans {c d e : Channel} {s : Nat} (a : Mirrored c d s) (b : Mirrored d e s) : Mirrored c e s := by
  refine ⟨?_, b.out.trans a.out, keepsRegs_trans a.regs b.regs⟩
  have step := congrArg (fun x : Channel => { x with
    dict := c.dict, box := c.box, frames := c.frames, admitQ := c.admitQ,
    cap := c.cap, drops := c.drops }) b.rest
  exact step.trans a.rest

theorem Mirrored.posted {c d : Channel} {s : Nat} (h : Mirrored c d s) : d.posted = c.posted := by
  have e := congrArg Channel.posted h.rest
  exact e

theorem mirrored_add {c : Channel} {s i k : Nat} (n : Nat) (hk : k < 256) (hm : (i, k) ∈ sessionRegs s) : Mirrored c (c.add i k n) s :=
  ⟨rfl, rfl, keepsRegs_add n hk (keepsRegs_refl _ _) hm⟩

theorem mirrored_flag {c : Channel} {s i k : Nat} (m : Nat) (hk : k < 256) (hm : (i, k) ∈ sessionRegs s) :
    Mirrored c (c.flag i k m) s := by
  refine ⟨?_, out_flag c i k m, keepsRegs_flag m hk (keepsRegs_refl _ _) hm⟩
  have only := (onlyRegs_flag (i := i) m hk (onlyRegs_refl c [(i, k)]) (by simp)).1
  have e := congrArg (fun x : Channel => { x with
    frames := c.frames, admitQ := c.admitQ, cap := c.cap, drops := c.drops }) only
  exact e

theorem mirrored_modFrame (c : Channel) (s fid : Nat) (h : Frame → Frame) : Mirrored c (c.modFrame fid h) s :=
  ⟨rfl, rfl, keepsRegs_refl _ _⟩

theorem mirrored_addCopy (c : Channel) (s fid : Nat) (mk : Nat → Copy) : Mirrored c (c.addCopy fid mk).2 s := by
  unfold Channel.addCopy
  split
  · exact .refl c s
  · split
    · exact (mirrored_add 1 (by decide) (by simp [sessionRegs])).trans (mirrored_flag 16 (by decide) (by simp [sessionRegs]))
    · exact mirrored_modFrame c s _ _

theorem mirrored_takeNumber (c : Channel) (s : Nat) : Mirrored c c.takeNumber.2 s :=
  ⟨rfl, rfl, keepsRegs_put _ (by decide) (keepsRegs_refl _ _) (by simp [sessionRegs])⟩

theorem mirrored_skipSession (c : Channel) {s : Nat} (hs : s < 16) : Mirrored c (c.skipSession s) s :=
  (mirrored_add 1 (by omega) (by simp [sessionRegs])).trans (mirrored_flag 1 (by decide) (by simp [sessionRegs]))

theorem mirrored_toCapture (c : Channel) (fid : Nat) {s : Nat} (x : Nat → Copy) (hs : s < 16) : Mirrored c (c.toCapture fid s x) s := by
  have counted : Mirrored c (c.takeNumber.2.inc 0x4C53 (s + 1)) s :=
    (mirrored_takeNumber c s).trans (mirrored_add 1 (by omega) (by simp [sessionRegs]))
  have lost : ∀ cause, (0x4C52, cause) ∈ sessionRegs s → cause < 256 →
      Mirrored c ((c.takeNumber.2.inc 0x4C53 (s + 1)).loseRecords cause 1) s := fun cause hm hk =>
    counted.trans ((mirrored_add 1 hk hm).trans (mirrored_flag 2 (by decide) (by simp [sessionRegs])))
  unfold Channel.toCapture
  split
  · exact mirrored_addCopy c s fid x
  split
  · exact lost 3 (by simp [sessionRegs]) (by decide)
  split
  · exact lost 1 (by simp [sessionRegs]) (by decide)
  have added := counted.trans (mirrored_addCopy _ s fid x)
  dsimp only
  split
  all_goals next h => simp only [h] at added; exact added.trans ⟨rfl, rfl, keepsRegs_refl _ _⟩

/-- A session's copy goes to the line of admission, and is counted. -/
def Channel.placeSession (c : Channel) (fid s : Nat) (mk : Nat → Copy) : Channel :=
  match c.addCopy fid mk with
  | (none, c) => c
  | (some no, c) => { c.inc 0x4C53 (s + 1) with admitQ := c.admitQ ++ [(fid, no)] }

theorem mirrored_placeSession (c : Channel) (fid : Nat) {s : Nat} (mk : Nat → Copy) (hs : s < 16) :
    Mirrored c (c.placeSession fid s mk) s := by
  have added := mirrored_addCopy c s fid mk
  unfold Channel.placeSession
  split
  · next h => simp only [h] at added; exact added
  · next h =>
    simp only [h] at added
    exact added.trans ((mirrored_add 1 (by omega) (by simp [sessionRegs])).trans ⟨rfl, rfl, keepsRegs_refl _ _⟩)

end Sys2Proof.Machine
end

section
namespace Sys2Proof.Machine
/-! The copy that a session makes, by its destination (R94, R444 to R446). -/

/-- No stored cells of the frame remain for a session's copy (R444). -/
def Moment.gone (m : Moment) (f : Frame) : Prop := f.cells = [] ∨ m.drop = 0x94 ∨ m.drop = 0x95 ∨ m.bytes = some []

/-- R94 bars a copy to a port. -/
def Moment.barred (m : Moment) (f : Frame) : Prop := (m.drop ≠ 0 ∧ m.drop < 0x20) ∨ f.oversize = true

theorem gone_iff (m : Moment) (f : Frame) :
    (f.cells.isEmpty || m.drop == 0x94 || m.drop == 0x95 || m.bytes == some []) = true ↔ m.gone f := by
  simp [Moment.gone, or_assoc]

theorem barred_iff (m : Moment) (f : Frame) : ((m.drop != 0 && decide (m.drop < 0x20)) || f.oversize) = true ↔ m.barred f := by
  simp [Moment.barred]

section
variable {c : Channel} {cx : Ctx} {f : Frame} {m : Moment} {s : Nat}

theorem sessionCopy_none (h : bits (c.hw 0x4C10 (s + 1)) 58 56 = 0) : c.sessionCopy cx f m s = c := by
  unfold Channel.sessionCopy
  exact if_pos h

section
variable (h1 : 1 ≤ bits (c.hw 0x4C10 (s + 1)) 58 56) (h2 : bits (c.hw 0x4C10 (s + 1)) 58 56 ≤ 2)
include h1 h2

theorem sessionCopy_night (hn : cx.night ≠ .awake) : c.sessionCopy cx f m s = c := by
  unfold Channel.sessionCopy
  dsimp only
  rw [if_neg (by omega), if_pos h2, if_pos (by simpa using hn)]

variable (hn : cx.night = .awake)
include hn

theorem sessionCopy_bare (hg : m.gone f ∨ c.capStopped = true) : c.sessionCopy cx f m s = c.skipSession s := by
  unfold Channel.sessionCopy
  dsimp only
  rw [if_neg (by omega), if_pos h2, if_neg (by simp [hn]), if_pos]
  rw [Bool.or_eq_true, gone_iff]
  exact hg

theorem sessionCopy_capture (hg : ¬m.gone f) (hc : c.capStopped = false) : ∃ x : Nat → Copy,
    (∀ no, (x no).no = no ∧ (x no).kind = .mirror s ∧ (x no).owner = 0x81 ∧ (x no).pos = .intake) ∧
      c.sessionCopy cx f m s = c.toCapture f.id s x := by
  unfold Channel.sessionCopy
  dsimp only
  rw [if_neg (by omega), if_pos h2, if_neg (by simp [hn]), if_neg]
  · exact ⟨_, fun _ => ⟨rfl, rfl, rfl, rfl⟩, rfl⟩
  · rw [Bool.or_eq_true, gone_iff, hc]
    simpa using hg

end

section
variable (h3 : 3 ≤ bits (c.hw 0x4C10 (s + 1)) 58 56)
include h3

theorem sessionCopy_refused (h : m.gone f ∨ (m.barred f ∧ (bits (c.hw 0x4C10 (s + 1)) 58 56 = 4 ∨ bits (c.hw 0x4C10 (s + 1)) 55 49 ≠ 53))) :
    c.sessionCopy cx f m s = c.skipSession s := by
  unfold Channel.sessionCopy
  dsimp only
  rw [if_neg (by omega), if_neg (by omega), if_pos]
  rw [Bool.or_eq_true, gone_iff, Bool.and_eq_true, barred_iff, Bool.or_eq_true, beq_iff_eq, bne_iff_ne]
  exact h

/-- A session's copy for a port. -/
structure SessionMade (s tier q : Nat) (tag : Option Nat) (bytes : Option (List Byte)) (x : Nat → Copy) : Prop where
  no : ∀ n, (x n).no = n
  fields : ∀ n, (x n).kind = .mirror s ∧ (x n).pos = .arrived ∧ (x n).tier = tier ∧ (x n).q = q ∧ (x n).tag = tag ∧
    (x n).launch = none ∧ (x n).bytes = bytes

section
variable (hr : ¬(m.gone f ∨ (m.barred f ∧ (bits (c.hw 0x4C10 (s + 1)) 58 56 = 4 ∨ bits (c.hw 0x4C10 (s + 1)) 55 49 ≠ 53))))
include hr

omit h3 in
theorem sessionCopy_port (hd : bits (c.hw 0x4C10 (s + 1)) 58 56 = 3)
    (hp : ¬(49 ≤ bits (c.hw 0x4C10 (s + 1)) 55 49 ∧ bits (c.hw 0x4C10 (s + 1)) 55 49 ≤ 52)) : ∃ x,
    SessionMade s (tierOf (bits (c.hw 0x4C10 (s + 1)) 55 49)) (bits (c.hw 0x4C10 (s + 1)) 41 24) none m.bytes x ∧
      c.sessionCopy cx f m s = c.placeSession f.id s x := by
  unfold Channel.sessionCopy
  dsimp only
  rw [if_neg (by omega), if_neg (by omega), if_neg, if_pos hd, if_neg (by simpa using hp)]
  · exact ⟨_, ⟨fun _ => rfl, fun _ => ⟨rfl, rfl, rfl, rfl, rfl, rfl, rfl⟩⟩, rfl⟩
  · rw [Bool.or_eq_true, gone_iff, Bool.and_eq_true, barred_iff, Bool.or_eq_true, beq_iff_eq, bne_iff_ne]
    exact hr

omit h3 in
theorem sessionCopy_fabric {tier hops : Nat} (hd : bits (c.hw 0x4C10 (s + 1)) 58 56 = 4)
    (hw : c.way cx (bits (c.hw 0x4C10 (s + 1)) 48 42) = .to tier hops) : ∃ x,
    SessionMade s tier (bits (c.hw 0x4C10 (s + 1)) 41 24) (some (mkTag false false cx f.inPort
      (tagDest (bits (c.hw 0x4C10 (s + 1)) 48 42) (bits (c.hw 0x4C10 (s + 1)) 55 49)) (bits (c.hw 0x4C10 (s + 1)) 41 24) f.colour
      f.pass hops)) m.bytes x ∧ c.sessionCopy cx f m s = c.placeSession f.id s x := by
  unfold Channel.sessionCopy
  dsimp only
  rw [if_neg (by omega), if_neg (by omega), if_neg, if_neg (by omega), hw]
  · exact ⟨_, ⟨fun _ => rfl, fun _ => ⟨rfl, rfl, rfl, rfl, rfl, rfl, rfl⟩⟩, rfl⟩
  · rw [Bool.or_eq_true, gone_iff, Bool.and_eq_true, barred_iff, Bool.or_eq_true, beq_iff_eq, bne_iff_ne]
    exact hr

end
end

theorem mirrored_portTag (c : Channel) (cx : Ctx) (f : Frame) (q s : Nat) : Mirrored c (c.portTag cx f q).2 s := by
  unfold Channel.portTag
  split
  · exact .refl c s
  · exact ⟨rfl, rfl, keepsRegs_refl _ _⟩

/-- A session's copy leaves alone what `Mirrored` names. -/
theorem mirrored_sessionCopy (c : Channel) (cx : Ctx) (f : Frame) (m : Moment) (hs : s < 16) : Mirrored c (c.sessionCopy cx f m s) s := by
  have placed := fun d mk => mirrored_placeSession d f.id (s := s) mk hs
  unfold Channel.sessionCopy
  dsimp only
  split
  · exact .refl c s
  split
  · split
    · exact .refl c s
    split
    · exact mirrored_skipSession c hs
    · exact mirrored_toCapture c _ _ hs
  split
  · exact mirrored_skipSession c hs
  split
  · split
    · split
      · exact placed c _
      · exact (mirrored_portTag c cx f _ s).trans (placed _ _)
    · exact placed c _
  · split
    · exact ⟨rfl, rfl, keepsRegs_refl _ _⟩
    · exact placed c _
    · exact placed c _

end

/-! ## What a copy counts -/

section
variable {c : Channel} {s : Nat} (hs : s < 16)
include hs

theorem skipSession_counts : counts c (c.skipSession s) 0x4C54 (s + 1) 1 ∧ bitOf ((c.skipSession s).reg 0x4C0F 1) 0 = true ∧
    (c.skipSession s).frames = c.frames ∧ (c.skipSession s).admitQ = c.admitQ ∧ (c.skipSession s).cap = c.cap := by
  unfold Channel.skipSession counts
  refine ⟨?_, ?_, by simp, by simp, by simp⟩
  · rw [reg_flag_ne _ (by omega) (by omega) (by simp), reg_inc_self]
  · rw [reg_flag_self, bitOf_eq_testBit, Nat.testBit_or]
    simp

section
variable {f : Frame} {mk : Nat → Copy} (hf : c.frame f.id = some f) (hn : f.nextNo < 255)
include hf hn

omit hs in
/-- A session's copy for a port is made, counted, and waits for its admission. -/
theorem placeSession_placed : counts c (c.placeSession f.id s mk) 0x4C53 (s + 1) 1 ∧
    (c.placeSession f.id s mk).admitQ = c.admitQ ++ [(f.id, f.nextNo)] ∧
    (c.placeSession f.id s mk).frame f.id = some (f.grown (mk f.nextNo)) := by
  have e : c.placeSession f.id s mk = { (c.modFrame f.id fun g => g.grown (mk f.nextNo)).inc 0x4C53 (s + 1) with
      admitQ := c.admitQ ++ [(f.id, f.nextNo)] } := by
    simp only [Channel.placeSession, addCopy_eq mk hf hn]
    rfl
  rw [e]
  exact ⟨reg_inc_self _ _ _, rfl, frame_modFrame_self (h := fun g => g.grown (mk f.nextNo)) (fun _ => rfl) hf⟩

end

/-- The channel once a session's record has its number, and is counted. -/
def Channel.numbered (c : Channel) (s : Nat) : Channel := c.takeNumber.2.inc 0x4C53 (s + 1)

/-- A record is numbered: `d` is a channel whose session has counted its copy under the next RECORD_SEQ. -/
structure Numbered (c d : Channel) (s : Nat) : Prop where
  copies : counts c d 0x4C53 (s + 1) 1
  next : d.cap.nextRec = (c.cap.nextRec + 1) % 2 ^ 32
  shown : d.reg 0x4C01 3 = (c.cap.nextRec + 1) % 2 ^ 32

theorem numbered_numbered : Numbered c (c.numbered s) s := by
  unfold Channel.numbered Channel.takeNumber
  refine ⟨?_, rfl, ?_⟩
  · unfold counts
    rw [reg_inc_self, reg_put_ne _ (by omega) (by omega) (by simp)]
    rfl
  · rw [reg_inc_ne _ (by omega) (by omega) (by simp), reg_put_self]

/-- A record of the session is lost under `cause` (R455). -/
theorem numbered_lost {cause : Nat} (hc : cause < 256) : Numbered c ((c.numbered s).loseRecords cause 1) s ∧
    counts c ((c.numbered s).loseRecords cause 1) 0x4C52 cause 1 ∧
    ((c.numbered s).loseRecords cause 1).cap.intake = c.cap.intake := by
  obtain ⟨copies, next, shown⟩ := numbered_numbered (c := c) hs
  have before : (c.numbered s).reg 0x4C52 cause = c.reg 0x4C52 cause := by
    unfold Channel.numbered Channel.takeNumber
    rw [reg_inc_ne _ (by omega) hc (by simp), reg_put_ne _ (by omega) hc (by simp)]
    rfl
  unfold Channel.loseRecords
  rw [if_neg (by decide)]
  refine ⟨⟨?_, by simpa using next, ?_⟩, ?_, by simp [Channel.numbered, Channel.takeNumber]⟩
  · unfold counts at *
    rw [reg_flag_ne _ (by omega) (by omega) (by simp), reg_add_ne _ hc (by omega) (by simp), copies]
  · rw [reg_flag_ne _ (by omega) (by omega) (by simp), reg_add_ne _ hc (by omega) (by simp), shown]
  · unfold counts
    rw [reg_flag_ne _ (by omega) hc (by simp), reg_add_self, before]

section
variable {f : Frame} {x : Nat → Copy} (hf : c.frame f.id = some f) (hn : f.nextNo < 255)
include hf hn

omit hs in
theorem toCapture_not_full : ((c.frame f.id).map (·.nextNo)).any (Nat.ble 255 ·) = false := by
  refine Bool.eq_false_iff.2 fun h => ?_
  simp only [hf, Option.map_some, Option.any_some, Nat.ble_eq] at h
  omega

omit hs in
theorem toCapture_held (hh : c.cap.hold = true) : c.toCapture f.id s x = (c.numbered s).loseRecords 3 1 := by
  unfold Channel.toCapture
  simp only [toCapture_not_full hf hn, hh, if_true, Bool.false_eq_true, if_false]
  rfl

omit hs in
theorem toCapture_full (hh : c.cap.hold = false) (hl : 4096 ≤ c.cap.intake.length) :
    c.toCapture f.id s x = (c.numbered s).loseRecords 1 1 := by
  unfold Channel.toCapture
  simp only [toCapture_not_full hf hn, hh, hl, if_true, Bool.false_eq_true, if_false]
  rfl

theorem toCapture_taken (hh : c.cap.hold = false) (hl : c.cap.intake.length < 4096) :
    let d := c.toCapture f.id s x
    Numbered c d s ∧ d.cap.intake = c.cap.intake ++ [(f.id, f.nextNo, c.cap.nextRec)] ∧
      d.frame f.id = some (f.grown (x f.nextNo)) := by
  have found : (c.numbered s).frame f.id = some f := hf
  have e : c.toCapture f.id s x = { (c.numbered s).modFrame f.id fun g => g.grown (x f.nextNo) with
      cap := { (c.numbered s).cap with intake := (c.numbered s).cap.intake ++ [(f.id, f.nextNo, c.cap.nextRec)] } } := by
    unfold Channel.toCapture
    simp only [toCapture_not_full hf hn, hh, Nat.not_le.2 hl, Bool.false_eq_true, if_false]
    have added := addCopy_eq x found hn
    unfold Channel.numbered at added
    rw [added]
    rfl
  obtain ⟨copies, next, shown⟩ := numbered_numbered (c := c) hs
  dsimp only
  rw [e]
  exact ⟨⟨copies, next, shown⟩, rfl, frame_modFrame_self (h := fun g => g.grown (x f.nextNo)) (fun _ => rfl) found⟩

end
end

end Sys2Proof.Machine
end

section
namespace Sys2Proof.Machine
/-! The copies of a frame by its action record, and those of the mirror sessions (R305, R158, R159, R441 to R446). -/

/-- The copies that a record makes: the obligation's `makes`, for copies that go to the tiers and with the tags of `l`. -/
theorem makes_of {c : Channel} {cx : Ctx} {f : Frame} (hf : c.frame f.id = some f) (hn : f.nextNo + 90 ≤ 255)
    {l : List (Nat × Option Nat)} (hl : l.length ≤ 90) (h : c.replicate cx f = .inr (c.fwdAll f.id (f.field 1) l)) :
    ∃ d g, c.replicate cx f = .inr d ∧ d.frame f.id = some g ∧
      g.copies.map Copy.shape = f.copies.map Copy.shape ++ l.map (fun z => (.fwd, .arrived, z.1, f.field 1, z.2, f.launchTime)) ∧
      d.admitQ = c.admitQ ++ (List.range l.length).map fun i => (f.id, f.nextNo + i) := by
  obtain ⟨_, queue, g, hg, _, _, copies⟩ := forwarded_fwdAll (q := f.field 1) l hf (by omega)
  exact ⟨_, g, h, hg, copies, queue⟩

theorem groupWays_length (c : Channel) (cx : Ctx) (g : Nat) : (c.groupWays cx g).length ≤ 2 := by
  unfold Channel.groupWays
  dsimp only
  split
  · exact Nat.zero_le _
  · refine (List.length_filter_le _ _).trans ?_
    repeat' split
    all_goals simp

theorem members_length (c : Channel) (f : Frame) (g : Nat) : (c.members f g).length ≤ 80 :=
  (List.length_filter_le _ _).trans (by simp [upFrom])

/-- The hops of a unicast frame in a ring, either way. -/
theorem way_ring_cases {c : Channel} {cx : Ctx} {d : Nat} (hb : c.domainBad cx = false) (hs : cx.moduleId ≤ c.modules)
    (hs1 : 1 ≤ cx.moduleId) (ht : c.topology ≠ 0) (h1 : 1 ≤ d) (hn : d ≤ c.modules) :
    let n := c.modules
    let r := (d + n - cx.moduleId) % n
    let up := fun (tier : Nat) => (c.selected tier).isSome = true
    (c.topology ≠ 1 → d ≠ cx.moduleId → r ≤ n - r → up 51 → c.way cx d = .to 51 r) ∧
    (c.topology ≠ 1 → d ≠ cx.moduleId → r ≤ n - r → ¬up 51 → up 49 → c.way cx d = .to 49 (n - r)) ∧
    (c.topology ≠ 1 → d ≠ cx.moduleId → n - r < r → up 49 → c.way cx d = .to 49 (n - r)) ∧
    (c.topology ≠ 1 → d ≠ cx.moduleId → n - r < r → ¬up 49 → up 51 → c.way cx d = .to 51 r) ∧
    (c.topology ≠ 1 → d ≠ cx.moduleId → ¬up 49 → ¬up 51 → c.way cx d = .none) := by
  have ring := fun hl hd => way_ring ht h1 hn hb hd hl hs hs1
  dsimp only at ring ⊢
  generalize (d + c.modules - cx.moduleId) % c.modules = r at *
  refine ⟨fun hl hd hr h51 => ?_, fun hl hd hr h51 h49 => ?_, fun hl hd hr h49 => ?_, fun hl hd hr h49 h51 => ?_,
    fun hl hd h49 h51 => ?_⟩ <;> rw [ring hl hd]
  · rw [if_pos hr, if_pos h51]
  · rw [if_pos hr, if_neg h51, if_pos h49]
  · rw [if_neg (by omega), if_pos h49]
  · rw [if_neg (by omega), if_neg h49, if_pos h51]
  · simp only [h49, h51, Bool.false_eq_true, if_false, ite_self]

/-- Of the sessions `s` alone is in use: what the frame's moment brings is what that session makes of it. -/
theorem mirror_alone {c : Channel} {fid s : Nat} (cx : Ctx) (m : Moment) {f : Frame} (hs : s < 16) (hf : c.frame fid = some f)
    (alone : ∀ k, k < 16 → k ≠ s → bits (c.hw 0x4C10 (k + 1)) 63 60 = 0) : c.mirror cx fid m = c.glance cx fid m s := by
  obtain ⟨l₁, l₂, hl⟩ := List.append_of_mem (List.mem_range.2 hs)
  have distinct : (l₁ ++ s :: l₂).Nodup := hl ▸ List.nodup_range
  have small : ∀ k, k ∈ l₁ ++ s :: l₂ → k < 16 := fun k hk => List.mem_range.1 (hl ▸ hk)
  rw [List.nodup_append] at distinct
  obtain ⟨_, after, before⟩ := distinct
  rw [List.nodup_cons] at after
  have same : ∀ k, k < 16 → (c.glance cx fid m s).hw 0x4C10 (k + 1) = c.hw 0x4C10 (k + 1) := by
    intro k hk
    by_cases taken : c.takes f m s
    · rw [glance_taken hf taken]
      have kept : ∀ d : Channel, d.dict = c.dict → d.posted = c.posted → d.hw 0x4C10 (k + 1) = c.hw 0x4C10 (k + 1) :=
        fun d h1 h2 => by unfold Channel.hw Channel.reg; rw [h1, h2]
      have copied : ∀ d : Channel, d.dict = c.dict → d.posted = c.posted →
          (d.sessionCopy cx f m s).hw 0x4C10 (k + 1) = c.hw 0x4C10 (k + 1) := fun d h1 h2 => by
        have made := mirrored_sessionCopy d cx f m hs
        rw [← kept d h1 h2]
        unfold Channel.hw
        rw [made.posted, made.regs 0x4C10 (k + 1) (by omega) (by simp [sessionRegs])]
      unfold Channel.sampled
      dsimp only
      split <;> split
      · exact copied _ rfl rfl
      · exact copied _ rfl rfl
      · exact kept _ rfl rfl
      · exact kept _ rfl rfl
    · rw [glance_passed hf taken]
  rw [mirror_eq, hl, List.foldl_append, List.foldl_cons]
  rw [glances_off cx fid m fun k hk => alone k (small k (by simp [hk])) fun e => before k hk s (by simp) e]
  refine glances_off cx fid m fun k hk => ?_
  have h16 := small k (by simp [hk])
  rw [same k h16]
  exact alone k h16 fun e => after.1 (e ▸ hk)

/-- Settles O55: the record's copies are appended one by one, a tag is the sum of its fields, and of the sessions one that is not in
use leaves the channel as it is. -/
theorem copiesAndSessions : Obligations.CopiesAndSessions := by
  unfold Obligations.CopiesAndSessions
  refine ⟨?_, ?_, ?_, ?_, ?_, ?_⟩
  · intro c cx f hf hn
    have one : ∀ z, c.replicate cx f = .inr (c.fwdAll f.id (f.field 1) [z]) → _ := fun z => makes_of hf hn (l := [z]) (by simp)
    refine ⟨fun ht hp => one _ (replicate_port ht hp), fun w ht h49 h52 hw hh => ?_, fun ht hm => one _ (replicate_here ht hm),
      fun ht hm hd => ⟨replicate_nowhere ht hm hd, fun tier hops hw => one _ (replicate_way ht hm hd hw)⟩,
      fun ht hl hx h0 h1 => replicate_nobody ht hl hx h0 h1, fun ht h => ?_, fun ht => one _ (replicate_host ht),
      fun ht => one _ (replicate_again ht)⟩
    · exact ⟨_, one _ (replicate_link ht h49 h52 hw), portTag_fields w f.colour hh⟩
    · have group := replicate_group (cx := cx) hf hn ht h
      have made := makes_of hf hn (by
        have := members_length c f (bits (f.field 0) 15 0)
        have := groupWays_length c cx (bits (f.field 0) 15 0)
        split <;> simp <;> omega) group
      rw [Channel.groupWays, ← ite_or] at made
      exact made
  · exact fun mc relay cx port dest q colour pass hops h1 h64 => mkTag_fields mc relay cx port dest q colour pass hops h1 h64
  · intro c cx d hb hs hs1
    refine ⟨way_nowhere, fun ht h1 hn => ⟨way_self ht h1 hn, fun hl hd => ?_, fun hl hd => ?_, way_ring_cases hb hs hs1 ht h1 hn⟩⟩
    · rw [way_line h1 hn hb (by omega) hl]
      simp only [hd, if_true]
    · rw [way_line h1 hn hb (by omega) hl]
      simp only [Nat.not_lt.2 (Nat.le_of_lt hd), if_false]
  · exact fun c f m s _ _ _ => qualifies_iff c f m s
  · intro c cx fid s m f hs hf alone
    rw [mirror_alone cx m hs hf alone]
    refine ⟨fun h => glance_passed hf h, fun h hn => ?_, fun h hn => ?_⟩
    · rw [glance_taken hf h]
      exact if_neg (Nat.not_le.2 hn)
    · rw [glance_taken hf h]
      exact if_pos hn
  · intro c cx f m s hs hf hn
    have skips := skipSession_counts (c := c) hs
    have placed : ∀ {tier q tag}, (∃ x, SessionMade s tier q tag m.bytes x ∧ c.sessionCopy cx f m s = c.placeSession f.id s x) →
        counts c (c.sessionCopy cx f m s) 0x4C53 (s + 1) 1 ∧ (c.sessionCopy cx f m s).admitQ = c.admitQ ++ [(f.id, f.nextNo)] ∧
        ∃ g x, (c.sessionCopy cx f m s).frame f.id = some g ∧ g.copies = f.copies ++ [x] ∧ x.kind = .mirror s ∧ x.no = f.nextNo ∧
          x.pos = .arrived ∧ x.tier = tier ∧ x.q = q ∧ x.tag = tag ∧ x.launch = none ∧ x.bytes = m.bytes := by
      rintro tier q tag ⟨x, ⟨no, fields⟩, e⟩
      obtain ⟨copies, line, found⟩ := placeSession_placed (s := s) (mk := x) hf hn
      obtain ⟨kind, rest⟩ := fields f.nextNo
      rw [e]
      exact ⟨copies, line, _, x f.nextNo, found, rfl, kind, no _, rest⟩
    refine ⟨sessionCopy_none, fun h1 h2 => sessionCopy_night h1 h2, fun h1 h2 hw hg => ?_, fun h1 h2 hw hg hc => ?_, fun h3 h => ?_,
      fun hd hg hb hp => ?_, fun tier hops hd hg hb hw => ?_⟩
    · rw [sessionCopy_bare h1 h2 hw hg]
      exact skips
    · obtain ⟨x, fields, e⟩ := sessionCopy_capture (cx := cx) h1 h2 hw hg hc
      obtain ⟨no, kind, owner, pos⟩ := fields f.nextNo
      rw [e]
      by_cases hold : c.cap.hold = true
      · rw [toCapture_held hf hn hold]
        obtain ⟨⟨copies, next, shown⟩, lost, same⟩ := numbered_lost (c := c) hs (cause := 3) (by decide)
        exact ⟨copies, next, shown, fun _ => ⟨same, lost⟩, fun h => absurd hold (by simp [h]), fun h => absurd hold (by simp [h])⟩
      have hold := Bool.eq_false_iff.2 hold
      by_cases room : c.cap.intake.length < 4096
      · obtain ⟨⟨copies, next, shown⟩, more, found⟩ := toCapture_taken (x := x) hs hf hn hold room
        exact ⟨copies, next, shown, fun h => absurd hold (by simp [h]), fun _ h => absurd room (by omega),
          fun _ _ => ⟨more, _, x f.nextNo, found, rfl, kind, owner, pos⟩⟩
      · rw [toCapture_full hf hn hold (Nat.not_lt.1 room)]
        obtain ⟨⟨copies, next, shown⟩, lost, same⟩ := numbered_lost (c := c) hs (cause := 1) (by decide)
        exact ⟨copies, next, shown, fun h => absurd hold (by simp [h]), fun _ _ => ⟨same, lost⟩, fun _ h => absurd h room⟩
    · rw [sessionCopy_refused h3 h]
      exact skips
    · refine placed (sessionCopy_port ?_ hd hp)
      rintro (h | ⟨h, h4 | h53⟩)
      · exact hg h
      · omega
      · exact h53 (hb h)
    · refine placed (sessionCopy_fabric ?_ hd hw)
      rintro (h | ⟨h, _⟩)
      · exact hg h
      · exact hb h

end Sys2Proof.Machine
end

section
namespace Sys2Proof.Machine
/-! The limits of admission, push-out and the lengths of queues (R348 to R354). -/

/-! ## Limits -/

theorem pushOut_done (cx : Ctx) (e rank n : Nat) : ∀ (c : Channel) (need done : Nat), done ≤ (c.pushOut cx e rank n need done).2.1 := by
  induction n with
  | zero => exact fun _ _ done => Nat.le_refl done
  | succ n ih =>
    intro c need done
    unfold Channel.pushOut
    split
    · exact Nat.le_refl done
    split
    · exact Nat.le_refl done
    split
    · exact Nat.le_refl done
    · exact Nat.le_trans (Nat.le_succ done) (ih _ _ _)

/-- Push-out evicts where there is a victim. -/
theorem pushOut_evicts {c : Channel} (cx : Ctx) {e rank n need : Nat} {v r : Nat × Nat} (hn : need ≠ 0) (hv : c.victim e rank = some v)
    (hr : (c.queue v.1).items.getLast? = some r) : 0 < (c.pushOut cx e rank (n + 1) need 0).2.1 := by
  unfold Channel.pushOut
  simp only [hn, if_false, hv, hr]
  exact pushOut_done cx e rank n _ _ _

theorem pushOut_nobody {c : Channel} (cx : Ctx) {e rank n need : Nat} (hn : need ≠ 0) (hv : c.victim e rank = none) :
    c.pushOut cx e rank (n + 1) need 0 = (need, 0, c) := by
  unfold Channel.pushOut
  simp only [hn, if_false, hv]

/-- The RED test of a copy that meets no limit (R354). -/
def Channel.redTest (c : Channel) (f : Frame) (x : Copy) : Option Nat × Channel :=
  if bitOf (c.classCfg x.tier (x.q % 8)) 31 then
    let v := lfsrNext c.lfsr
    let c := { c with lfsr := v }
    if redDrops (c.queue x.queue).avg (c.redCfg x.tier (x.q % 8)) f.colour v then (some (0x76 + f.colour), c) else (none, c)
  else (none, c)

section
variable {c : Channel} {f : Frame} {x : Copy}

theorem limits_min (cx : Ctx) (h : (c.queue x.queue).cells + f.cellCount ≤ bits (c.classCfg x.tier (x.q % 8)) 63 48) :
    c.limits cx f x = (none, c) := by
  unfold Channel.limits
  exact if_pos h

section
variable (cx : Ctx) (past : bits (c.classCfg x.tier (x.q % 8)) 63 48 < (c.queue x.queue).cells + f.cellCount)
include past

theorem limits_class (h : bits (c.classCfg x.tier (x.q % 8)) 127 96 < (c.tier x.tier).cells.getD (x.q % 8) 0 + f.cellCount) :
    c.limits cx f x = (some 0x74, c) := by
  unfold Channel.limits
  dsimp only
  rw [if_neg (Nat.not_le.2 past), if_pos h]

variable (hc : (c.tier x.tier).cells.getD (x.q % 8) 0 + f.cellCount ≤ bits (c.classCfg x.tier (x.q % 8)) 127 96)
include hc

theorem limits_queue (h : bits (c.classCfg x.tier (x.q % 8)) 95 64 < (c.queue x.queue).cells + f.cellCount) :
    c.limits cx f x = (some 0x75, c) := by
  unfold Channel.limits
  dsimp only
  rw [if_neg (Nat.not_le.2 past), if_neg (Nat.not_lt.2 hc), if_pos h]

variable (hq : (c.queue x.queue).cells + f.cellCount ≤ bits (c.classCfg x.tier (x.q % 8)) 95 64)
include hq

theorem limits_port (h : (c.tier x.tier).total + f.cellCount ≤ bits (c.hw 0x4811 x.tier) 63 32) :
    c.limits cx f x = c.redTest f x := by
  unfold Channel.limits
  dsimp only
  rw [if_neg (Nat.not_le.2 past), if_neg (Nat.not_lt.2 hc), if_neg (Nat.not_lt.2 hq), if_pos h]
  rfl

variable (hp : bits (c.hw 0x4811 x.tier) 63 32 < (c.tier x.tier).total + f.cellCount)
include hp

theorem limits_full (h : bits (c.hw 0x4811 x.tier) 1 0 ≠ 1 ∨ c.victim x.tier (bits (c.classCfg x.tier (x.q % 8)) 26 24) = none) :
    c.limits cx f x = (some 0x73, c) := by
  unfold Channel.limits
  dsimp only
  rw [if_neg (Nat.not_le.2 past), if_neg (Nat.not_lt.2 hc), if_neg (Nat.not_lt.2 hq), if_neg (Nat.not_le.2 hp)]
  by_cases hb : bits (c.hw 0x4811 x.tier) 1 0 = 1
  · have none_ := h.resolve_left (fun hn => hn hb)
    obtain ⟨need, hneed⟩ : ∃ need, (c.tier x.tier).total + f.cellCount - bits (c.hw 0x4811 x.tier) 63 32 = need + 1 :=
      ⟨_, (Nat.succ_pred_eq_of_pos (by omega)).symm⟩
    rw [if_pos hb, hneed, pushOut_nobody cx (by omega) none_]
    rfl
  · rw [if_neg hb]

theorem limits_evicts {v r : Nat × Nat} (hb : bits (c.hw 0x4811 x.tier) 1 0 = 1)
    (hv : c.victim x.tier (bits (c.classCfg x.tier (x.q % 8)) 26 24) = some v) (hr : (c.queue v.1).items.getLast? = some r) :
    (c.limits cx f x).1 ≠ some 0x73 := by
  have evicted : 0 < (c.pushOut cx x.tier (bits (c.classCfg x.tier (x.q % 8)) 26 24) 8
      ((c.tier x.tier).total + f.cellCount - bits (c.hw 0x4811 x.tier) 63 32) 0).2.1 := pushOut_evicts (n := 7) cx (by omega) hv hr
  unfold Channel.limits
  dsimp only
  rw [if_neg (Nat.not_le.2 past), if_neg (Nat.not_lt.2 hc), if_neg (Nat.not_lt.2 hq), if_neg (Nat.not_le.2 hp), if_pos hb]
  generalize c.pushOut cx x.tier (bits (c.classCfg x.tier (x.q % 8)) 26 24) 8
    ((c.tier x.tier).total + f.cellCount - bits (c.hw 0x4811 x.tier) 63 32) 0 = out at evicted ⊢
  obtain ⟨need, done, d⟩ := out
  obtain ⟨done, rfl⟩ : ∃ k, done = k + 1 := ⟨done - 1, (Nat.succ_pred_eq_of_pos evicted).symm⟩
  cases need with
  | zero =>
    show (if _ then _ else _ : Option Nat × Channel).1 ≠ _
    split
    · split
      · simp only [ne_eq, Option.some.injEq]; omega
      · simp
    · simp
  | succ need => simp

end

theorem redTest_off (h : bitOf (c.classCfg x.tier (x.q % 8)) 31 = false) : c.redTest f x = (none, c) := by
  simp [Channel.redTest, h]

theorem redTest_on (h : bitOf (c.classCfg x.tier (x.q % 8)) 31 = true) : c.redTest f x =
    (if redDrops (c.queue x.queue).avg (c.redCfg x.tier (x.q % 8)) f.colour (lfsrNext c.lfsr) then some (0x76 + f.colour) else none,
      { c with lfsr := lfsrNext c.lfsr }) := by
  unfold Channel.redTest
  rw [if_pos h]
  dsimp only
  change (if redDrops (c.queue x.queue).avg (c.redCfg x.tier (x.q % 8)) f.colour (lfsrNext c.lfsr) then _ else _) = _
  split <;> rfl

end

section
variable {avg : Int} {p col r : Nat}

theorem redDrops_low (h : bits p (223 - 64 * col) (192 - 64 * col) = 0 ∨ (avg / 65536).toNat < bits p (255 - 64 * col) (224 - 64 * col)) :
    redDrops avg p col r = false := by
  unfold redDrops
  exact if_pos (by simpa using h)

theorem redDrops_high (h0 : 0 < bits p (223 - 64 * col) (192 - 64 * col))
    (h1 : bits p (255 - 64 * col) (224 - 64 * col) ≤ (avg / 65536).toNat)
    (h2 : bits p (223 - 64 * col) (192 - 64 * col) ≤ (avg / 65536).toNat) : redDrops avg p col r = true := by
  unfold redDrops
  dsimp only
  rw [if_neg, if_pos h2]
  simp only [Bool.or_eq_true, decide_eq_true_eq]
  omega

theorem redDrops_between (h1 : bits p (255 - 64 * col) (224 - 64 * col) ≤ (avg / 65536).toNat)
    (h2 : (avg / 65536).toNat < bits p (223 - 64 * col) (192 - 64 * col)) : redDrops avg p col r = true ↔
      r < bits p (63 - 8 * col) (56 - 8 * col) * ((avg / 65536).toNat - bits p (255 - 64 * col) (224 - 64 * col)) * 256 /
        (bits p (223 - 64 * col) (192 - 64 * col) - bits p (255 - 64 * col) (224 - 64 * col)) := by
  unfold redDrops
  dsimp only
  rw [if_neg, if_neg (by omega), decide_eq_true_eq]
  simp only [Bool.or_eq_true, decide_eq_true_eq]
  omega

end

/-! ## The victim of push-out -/

/-- The cells of the last frame of a queue. -/
def Channel.lastCells (c : Channel) (q : QueueSt) : Nat := ((q.items.getLast?.bind c.copyOf).map fun z => z.1.cellCount).getD 0

/-- Push-out at tier `e` may take from queue `k` (R352, R353). -/
def Channel.evictable (c : Channel) (e rank : Nat) (k : Nat × QueueSt) : Prop :=
  ∃ r f x, k.2.items.head? = some r ∧ c.copyOf r = some (f, x) ∧ x.tier = e ∧ bits (c.classCfg e (x.q % 8)) 26 24 < rank ∧
    bits (c.classCfg e (x.q % 8)) 63 48 < c.unselected k.2 ∧ bits (c.classCfg e (x.q % 8)) 63 48 + c.lastCells k.2 ≤ k.2.cells

/-- The queue found so far, once queue `k` has been looked at. -/
def Channel.victimStep (c : Channel) (e rank : Nat) (best : Option (Nat × Nat)) (k : Nat × QueueSt) : Option (Nat × Nat) :=
  match k.2.items.head? with
  | none => best
  | some r =>
    match c.copyOf r with
    | none => best
    | some (_, x) =>
      let cfg := c.classCfg e (x.q % 8)
      let n := c.unselected k.2
      let last := (k.2.items.getLast?.bind fun r => (c.copyOf r).map fun p => p.1.cellCount).getD 0
      if x.tier ≠ e || rank ≤ bits cfg 26 24 || n ≤ bits cfg 63 48 || k.2.cells < bits cfg 63 48 + last then best
      else
        match best with
        | none => some (k.1, n)
        | some b => if b.2 < n then some (k.1, n) else best

theorem victim_eq (c : Channel) (e rank : Nat) : c.victim e rank = c.queues.foldl (c.victimStep e rank) none := rfl

theorem lastCells_eq (c : Channel) (q : QueueSt) :
    (q.items.getLast?.bind fun r => (c.copyOf r).map fun p => p.1.cellCount).getD 0 = c.lastCells q := by
  unfold Channel.lastCells
  rw [Option.map_bind]
  rfl

theorem victimStep_passed {c : Channel} {e rank : Nat} (best : Option (Nat × Nat)) {k : Nat × QueueSt} (h : ¬c.evictable e rank k) :
    c.victimStep e rank best k = best := by
  unfold Channel.victimStep
  split
  · rfl
  next r hr =>
  split
  · rfl
  next f x hx =>
  dsimp only
  rw [lastCells_eq]
  refine if_pos ?_
  by_contra hn
  simp only [ne_eq, decide_not, Bool.or_eq_true, Bool.not_eq_true', decide_eq_false_iff_not, decide_eq_true_eq, not_or, not_not,
    Nat.not_le, Nat.not_lt] at hn
  obtain ⟨⟨⟨ht, hrank⟩, hmin⟩, hlast⟩ := hn
  exact h ⟨r, f, x, hr, hx, ht, hrank, hmin, hlast⟩

theorem victimStep_taken {c : Channel} {e rank : Nat} (best : Option (Nat × Nat)) {k : Nat × QueueSt} (h : c.evictable e rank k) :
    (c.victimStep e rank best k = some (k.1, c.unselected k.2) ∧ ∀ b, best = some b → b.2 ≤ c.unselected k.2) ∨
      ∃ b, best = some b ∧ c.victimStep e rank best k = some b ∧ c.unselected k.2 ≤ b.2 := by
  obtain ⟨r, f, x, hr, hx, ht, hrank, hmin, hlast⟩ := h
  unfold Channel.victimStep
  simp only [hr, hx, lastCells_eq]
  rw [if_neg (by simp [ht]; omega)]
  cases best with
  | none => exact .inl ⟨rfl, fun _ h => nomatch h⟩
  | some b =>
    dsimp only
    by_cases hb : b.2 < c.unselected k.2
    · rw [if_pos hb]
      exact .inl ⟨rfl, fun _ h => by cases h; omega⟩
    · rw [if_neg hb]
      exact .inr ⟨b, rfl, rfl, by omega⟩

theorem victim_foldl (c : Channel) (e rank : Nat) (l : List (Nat × QueueSt)) : ∀ (best : Option (Nat × Nat)) (v : Nat × Nat),
    l.foldl (c.victimStep e rank) best = some v →
      (best = some v ∨ ∃ k, k ∈ l ∧ c.evictable e rank k ∧ v = (k.1, c.unselected k.2)) ∧ (∀ b, best = some b → b.2 ≤ v.2) ∧
        ∀ k, k ∈ l → c.evictable e rank k → c.unselected k.2 ≤ v.2 := by
  induction l with
  | nil =>
    intro best v h
    exact ⟨.inl h, fun b hb => by cases hb.symm.trans h; exact Nat.le_refl _, fun _ hk => nomatch hk⟩
  | cons a l ih =>
    intro best v h
    obtain ⟨origin, most, all⟩ := ih _ _ h
    have later : ∀ k, (∃ j, j ∈ l ∧ c.evictable e rank j ∧ k = (j.1, c.unselected j.2)) →
        ∃ j, j ∈ a :: l ∧ c.evictable e rank j ∧ k = (j.1, c.unselected j.2) :=
      fun k ⟨j, hj, h⟩ => ⟨j, List.mem_cons_of_mem _ hj, h⟩
    by_cases can : c.evictable e rank a
    · rcases victimStep_taken best can with ⟨new, less⟩ | ⟨b, hb, kept, less⟩
      · have top := most _ new
        refine ⟨.inr ?_, fun b hb => (less b hb).trans top, fun k hk hc => ?_⟩
        · rcases origin with same | made
          · exact ⟨a, List.mem_cons_self, can, Option.some.inj (same.symm.trans new)⟩
          · exact later v made
        · rcases List.mem_cons.1 hk with rfl | hk
          · exact top
          · exact all k hk hc
      · have top := most _ kept
        refine ⟨?_, fun b' hb' => by cases hb.symm.trans hb'; exact top, fun k hk hc => ?_⟩
        · rcases origin with same | made
          · exact .inl (hb.trans (kept.symm.trans same))
          · exact .inr (later v made)
        · rcases List.mem_cons.1 hk with rfl | hk
          · exact less.trans top
          · exact all k hk hc
    · rw [victimStep_passed best can] at origin most
      refine ⟨origin.imp_right (later v), most, fun k hk hc => ?_⟩
      rcases List.mem_cons.1 hk with rfl | hk
      · exact absurd hc can
      · exact all k hk hc

/-! ## The three lengths -/

theorem getD_setAt_self {α : Type} (l : List α) {i : Nat} (v d : α) (h : i < l.length) : (setAt l i v).getD i d = v := by
  induction l generalizing i with
  | nil => exact absurd h (Nat.not_lt_zero i)
  | cons a l ih =>
    cases i with
    | zero => rfl
    | succ i => exact ih (Nat.lt_of_succ_lt_succ h)

theorem getD_setAt_ne {α : Type} (l : List α) {i j : Nat} (v d : α) (h : j ≠ i) : (setAt l i v).getD j d = l.getD j d := by
  induction l generalizing i j with
  | nil => rfl
  | cons a l ih =>
    cases i with
    | zero =>
      cases j with
      | zero => exact absurd rfl h
      | succ j => rfl
    | succ i =>
      cases j with
      | zero => rfl
      | succ j => exact ih fun e => h (e ▸ rfl)

theorem queue_setQueue (c : Channel) (k j : Nat) (q : QueueSt) : (c.setQueue k q).queue j = if j = k then q else c.queue j :=
  tabGet_tabSet _ _ _ _ _

@[simp] theorem queue_setTier (c : Channel) (e k : Nat) (t : TierSt) : (c.setTier e t).queue k = c.queue k := rfl
@[simp] theorem tier_setQueue (c : Channel) (e k : Nat) (q : QueueSt) : (c.setQueue k q).tier e = c.tier e := rfl

/-- The queue, the class and the average of a copy whose cells have come or gone. -/
theorem lengths_facts (c : Channel) (x : Copy) (n : Nat) (grow : Bool) (hx : x.q % 8 < (c.tier x.tier).cells.length) :
    let d := c.lengths x n grow
    let was := (c.queue x.queue).cells
    let now := if grow then was + n else was - n
    let len := (c.tier x.tier).cells.getD (x.q % 8) 0
    let w := bits (c.redCfg x.tier (x.q % 8)) 3 0
    let avg := (c.queue x.queue).avg
    d.queue x.queue = { c.queue x.queue with
      cells := now, avg := avg + (((now * 65536 : Nat) : Int) - avg) / ((2 ^ w : Nat) : Int) } ∧
    (d.tier x.tier).cells.getD (x.q % 8) 0 = (if grow then len + n else len - n) ∧
    (∀ k, k < 8 → k ≠ x.q % 8 → (d.tier x.tier).cells.getD k 0 = (c.tier x.tier).cells.getD k 0) ∧
    (∀ k, k ≠ x.queue → d.queue k = c.queue k) ∧ (∀ e, e ≠ x.tier → d.tier e = c.tier e) ∧ d.pools = c.pools := by
  unfold Channel.lengths QueueSt.average
  refine ⟨?_, ?_, fun k _ hk => ?_, fun k hk => ?_, fun e he => ?_, rfl⟩
  · simp only [queue_setTier, queue_setQueue, if_true]
  · simp only [tier_setTier_self, tier_setQueue]
    exact getD_setAt_self _ _ _ hx
  · simp only [tier_setTier_self, tier_setQueue]
    exact getD_setAt_ne _ _ _ hk
  · simp only [queue_setTier, queue_setQueue, hk, if_false]
  · simp only [tier_setTier, he, if_false, tier_setQueue]

end Sys2Proof.Machine
end

section
namespace Sys2Proof.Machine
/-! What a port asserts by the levels of the pools, and the frames that say so (R102, R357). -/

/-! ## What the pools ask for -/

/-- What the pools of `l` ask port `p` to assert, beside `a`. -/
def Channel.wants (c : Channel) (p : Nat) (l : List Nat) (a : Nat × Bool) : Nat × Bool :=
  l.foldl (fun a k => (a.1 ||| (c.asked p k).1, a.2 || (c.asked p k).2)) a

theorem testBit_wants (c : Channel) (p i : Nat) (l : List Nat) : ∀ a : Nat × Bool,
    (c.wants p l a).1.testBit i = true ↔ a.1.testBit i = true ∨ ∃ k, k ∈ l ∧ (c.asked p k).1.testBit i = true := by
  induction l with
  | nil => intro a; simp [Channel.wants]
  | cons k l ih =>
    intro a
    refine (ih _).trans ?_
    simp [or_assoc]

theorem pause_wants (c : Channel) (p : Nat) (l : List Nat) : ∀ a : Nat × Bool,
    (c.wants p l a).2 = true ↔ a.2 = true ∨ ∃ k, k ∈ l ∧ (c.asked p k).2 = true := by
  induction l with
  | nil => intro a; simp [Channel.wants]
  | cons k l ih =>
    intro a
    refine (ih _).trans ?_
    simp [or_assoc]

/-- Pool `k` is one in which port `p` has a share. -/
def Channel.sharesIn (c : Channel) (p k : Nat) : Prop :=
  tabGet (fun _ => 0) (c.pool k).portShared p ≠ 0 ∧ bits (c.poolCfg k) 1 0 = 0

theorem asked_none {c : Channel} {p k : Nat} (h : ¬c.sharesIn p k) : c.asked p k = (0, false) := by
  unfold Channel.asked
  refine if_pos ?_
  by_contra hn
  simp only [Bool.or_eq_true, decide_eq_true_eq, not_or, ne_eq, not_not] at hn
  exact h hn

theorem asked_some {c : Channel} {p k : Nat} (h : c.sharesIn p k) : c.asked p k =
    (if c.flowMode p = 2 then
        ((if 1 ≤ (c.pool k).level then bits (c.poolCfg k) 23 16 else 0) ||| (if 2 ≤ (c.pool k).level then bits (c.poolCfg k) 31 24 else 0)
          ||| (if 3 ≤ (c.pool k).level then bits (c.poolCfg k) 39 32 else 0)) &&& bits (c.flowCtl p) 23 16 else 0,
      c.flowMode p == 1 && bits (c.poolCfg k) 5 4 != 0 && Nat.ble (bits (c.poolCfg k) 5 4) (c.pool k).level) := by
  unfold Channel.asked
  exact if_neg (by simp [h.1, h.2])

theorem pause_asked (c : Channel) (p k : Nat) : (c.asked p k).2 = true ↔
    c.sharesIn p k ∧ c.flowMode p = 1 ∧ bits (c.poolCfg k) 5 4 ≠ 0 ∧ bits (c.poolCfg k) 5 4 ≤ (c.pool k).level := by
  by_cases h : c.sharesIn p k
  · simp [asked_some h, h, Nat.ble_eq, and_assoc]
  · simp [asked_none h, h]

theorem testBit_ite_bits {b : Prop} [Decidable b] (v hi lo i : Nat) (h : i < hi + 1 - lo) :
    (if b then bits v hi lo else 0).testBit i = true ↔ b ∧ bitOf v (lo + i) = true := by
  by_cases hb : b
  · simp [hb, testBit_bits, h, bitOf_eq_testBit]
  · simp [hb]

theorem testBit_asked (c : Channel) (p k i : Nat) (hi : i < 8) : (c.asked p k).1.testBit i = true ↔
    c.sharesIn p k ∧ c.flowMode p = 2 ∧ bitOf (c.flowCtl p) (16 + i) = true ∧
      ∃ l, 1 ≤ l ∧ l ≤ 3 ∧ l ≤ (c.pool k).level ∧ bitOf (c.poolCfg k) (8 + 8 * l + i) = true := by
  have levels : (∃ l, 1 ≤ l ∧ l ≤ 3 ∧ l ≤ (c.pool k).level ∧ bitOf (c.poolCfg k) (8 + 8 * l + i) = true) ↔
      (1 ≤ (c.pool k).level ∧ bitOf (c.poolCfg k) (16 + i) = true ∨ 2 ≤ (c.pool k).level ∧ bitOf (c.poolCfg k) (24 + i) = true) ∨
        3 ≤ (c.pool k).level ∧ bitOf (c.poolCfg k) (32 + i) = true := by
    constructor
    · rintro ⟨l, h1, h3, hl, hb⟩
      obtain rfl | rfl | rfl : l = 1 ∨ l = 2 ∨ l = 3 := by omega
      · exact .inl (.inl ⟨hl, hb⟩)
      · exact .inl (.inr ⟨hl, hb⟩)
      · exact .inr ⟨hl, hb⟩
    · rintro ((⟨hl, hb⟩ | ⟨hl, hb⟩) | ⟨hl, hb⟩)
      · exact ⟨1, by omega, by omega, hl, hb⟩
      · exact ⟨2, by omega, by omega, hl, hb⟩
      · exact ⟨3, by omega, by omega, hl, hb⟩
  by_cases h : c.sharesIn p k
  · rw [asked_some h, levels]
    by_cases hm : c.flowMode p = 2
    · rw [if_pos hm, Nat.testBit_and, Nat.testBit_or, Nat.testBit_or, Bool.and_eq_true, Bool.or_eq_true, Bool.or_eq_true,
        testBit_ite_bits _ _ _ _ (by omega), testBit_ite_bits _ _ _ _ (by omega), testBit_ite_bits _ _ _ _ (by omega), testBit_bits]
      simp only [h, hm, true_and, bitOf_eq_testBit, Bool.and_eq_true, decide_eq_true_eq]
      exact ⟨fun ⟨a, _, b⟩ => ⟨b, a⟩, fun ⟨b, a⟩ => ⟨a, by omega, b⟩⟩
    · simp [hm]
  · simp [asked_none h, h]

theorem asked_lt (c : Channel) (p k : Nat) : (c.asked p k).1 < 2 ^ 8 := by
  by_cases h : c.sharesIn p k
  · rw [asked_some h]
    dsimp only
    split
    · exact Nat.and_lt_two_pow _ (Nat.mod_lt _ (by decide))
    · decide
  · rw [asked_none h]
    decide

theorem wants_lt (c : Channel) (p : Nat) (l : List Nat) : ∀ a : Nat × Bool, a.1 < 2 ^ 8 → (c.wants p l a).1 < 2 ^ 8 := by
  induction l with
  | nil => exact fun a h => h
  | cons k l ih => exact fun a h => ih _ (Nat.or_lt_two_pow h (asked_lt c p k))

/-- What the pools ask port `p` to assert. -/
def Channel.want (c : Channel) (p : Nat) : Nat × Bool := c.wants p (List.range 15) (0, false)

theorem want_lt (c : Channel) (p : Nat) : (c.want p).1 < 2 ^ 8 := wants_lt c p _ _ (by decide)

/-- What port `p` shows that it asserts. -/
def Channel.asserts (c : Channel) (p : Nat) : Nat := (c.want p).1 * 256 + (c.want p).2.toNat

theorem bits_asserts (c : Channel) (p : Nat) : bits (c.asserts p) 15 8 = (c.want p).1 := by
  have := want_lt c p
  have := Bool.toNat_lt (c.want p).2
  unfold Channel.asserts
  simp only [bits, Nat.shiftRight_eq_div_pow]
  omega

theorem bitOf_asserts_pause (c : Channel) (p : Nat) : bitOf (c.asserts p) 0 = (c.want p).2 := by
  unfold Channel.asserts bitOf
  cases (c.want p).2 <;> simp <;> omega

theorem bitOf_asserts_pfc (c : Channel) (p i : Nat) : bitOf (c.asserts p) (8 + i) = (c.want p).1.testBit i := by
  rw [bitOf_eq_testBit]
  unfold Channel.asserts
  rw [Nat.mul_comm, show 256 = 2 ^ 8 from rfl, Nat.testBit_two_pow_mul_add _ (Nat.lt_of_lt_of_le (Bool.toNat_lt _) (by decide)),
    if_neg (by omega), Nat.add_sub_cancel_left]

/-! ## The frames that say so -/

/-- The PAUSE and PFC frames of `l`, which are (PFC, priorities, quanta). -/
def Channel.sendPauses (c : Channel) (cx : Ctx) (p : Nat) (l : List (Bool × Nat × Nat)) : Channel :=
  l.foldl (fun c x => c.sendPause cx p x.1 x.2.1 x.2.2) c

theorem sendPauses_append (c : Channel) (cx : Ctx) (p : Nat) (l m : List (Bool × Nat × Nat)) :
    c.sendPauses cx p (l ++ m) = (c.sendPauses cx p l).sendPauses cx p m := List.foldl_append

theorem sendPauses_ite (c : Channel) (cx : Ctx) (p : Nat) {b : Prop} [Decidable b] (x : Bool × Nat × Nat) :
    c.sendPauses cx p (if b then [x] else []) = if b then c.sendPause cx p x.1 x.2.1 x.2.2 else c := by
  split <;> rfl

theorem linkUp_of_sends {c d : Channel} {p : Nat} (h : Sends c d p) (hp : p ≤ 52) : d.linkUp p = c.linkUp p := by
  unfold Channel.linkUp Channel.bit
  split
  · exact h.link 0 (by decide)
  · rw [h.reg_ne (by omega) (by simp [controlRegs])]

theorem inProgress_of_sends {c d : Channel} {p : Nat} (h : Sends c d p) : d.inProgress p = c.inProgress p := by
  have e : d.cuts = c.cuts := by
    have e := congrArg Channel.cuts h.rest
    exact e
  unfold Channel.inProgress
  rw [h.port, e]

/-- A control frame that goes out is the next on the line. -/
theorem putControl_out (c : Channel) (p : Nat) (x : Sent) : (c.putControl p x).box.out = c.box.out ++ [x] := by
  have woken : (if p ≤ 48 && (c.emit x).bit 0x4102 p 22 then (c.emit x).putBit 0x4102 p 22 false else c.emit x).box.out =
      c.box.out ++ [x] := by
    split <;> rfl
  unfold Channel.putControl
  cases x with
  | pause =>
    dsimp only
    split <;> exact woken
  | beacon | lacpdu | marker => exact woken
  | can | eth | frame | plcaBeacon | jam => exact woken

/-- The frames of `l` as they go out. -/
def pauseFrames (cx : Ctx) (p : Nat) (l : List (Bool × Nat × Nat)) : List Sent := l.map fun x => .pause cx.ch p x.1 x.2.1 x.2.2

section
variable {cx : Ctx} {p : Nat} (hp : p ≤ 52)

theorem sendPauses_down (l : List (Bool × Nat × Nat)) {c : Channel} (h : c.linkUp p = false) : c.sendPauses cx p l = c := by
  induction l with
  | nil => rfl
  | cons x l ih =>
    refine Eq.trans (congrArg (fun d : Channel => d.sendPauses cx p l) ?_) ih
    exact if_pos (by simp [h])

include hp

theorem sendPauses_idle (l : List (Bool × Nat × Nat)) : ∀ {c : Channel}, c.linkUp p = true → c.inProgress p = false →
    (c.sendPauses cx p l).box.out = c.box.out ++ pauseFrames cx p l := by
  induction l with
  | nil => intros; simp [Channel.sendPauses, pauseFrames]
  | cons x l ih =>
    intro c hl hi
    have kept := sends_sendPause c cx (p := p) x.1 x.2.1 x.2.2 hp
    refine (ih ((linkUp_of_sends kept hp).trans hl) ((inProgress_of_sends kept).trans hi)).trans ?_
    have sent : (c.sendPause cx p x.1 x.2.1 x.2.2).box.out = c.box.out ++ [.pause cx.ch p x.1 x.2.1 x.2.2] := by
      simp only [Channel.sendPause, hl, Channel.sendControl, hi, Bool.not_true, Bool.false_eq_true, if_false, putControl_out]
    rw [sent]
    simp [pauseFrames]

theorem sendPauses_busy (l : List (Bool × Nat × Nat)) : ∀ {c : Channel}, c.linkUp p = true → c.inProgress p = true →
    (c.sendPauses cx p l).box.out = c.box.out ∧
      (c.sendPauses cx p l).port p = { c.port p with due := (c.port p).due ++ (pauseFrames cx p l).map fun y => (y, false) } := by
  induction l with
  | nil => intros; simp [Channel.sendPauses, pauseFrames]
  | cons x l ih =>
    intro c hl hi
    have kept := sends_sendPause c cx (p := p) x.1 x.2.1 x.2.2 hp
    obtain ⟨out, due⟩ := ih ((linkUp_of_sends kept hp).trans hl) ((inProgress_of_sends kept).trans hi)
    have step : c.sendPause cx p x.1 x.2.1 x.2.2 =
        c.setPort p { c.port p with due := (c.port p).due ++ [(.pause cx.ch p x.1 x.2.1 x.2.2, false)] } := by
      simp only [Channel.sendPause, hl, Channel.sendControl, hi, Bool.not_true, Bool.false_eq_true, if_false, if_true]
    rw [step] at out due
    refine ⟨(congrArg (fun d : Channel => (d.sendPauses cx p l).box.out) step).trans out,
      (congrArg (fun d : Channel => (d.sendPauses cx p l).port p) step).trans (due.trans ?_)⟩
    simp [pauseFrames]

end

/-- The PAUSE and PFC frames that a change of what port `p` asserts brings: (PFC, priorities, quanta). -/
def Channel.changes (c : Channel) (p : Nat) : List (Bool × Nat × Nat) :=
  let pfc := bits (c.reg 0x4805 p) 15 8
  let q := bits (c.flowCtl p) 15 0
  let gone := pfc - (pfc &&& (c.want p).1)
  (if (c.want p).1 ||| pfc ≠ pfc then [(true, (c.want p).1, q)] else []) ++
    ((if gone ≠ 0 then [(true, gone, 0)] else []) ++
      ((if (c.want p).2 && !bitOf (c.reg 0x4805 p) 0 then [(false, 0, q)] else []) ++
        (if !(c.want p).2 && bitOf (c.reg 0x4805 p) 0 then [(false, 0, 0)] else [])))

theorem pauseFrames_changes (c : Channel) (cx : Ctx) (p : Nat) :
    let pfc := bits (c.reg 0x4805 p) 15 8
    let quanta := bits (c.flowCtl p) 15 0
    let gone := pfc - (pfc &&& (c.want p).1)
    pauseFrames cx p (c.changes p) =
      (if (c.want p).1 ||| pfc = pfc then [] else [Sent.pause cx.ch p true (c.want p).1 quanta]) ++
        (if gone = 0 then [] else [Sent.pause cx.ch p true gone 0]) ++
        (if (c.want p).2 && !bitOf (c.reg 0x4805 p) 0 then [Sent.pause cx.ch p false 0 quanta] else []) ++
        (if !(c.want p).2 && bitOf (c.reg 0x4805 p) 0 then [Sent.pause cx.ch p false 0 0] else []) := by
  simp only [pauseFrames, Channel.changes, List.map_append, ite_not, apply_ite (List.map _), List.map_cons, List.map_nil,
    List.append_assoc, ne_eq]

theorem backPressure_eq (c : Channel) (cx : Ctx) {p : Nat} (h1 : 1 ≤ p) (h52 : p ≤ 52) :
    c.backPressure cx p = (c.sendPauses cx p (c.changes p)).put 0x4805 p (c.asserts p) := by
  unfold Channel.backPressure Channel.changes
  rw [if_neg (by simp; omega)]
  simp only [sendPauses_append, sendPauses_ite]
  rfl

/-- What port `p` asserts, and the frames that say so. -/
theorem backPressure_facts (c : Channel) (cx : Ctx) {p : Nat} (h1 : 1 ≤ p) (h52 : p ≤ 52) :
    let d := c.backPressure cx p
    d.reg 0x4805 p = c.asserts p ∧
    (c.linkUp p = false → d.box.out = c.box.out ∧ d.ports = c.ports) ∧
    (c.linkUp p = true → c.inProgress p = false → d.box.out = c.box.out ++ pauseFrames cx p (c.changes p)) ∧
    (c.linkUp p = true → c.inProgress p = true → d.box.out = c.box.out ∧
      d.port p = { c.port p with due := (c.port p).due ++ (pauseFrames cx p (c.changes p)).map fun y => (y, false) }) := by
  dsimp only
  rw [backPressure_eq c cx h1 h52]
  refine ⟨reg_put_self _ _ _ _, fun h => ?_, fun hl hi => sendPauses_idle h52 _ hl hi, fun hl hi => sendPauses_busy h52 _ hl hi⟩
  rw [sendPauses_down _ h]
  exact ⟨rfl, rfl⟩

end Sys2Proof.Machine
end

section
namespace Sys2Proof.Machine
/-! The account of a pool: its level, its events and what else it may change (R356, R357). -/

/-! ## The level -/

theorem levelUp_spec (cfg sh n : Nat) : ∀ lv, lv ≤ 3 → 3 - lv ≤ n →
    lv ≤ levelUp cfg sh n lv ∧ levelUp cfg sh n lv ≤ 3 ∧ (∀ i, lv < i → i ≤ levelUp cfg sh n lv → warnOf cfg i ≤ sh) ∧
      (levelUp cfg sh n lv < 3 → sh < warnOf cfg (levelUp cfg sh n lv + 1)) := by
  induction n with
  | zero =>
    intro lv h3 hn
    simp only [levelUp]
    exact ⟨Nat.le_refl _, h3, fun i h1 h2 => absurd h1 (by omega), fun h => absurd h (by omega)⟩
  | succ n ih =>
    intro lv h3 hn
    unfold levelUp
    by_cases h : (lv < 3 && warnOf cfg (lv + 1) ≤ sh) = true
    · rw [if_pos h]
      simp only [Bool.and_eq_true, decide_eq_true_eq] at h
      obtain ⟨low, high, all, top⟩ := ih (lv + 1) (by omega) (by omega)
      refine ⟨by omega, high, fun i h1 h2 => ?_, top⟩
      rcases Nat.lt_or_ge (lv + 1) i with h' | h'
      · exact all i h' h2
      · obtain rfl : i = lv + 1 := by omega
        exact h.2
    · rw [if_neg h]
      simp only [Bool.and_eq_true, decide_eq_true_eq, not_and, Nat.not_le] at h
      exact ⟨Nat.le_refl _, h3, fun i h1 h2 => absurd h1 (by omega), h⟩

theorem levelDown_spec (cfg sh n : Nat) : ∀ lv, lv ≤ n →
    levelDown cfg sh n lv ≤ lv ∧ (∀ i, levelDown cfg sh n lv < i → i ≤ lv → sh < warnOf cfg i - bits cfg 95 64) ∧
      (0 < levelDown cfg sh n lv → warnOf cfg (levelDown cfg sh n lv) - bits cfg 95 64 ≤ sh) := by
  induction n with
  | zero =>
    intro lv hn
    simp only [levelDown]
    exact ⟨Nat.le_refl _, fun i h1 h2 => absurd h1 (by omega), fun h => absurd h (by omega)⟩
  | succ n ih =>
    intro lv hn
    unfold levelDown
    by_cases h : (lv > 0 && sh < warnOf cfg lv - bits cfg 95 64) = true
    · rw [if_pos h]
      simp only [Bool.and_eq_true, decide_eq_true_eq] at h
      obtain ⟨high, all, stop⟩ := ih (lv - 1) (by omega)
      refine ⟨by omega, fun i h1 h2 => ?_, stop⟩
      rcases Nat.lt_or_ge i lv with h' | h'
      · exact all i h1 (by omega)
      · obtain rfl : i = lv := by omega
        exact h.2
    · rw [if_neg h]
      simp only [Bool.and_eq_true, decide_eq_true_eq, not_and, Nat.not_lt, gt_iff_lt] at h
      exact ⟨Nat.le_refl _, fun i h1 h2 => absurd h1 (by omega), h⟩

theorem warnOf_eq {cfg i : Nat} (h1 : 1 ≤ i) (h3 : i ≤ 3) : warnOf cfg i = bits cfg (95 + 32 * i) (64 + 32 * i) := by
  obtain rfl | rfl | rfl : i = 1 ∨ i = 2 ∨ i = 3 := by omega
  all_goals rfl

theorem warnOf_mono {cfg a b : Nat} (h12 : warnOf cfg 1 ≤ warnOf cfg 2) (h23 : warnOf cfg 2 ≤ warnOf cfg 3) (h1 : 1 ≤ a) (hab : a ≤ b)
    (h3 : b ≤ 3) : warnOf cfg a ≤ warnOf cfg b := by
  obtain rfl | rfl | rfl : a = 1 ∨ a = 2 ∨ a = 3 := by omega
  all_goals obtain rfl | rfl | rfl : b = 1 ∨ b = 2 ∨ b = 3 := by omega
  all_goals first | exact absurd hab (by decide) | omega

/-- The level to which shared use `sh` raises level `old`, and the level to which it falls from there. -/
theorem level_facts {cfg sh old : Nat} (hold : old ≤ 3) (h12 : warnOf cfg 1 ≤ warnOf cfg 2) (h23 : warnOf cfg 2 ≤ warnOf cfg 3) :
    let up := levelUp cfg sh 3 old
    let lv := levelDown cfg sh 3 up
    up ≤ 3 ∧ lv ≤ 3 ∧ ∀ i, 1 ≤ i → i ≤ 3 → (warnOf cfg i ≤ sh → i ≤ lv) ∧ (sh < warnOf cfg i - bits cfg 95 64 → lv < i) ∧
      (sh < warnOf cfg i → warnOf cfg i - bits cfg 95 64 ≤ sh → (i ≤ lv ↔ i ≤ old)) ∧
      (old < i ∧ i ≤ up ↔ old < i ∧ warnOf cfg i ≤ sh) := by
  obtain ⟨low, high, climbed, top⟩ := levelUp_spec cfg sh 3 old hold (by omega)
  generalize hup : levelUp cfg sh 3 old = up at *
  obtain ⟨below, fell, stop⟩ := levelDown_spec cfg sh 3 up high
  generalize hlv : levelDown cfg sh 3 up = lv at *
  have mono : ∀ {a b}, 1 ≤ a → a ≤ b → b ≤ 3 → warnOf cfg a ≤ warnOf cfg b := fun h1 hab h3 => warnOf_mono h12 h23 h1 hab h3
  have reaches : ∀ i, 1 ≤ i → i ≤ 3 → warnOf cfg i ≤ sh → i ≤ up := fun i h1 h3 h => by
    by_contra hn
    have := top (by omega)
    have := mono (a := up + 1) (b := i) (by omega) (by omega) h3
    omega
  refine ⟨high, by omega, fun i h1 h3 => ⟨fun h => ?_, fun h => ?_, fun h h' => ⟨fun hi => ?_, fun hi => ?_⟩, ?_⟩⟩
  · by_contra hn
    have := fell i (by omega) (reaches i h1 h3 h)
    omega
  · by_contra hn
    have := stop (by omega)
    have := mono (a := i) (b := lv) h1 (by omega) (by omega)
    omega
  · by_contra hn
    have := climbed i (by omega) (by omega)
    omega
  · by_contra hn
    have := fell i (by omega) (by omega)
    omega
  · exact ⟨fun ⟨a, b⟩ => ⟨a, climbed i a b⟩, fun ⟨a, b⟩ => ⟨a, reaches i h1 h3 b⟩⟩

/-! ## What an account leaves alone -/

theorem pool_setPool (c : Channel) (k j : Nat) (p : PoolSt) : (c.setPool k p).pool j = if j = k then p else c.pool j :=
  tabGet_tabSet _ _ _ _ _

@[simp] theorem pool_flag (c : Channel) (i k m j : Nat) : (c.flag i k m).pool j = c.pool j := by simp [Channel.pool]

/-- `d` is `c` but for objects, outbox, ports and pools. -/
def accountFrame (c d : Channel) : Prop := { d with dict := c.dict, box := c.box, ports := c.ports, pools := c.pools } = c

theorem accountFrame.trans {c d e : Channel} (a : accountFrame c d) (b : accountFrame d e) : accountFrame c e := by
  have step := congrArg (fun x : Channel => { x with dict := c.dict, box := c.box, ports := c.ports, pools := c.pools }) b
  exact step.trans a

/-- `d` is `c` but for what back-pressure touches. -/
structure Pressed (c d : Channel) : Prop where
  rest : { d with dict := c.dict, box := c.box, ports := c.ports } = c
  event : ∀ k, k < 256 → d.reg 0x4804 k = c.reg 0x4804 k

theorem pressed_backPressure (c : Channel) (cx : Ctx) (p : Nat) : Pressed c (c.backPressure cx p) := by
  by_cases hp : p ≤ 52
  · have h := sends_backPressure c cx hp
    exact ⟨h.rest, fun k hk => h.reg_ne hk (by simp [controlRegs])⟩
  · unfold Channel.backPressure
    rw [if_pos (by simp; omega)]
    exact ⟨rfl, fun _ _ => rfl⟩

theorem pressed_backPressures (cx : Ctx) (l : List Nat) : ∀ c : Channel, Pressed c (l.foldl (fun c q => c.backPressure cx q) c) := by
  induction l with
  | nil => exact fun c => ⟨rfl, fun _ _ => rfl⟩
  | cons p l ih =>
    intro c
    have first := pressed_backPressure c cx p
    have later := ih (c.backPressure cx p)
    refine ⟨?_, fun k hk => (later.event k hk).trans (first.event k hk)⟩
    have step := congrArg (fun x : Channel => { x with dict := c.dict, box := c.box, ports := c.ports }) later.rest
    exact step.trans first.rest

theorem Pressed.pool {c d : Channel} (h : Pressed c d) (j : Nat) : d.pool j = c.pool j := by
  have e := congrArg (fun x : Channel => x.pool j) h.rest
  exact e

theorem Pressed.accountFrame {c d : Channel} (h : Pressed c d) : accountFrame c d := by
  have e := congrArg (fun x : Channel => { x with pools := c.pools }) h.rest
  exact e

theorem accountFrame_flag (c : Channel) (i k m : Nat) : accountFrame c (c.flag i k m) := by
  unfold Channel.flag
  dsimp only
  split <;> rfl

/-- The rise of a pool's level as bits of its events. -/
def riseOf (old up : Nat) : Nat := (upFrom 1 3).foldl (fun m i => if old < i && i ≤ up then m + 2 ^ (i - 1) else m) 0

theorem riseOf_bit (old up i : Nat) (h1 : 1 ≤ i) (h3 : i ≤ 3) : bitOf (riseOf old up) (i - 1) = true ↔ old < i ∧ i ≤ up := by
  have e : riseOf old up = (if old < 1 ∧ 1 ≤ up then 1 else 0) + (if old < 2 ∧ 2 ≤ up then 2 else 0) +
      (if old < 3 ∧ 3 ≤ up then 4 else 0) := by
    simp only [riseOf, upFrom, List.range_succ_eq_map, List.range_zero, List.map_cons, List.map_nil, List.foldl_cons, List.foldl_nil,
      Bool.and_eq_true, decide_eq_true_eq]
    split_ifs <;> rfl
  rw [e]
  obtain rfl | rfl | rfl : i = 1 ∨ i = 2 ∨ i = 3 := by omega
  all_goals split_ifs <;> simp_all [bitOf]

theorem riseOf_lt (old up : Nat) : riseOf old up < 8 := by
  simp only [riseOf, upFrom, List.range_succ_eq_map, List.range_zero, List.map_cons, List.map_nil, List.foldl_cons, List.foldl_nil]
  split_ifs <;> decide

/-- The level that shared use of pool `k` reaches on its way up. -/
def Channel.risen (c : Channel) (k : Nat) (p : PoolSt) : Nat :=
  if bits (c.poolCfg k) 255 224 = 0 then (c.pool k).level else levelUp (c.poolCfg k) p.shared 3 (c.pool k).level

/-- Whether shared use of pool `k` reaches HARD. -/
def Channel.hardNow (c : Channel) (k : Nat) (p : PoolSt) : Bool :=
  Nat.ble (bits (c.poolCfg k) 223 192) p.shared && (bits (c.poolCfg k) 255 224 != 0 || ((c.pool k).atHard && p.shared != 0))

/-- The account of pool `k` as it is stored. -/
def Channel.levelled (c : Channel) (k : Nat) (p : PoolSt) : PoolSt :=
  { p with level := levelDown (c.poolCfg k) p.shared 3 (c.risen k p), atHard := c.hardNow k p }

/-- The account of pool `k` is stored, and its events are set. -/
def Channel.booked (c : Channel) (k : Nat) (p : PoolSt) : Channel :=
  let d := c.setPool k (c.levelled k p)
  let d := if riseOf (c.pool k).level (c.risen k p) ≠ 0 then d.flag 0x4804 (k + 1) (riseOf (c.pool k).level (c.risen k p)) else d
  if c.hardNow k p && !(c.pool k).atHard then d.flag 0x4804 (k + 1) 8 else d

theorem account_eq (c : Channel) (cx : Ctx) {k : Nat} (p : PoolSt) (hk : k ≠ 15) : c.account cx k p =
    ((((c.pool k).portShared ++ p.portShared).map (·.1)).eraseDups).foldl (fun c q => c.backPressure cx q) (c.booked k p) := by
  unfold Channel.account
  simp only [hk, if_false]
  rfl

theorem account_pool15 (c : Channel) (cx : Ctx) (p : PoolSt) : c.account cx 15 p = c.setPool 15 p := by
  unfold Channel.account
  rw [if_pos rfl]

theorem booked_pool (c : Channel) (k j : Nat) (p : PoolSt) : (c.booked k p).pool j = if j = k then c.levelled k p else c.pool j := by
  unfold Channel.booked
  dsimp only
  split <;> split <;> simp only [pool_flag, pool_setPool]

theorem booked_frame (c : Channel) (k : Nat) (p : PoolSt) : accountFrame c (c.booked k p) := by
  have set : accountFrame c (c.setPool k (c.levelled k p)) := rfl
  unfold Channel.booked
  dsimp only
  split <;> split
  · exact (set.trans (accountFrame_flag _ _ _ _)).trans (accountFrame_flag _ _ _ _)
  · exact set.trans (accountFrame_flag _ _ _ _)
  · exact set.trans (accountFrame_flag _ _ _ _)
  · exact set

theorem reg_flag_ite (c : Channel) (i k m : Nat) {b : Prop} [Decidable b] :
    (if b then c.flag i k m else c).reg i k = c.reg i k ||| if b then m else 0 := by
  split <;> simp

theorem account_pool (c : Channel) (cx : Ctx) {k : Nat} (p : PoolSt) (hk : k ≠ 15) (j : Nat) :
    (c.account cx k p).pool j = if j = k then c.levelled k p else c.pool j := by
  rw [account_eq c cx p hk, (pressed_backPressures cx _ _).pool, booked_pool]

theorem account_frame (c : Channel) (cx : Ctx) (k : Nat) (p : PoolSt) : accountFrame c (c.account cx k p) := by
  by_cases hk : k = 15
  · subst hk
    rw [account_pool15]
    rfl
  · rw [account_eq c cx p hk]
    exact (booked_frame c k p).trans (pressed_backPressures cx _ _).accountFrame

theorem accountFrame.frames {c d : Channel} (h : accountFrame c d) : d.frames = c.frames := by
  have e := congrArg Channel.frames h
  exact e

/-- The events of a pool whose account is stored. -/
theorem account_events (c : Channel) (cx : Ctx) {k : Nat} (p : PoolSt) (hk : k < 15) (i : Nat) :
    bitOf ((c.account cx k p).reg 0x4804 (k + 1)) i = true ↔ bitOf (c.reg 0x4804 (k + 1)) i = true ∨
      bitOf (riseOf (c.pool k).level (c.risen k p)) i = true ∨ (c.hardNow k p && !(c.pool k).atHard) = true ∧ i = 3 := by
  rw [account_eq c cx p (by omega), (pressed_backPressures cx _ _).event _ (by omega)]
  have eight : ∀ i, Nat.testBit 8 i = true ↔ i = 3 := fun i => by rw [show 8 = 2 ^ 3 from rfl, Nat.testBit_two_pow]; simp [eq_comm]
  have rise : (if riseOf (c.pool k).level (c.risen k p) ≠ 0 then riseOf (c.pool k).level (c.risen k p) else 0) =
      riseOf (c.pool k).level (c.risen k p) := by
    split <;> simp_all
  unfold Channel.booked
  simp only [bitOf_eq_testBit, reg_flag_ite, rise, Nat.testBit_or, Bool.or_eq_true, or_assoc]
  refine or_congr Iff.rfl (or_congr Iff.rfl ?_)
  by_cases hard : (c.hardNow k p && !(c.pool k).atHard) = true
  · simp [hard, eight]
  · simp [hard]

end Sys2Proof.Machine
end

section
namespace Sys2Proof.Machine
/-! The charge of a frame with its first admitted copy (R349, R350). -/

theorem cellRec_markCells (l : List Nat) (v k : Nat) : ∀ c : Channel,
    (c.markCells l v).cellRec k = if k ∈ l then v else c.cellRec k := by
  induction l with
  | nil => exact fun c => rfl
  | cons a l ih =>
    intro c
    have step : c.markCells (a :: l) v = (c.markCells [a] v).markCells l v := rfl
    have one : (c.markCells [a] v).cellRec k = if k = a then v else c.cellRec k := tabGet_tabSet _ _ _ _ _
    rw [step, ih, one]
    by_cases hl : k ∈ l <;> by_cases ha : k = a <;> simp [hl, ha]

theorem badCells_none {c : Channel} {l : List Nat} (h : ∀ k, k ∈ l → c.cellRec k < 256) : c.badCells l = [] := by
  refine List.filter_eq_nil_iff.2 fun k hk => ?_
  have := h k hk
  simp only [Bool.and_eq_true, Nat.ble_eq, not_and]
  exact fun h256 => absurd h256 (by omega)

theorem settleCells_none {c : Channel} {l : List Nat} (h : ∀ k, k ∈ l → c.cellRec k < 256) : c.settleCells l = c := by
  unfold Channel.settleCells
  rw [badCells_none h]
  rfl

theorem endHandled_none {c : Channel} (cx : Ctx) (cells : List Nat) {key : HeldFor} (h : ∀ x, x ∈ c.requesters → x.for_ ≠ key) :
    c.endHandled cx cells key = c := by
  have none_ : (c.requesters.filter fun x => x.for_ == key) = [] := by
    refine List.filter_eq_nil_iff.2 fun x hx => ?_
    simpa using h x hx
  unfold Channel.endHandled
  rw [none_]
  rfl

/-- What `ramp` leaves of a channel: only pool 15's account, and its high-water mark. -/
theorem ramp_facts (c : Channel) (cx : Ctx) (n : Nat) : let d := c.ramp cx n
    (∀ j, d.pool j = if j = 15 then { c.pool 15 with shared := n } else c.pool j) ∧ d.cells = c.cells ∧ d.frames = c.frames := by
  have pools : ∀ j, (c.account cx 15 { c.pool 15 with shared := n }).pool j =
      if j = 15 then { c.pool 15 with shared := n } else c.pool j := fun j => by
    rw [account_pool15, pool_setPool]
  have cells : (c.account cx 15 { c.pool 15 with shared := n }).cells = c.cells := by rw [account_pool15]; rfl
  have frames := (account_frame c cx 15 { c.pool 15 with shared := n }).frames
  unfold Channel.ramp
  dsimp only
  split
  · exact ⟨pools, cells, frames⟩
  · exact ⟨pools, cells, frames⟩

section
variable {c : Channel} (cx : Ctx) {f : Frame} (hf : c.frame f.id = some f) (h15 : f.pool = 15)
  (hcells : ∀ k, k ∈ f.cells → c.cellRec k < 256) (hpass : ∀ h, h ∈ c.requesters → h.for_ ≠ .pass f.id)
include hf h15 hcells hpass

/-- A frame in pool 15 whose cells are sound gives them up. -/
theorem freeFrame_facts : let d := c.freeFrame cx f
    (∀ j, d.pool j = if j = 15 then { c.pool 15 with shared := (c.pool 15).shared - f.cells.length } else c.pool j) ∧
    (∀ k, d.cellRec k = if k ∈ f.cells then 0 else c.cellRec k) ∧
    d.frame f.id = some { f with cells := [], rq := 0, rp := 0, rs := 0 } := by
  have ok : (f.cells.filter fun k => decide (c.cellRec k < 256)) = f.cells :=
    List.filter_eq_self.2 fun k hk => by simpa using hcells k hk
  have e : c.freeFrame cx f = ((c.markCells f.cells 0).modFrame f.id fun g => { g with cells := [], rq := 0, rp := 0, rs := 0 }).ramp cx
      ((c.pool 15).shared - f.cells.length) := by
    unfold Channel.freeFrame
    dsimp only
    rw [endHandled_none cx f.cells hpass, ok, if_pos h15]
    rfl
  obtain ⟨pools, cells, frames⟩ := ramp_facts ((c.markCells f.cells 0).modFrame f.id fun g =>
    { g with cells := [], rq := 0, rp := 0, rs := 0 }) cx ((c.pool 15).shared - f.cells.length)
  dsimp only
  rw [e]
  refine ⟨pools, fun k => ?_, ?_⟩
  · have marked := cellRec_markCells f.cells 0 k c
    unfold Channel.cellRec at marked ⊢
    rw [cells]
    exact marked
  · unfold Channel.frame
    rw [frames]
    exact frame_modFrame_self (c := c.markCells f.cells 0) (h := fun g => { g with cells := [], rq := 0, rp := 0, rs := 0 })
      (fun _ => rfl) hf

end

/-- The split of a frame's charge: of its queue's minimum, of its port's, and shared. -/
structure Split where
  rq : Nat
  rp : Nat
  use : Nat

/-- The split of the charge of frame `f` with copy `x`, all of whose cells are sound. -/
def Channel.split (c : Channel) (f : Frame) (x : Copy) : Split :=
  let n := f.cellCount
  let rq := min n (bits (c.classCfg x.tier (x.q % 8)) 63 48 - (c.queue x.queue).cells)
  let rp := min (n - rq) (bits (c.hw 0x4811 f.inPort) 31 8 - tabGet (fun _ => 0) (c.pool (c.chargePool f x)).portReserved f.inPort)
  ⟨rq, rp, n - rq - rp⟩

/-- The account of the pool that is charged, with the split. -/
def PoolSt.charged (p : PoolSt) (f : Frame) (s : Split) : PoolSt :=
  { p with
    shared := p.shared + s.use, reserved := p.reserved + s.rq + s.rp,
    portShared := tabSet (fun _ => 0) p.portShared f.inPort (tabGet (fun _ => 0) p.portShared f.inPort + s.use),
    portReserved := tabSet (fun _ => 0) p.portReserved f.inPort (tabGet (fun _ => 0) p.portReserved f.inPort + s.rp) }

/-- The channel charged with frame `f` in pool `k`, once its cells have left pool 15. -/
def Channel.chargedWith (c : Channel) (cx : Ctx) (f : Frame) (k : Nat) (s : Split) : Channel :=
  let d := c.freeFrame cx f
  ((d.markCells (f.cells.filter fun i => d.cellRec i = 0) (k + 1)).account cx k ((d.pool k).charged f s)).modFrame f.id fun g =>
    { g with cells := f.cells, pool := k, rq := s.rq, rp := s.rp, rs := s.use, charged := true }

section
variable {c : Channel} (cx : Ctx) {f : Frame} {x : Copy} (hk : c.chargePool f x < 15) (hf : c.frame f.id = some f) (h15 : f.pool = 15)
  (hlen : f.cells.length = f.cellCount)
  (hcells : ∀ k, k ∈ f.cells → c.cellRec k < 256) (hwait : (c.pool (c.chargePool f x)).waiting = [])
  (hpass : ∀ h, h ∈ c.requesters → h.for_ ≠ .pass f.id)
include hf h15 hcells hwait hpass

theorem charge_eq : c.charge cx f x =
    if bits (c.poolCfg (c.chargePool f x)) 223 192 < (c.pool (c.chargePool f x)).shared + (c.split f x).use then .inl 0x79
    else if bits (c.poolCfg (c.chargePool f x)) 255 224 <
        (c.pool (c.chargePool f x)).reserved + (c.pool (c.chargePool f x)).shared + f.cellCount then .inl 0x7A
    else .inr (c.chargedWith cx f (c.chargePool f x) (c.split f x)) := by
  have bad : (f.cells.filter fun k => decide (256 ≤ c.cellRec k)) = [] :=
    List.filter_eq_nil_iff.2 fun k hk => by simpa using hcells k hk
  have held : c.holdOf 2 (.pass f.id) = none := by
    refine List.find?_eq_none.2 fun h hh => ?_
    have := hpass h hh
    simp [this]
  have turn : c.firstTurn (c.chargePool f x) = (0, 0) := by
    unfold Channel.firstTurn
    rw [hwait]
    rfl
  have freed : (c.freeFrame cx f).settleCells f.cells = c.freeFrame cx f := by
    obtain ⟨_, recs, _⟩ := freeFrame_facts cx hf h15 hcells hpass
    refine settleCells_none fun k hk => ?_
    rw [recs k, if_pos hk]
    decide
  unfold Channel.charge
  simp only [bad, held, turn, freed, Option.filter_none, List.length_nil, Nat.sub_zero, Nat.add_zero, ite_self]
  rfl

include hk hlen

omit hwait in
theorem chargedWith_facts (s : Split) : let k := c.chargePool f x
    let d := c.chargedWith cx f k s
    d.frame f.id = some { f with pool := k, rq := s.rq, rp := s.rp, rs := s.use, charged := true } ∧
    (∃ lv hard, d.pool k = { (c.pool k).charged f s with level := lv, atHard := hard }) ∧
    (d.pool 15).shared = (c.pool 15).shared - f.cellCount ∧ ∀ j, j ≠ k → j ≠ 15 → d.pool j = c.pool j := by
  dsimp only
  have ne : c.chargePool f x ≠ 15 := Nat.ne_of_lt hk
  generalize c.chargePool f x = k at *
  obtain ⟨pools, _, found⟩ := freeFrame_facts cx hf h15 hcells hpass
  unfold Channel.chargedWith
  dsimp only
  generalize c.freeFrame cx f = d at *
  generalize hm : d.markCells (f.cells.filter fun i => decide (d.cellRec i = 0)) (k + 1) = e
  have same : ∀ j, e.pool j = d.pool j := fun j => by rw [← hm]; rfl
  have there : e.frame f.id = d.frame f.id := by rw [← hm]; rfl
  have after : ∀ (h : Frame → Frame) j, ((e.account cx k ((d.pool k).charged f s)).modFrame f.id h).pool j =
      if j = k then e.levelled k ((d.pool k).charged f s) else d.pool j := fun h j =>
    (account_pool e cx _ ne j).trans (by rw [same])
  refine ⟨?_, ⟨(e.levelled k ((d.pool k).charged f s)).level, (e.levelled k ((d.pool k).charged f s)).atHard, ?_⟩, ?_,
    fun j hj h15' => ?_⟩
  · have kept : (e.account cx k ((d.pool k).charged f s)).frame f.id = d.frame f.id := by
      rw [← there]
      unfold Channel.frame
      rw [(account_frame e cx k _).frames]
    have renewed := frame_modFrame_self (h := fun g : Frame => { g with
      cells := f.cells, pool := k, rq := s.rq, rp := s.rp, rs := s.use, charged := true }) (fun _ => rfl) (kept.trans found)
    exact renewed
  · have own : d.pool k = c.pool k := (pools k).trans (if_neg ne)
    rw [after, if_pos rfl, own]
    rfl
  · rw [after, if_neg (Ne.symm ne), pools 15, if_pos rfl, hlen]
  · rw [after, if_neg hj, pools j, if_neg h15']

end

/-- Settles O54: the limits and RED by their branches, push-out and the levels by induction over the queues and the level, the charge by
what giving up pool 15 and booking the new pool leave, back-pressure by the frames that it sends. -/
theorem admissionAndLevels : Obligations.AdmissionAndLevels := by
  unfold Obligations.AdmissionAndLevels
  refine ⟨?_, ?_, fun c x n grow hx => lengths_facts c x n grow hx, ?_, ?_, ?_⟩
  · intro c cx f x
    refine ⟨fun h => limits_min cx (Nat.not_lt.1 h), fun past h => limits_class cx past (Nat.not_le.1 h),
      fun past hc h => limits_queue cx past hc (Nat.not_le.1 h), fun past hc hq hp h => limits_full cx past hc hq (Nat.not_le.1 hp) h,
      fun v r past hc hq hp hb hv hr => limits_evicts cx past hc hq (Nat.not_le.1 hp) hb hv hr,
      fun past hc hq hp hr => (limits_port cx past hc hq hp).trans (redTest_off hr), fun past hc hq hp hr => ?_⟩
    dsimp only
    rw [limits_port cx past hc hq hp, redTest_on hr]
    refine ⟨rfl, fun h => if_neg (by simp [redDrops_low h]), fun h0 h1 h2 => if_pos (redDrops_high h0 h1 h2), fun h1 h2 => ?_⟩
    simp only [redDrops_between h1 h2]
  · intro c e rank v h
    rw [victim_eq] at h
    obtain ⟨origin, _, most⟩ := victim_foldl c e rank _ _ _ h
    exact ⟨origin.resolve_left nofun, most⟩
  · intro c cx f x
    dsimp only
    intro hk hf h15 hlen hcells hwait hpass
    rw [charge_eq cx hf h15 hcells hwait hpass]
    refine ⟨fun h => if_pos h, fun h h' => (if_neg (Nat.not_lt.2 h)).trans (if_pos h'), fun h h' => ⟨_, (if_neg (Nat.not_lt.2 h)).trans
      (if_neg (Nat.not_lt.2 h')), ?_⟩⟩
    obtain ⟨found, ⟨lv, hard, booked⟩, ramp, others⟩ := chargedWith_facts cx hk hf h15 hlen hcells hpass (c.split f x)
    refine ⟨found, ?_, ?_, ?_, ?_, ramp, others⟩ <;> rw [booked]
    · rfl
    · rfl
    · exact (tabGet_tabSet _ _ _ _ _).trans (if_pos rfl)
    · exact (tabGet_tabSet _ _ _ _ _).trans (if_pos rfl)
  · intro c cx k p hk
    dsimp only
    intro hsize hold h12 h23
    have ne : k ≠ 15 := by omega
    have up : c.risen k p = levelUp (c.poolCfg k) p.shared 3 (c.pool k).level := if_neg hsize
    have hard : c.hardNow k p = Nat.ble (bits (c.poolCfg k) 223 192) p.shared := by
      unfold Channel.hardNow
      rw [bne_iff_ne.2 hsize, Bool.true_or, Bool.and_true]
    obtain ⟨_, top, levels⟩ := level_facts (cfg := c.poolCfg k) (sh := p.shared) hold h12 h23
    rw [← up] at top levels
    rw [account_pool c cx p ne k, if_pos rfl]
    refine ⟨?_, top, fun i h1 h3 => ?_, ?_⟩
    · unfold Channel.levelled
      rw [hard]
    · obtain ⟨reach, fall, stay, rise⟩ := levels i h1 h3
      rw [warnOf_eq h1 h3] at reach fall stay rise
      refine ⟨reach, fall, stay, ?_⟩
      rw [account_events c cx p hk, riseOf_bit _ _ _ h1 h3, rise]
      have below : i - 1 ≠ 3 := by omega
      simp only [below, and_false, or_false]
    · rw [account_events c cx p hk, hard]
      have low : bitOf (riseOf (c.pool k).level (c.risen k p)) 3 = false := by
        rw [bitOf_eq_testBit]
        exact Nat.testBit_lt_two_pow (riseOf_lt _ _)
      simp only [low, Bool.false_eq_true, false_or, Bool.and_eq_true, Nat.ble_eq, Bool.not_eq_true', and_true]
      exact or_congr Iff.rfl and_comm
  · intro c cx p h1 h52
    obtain ⟨shown, down, idle, busy⟩ := backPressure_facts c cx h1 h52
    dsimp only at shown down idle busy ⊢
    rw [shown, bits_asserts, bitOf_asserts_pause]
    refine ⟨?_, fun i hi => ?_, down, fun hl hi => ?_, fun hl hi => ?_⟩
    · refine (pause_wants c p _ _).trans ?_
      simp [pause_asked, Channel.sharesIn, and_assoc]
    · rw [bitOf_asserts_pfc]
      refine (testBit_wants c p i _ _).trans ?_
      simp [testBit_asked c p _ i hi, Channel.sharesIn, and_assoc]
    · rw [idle hl hi, pauseFrames_changes]
    · obtain ⟨out, due⟩ := busy hl hi
      refine ⟨out, ?_⟩
      rw [due, pauseFrames_changes]

end Sys2Proof.Machine
end

section
namespace Sys2Proof.Machine
/-! What only adds to what is put out, and keeps the two counts of frames cut through (R168): the upkeep of the buffer, of the queues and of
the sessions, and the control frames of the ports (R98 to R104, R342 to R365, R377 to R381, R441 to R446). -/

/-- `d` follows `c`: what was put out stays in front, and 0x4275 and 0x4276 keep their values. -/
structure Follows (c d : Channel) : Prop where
  out : c.box.out <+: d.box.out
  cuts : ∀ i, i = 0x4275 ∨ i = 0x4276 → ∀ k, k < 256 → d.reg i k = c.reg i k

theorem Follows.refl (c : Channel) : Follows c c := ⟨List.prefix_rfl, fun _ _ _ _ => rfl⟩

theorem Follows.trans {c d e : Channel} (a : Follows c d) (b : Follows d e) : Follows c e :=
  ⟨a.out.trans b.out, fun i hi k hk => (b.cuts i hi k hk).trans (a.cuts i hi k hk)⟩

theorem Follows.ite {c d e : Channel} {b : Prop} [Decidable b] (hd : Follows c d) (he : Follows c e) : Follows c (if b then d else e) := by
  split
  · exact hd
  · exact he

theorem follows_foldl {α : Type} {g : Channel → α → Channel} (h : ∀ c x, Follows c (g c x)) (l : List α) : ∀ c, Follows c (l.foldl g c) := by
  induction l with
  | nil => exact Follows.refl
  | cons x l ih => exact fun c => (h c x).trans (ih _)

/-- What touches neither objects nor what is put out. -/
theorem follows_rest {c d : Channel} (hdict : d.dict = c.dict) (hout : d.box.out = c.box.out) : Follows c d := by
  refine ⟨by rw [hout], fun i _ k _ => ?_⟩
  unfold Channel.reg
  rw [hdict]

theorem follows_setPort (c : Channel) (p : Nat) (x : PortSt) : Follows c (c.setPort p x) := follows_rest rfl rfl

theorem follows_emit (c : Channel) (x : Sent) : Follows c (c.emit x) := ⟨List.prefix_append _ _, fun _ _ _ _ => rfl⟩

/-! ## Objects -/

section
variable (c : Channel) {i k : Nat} (hk : k < 256) (hi : i ≠ 0x4275 ∧ i ≠ 0x4276)
include hk hi

theorem follows_put (v : Nat) : Follows c (c.put i k v) := by
  refine ⟨List.prefix_rfl, fun j hj l hl => reg_put_ne c hk hl fun e => ?_⟩
  obtain ⟨h, h'⟩ := hi
  obtain ⟨rfl, -⟩ := Prod.mk.inj e
  exact hj.elim h h'

theorem follows_add (n : Nat) : Follows c (c.add i k n) := follows_put c hk hi _

theorem follows_inc : Follows c (c.inc i k) := follows_put c hk hi _

theorem follows_putBit (n : Nat) (b : Bool) : Follows c (c.putBit i k n b) := follows_put c hk hi _

theorem follows_putBits (a b n : Nat) : Follows c (c.putBits i k a b n) := follows_put c hk hi _

theorem follows_flag (m : Nat) : Follows c (c.flag i k m) := by
  unfold Channel.flag
  dsimp only
  split
  · exact .refl c
  · exact (follows_put c hk hi _).trans (follows_rest rfl rfl)

end

theorem reg_put_above (c : Channel) {i j : Nat} (k v : Nat) {l : Nat} (hl : l < 256) (h : j < i) : (c.put i k v).reg j l = c.reg j l := by
  rw [reg_put, if_neg]
  unfold objKey
  omega

/-- An object above those of ports and links. -/
theorem follows_put_above (c : Channel) {i : Nat} (k v : Nat) (hi : 0x4804 ≤ i) : Follows c (c.put i k v) :=
  ⟨List.prefix_rfl, fun _ hj _ hl => reg_put_above c k v hl (by omega)⟩

theorem follows_inc_above (c : Channel) {i : Nat} (k : Nat) (hi : 0x4804 ≤ i) : Follows c (c.inc i k) := follows_put_above c k _ hi

theorem follows_flag_above (c : Channel) {i : Nat} (k m : Nat) (hi : 0x4804 ≤ i) : Follows c (c.flag i k m) := by
  unfold Channel.flag
  dsimp only
  split
  · exact .refl c
  · exact (follows_put_above c k _ hi).trans (follows_rest rfl rfl)

/-! ## Frames on the line -/

theorem sends_out {c d : Channel} {p : Nat} (h : Sends c d p) (hout : c.box.out <+: d.box.out) : Follows c d := by
  refine ⟨hout, fun i hi k hk => h.reg_ne hk fun hm => ?_⟩
  simp only [controlRegs, List.mem_cons, Prod.mk.injEq, List.not_mem_nil, or_false] at hm
  omega

theorem follows_putControl (c : Channel) {p : Nat} (x : Sent) (hp : p ≤ 52) : Follows c (c.putControl p x) :=
  sends_out (sends_putControl c x hp) (by rw [putControl_out]; exact List.prefix_append _ _)

theorem follows_sendControl (c : Channel) {p : Nat} (x : Sent) (hp : p ≤ 52) : Follows c (c.sendControl p x) := by
  refine sends_out (sends_sendControl c x hp) ?_
  unfold Channel.sendControl
  split
  · exact List.prefix_rfl
  · rw [putControl_out]
    exact List.prefix_append _ _

theorem follows_sendPause (c : Channel) (cx : Ctx) {p : Nat} (pfc : Bool) (enable quanta : Nat) (hp : p ≤ 52) :
    Follows c (c.sendPause cx p pfc enable quanta) := .ite (.refl c) (follows_sendControl c _ hp)

theorem follows_sendPauses (cx : Ctx) {p : Nat} (hp : p ≤ 52) (l : List (Bool × Nat × Nat)) :
    ∀ c : Channel, Follows c (c.sendPauses cx p l) := by
  induction l with
  | nil => exact Follows.refl
  | cons x l ih => exact fun c => (follows_sendPause c cx x.1 x.2.1 x.2.2 hp).trans (ih _)

theorem follows_backPressure (c : Channel) (cx : Ctx) (p : Nat) : Follows c (c.backPressure cx p) := by
  by_cases hp : 1 ≤ p ∧ p ≤ 52
  · rw [backPressure_eq c cx hp.1 hp.2]
    have sent := follows_sendPauses cx hp.2 (c.changes p) c
    generalize c.sendPauses cx p (c.changes p) = d at sent ⊢
    exact sent.trans (follows_put_above d p _ (by decide))
  · unfold Channel.backPressure
    rw [if_pos (by simp; omega)]
    exact .refl c

/-! ## Accounts and cells -/

theorem follows_account (c : Channel) (cx : Ctx) (k : Nat) (p : PoolSt) : Follows c (c.account cx k p) := by
  have set : ∀ q, Follows c (c.setPool k q) := fun _ => follows_rest rfl rfl
  by_cases hk : k = 15
  · subst hk
    rw [account_pool15]
    exact set p
  · rw [account_eq c cx p hk]
    refine .trans ?_ (follows_foldl (fun d q => follows_backPressure d cx q) _ _)
    unfold Channel.booked
    refine .ite (.trans (.ite ((set _).trans (follows_flag_above _ _ _ (by decide))) (set _)) (follows_flag_above _ _ _ (by decide))) ?_
    exact .ite ((set _).trans (follows_flag_above _ _ _ (by decide))) (set _)

theorem follows_ramp (c : Channel) (cx : Ctx) (n : Nat) : Follows c (c.ramp cx n) :=
  (follows_account c cx 15 _).trans (.ite (follows_put _ (by decide) (by decide) _) (.refl _))

theorem follows_modFrame (c : Channel) (fid : Nat) (h : Frame → Frame) : Follows c (c.modFrame fid h) := follows_rest rfl rfl

theorem follows_markCells (c : Channel) (l : List Nat) (v : Nat) : Follows c (c.markCells l v) := follows_rest rfl rfl

theorem follows_takeCells (c : Channel) (cx : Ctx) (n : Nat) : Follows c (c.takeCells cx n).2 :=
  (follows_rest rfl rfl : Follows c (c.pickCells cx.variant [] n 16).2).trans (follows_ramp _ cx _)

theorem follows_payBack (c : Channel) (cx : Ctx) (h : ReqHold) (bad : Nat) : Follows c (c.payBack cx h bad) :=
  (follows_rest rfl rfl : Follows c { c with requesters := c.requesters.erase h }).trans (follows_account _ cx _ _)

theorem follows_endHandled (c : Channel) (cx : Ctx) (cells : List Nat) (key : HeldFor) : Follows c (c.endHandled cx cells key) :=
  follows_foldl (fun d h => follows_payBack d cx h _) _ c

theorem follows_freeFrame (c : Channel) (cx : Ctx) (f : Frame) : Follows c (c.freeFrame cx f) := by
  have gone := (follows_endHandled c cx f.cells (.pass f.id)).trans ((follows_markCells _
    (f.cells.filter fun k => decide ((c.endHandled cx f.cells (.pass f.id)).cellRec k < 256)) 0).trans
    (follows_modFrame _ f.id fun g => { g with cells := [], rq := 0, rp := 0, rs := 0 }))
  exact .ite (gone.trans (follows_ramp _ cx _)) (.ite gone (gone.trans (follows_account _ cx _ _)))

theorem follows_setPool (c : Channel) (k : Nat) (p : PoolSt) : Follows c (c.setPool k p) := follows_rest rfl rfl

theorem follows_quarantine (c : Channel) (cx : Ctx) (k : Nat) : Follows c (c.quarantine cx k) := by
  unfold Channel.quarantine
  dsimp only
  split
  · exact .refl c
  refine (follows_markCells c [k] (c.cellRec k + 256)).trans ?_
  generalize c.markCells [k] (c.cellRec k + 256) = d
  have charged : ∀ e, Follows d e → Follows d (if bits (e.reg 0x4800 3) 31 0 ≤ e.quarantineTotal then e.flag 0x480F 1 4 else e) :=
    fun e h => .ite (h.trans (follows_flag_above e 1 4 (by decide))) h
  refine charged _ ?_
  split
  · exact (follows_setPool d _ _).trans (follows_flag_above _ _ _ (by decide))
  · exact .ite (follows_setPool d _ _) (.refl d)

theorem follows_pointerTrap (c : Channel) (ptr owner : Nat) : Follows c (c.pointerTrap ptr owner) := follows_rest rfl rfl

theorem follows_pointerFault (c : Channel) (cx : Ctx) (ptr owner which : Nat) : Follows c (c.pointerFault cx ptr owner which) :=
  (((follows_inc_above c _ (by decide)).trans (follows_flag_above _ _ _ (by decide))).trans (follows_pointerTrap _ _ _)).trans
    (follows_quarantine _ cx _)

theorem follows_endReq (c : Channel) (cx : Ctx) (h : ReqHold) : Follows c (c.endReq cx h) :=
  (follows_payBack c cx h _).trans (follows_markCells _ _ _)

theorem follows_release (c : Channel) (cx : Ctx) (fid no owner ptr pool : Nat) : Follows c (c.release cx fid no owner ptr pool) := by
  unfold Channel.release
  split
  · exact follows_pointerFault c cx _ _ _
  split
  · exact follows_endReq c cx _
  split
  · exact follows_pointerFault c cx _ _ _
  split
  · exact follows_modFrame c _ _
  · exact .ite ((follows_modFrame c _ _).trans (follows_freeFrame _ cx _)) (follows_modFrame c _ _)
  · exact (((follows_inc_above c _ (by decide)).trans (follows_flag_above _ _ _ (by decide))).trans (follows_pointerTrap _ _ _)).trans
      (follows_foldl (fun d k => follows_quarantine d cx k) _ _)

theorem follows_releaseCells (c : Channel) (cx : Ctx) (r : Nat × Nat) : Follows c (c.releaseCells cx r) := by
  unfold Channel.releaseCells
  split
  · exact .refl c
  · exact .ite (.refl c) ((follows_modFrame c _ _).trans (follows_release _ cx _ _ _ _ _))

theorem follows_unwait (c : Channel) (gone : Wait → Bool) : Follows c (c.unwait gone) :=
  follows_foldl (g := fun c k => if (c.pool k).waiting.any gone
    then c.setPool k { c.pool k with waiting := (c.pool k).waiting.filter fun w => !gone w } else c)
    (fun d k => .ite (follows_setPool d k _) (.refl d)) _ c

theorem follows_sweepFrame (c : Channel) (fid : Nat) : Follows c (c.sweepFrame fid) := follows_rest rfl rfl

theorem follows_endCopy (c : Channel) (cx : Ctx) (r : Nat × Nat) : Follows c (c.endCopy cx r) :=
  ((((follows_unwait c _).trans (follows_endHandled _ cx _ _)).trans (follows_releaseCells _ cx r)).trans (follows_modFrame _ _ _)).trans
    (follows_sweepFrame _ _)

theorem follows_endPass (c : Channel) (cx : Ctx) (fid : Nat) : Follows c (c.endPass cx fid) := by
  unfold Channel.endPass
  dsimp only
  have live := follows_modFrame c fid fun f => { f with pos := .live }
  split
  · exact live
  · exact live.trans (.trans (.ite (follows_freeFrame _ cx _) (.refl _)) (follows_sweepFrame _ _))

/-! ## Sessions and drops -/

theorem follows_of_mirrored {c d : Channel} {s : Nat} (h : Mirrored c d s) : Follows c d := by
  refine ⟨by rw [h.out], fun i hi k hk => h.regs i k hk ?_⟩
  simp only [sessionRegs, List.mem_cons, Prod.mk.injEq, List.not_mem_nil, or_false]
  omega

theorem follows_glance (c : Channel) (cx : Ctx) (fid : Nat) (m : Moment) {s : Nat} (hs : s < 16) : Follows c (c.glance cx fid m s) := by
  rcases hf : c.frame fid with _ | f
  · simp only [Channel.glance, hf]
    exact .refl c
  by_cases taken : c.takes f m s
  · rw [glance_taken hf taken]
    have marked : ∀ k, Follows c { (if bits (c.hw 0x4C10 (s + 1)) 63 60 ≠ 2 then c.modFrame fid fun f => { f with taken := f.taken ++ [s] }
        else c) with cap := { c.cap with samples := tabSet (fun _ => 0) c.cap.samples s k } } := fun k =>
      (Follows.ite (follows_modFrame c _ _) (.refl c)).trans (follows_rest rfl rfl)
    exact .ite ((marked 0).trans (follows_of_mirrored (mirrored_sessionCopy _ cx f m hs))) (marked _)
  · rw [glance_passed hf taken]
    exact .refl c

theorem follows_mirror (c : Channel) (cx : Ctx) (fid : Nat) (m : Moment) : Follows c (c.mirror cx fid m) := by
  have glances : ∀ (l : List Nat), (∀ s, s ∈ l → s < 16) → ∀ c, Follows c (l.foldl (fun c s => c.glance cx fid m s) c) := fun l => by
    induction l with
    | nil => exact fun _ => Follows.refl
    | cons s l ih => exact fun h c => (follows_glance c cx fid m (h s (by simp))).trans (ih (fun k hk => h k (List.mem_cons_of_mem _ hk)) _)
  exact glances _ (fun s hs => List.mem_range.1 hs) c

theorem follows_addCopy (c : Channel) (fid : Nat) (mk : Nat → Copy) : Follows c (c.addCopy fid mk).2 :=
  follows_of_mirrored (mirrored_addCopy c 0 fid mk)

theorem follows_hostCopy (c : Channel) (fid : Nat) : Follows c (c.hostCopy fid) := by
  unfold Channel.hostCopy
  split
  · exact .refl c
  next f hf =>
  split
  · next d h =>
    have made : (c.addCopy fid _).2 = d := congrArg Prod.snd h
    have added : Follows c d := made ▸ follows_addCopy c fid _
    exact added
  · next no d h =>
    have made : (c.addCopy fid _).2 = d := congrArg Prod.snd h
    have added : Follows c d := made ▸ follows_addCopy c fid _
    exact added.trans (follows_rest rfl rfl)

theorem follows_dropCode (c : Channel) (code : Nat) : Follows c (c.dropCode code) := follows_rest rfl rfl

theorem follows_dropFrame (c : Channel) (cx : Ctx) (fid code : Nat) (host : Bool) : Follows c (c.dropFrame cx fid code host) := by
  unfold Channel.dropFrame
  split
  · exact .refl c
  · exact (((follows_dropCode c code).trans (follows_modFrame _ _ _)).trans ((follows_mirror _ cx _ _).trans
      (.ite (follows_hostCopy _ _) (.refl _)))).trans (follows_endPass _ cx _)

theorem follows_dropCopy (c : Channel) (cx : Ctx) (r : Nat × Nat) (code : Nat) : Follows c (c.dropCopy cx r code) := by
  unfold Channel.dropCopy
  split
  · exact .refl c
  · refine (follows_dropCode c code).trans (.trans ?_ (follows_endCopy _ cx r))
    split
    · exact .refl _
    · exact follows_mirror _ cx _ _

/-! ## Queues -/

theorem follows_lengths (c : Channel) (x : Copy) (n : Nat) (grow : Bool) : Follows c (c.lengths x n grow) := follows_rest rfl rfl

theorem follows_countQueue (c : Channel) (x : Copy) (n : Nat) (sent : Bool) : Follows c (c.countQueue x n sent) :=
  follows_rest rfl rfl

theorem follows_nodeOut (c : Channel) (e n : Nat) : Follows c (c.nodeOut e n) := .ite (.refl c) (follows_rest rfl rfl)

theorem follows_unqueue (c : Channel) (r : Nat × Nat) (x : Copy) : Follows c (c.unqueue r x) :=
  (follows_rest rfl rfl : Follows c ((c.setQueue x.queue
    { c.queue x.queue with items := (c.queue x.queue).items.filter (· != r) }).setTier x.tier
      { c.tier x.tier with picked := (c.tier x.tier).picked.filter (· != r) })).trans (follows_nodeOut _ _ _)

theorem follows_forget (c : Channel) (r : Nat × Nat) (x : Copy) : Follows c (c.forget r x) :=
  .ite (follows_rest rfl rfl) (.refl c)

theorem follows_discard (c : Channel) (cx : Ctx) (r : Nat × Nat) (code : Nat) : Follows c (c.discard cx r code) := by
  unfold Channel.discard
  split
  · exact .refl c
  · exact (Follows.ite (follows_lengths c _ _ _) (.refl c)).trans (((follows_unqueue _ r _).trans (follows_forget _ r _)).trans
      ((Follows.ite (follows_countQueue _ _ _ _) (.refl _)).trans (follows_dropCopy _ cx r code)))

/-! ## Storing -/

theorem follows_store (c : Channel) (cx : Ctx) (f : Frame) : Follows c (c.store cx f) :=
  (follows_takeCells c cx _).trans (follows_rest rfl rfl)

/-- A frame that has no cells is seen by the sessions, and gone. -/
theorem follows_seen (c : Channel) (cx : Ctx) (f : Frame) (m : Moment) :
    let d := { c with frames := c.frames ++ [{ f with id := c.nextId }], nextId := c.nextId + 1 }
    Follows c ((d.mirror cx (d.nextId - 1) m).endPass cx (d.nextId - 1)) :=
  (follows_rest rfl rfl : Follows c { c with
    frames := c.frames ++ [{ f with id := c.nextId }], nextId := c.nextId + 1 }).trans
    ((follows_mirror _ cx _ m).trans (follows_endPass _ cx _))

theorem follows_rampDrop (c : Channel) (cx : Ctx) (f : Frame) (code : Nat) : Follows c (c.rampDrop cx f code) := by
  unfold Channel.rampDrop
  split
  · exact (follows_dropCode c code).trans (follows_seen _ cx { f with drop := code } _)
  · exact (((follows_dropCode c 0x1E).trans (follows_put _ (by decide) (by decide) _)).trans
      (follows_flag _ (by decide) (by decide) _)).trans (follows_seen _ cx { f with drop := 0x1E } _)

theorem follows_storeRx (c : Channel) (cx : Ctx) (f : Frame) (code : Nat) : Follows c (c.storeRx cx f code) :=
  .ite (follows_rampDrop c cx f code) (.ite (follows_store c cx f) ((follows_store c cx f).trans (follows_dropFrame _ cx _ _ _)))

end Sys2Proof.Machine
end

section
namespace Sys2Proof.Machine
/-! The control frames that wait at a port (R98 to R102). -/

theorem follows_goOut (c : Channel) {p : Nat} (x : Sent × Bool) (hp : p ≤ 52) : Follows c (c.goOut p x) := by
  have sent := follows_putControl c x.1 hp
  have waits : Follows c (c.setPort p { c.port p with due := (c.port p).due ++ [(x.1, true)] }) := follows_setPort c p _
  have wait : Follows c (if (c.guards p).all fun g => c.fitsBefore p 128 g.2.1 then c.putControl p x.1
      else if x.2 then c.setPort p { c.port p with due := (c.port p).due ++ [(x.1, true)] }
        else (c.setPort p { c.port p with due := (c.port p).due ++ [(x.1, true)] }).inc 0x4B24 p) :=
    .ite sent (.ite waits (waits.trans (follows_inc_above (i := 0x4B24) _ p (by decide))))
  unfold Channel.goOut
  dsimp only
  split
  · exact .ite (follows_setPort c p _) wait
  · exact wait
  · exact sent

theorem follows_goOuts {p : Nat} (hp : p ≤ 52) (l : List (Sent × Bool)) : ∀ c : Channel, Follows c (l.foldl (fun c x => c.goOut p x) c) := by
  induction l with
  | nil => exact Follows.refl
  | cons x l ih => exact fun c => (follows_goOut c x hp).trans (ih _)

theorem follows_sendDue (c : Channel) (p : Nat) : Follows c (c.sendDue p) := by
  unfold Channel.sendDue
  split
  · exact .refl c
  · next h =>
    have hp : p ≤ 52 := by
      simp only [Bool.or_eq_true, decide_eq_true_eq, not_or, Nat.not_lt] at h
      exact h.1.1
    have cleared : Follows c (c.setPort p { c.port p with due := [] }) := follows_setPort c p _
    exact cleared.trans (follows_goOuts hp _ _)

end Sys2Proof.Machine
end

section
namespace Sys2Proof.Machine
/-! What a frame that has come over a fabric link leaves (R141 to R157): it only adds to what is put out, and the two counts of frames cut
through are kept. -/

/-- The counts of a link. -/
theorem follows_countFabric (c : Channel) {l : Nat} (hl : l ≤ 4) (code : Nat) : Follows c (c.countFabric l code) := by
  have small : l < 256 := by omega
  have line : ∀ {i : Nat}, i ≠ 0x4275 ∧ i ≠ 0x4276 → Follows c (c.inc i l) := fun h => follows_inc c small h
  have event : ∀ {i : Nat} (m : Nat), i ≠ 0x4275 ∧ i ≠ 0x4276 → Follows c ((c.inc i l).flag 0x425D l m) := fun m h =>
    (line h).trans (follows_flag _ small (by decide) m)
  have more : Follows c (if 2 ≤ code && code ≤ 5 then c.inc (0x4266 + code) l else c) := by
    split
    · next h =>
      simp only [Bool.and_eq_true, decide_eq_true_eq] at h
      exact line ⟨by omega, by omega⟩
    · exact .refl c
  unfold Channel.countFabric
  exact .ite (event 4 (by decide)) (.ite (line (by decide)) (.ite (line (by decide)) (.ite (line (by decide)) (.ite (event 8 (by decide))
    (.ite (line (by decide)) (.ite (line (by decide)) more))))))

theorem follows_countOut (c : Channel) {p : Nat} (hp : p ≤ 52) (n : Nat) : Follows c (c.countOut p n) := by
  unfold Channel.countOut
  dsimp only
  split
  · exact (follows_inc c (by omega) (by decide)).trans (follows_add _ (by omega) (by decide) n)
  · exact (follows_inc c (by omega) (by decide)).trans (follows_add _ (by omega) (by decide) n)

/-! ## MAC control frames -/

section
variable (c : Channel) (cx : Ctx) {p : Nat} (hp : p ≤ 52)
include hp

theorem follows_showHold : Follows c (c.showHold p) := by
  unfold Channel.showHold
  exact .ite ((follows_putBit c (by omega) (by decide) _ _).trans (follows_putBits _ (by omega) (by decide) _ _ _))
    (follows_putBit c (by omega) (by decide) _ _)

theorem follows_sendGuarded (x : Sent) : Follows c (c.sendGuarded p x) :=
  .ite (follows_sendControl c x hp) (follows_goOut c (x, false) hp)

theorem follows_sendLacpdu (role : Bool) : Follows c (c.sendLacpdu cx p role) := by
  unfold Channel.sendLacpdu
  exact .ite (.refl c) (.ite (follows_setPort c p _) ((follows_setPort c p _).trans (follows_sendGuarded _ hp _)))

theorem follows_endHold (prio : Option Nat) : Follows c (c.endHold cx p prio) := by
  unfold Channel.endHold
  cases prio with
  | none => exact ((follows_setPort c p _).trans (follows_showHold _ hp)).trans (.ite (follows_sendLacpdu _ cx hp _) (.refl _))
  | some i => exact (follows_setPort c p _).trans (follows_showHold _ hp)

theorem follows_takeControl (m : MacControl) : Follows c (c.takeControl cx p m).2 := by
  have count : ∀ {i j : Nat}, i ≠ 0x4275 ∧ i ≠ 0x4276 → j ≠ 0x4275 ∧ j ≠ 0x4276 →
      Follows c (if p ≤ 48 then c.inc i p else c.inc j (p - 48)) := fun hi hj =>
    .ite (follows_inc c (by omega) hi) (follows_inc c (by omega) hj)
  have alien : ∀ d : Channel, Follows d (if p ≤ 48 then d.inc 0x411E p else d) := fun d =>
    .ite (follows_inc d (by omega) (by decide)) (.refl d)
  unfold Channel.takeControl
  cases m with
  | pause q =>
    refine (count (by decide) (by decide)).trans (.ite (.refl _) (.ite (follows_endHold _ cx hp none) ?_))
    exact (follows_setPort _ p _).trans (follows_showHold _ hp)
  | pfc en qs =>
    have counted := count (i := 0x411B) (j := 0x4272) (by decide) (by decide)
    dsimp only
    generalize (if p ≤ 48 then c.inc 0x411B p else c.inc 0x4272 (p - 48)) = d at counted ⊢
    refine counted.trans ?_
    split
    · exact alien _
    · exact (follows_setPort _ p _).trans (follows_showHold _ hp)
  | other op => exact alien c

end

/-! ## Beacons -/

/-- Link `i` is the one picked, or not. -/
def Channel.selectLink (c : Channel) (i : Nat) (pick : Option Nat) : Channel :=
  (c.setLink i { c.link i with sel := pick == some i }).putBit 0x4251 i 18 (pick == some i)

theorem follows_selectLink (c : Channel) {i : Nat} (hi : i < 256) (pick : Option Nat) : Follows c (c.selectLink i pick) := by
  have set : Follows c (c.setLink i { c.link i with sel := pick == some i }) := follows_rest rfl rfl
  exact set.trans (follows_putBit (i := 0x4251) _ hi (by decide) 18 _)

/-- Both links of a direction have been marked, and its tier is up where one is picked. -/
def Channel.chosenUp (c : Channel) (e : Nat) (pick : Option Nat) : Channel := if pick.isSome && (c.tier e).down then c.tierUp e else c

theorem reselect_eq (c : Channel) (e : Nat) : c.reselect e =
    let l := if e = 49 then 1 else 3
    ((c.selectLink l (c.pickLink l)).selectLink (l + 1) (c.pickLink l)).chosenUp e (c.pickLink l) := rfl

theorem follows_reselect (c : Channel) (e : Nat) : Follows c (c.reselect e) := by
  have low : (if e = 49 then 1 else 3) + 1 < 256 := by split <;> decide
  rw [reselect_eq]
  dsimp only
  refine ((follows_selectLink c (by omega) _).trans (follows_selectLink _ low _)).trans (.ite ?_ (.refl _))
  exact follows_rest rfl rfl

theorem follows_takeBeacon (c : Channel) (cx : Ctx) {l : Nat} (hl : l ≤ 4) (b : List Byte) : Follows c (c.takeBeacon cx l b) := by
  have small : l < 256 := by omega
  unfold Channel.takeBeacon
  dsimp only
  refine Follows.trans ?_ (.ite (.refl _) (follows_flag (i := 0x425D) _ small (by decide) _))
  refine Follows.trans ?_ (follows_reselect _ _)
  refine Follows.trans ?_ ((follows_putBit (i := 0x4251) _ small (by decide) _ _).trans (follows_putBit (i := 0x4251) _ small (by decide) _ _))
  refine Follows.trans ?_ (follows_put (i := 0x4256) _ small (by decide) _)
  exact (follows_inc c small (i := 0x426F) (by decide)).trans (follows_rest rfl rfl)

/-! ## Frames -/

theorem follows_seeCut (c : Channel) (cx : Ctx) (id : Nat) (f : Frame) (e : Option CutEnd) : Follows c (c.seeCut cx id f e) := by
  unfold Channel.seeCut
  cases e with
  | none => exact .refl c
  | some e => exact (follows_mirror c cx id _).trans (.ite (.refl _) (follows_mirror _ cx id _))

theorem follows_storeCut (c : Channel) (cx : Ctx) (f : Frame) (code : Nat) (e : Option CutEnd) : Follows c (c.storeCut cx f code e) := by
  unfold Channel.storeCut
  cases e with
  | none => exact (follows_storeRx c cx f code)
  | some e =>
    refine Follows.trans ?_ ((follows_seeCut _ cx _ _ _).trans (follows_endPass _ cx _))
    exact (((follows_store c cx _).trans (follows_dropCode _ code)).trans ((follows_modFrame _ _ _).trans (follows_mirror _ cx _ _)))

theorem follows_of_addCopy {c d : Channel} {fid : Nat} {mk : Nat → Copy} {o : Option Nat} (h : c.addCopy fid mk = (o, d)) :
    Follows c d := by
  have added := follows_addCopy c fid mk
  rw [h] at added
  exact added

theorem follows_placeCopy (c : Channel) (fid : Nat) (kind : CopyKind) (tier q : Nat) (tag launch : Option Nat) :
    Follows c (c.placeCopy fid kind tier q tag launch) := by
  unfold Channel.placeCopy
  split
  · exact .refl c
  · split
    · next h => exact follows_of_addCopy h
    · next h => exact (follows_of_addCopy h).trans (follows_rest rfl rfl)

theorem follows_forwardFabric (c : Channel) (cx : Ctx) (f : Frame) (r : Route) (cut : Option CutEnd) :
    Follows c (c.forwardFabric cx f r cut) := by
  have stored : ∀ f id g, Follows c ((c.store cx f).seeCut cx id g cut) := fun f id g =>
    (follows_store c cx f).trans (follows_seeCut _ cx id g cut)
  unfold Channel.forwardFabric
  refine .ite (follows_rampDrop c cx f 0) (.ite (stored _ _ _) ?_)
  refine Follows.trans ?_ ((follows_mirror _ cx _ _).trans (follows_endPass _ cx _))
  refine (stored (f.fromCut cut) c.nextId (f.fromCut cut)).trans ?_
  split
  · exact (follows_placeCopy _ _ _ _ _ _ _)
  · exact .refl _

theorem follows_dropCutCells (c : Channel) (cx : Ctx) (x : CutSt) : Follows c (c.dropCutCells cx x) :=
  ((follows_markCells c _ 0).trans (follows_ramp _ cx _))

theorem follows_receiveFabric (c : Channel) (cx : Ctx) {l : Nat} (hl : l ≤ 4) (most : Nat) (b : List Byte) (err : LineErr) (fec : Nat)
    (cut : Option CutEnd) : Follows c (c.receiveFabric cx l most b err fec cut) := by
  have small : l < 256 := by omega
  unfold Channel.receiveFabric
  generalize (if 65536 ≤ b.length then b.take 65536 else b) = b
  dsimp only
  split
  · exact (follows_setPort c _ _).trans (follows_storeRx _ cx _ 9)
  · exact .refl c
  · have heard : Follows c (((c.add 0x426D l fec).add 0x426E l (lostWords err)).hear (48 + l) b.length) :=
      ((follows_add c small (by decide) fec).trans (follows_add _ small (by decide) _)).trans (follows_rest rfl rfl)
    refine heard.trans (.ite ((follows_countFabric _ hl _).trans (follows_storeCut _ cx _ _ cut)) ?_)
    generalize ((c.add 0x426D l fec).add 0x426E l (lostWords err)).hear (48 + l) b.length = d
    have counted : Follows d ((d.inc 0x4260 l).add 0x4261 l b.length) :=
      (follows_inc d small (by decide)).trans (follows_add _ small (by decide) _)
    refine counted.trans (.ite ?_ (.ite (.ite (follows_inc _ small (by decide)) (follows_takeBeacon _ cx hl b)) ?_))
    · have taken := follows_takeControl ((d.inc 0x4260 l).add 0x4261 l b.length) cx (p := 48 + l) (by omega) (controlOf b)
      exact .ite (taken.trans (follows_storeRx _ cx _ 8)) taken
    · generalize (d.inc 0x4260 l).add 0x4261 l b.length = e
      have relayed : Follows e (if bitOf (field b 14 14) 104 && !tagBad b then e.inc 0x4270 l else e) :=
        .ite (follows_inc e small (by decide)) (.refl e)
      refine relayed.trans (.ite ((follows_countFabric _ hl _).trans (follows_storeCut _ cx _ _ cut)) (.ite ?_
        (follows_forwardFabric _ cx _ _ cut)))
      have handed : ∀ d : Channel, Follows d (d.relayHere cx b) := fun d => follows_rest rfl rfl
      cases cut with
      | none => exact handed _
      | some x => exact (handed _).trans (follows_dropCutCells _ cx _)

end Sys2Proof.Machine
end

section
namespace Sys2Proof.Machine
/-! Frames received on a fabric link: the checks, the routes and the rows (R90, R93, R141, R145, R157, R162). -/

/-! ## The checks -/

section
variable {top : Nat} {b : List Byte} {err : LineErr} (hb : b.length < 65536)
include hb

theorem fabricRx_line (h : err = .pcs ∨ err = .noEnd ∨ err = .symbol) : (fabricRx top b err).code = 6 := by
  have small : ¬65536 ≤ b.length := Nat.not_le.2 hb
  rcases h with rfl | rfl | rfl <;> simp [fabricRx, rxCheck, small]

theorem fabricRx_fec {w : Nat} (h : err = .fec w) : (fabricRx top b err).code = 7 := by
  have small : ¬65536 ≤ b.length := Nat.not_le.2 hb
  simp [fabricRx, rxCheck, small, h]

variable (he : err = .none)
include he

theorem fabricRx_short (h : b.length < 64) : (fabricRx top b err).code = if fcsGood b then 2 else 3 := by
  have small : ¬65536 ≤ b.length := Nat.not_le.2 hb
  by_cases good : fcsGood b = true <;> simp [fabricRx, rxCheck, small, he, h, good]

variable (h64 : 64 ≤ b.length)
include h64

theorem fabricRx_long (h : top < b.length) : (fabricRx top b err).code = 4 := by
  have small : ¬65536 ≤ b.length := Nat.not_le.2 hb
  have size : ¬b.length < 64 := Nat.not_lt.2 h64
  have long : ¬b.length ≤ top := Nat.not_le.2 h
  simp [fabricRx, rxCheck, small, he, size, long]

variable (ht : b.length ≤ top)
include ht

theorem fabricRx_good (h : fcsGood b = true) : (fabricRx top b err).code = 0 := by
  have small : ¬65536 ≤ b.length := Nat.not_le.2 hb
  have size : ¬b.length < 64 := Nat.not_lt.2 h64
  simp [fabricRx, rxCheck, small, he, size, ht, h]

theorem fabricRx_broken (h : fcsGood b = false) : (fabricRx top b err).code =
    if field b 12 2 == 0x88B5 && bitOf (byteAt b 14) 2 && stompGood b then 0x14 else 1 := by
  have small : ¬65536 ≤ b.length := Nat.not_le.2 hb
  have size : ¬b.length < 64 := Nat.not_lt.2 h64
  have one : rxCheck top b err = ⟨1, false⟩ := by simp [rxCheck, small, he, size, ht, h]
  unfold fabricRx
  simp only [one, Nat.reduceEqDiff, if_false, decide_true, Bool.true_and]
  rw [apply_ite RxResult.code]

end

/-! ## Routes -/

section
variable {c : Channel} {cx : Ctx} {l tag : Nat}

theorem route_spent (h : bits tag 51 46 = 0) : (c.route cx l tag).code = 0x16 := by
  simp [Channel.route, h]

variable (h0 : 0 < bits tag 51 46)
include h0

theorem route_group (h : bitOf tag 107 = true) : c.route cx l tag = ⟨0, bitOf (c.wget 0x4257 (bits tag 89 74)) 2,
    if 1 < bits tag 51 46 ∧ bitOf (c.wget 0x4257 (bits tag 89 74)) (if l ≤ 2 then 1 else 0) = true then
      some (if l ≤ 2 then 51 else 49, bits tag 51 46 - 1) else none⟩ := by
  have hops : bits tag 51 46 ≠ 0 := Nat.pos_iff_ne_zero.1 h0
  by_cases hl : l ≤ 2 <;> simp [Channel.route, hops, h, awayFrom, hl]

variable (hg : ¬bitOf tag 107 = true)
include hg

theorem route_here (hm : bits tag 89 84 + 1 = cx.moduleId) (hp : bits tag 83 77 ≠ 54) (hi : isPort (bits tag 83 77) = true) :
    c.route cx l tag = ⟨0, true, none⟩ := by
  simp [Channel.route, Nat.pos_iff_ne_zero.1 h0, hg, hm, hp, hi]

theorem route_nowhere (hm : bits tag 89 84 + 1 = cx.moduleId) (hp : bits tag 83 77 = 54 ∨ isPort (bits tag 83 77) = false) :
    (c.route cx l tag).code = 0x18 := by
  simp [Channel.route, Nat.pos_iff_ne_zero.1 h0, hg, hm, hp]

variable (hm : ¬bits tag 89 84 + 1 = cx.moduleId)
include hm

omit h0 in
theorem route_last (h : bits tag 51 46 = 1) : (c.route cx l tag).code = 0x16 := by
  simp [Channel.route, h, hg, hm]

theorem route_pathless (h : 1 < bits tag 51 46) (hs : (c.selected (if l ≤ 2 then 51 else 49)).isNone = true) :
    (c.route cx l tag).code = 0x3D := by
  have one : bits tag 51 46 ≠ 1 := by omega
  simp only [Option.isNone_iff_eq_none] at hs
  simp [Channel.route, Nat.pos_iff_ne_zero.1 h0, hg, hm, one, awayFrom, hs]

theorem route_on (h : 1 < bits tag 51 46) (hs : (c.selected (if l ≤ 2 then 51 else 49)).isSome = true) :
    c.route cx l tag = ⟨0, false, some (if l ≤ 2 then 51 else 49, bits tag 51 46 - 1)⟩ := by
  have one : bits tag 51 46 ≠ 1 := by omega
  simp [Channel.route, Nat.pos_iff_ne_zero.1 h0, hg, hm, one, awayFrom, Option.isSome_iff_ne_none.1 hs]

end

/-- An object as applied, where neither it nor a posted write has changed. -/
theorem hw_congr {c d : Channel} {i k : Nat} (hp : d.posted = c.posted) (hr : d.reg i k = c.reg i k) : d.hw i k = c.hw i k := by
  unfold Channel.hw
  rw [hp, hr]

/-- What a link's checks read: the windows, the links and the domain. -/
theorem fabricCheck_congr {c d : Channel} (cx : Ctx) (l : Nat) (b : List Byte) (hw : d.win = c.win) (hl : d.links = c.links)
    (hd : d.hw 0x4252 1 = c.hw 0x4252 1) :
    d.fabricCheck cx l b = c.fabricCheck cx l b ∧ d.route cx l (field b 14 14) = c.route cx l (field b 14 14) := by
  have route : d.route cx l (field b 14 14) = c.route cx l (field b 14 14) := by
    unfold Channel.route Channel.wget Channel.selected Channel.link
    rw [hw, hl]
  refine ⟨?_, route⟩
  unfold Channel.fabricCheck Channel.domainBad Channel.modules Channel.topology Channel.link
  rw [route, hl, hd]

/-! ## The rows -/

/-- What is counted of every frame that a link receives. -/
def Channel.lineIn (c : Channel) (l n : Nat) (err : LineErr) (fec : Nat) : Channel :=
  ((c.add 0x426D l fec).add 0x426E l (lostWords err)).hear (48 + l) n

/-- And of one that passes the checks of R90. -/
def Channel.passed (c : Channel) (l n : Nat) : Channel := (c.inc 0x4260 l).add 0x4261 l n

/-- Relay frames are counted apart. -/
def Channel.relayed (c : Channel) (l : Nat) (b : List Byte) : Channel :=
  if bitOf (field b 14 14) 104 && !tagBad b then c.inc 0x4270 l else c

/-- A data or relay frame that has passed: dropped, delivered or sent on. -/
def Channel.takeData (c : Channel) (cx : Ctx) (l : Nat) (b : List Byte) (f : Frame) (cut : Option CutEnd) : Channel :=
  let code := c.fabricCheck cx l b
  if code ≠ 0 then (c.countFabric l code).storeCut cx f code cut
  else
    let way := c.route cx l (field b 14 14)
    if bitOf (field b 14 14) 104 && way.loc then
      let c := c.relayHere cx b
      match cut with
      | none => c
      | some e => c.dropCutCells cx e.cut
    else c.forwardFabric cx f way cut

/-- What the checks read is as it was before the frame was counted. -/
theorem checks_relayed (c : Channel) (cx : Ctx) {l : Nat} (hl : l ≤ 4) (b : List Byte) (err : LineErr) (fec : Nat) :
    let d := ((c.lineIn l b.length err fec).passed l b.length).relayed l b
    d.fabricCheck cx l b = c.fabricCheck cx l b ∧ d.route cx l (field b 14 14) = c.route cx l (field b 14 14) := by
  have low : l < 256 := by omega
  have counted : ((c.lineIn l b.length err fec).passed l b.length).reg 0x4252 1 = c.reg 0x4252 1 := by
    unfold Channel.passed
    rw [reg_add_ne _ low (by decide) (by simp), reg_inc_ne _ low (by decide) (by simp)]
    have heard : (c.lineIn l b.length err fec).reg 0x4252 1 = ((c.add 0x426D l fec).add 0x426E l (lostWords err)).reg 0x4252 1 := rfl
    rw [heard, reg_add_ne _ low (by decide) (by simp), reg_add_ne _ low (by decide) (by simp)]
  unfold Channel.relayed
  split
  · exact fabricCheck_congr cx l b rfl rfl (hw_congr rfl ((reg_inc_ne _ low (by decide) (by simp)).trans counted))
  · exact fabricCheck_congr cx l b rfl rfl (hw_congr rfl counted)

section
variable {c : Channel} (cx : Ctx) {l : Nat} (top : Nat) {b : List Byte} {err : LineErr} (fec : Nat) (cut : Option CutEnd)

/-- A link within its hold receives nothing; nor does one that is down, but for the frame that was in progress. -/
theorem receiveFabric_idle (h : c.linkUp (48 + l) = false ∨ (c.port (48 + l)).holding = true)
    (ht : (c.port (48 + l)).holding = true ∨ (c.port (48 + l)).tail = false) : c.receiveFabric cx l top b err fec cut = c := by
  have down : (c.linkUp (48 + l) && !(c.port (48 + l)).holding) = false := by
    rcases h with h | h <;> simp [h]
  obtain ⟨n, hn, h9⟩ : ∃ n, c.tailCode (48 + l) = some n ∧ n ≠ 9 := by
    unfold Channel.tailCode
    refine ⟨_, if_neg (Bool.eq_false_iff.1 down), ?_⟩
    rcases ht with h | h
    · cases (c.port (48 + l)).tail <;> simp [h]
    · simp [h]
  unfold Channel.receiveFabric
  simp only [hn]

variable (hb : b.length < 65536)
include hb

theorem receiveFabric_tail (h : c.linkUp (48 + l) = false) (hh : (c.port (48 + l)).holding = false)
    (ht : (c.port (48 + l)).tail = true) :
    c.receiveFabric cx l top b err fec cut = (c.takeTail (48 + l)).storeRx cx (c.fabricFrame l top b (fabricRx top b err)) 9 := by
  have nine : c.tailCode (48 + l) = some 9 := by simp [Channel.tailCode, h, hh, ht]
  unfold Channel.receiveFabric
  rw [if_neg (Nat.not_le.2 hb)]
  simp only [nine]

variable (hu : c.linkUp (48 + l) = true) (hh : (c.port (48 + l)).holding = false)
include hu hh

theorem receiveFabric_live : c.receiveFabric cx l top b err fec cut =
    let r := fabricRx top b err
    let f := c.fabricFrame l top b r
    let d0 := c.lineIn l b.length err fec
    let d1 := d0.passed l b.length
    if r.code ≠ 0 then (d0.countFabric l r.code).storeCut cx f r.code cut
    else if field b 12 2 = 0x8808 then
      if (d1.takeControl cx (48 + l) (controlOf b)).1 then (d1.takeControl cx (48 + l) (controlOf b)).2.storeRx cx f 8
      else (d1.takeControl cx (48 + l) (controlOf b)).2
    else if field b 12 2 = 0x88B5 && bitOf (byteAt b 14) 1 then if tagBad b then d1.inc 0x4264 l else d1.takeBeacon cx l b
    else (d1.relayed l b).takeData cx l b f cut := by
  have none : c.tailCode (48 + l) = none := by simp [Channel.tailCode, hu, hh]
  unfold Channel.receiveFabric
  rw [if_neg (Nat.not_le.2 hb)]
  simp only [none]
  rfl

theorem receiveFabric_bad (h : (fabricRx top b err).code ≠ 0) : c.receiveFabric cx l top b err fec cut =
    ((c.lineIn l b.length err fec).countFabric l (fabricRx top b err).code).storeCut cx (c.fabricFrame l top b (fabricRx top b err))
      (fabricRx top b err).code cut := (receiveFabric_live cx top fec cut hb hu hh).trans (if_pos h)

variable (h0 : (fabricRx top b err).code = 0)
include h0

theorem receiveFabric_control (h : field b 12 2 = 0x8808) : c.receiveFabric cx l top b err fec cut =
    let d1 := (c.lineIn l b.length err fec).passed l b.length
    if (d1.takeControl cx (48 + l) (controlOf b)).1 then
      (d1.takeControl cx (48 + l) (controlOf b)).2.storeRx cx (c.fabricFrame l top b (fabricRx top b err)) 8
    else (d1.takeControl cx (48 + l) (controlOf b)).2 :=
  (receiveFabric_live cx top fec cut hb hu hh).trans ((if_neg (not_not.2 h0)).trans (if_pos h))

theorem receiveFabric_data (hc : field b 12 2 ≠ 0x8808) (hn : ¬(field b 12 2 = 0x88B5 ∧ bitOf (byteAt b 14) 1 = true)) :
    c.receiveFabric cx l top b err fec cut =
      (((c.lineIn l b.length err fec).passed l b.length).relayed l b).takeData cx l b
        (c.fabricFrame l top b (fabricRx top b err)) cut :=
  (receiveFabric_live cx top fec cut hb hu hh).trans ((if_neg (not_not.2 h0)).trans ((if_neg hc).trans (if_neg (by simpa using hn))))

end

section
variable {c : Channel} (cx : Ctx) {l : Nat} {b : List Byte} {f : Frame}

theorem takeData_dropped {cut : Option CutEnd} (h : c.fabricCheck cx l b ≠ 0) :
    c.takeData cx l b f cut = (c.countFabric l (c.fabricCheck cx l b)).storeCut cx f (c.fabricCheck cx l b) cut := if_pos h

variable (h : c.fabricCheck cx l b = 0)
include h

theorem takeData_relayed (hr : bitOf (field b 14 14) 104 = true) (hw : (c.route cx l (field b 14 14)).loc = true) :
    c.takeData cx l b f none = c.relayHere cx b := (if_neg (not_not.2 h)).trans (if_pos (by rw [hr, hw]; rfl))

theorem takeData_forwards {cut : Option CutEnd} (hr : ¬bitOf (field b 14 14) 104 = true ∨ (c.route cx l (field b 14 14)).loc = false) :
    c.takeData cx l b f cut = c.forwardFabric cx f (c.route cx l (field b 14 14)) cut :=
  (if_neg (not_not.2 h)).trans (if_neg (by rcases hr with h | h <;> simp [h]))

end

/-- The way that a data frame takes when its pass is over. -/
def Route.transit (r : Route) : Option Transit :=
  if r.loc && r.onward.isNone then none else some ⟨(r.onward.getD (0, 0)).1, (r.onward.getD (0, 0)).2, r.loc, false⟩

/-- A data frame waits for the parser with the way that it takes. -/
theorem forwardFabric_data {c : Channel} (cx : Ctx) {f : Frame} {r : Route} (hr : bitOf (f.tag.getD 0) 104 = false)
    (hroom : c.rampRoom f.inPort = true) : c.forwardFabric cx f r none = c.store cx { f with transit := r.transit } := by
  unfold Channel.forwardFabric
  rw [if_neg (by simp [hroom])]
  dsimp only
  simp only [Frame.fromCut, hr, Bool.not_false, if_true, Option.isNone_none, Bool.and_true, Option.isSome_none, Channel.seeCut]
  rfl

end Sys2Proof.Machine
end

section
namespace Sys2Proof.Machine
/-! FABRIC_FRAME_RECEIVE (R145, R157, R162). -/

/-! ## Relay frames -/

theorem foldl_relayIn {α : Type} (f : State → α → State) (hf : ∀ s a, (f s a).host.relayIn = s.host.relayIn) (l : List α) (s : State) :
    (l.foldl f s).host.relayIn = s.host.relayIn := by
  induction l generalizing s with
  | nil => rfl
  | cons a l ih => exact (ih (f s a)).trans (hf s a)

theorem relayDelta_host (s : State) (ch : Ch) (d : Delta) : (s.relayDelta ch d).host = s.host := by
  unfold State.relayDelta
  dsimp only
  (repeat' split) <;> first | rfl | exact State.modRole_host s _ _

theorem noteFlags_relayIn (s : State) (i k n : Nat) : (s.noteFlags i k n).host.relayIn = s.host.relayIn := rfl

/-- The relay frames that a channel has received reach the service block. -/
theorem drainBox_relayIn (s : State) (ch : Ch) : (s.drainBox ch).host.relayIn = s.host.relayIn ++ (s.chan ch).box.up := by
  unfold State.drainBox
  dsimp only
  rw [foldl_relayIn _ (fun s d => by rw [relayDelta_host]), foldl_relayIn _ (fun s f => noteFlags_relayIn s _ _ _),
    foldl_relayIn _ (fun s e => by rw [State.logEvent_host])]
  cases ch <;> rfl

theorem onCh_relayIn {s : State} {ch : Ch} {part : Bool} (f : Ctx → Channel → Channel) {t : State} (h : onCh s ch part f = .next t) :
    t.host.relayIn = s.host.relayIn ++ (f (s.ctx ch) (s.chan ch)).box.up := by
  unfold onCh at h
  split at h
  · exact nomatch h
  split at h
  · exact nomatch h
  obtain rfl : s.orderLog (s.onChan ch f) = t := Host.Outcome.next.inj h
  rw [State.orderLog_host, State.onChan, drainBox_relayIn, State.setChan_host, State.setChan_chan]

/-! ## The row -/

/-- Why a frame that has passed the checks of R90 is dropped. -/
theorem fabricCheck_eq (c : Channel) (cx : Ctx) (l : Nat) (b : List Byte) : c.fabricCheck cx l b =
    if tagBad b then 0x15 else if !(c.link l).wired || c.domainBad cx then 0x17
    else if cx.night ≠ .awake then 0x0D else if !cx.forwards then 0x0C else (c.route cx l (field b 14 14)).code := by
  unfold Channel.fabricCheck
  simp only [bne_iff_ne]

theorem relayed_eq (c : Channel) (l : Nat) (b : List Byte) :
    c.relayed l b = if bitOf (field b 14 14) 104 = true ∧ tagBad b = false then c.inc 0x4270 l else c := by
  unfold Channel.relayed
  simp only [Bool.and_eq_true, Bool.not_eq_true']

/-- The tag of a stored frame is that of its bytes, or none. -/
theorem fabricFrame_plain {c : Channel} {l top : Nat} {b : List Byte} {err : LineErr} (hb : b.length < 65536)
    (h0 : (fabricRx top b err).code = 0) (hr : ¬bitOf (field b 14 14) 104 = true) :
    bitOf ((c.fabricFrame l top b (fabricRx top b err)).tag.getD 0) 104 = false := by
  have whole : (fabricRx top b err).oversize = false := by
    unfold fabricRx rxCheck at h0 ⊢
    rw [if_neg (Nat.not_le.2 hb)] at h0 ⊢
    cases err with
    | none =>
      dsimp only at h0 ⊢
      by_cases short : b.length < 64
      · simp only [short, if_true] at h0 ⊢
        (repeat' split) <;> rfl
      by_cases fits : b.length ≤ top
      · simp only [short, fits, if_false, if_true] at h0 ⊢
        (repeat' split) <;> rfl
      · simp [short, fits] at h0
    | pcs | noEnd | symbol | fec => rfl
  have plain := Bool.eq_false_iff.2 hr
  unfold Channel.fabricFrame
  simp only [whole, Bool.false_eq_true, if_false]
  split
  · exact plain
  · rfl

theorem isLink_of {l : Nat} (h1 : 1 ≤ l) (h4 : l ≤ 4) : isLink l = true := by simp [isLink, h1, h4]

section
variable {s : State} {ch : Ch} {l : Nat} {b : List Byte} {err : LineErr} {fec : Nat} (hc : s.present ch = true) (h1 : 1 ≤ l) (h4 : l ≤ 4)
include hc h1 h4

/-- The command gives what its reception makes of the channel. -/
theorem fabricFrameReceive_answers {d : Channel}
    (h : (s.chan ch).receiveFabric (s.ctx ch) l ((s.chan ch).maxLen (48 + l) + 16) b err fec none = d) :
    answersOn (.fabricFrameReceive ch l b err fec) ch s fun t => t.chan ch = d.emptied :=
  answersOn_onCh (f := fun cx c => c.receiveFabric cx l (c.maxLen (48 + l) + 16) b err fec none) rfl hc (isLink_of h1 h4)
    fun _ own _ => h ▸ own

/-- A relay frame for this module is handed on, with those that wait. -/
theorem fabricFrameReceive_relays {d : Channel} (hup : d.box.up = (s.chan ch).box.up)
    (h : (s.chan ch).receiveFabric (s.ctx ch) l ((s.chan ch).maxLen (48 + l) + 16) b err fec none = d.relayHere (s.ctx ch) b) :
    answersOn (.fabricFrameReceive ch l b err fec) ch s fun t => t.chan ch = d.emptied ∧ t.host.relayIn = s.host.relayIn ++
      ((s.chan ch).box.up ++ [(⟨ch, bits (field b 14 14) 103 98 + 1, (b.drop 28).take (b.length - 32)⟩ : RelayMsg)]) := by
  obtain ⟨t, run, out, own⟩ := fabricFrameReceive_answers hc h1 h4 h
  refine ⟨t, run, out, own, ?_⟩
  have handed := onCh_relayIn (fun cx c => c.receiveFabric cx l (c.maxLen (48 + l) + 16) b err fec none) run
  have up : (d.relayHere (s.ctx ch) b).box.up = (s.chan ch).box.up ++
      [⟨ch, bits (field b 14 14) 103 98 + 1, (b.drop 28).take (b.length - 32)⟩] := by
    rw [← hup]
    rfl
  rw [handed, h, up]

variable (hb : b.length < 65536)
include hb

/-- Nothing is received of a link within its hold, and of one that is down at most the frame that was in progress. -/
theorem fabricFrame_down : let c := s.chan ch
    let x := c.port (48 + l)
    let top := c.maxLen (48 + l) + 16
    (c.linkUp (48 + l) = false ∨ x.holding = true → x.holding = true ∨ x.tail = false →
      answersOn (.fabricFrameReceive ch l b err fec) ch s fun t => t.chan ch = c.emptied) ∧
    (c.linkUp (48 + l) = false → x.holding = false → x.tail = true → answersOn (.fabricFrameReceive ch l b err fec) ch s fun t =>
      t.chan ch = ((c.takeTail (48 + l)).storeRx (s.ctx ch) (c.fabricFrame l top b (fabricRx top b err)) 9).emptied) :=
  ⟨fun h ht => fabricFrameReceive_answers hc h1 h4 (receiveFabric_idle _ _ fec none h ht),
    fun h hh ht => fabricFrameReceive_answers hc h1 h4 (receiveFabric_tail _ _ fec none hb h hh ht)⟩

end

/-- A link that is up takes a frame in: bad, MAC control, dropped, delivered or sent on. -/
theorem fabricFrame_up {s : State} {ch : Ch} {l : Nat} {b : List Byte} {err : LineErr} {fec : Nat} (hc : s.present ch = true) (h1 : 1 ≤ l)
    (h4 : l ≤ 4) (hb : b.length < 65536) (hu : (s.chan ch).linkUp (48 + l) = true)
    (hh : ((s.chan ch).port (48 + l)).holding = false) : let c := s.chan ch
    let cx := s.ctx ch
    let top := c.maxLen (48 + l) + 16
    let r := fabricRx top b err
    let f := c.fabricFrame l top b r
    let way := c.route cx l (field b 14 14)
    let relay := bitOf (field b 14 14) 104 = true
    let rows := fun (ok : State → Prop) => answersOn (.fabricFrameReceive ch l b err fec) ch s ok
    let d0 := c.lineIn l b.length err fec
    let d1 := d0.passed l b.length
    let d2 := d1.relayed l b
    let data := r.code = 0 ∧ field b 12 2 ≠ 0x8808 ∧ ¬(field b 12 2 = 0x88B5 ∧ bitOf (byteAt b 14) 1 = true)
    let code := c.fabricCheck cx l b
    (r.code ≠ 0 → rows fun t => t.chan ch = ((d0.countFabric l r.code).storeRx cx f r.code).emptied) ∧
    (r.code = 0 → field b 12 2 = 0x8808 → rows fun t => t.chan ch = (if (d1.takeControl cx (48 + l) (controlOf b)).1
      then (d1.takeControl cx (48 + l) (controlOf b)).2.storeRx cx f 8 else (d1.takeControl cx (48 + l) (controlOf b)).2).emptied) ∧
    (data → code ≠ 0 → rows fun t => t.chan ch = ((d2.countFabric l code).storeRx cx f code).emptied) ∧
    (data → code = 0 → relay → way.loc = true → rows fun t => t.chan ch = d2.emptied ∧ t.host.relayIn = s.host.relayIn ++
      (c.box.up ++ [(⟨ch, bits (field b 14 14) 103 98 + 1, (b.drop 28).take (b.length - 32)⟩ : RelayMsg)])) ∧
    (data → code = 0 → ¬relay ∨ way.loc = false → rows fun t => t.chan ch = (d2.forwardFabric cx f way none).emptied) ∧
    (data → code = 0 → ¬relay → d2.rampRoom (48 + l) = true →
      rows fun t => t.chan ch = (d2.store cx { f with transit := way.transit }).emptied) := by
  intro c cx top r f way relay rows d0 d1 d2 data code
  obtain ⟨check, route⟩ := checks_relayed c cx h4 b err fec
  have takes : data → c.receiveFabric cx l top b err fec none = d2.takeData cx l b f none := fun ⟨h0, hctl, hbeacon⟩ =>
    receiveFabric_data cx top fec none hb hu hh h0 hctl hbeacon
  have forwards : data → code = 0 → ¬relay ∨ way.loc = false → c.receiveFabric cx l top b err fec none = d2.forwardFabric cx f way none :=
    fun hd h0 hr => by
      rw [takes hd, takeData_forwards cx (check.trans h0) (by rw [route]; exact hr), route]
  refine ⟨fun h => fabricFrameReceive_answers hc h1 h4 (receiveFabric_bad cx top fec none hb hu hh h),
    fun h0 h => fabricFrameReceive_answers hc h1 h4 (receiveFabric_control cx top fec none hb hu hh h0 h), fun hd h => ?_,
    fun hd h0 hr hw => ?_, fun hd h0 hr => fabricFrameReceive_answers hc h1 h4 (forwards hd h0 hr), fun hd h0 hr hroom => ?_⟩
  · refine fabricFrameReceive_answers hc h1 h4 ((takes hd).trans ?_)
    rw [takeData_dropped cx (by rw [check]; exact h), check]
    rfl
  · have up : d2.box.up = c.box.up := by
      unfold d2 Channel.relayed
      split <;> rfl
    exact fabricFrameReceive_relays hc h1 h4 up ((takes hd).trans (takeData_relayed cx (check.trans h0) hr (by rw [route]; exact hw)))
  · refine fabricFrameReceive_answers hc h1 h4 ((forwards hd h0 (.inl hr)).trans ?_)
    exact forwardFabric_data cx (fabricFrame_plain hb hd.1 hr) hroom

end Sys2Proof.Machine
end

section
namespace Sys2Proof.Machine
/-! CUT_THROUGH_START (R146, R427). -/

/-! ## Which frame is cut through -/

/-- A frame goes on towards the other direction, with one hop less. -/
theorem route_onward {c : Channel} {cx : Ctx} {l tag e hops : Nat} (h : (c.route cx l tag).onward = some (e, hops)) :
    e = (if l ≤ 2 then 51 else 49) ∧ hops + 1 = bits tag 51 46 := by
  have pos : 0 < bits tag 51 46 := by
    by_contra hn
    rw [Channel.route, if_pos (Nat.eq_zero_of_not_pos hn)] at h
    exact nomatch h
  have on : some (awayFrom l, bits tag 51 46 - 1) = some (e, hops) → e = (if l ≤ 2 then 51 else 49) ∧ hops + 1 = bits tag 51 46 :=
    fun h => by
      obtain ⟨rfl, rfl⟩ := Prod.mk.inj (Option.some.inj h)
      exact ⟨rfl, Nat.sub_add_cancel pos⟩
  unfold Channel.route at h
  dsimp only at h
  rw [if_neg (Nat.pos_iff_ne_zero.1 pos)] at h
  by_cases group : bitOf tag 107 = true
  · rw [if_pos group] at h
    exact on (Option.ite_none_right_eq_some.1 h).2
  rw [if_neg group] at h
  by_cases here : bits tag 89 84 + 1 = cx.moduleId
  · rw [if_pos here] at h
    split at h <;> exact nomatch h
  rw [if_neg here] at h
  by_cases last : bits tag 51 46 = 1
  · rw [if_pos last] at h
    exact nomatch h
  rw [if_neg last] at h
  split at h
  · exact nomatch h
  · exact on h

theorem selected_link {c : Channel} {e out : Nat} (h : c.selected e = some out) : 1 ≤ out ∧ out ≤ 4 := by
  unfold Channel.selected at h
  dsimp only at h
  (repeat' split at h) <;> simp at h <;> omega

/-- The tag that a frame leaves with: one hop less, STOMP_AWARE set. -/
theorem onwardTag_bits (tag hops : Nat) (h : hops + 1 = bits tag 51 46) :
    bits (setBit (onwardTag tag hops) 106 true) 51 46 + 1 = bits tag 51 46 := by
  have low : bits tag 51 46 < 2 ^ 6 := Nat.mod_lt _ (by decide)
  unfold onwardTag
  rw [bits_setBit_ne _ _ (by omega), bits_setBit_ne _ _ (by omega), bits_setBits_self _ _ (by decide), Nat.mod_eq_of_lt (by omega), h]

theorem cutTarget_facts {c : Channel} {cx : Ctx} {l : Nat} {head : List Byte} {out tag : Nat}
    (h : c.cutTarget cx l head = some (out, tag)) :
    c.hwBit 0x4250 l 1 = true ∧ c.hwBit 0x4250 out 1 = true ∧ c.selected (if l ≤ 2 then 51 else 49) = some out ∧
      c.queuedAt (if l ≤ 2 then 51 else 49) = [] ∧ c.rampRoom (48 + l) = true ∧
      (∀ r f y, r ∈ (c.tier (if l ≤ 2 then 51 else 49)).picked → c.copyOf r = some (f, y) → y.port ≠ 48 + out) ∧
      (c.port (48 + out)).paused = false ∧ c.inProgress (48 + out) = false ∧
      64 ≤ head.length ∧ head.length ≤ c.maxLen (48 + out) + 16 ∧ (512 ≤ head.length ∨ fcsGood head = true) ∧
      bits tag 51 46 + 1 = bits (field head 14 14) 51 46 ∧ bitOf tag 106 = true := by
  unfold Channel.cutTarget at h
  dsimp only at h
  split at h
  · exact nomatch h
  next fits =>
  split at h
  · exact nomatch h
  next e hops on =>
  split at h
  · exact nomatch h
  next link sel =>
  split at h
  case isFalse => exact nomatch h
  next free =>
  obtain ⟨rfl, rfl⟩ := Prod.mk.inj (Option.some.inj h)
  obtain ⟨rfl, hops⟩ := route_onward on
  simp only [Bool.or_eq_true, Bool.not_eq_true', Bool.or_eq_false_iff, decide_eq_true_eq, decide_eq_false_iff_not, not_or, Nat.not_lt,
    not_and, Bool.not_eq_true] at fits
  simp only [Bool.and_eq_true, Bool.not_eq_true', decide_eq_true_eq] at free
  obtain ⟨⟨⟨⟨⟨⟨⟨⟨⟨ctl, ctlOut⟩, queued⟩, own⟩, room⟩, busy⟩, paused⟩, -⟩, len⟩, -⟩ := free
  obtain ⟨⟨⟨⟨⟨⟨short, whole⟩, -⟩, -⟩, -⟩, -⟩, -⟩ := fits
  refine ⟨ctl, ctlOut, sel, List.isEmpty_iff.1 queued, room, fun r f y hr hy => ?_, paused, busy, short, len, ?_,
    onwardTag_bits _ _ hops, bitOf_setBit_self _ _ _⟩
  · have other := List.any_eq_false.1 own r hr
    rw [hy] at other
    simpa using other
  · by_cases big : 512 ≤ head.length
    · exact .inl big
    · exact .inr (by simpa [big] using whole)

/-! ## Its timestamp -/

theorem stampEntry_time (b : List Byte) (h : PtpAt) (tx : Nat) : stampEntry b h tx % 2 ^ 96 = tx % 2 ^ 96 := by
  unfold stampEntry
  generalize byteAt b h.ptp % 16 = x
  generalize byteAt b (h.ptp + 4) = y
  generalize field b (h.ptp + 30) 2 = z
  have high : 2 ^ 127 + x * 2 ^ 120 + y * 2 ^ 112 + z * 2 ^ 96 + tx = tx + 2 ^ 96 * (2 ^ 31 + x * 2 ^ 24 + y * 2 ^ 16 + z) := by ring
  rw [high, Nat.add_mul_mod_self_left]

/-- Whether the bytes of a frame that leaves on a port are a PTP event message whose timestamp is queued. -/
def Channel.twoStep (c : Channel) (p : Nat) (b : List Byte) : Bool :=
  (findPtp (Nat.ble 49 p) (c.hw 0x4B08 p) b).isSome && c.hwBit 0x4B08 p 0

theorem timePtp_message {c : Channel} {p : Nat} (hp : p ≤ 52) (b : List Byte) (tx rx : Nat) (sum : Int) :
    (c.timePtp p b tx rx sum).2.1 = (findPtp (Nat.ble 49 p) (c.hw 0x4B08 p) b).map fun h =>
      (h, (ptpInsert (c.hw 0x4B08 p) b h tx rx (c.time.stepSum - sum)).1) := by
  unfold Channel.timePtp
  rw [if_pos hp]
  split
  · next h => rw [h]; rfl
  · next h => rw [h]; rfl

theorem noteStamp_twoStep {c : Channel} {p : Nat} (hp : p ≤ 52) (b : List Byte) (tx rx : Nat) (sum : Int) :
    (c.twoStep p b = false → c.noteStamp p tx (c.timePtp p b tx rx sum).2.1 = c) ∧
      (c.twoStep p b = true → ∃ e, c.noteStamp p tx (c.timePtp p b tx rx sum).2.1 = c.queueStamp p e ∧ e % 2 ^ 96 = tx % 2 ^ 96) := by
  rw [timePtp_message hp]
  unfold Channel.twoStep
  cases findPtp (Nat.ble 49 p) (c.hw 0x4B08 p) b with
  | none => exact ⟨fun _ => rfl, fun h => by simp at h⟩
  | some h =>
    simp only [Option.isSome_some, Bool.true_and, Option.map_some]
    refine ⟨fun two => if_neg (Bool.eq_false_iff.1 two), fun two => ⟨_, if_pos two, stampEntry_time _ _ _⟩⟩

theorem queueStamp_cuts (c : Channel) (p e : Nat) : (c.queueStamp p e).cuts = c.cuts := by
  unfold Channel.queueStamp
  dsimp only
  split
  · exact Channel.flag_cuts _ _ _ _
  · rfl

/-! ## The cells -/

/-- Taking cells leaves the PTP settings of the ports. -/
theorem takeCells_hw (c : Channel) (cx : Ctx) (n : Nat) {p : Nat} (hp : p < 256) : (c.takeCells cx n).2.hw 0x4B08 p = c.hw 0x4B08 p := by
  have picked : (c.pickCells cx.variant [] n 16).2.hw 0x4B08 p = c.hw 0x4B08 p := rfl
  rw [← picked]
  unfold Channel.takeCells
  dsimp only
  generalize (c.pickCells cx.variant [] n 16).2 = d
  unfold Channel.ramp
  rw [account_pool15]
  dsimp only
  split
  · exact hw_congr rfl (reg_put_ne _ (by decide) hp (by simp))
  · rfl

/-! ## The row -/

/-- The frame that is cut through from link `l`, once it holds its cells. -/
def Channel.cutBegun (c : Channel) (cx : Ctx) (l : Nat) (head : List Byte) (out tag : Nat) : CutSt :=
  ⟨l, out, tag, head, c.maxLen (48 + l) + 16, c.maxLen (48 + out) + 16, 0, (c.takeCells cx (cellsOf head.length)).1, c.rxStamp (48 + l),
    c.txStamp (48 + out), c.time.stepSum⟩

def Channel.withCut (c : Channel) (cx : Ctx) (l : Nat) (head : List Byte) (out tag : Nat) : Channel :=
  { (c.takeCells cx (cellsOf head.length)).2 with cuts := c.cuts ++ [c.cutBegun cx l head out tag] }

section
variable {c : Channel} {cx : Ctx} {l : Nat} {head : List Byte}

theorem startCut_none (h : c.cutTarget cx l head = none) : c.startCut cx l head = c := by
  unfold Channel.startCut
  simp only [h]

theorem startCut_some {out tag : Nat} (h : c.cutTarget cx l head = some (out, tag)) : c.startCut cx l head =
    let x := c.cutBegun cx l head out tag
    let d := c.withCut cx l head out tag
    d.noteStamp (48 + out) x.tx (d.timePtp (48 + out) (x.leaving head) x.tx x.rx x.sum).2.1 := by
  unfold Channel.startCut
  simp only [h]
  rfl

theorem startCut_facts {out tag : Nat} (h : c.cutTarget cx l head = some (out, tag)) :
    let x := c.cutBegun cx l head out tag
    let d := c.withCut cx l head out tag
    let ptp := (findPtp true (c.hw 0x4B08 (48 + out)) (x.leaving head)).isSome && c.hwBit 0x4B08 (48 + out) 0
    (c.startCut cx l head).cuts = c.cuts ++ [x] ∧ (ptp = false → c.startCut cx l head = d) ∧
      (ptp = true → ∃ e, c.startCut cx l head = d.queueStamp (48 + out) e ∧ e % 2 ^ 96 = x.tx % 2 ^ 96) := by
  intro x d ptp
  obtain ⟨h1, h4⟩ := selected_link (cutTarget_facts h).2.2.1
  have start := startCut_some h
  have settings : d.hw 0x4B08 (48 + out) = c.hw 0x4B08 (48 + out) := takeCells_hw c cx _ (by omega)
  have link : Nat.ble 49 (48 + out) = true := Nat.ble_eq_true_of_le (by omega)
  have two : d.twoStep (48 + out) (x.leaving head) = ptp := by
    unfold Channel.twoStep Channel.hwBit
    rw [settings, link]
    rfl
  obtain ⟨plain, queued⟩ := noteStamp_twoStep (c := d) (p := 48 + out) (by omega) (x.leaving head) x.tx x.rx x.sum
  rw [two] at plain queued
  have begun : ptp = false → c.startCut cx l head = d := fun hp => start.trans (plain hp)
  have stamped : ptp = true → ∃ e, c.startCut cx l head = d.queueStamp (48 + out) e ∧ e % 2 ^ 96 = x.tx % 2 ^ 96 := fun hp => by
    obtain ⟨e, noted, time⟩ := queued hp
    exact ⟨e, start.trans noted, time⟩
  refine ⟨?_, begun, stamped⟩
  cases hp : ptp with
  | false => rw [begun hp]; rfl
  | true =>
    obtain ⟨e, he, -⟩ := stamped hp
    rw [he, queueStamp_cuts]
    rfl

end

end Sys2Proof.Machine
end

section
namespace Sys2Proof.Machine
/-! CUT_THROUGH_END (R147, R168) and the loss of a link that frames are cut through from (R98, R139). -/

/-! ## A frame that was cut through has been sent -/

/-- Some bytes with their FCS inverted. -/
def stomped (b : List Byte) : List Byte := b ++ (fcsBytes b).map fun y => ~~~y

/-- What is left of a frame that is cut through when its last byte has gone, without its FCS. -/
def Channel.cutBody (c : Channel) (x : CutSt) (b : List Byte) : List Byte :=
  (c.timePtp (48 + x.egress) (x.leaving b) x.tx x.rx x.sum).1

/-- Whether the FCS is inverted: the frame is bad, or one of its cells cannot be read. -/
def Channel.torn (c : Channel) (x : CutSt) (bad : Bool) : Bool := bad || x.cells.any c.damage.cells.contains

def Channel.cutBytes (c : Channel) (x : CutSt) (b : List Byte) (bad : Bool) : List Byte :=
  c.cutBody x b ++ if c.torn x bad then (fcsBytes (c.cutBody x b)).map (fun y => ~~~y) else fcsBytes (c.cutBody x b)

/-- The frame is counted as one of its link. -/
def Channel.cutCounted (c : Channel) (x : CutSt) (b : List Byte) (bad : Bool) : Channel :=
  let d := if (c.timePtp (48 + x.egress) (x.leaving b) x.tx x.rx x.sum).2.2 then c.inc 0x4B26 (48 + x.egress) else c
  ({ d with cuts := d.cuts.filter fun y => y.ingress != x.ingress } : Channel).countOut (48 + x.egress) (c.cutBytes x b bad).length

/-- It is counted as one that was cut through, and put out. -/
def Channel.cutOut (c : Channel) (cx : Ctx) (x : CutSt) (out : List Byte) (bad : Bool) : Channel :=
  (c.inc 0x4275 x.egress).emit (.frame cx.ch (48 + x.egress) out (!bad))

/-- A relay frame and one with its FCS inverted are counted once more. -/
def Channel.cutMarked (c : Channel) (x : CutSt) (bad : Bool) : Channel :=
  let d := if bitOf x.tag 104 then c.inc 0x4278 x.egress else c
  if bad then (d.inc 0x4276 x.egress).dropCode 0x96 else d

/-- The frame has been sent. -/
def Channel.cutSent (c : Channel) (cx : Ctx) (x : CutSt) (b : List Byte) (bad : Bool) : Channel :=
  ((c.cutCounted x b bad).cutOut cx x (c.cutBytes x b bad) (c.torn x bad)).cutMarked x (c.torn x bad)

theorem finishCut_eq (c : Channel) (cx : Ctx) (x : CutSt) (b : List Byte) (bad : Bool) : c.finishCut cx x b bad =
    (⟨48 + x.egress, if c.torn x bad then 0x96 else 0, c.cutBytes x b bad, x⟩, (c.cutSent cx x b bad).sendDue (48 + x.egress)) := rfl

theorem cutCounted_out (c : Channel) (x : CutSt) (b : List Byte) (bad : Bool) : (c.cutCounted x b bad).box.out = c.box.out := by
  unfold Channel.cutCounted
  dsimp only
  split <;> rfl

section
variable (c : Channel) (cx : Ctx) {x : CutSt} (b : List Byte) (bad : Bool) (h4 : x.egress ≤ 4)
include h4

theorem follows_cutCounted : Follows c (c.cutCounted x b bad) := by
  have timed : Follows c (if (c.timePtp (48 + x.egress) (x.leaving b) x.tx x.rx x.sum).2.2 then c.inc 0x4B26 (48 + x.egress) else c) :=
    .ite (follows_inc c (by omega) (by decide)) (.refl c)
  unfold Channel.cutCounted
  dsimp only
  generalize (if (c.timePtp (48 + x.egress) (x.leaving b) x.tx x.rx x.sum).2.2 then c.inc 0x4B26 (48 + x.egress) else c) = d at timed ⊢
  have shorter : Follows d { d with cuts := d.cuts.filter fun y => y.ingress != x.ingress } := follows_rest rfl rfl
  exact (timed.trans shorter).trans (follows_countOut _ (by omega) _)

theorem cutMarked_facts : (c.cutMarked x bad).box.out = c.box.out ∧ (c.cutMarked x bad).reg 0x4275 x.egress = c.reg 0x4275 x.egress ∧
    (bad = true → counts c (c.cutMarked x bad) 0x4276 x.egress 1) := by
  have low : x.egress < 256 := by omega
  have relay : Follows c (if bitOf x.tag 104 then c.inc 0x4278 x.egress else c) := .ite (follows_inc c low (by decide)) (.refl c)
  have out : (if bitOf x.tag 104 then c.inc 0x4278 x.egress else c).box.out = c.box.out := by split <;> rfl
  unfold Channel.cutMarked
  dsimp only
  generalize (if bitOf x.tag 104 then c.inc 0x4278 x.egress else c) = d at relay out ⊢
  have through := relay.cuts 0x4275 (.inl rfl) _ low
  have torn := relay.cuts 0x4276 (.inr rfl) _ low
  cases bad with
  | false => exact ⟨out, through, nofun⟩
  | true =>
    have kept : ((d.inc 0x4276 x.egress).dropCode 0x96).reg 0x4275 x.egress = d.reg 0x4275 x.egress :=
      reg_inc_ne d low low (by simp)
    have stepped : ((d.inc 0x4276 x.egress).dropCode 0x96).reg 0x4276 x.egress = (d.reg 0x4276 x.egress + 1) % 2 ^ 64 :=
      reg_inc_self d _ _
    exact ⟨out, kept.trans through, fun _ => stepped.trans (by rw [torn])⟩

/-- A frame cut through is the next to go out, and counted. -/
theorem cutSent_facts : let d := c.cutSent cx x b bad
    d.box.out = c.box.out ++ [.frame cx.ch (48 + x.egress) (c.cutBytes x b bad) (!c.torn x bad)] ∧ counts c d 0x4275 x.egress 1 ∧
      (c.torn x bad = true → counts c d 0x4276 x.egress 1) := by
  have low : x.egress < 256 := by omega
  have counted := follows_cutCounted c b bad h4
  have before := cutCounted_out c x b bad
  unfold Channel.cutSent
  dsimp only
  generalize c.torn x bad = torn
  generalize c.cutBytes x b bad = out
  generalize c.cutCounted x b bad = d at counted before ⊢
  obtain ⟨marked, through, stomp⟩ := cutMarked_facts (d.cutOut cx x out torn) torn h4
  refine ⟨?_, ?_, fun h => ?_⟩
  · rw [marked, ← before]
    rfl
  · have sent : (d.cutOut cx x out torn).reg 0x4275 x.egress = (d.reg 0x4275 x.egress + 1) % 2 ^ 64 := reg_inc_self d _ _
    rw [counts, through, sent, counted.cuts 0x4275 (.inl rfl) _ low]
  · have sent : (d.cutOut cx x out torn).reg 0x4276 x.egress = d.reg 0x4276 x.egress := reg_inc_ne d low low (by simp)
    have twice := stomp h
    rw [counts, sent, counted.cuts 0x4276 (.inr rfl) _ low] at twice
    exact twice

/-- Whatever follows keeps that. -/
theorem cutSent_followed {d : Channel} (h : Follows (c.cutSent cx x b bad) d) : counts c d 0x4275 x.egress 1 ∧
    (c.torn x bad = true → counts c d 0x4276 x.egress 1) ∧
      ∃ more, d.box.out = c.box.out ++ Sent.frame cx.ch (48 + x.egress) (c.cutBytes x b bad) (!c.torn x bad) :: more := by
  obtain ⟨out, through, stomp⟩ := cutSent_facts c cx b bad h4
  obtain ⟨more, rest⟩ := h.out
  refine ⟨(h.cuts 0x4275 (.inl rfl) _ (by omega)).trans through, fun ht => (h.cuts 0x4276 (.inr rfl) _ (by omega)).trans (stomp ht),
    more, ?_⟩
  rw [← rest, out, List.append_assoc]
  rfl

end

/-! ## The end of the frame -/

section
variable {c : Channel} (cx : Ctx) {l : Nat} (tail : List Byte) (fec : Nat)

theorem endCut_none (err : Option LineErr) (h : (c.cuts.all fun x => x.ingress != l) = true) : c.endCut cx l tail err fec = c := by
  have none : (c.cuts.find? fun x => x.ingress == l) = none := List.find?_eq_none.2 fun x hx => by
    have other := List.all_eq_true.1 h x hx
    simpa using other
  unfold Channel.endCut
  simp only [none]

variable {x : CutSt} (hx : (c.cuts.find? fun x => x.ingress == l) = some x)
include hx

theorem endCut_lost : c.endCut cx l tail none fec = (c.modCut l fun y => { y with head := x.head ++ tail }).fabricDown' cx l := by
  unfold Channel.endCut
  simp only [hx]

theorem endCut_short (err : LineErr) (hf : x.fate ≠ 0) : c.endCut cx l tail (some err) fec =
    ({ c with cuts := c.cuts.filter fun y => y.ingress != l } : Channel).receiveFabric cx l x.rxMax (x.head ++ tail) err fec
      (some ⟨48 + x.egress, x.fate, x.leaving x.head, x⟩) := by
  unfold Channel.endCut
  simp only [hx, hf, if_false]

/-- The bytes of a frame that its transmission takes: no more than either link's maximum. -/
def CutSt.whole (x : CutSt) (tail : List Byte) : List Byte := (x.head ++ tail).take (min x.rxMax x.txMax)

/-- Whether the frame has turned out bad, or too long. -/
def CutSt.bad (x : CutSt) (tail : List Byte) (err : LineErr) : Bool :=
  (fabricRx x.rxMax (x.head ++ tail) err).code != 0 || Nat.blt (x.whole tail).length (x.head ++ tail).length

theorem endCut_runs (err : LineErr) (hf : x.fate = 0) :
    let e := c.finishCut cx x ((x.whole tail).take ((x.whole tail).length - 4)) (x.bad tail err)
    c.endCut cx l tail (some err) fec = e.2.receiveFabric cx l x.rxMax (x.head ++ tail) err fec (some e.1) := by
  unfold Channel.endCut
  simp only [hx, hf, if_true]
  rfl

theorem follows_endCut (err : LineErr) (hf : x.fate = 0) (hl : l ≤ 4) :
    Follows (c.cutSent cx x ((x.whole tail).take ((x.whole tail).length - 4)) (x.bad tail err)) (c.endCut cx l tail (some err) fec) := by
  rw [endCut_runs cx tail fec hx err hf, finishCut_eq]
  exact (follows_sendDue _ (48 + x.egress)).trans (follows_receiveFabric _ cx hl _ _ _ _ _)

end

end Sys2Proof.Machine
end

section
namespace Sys2Proof.Machine
/-! The loss of a fabric link (R98, R139, R147). -/

/-- `d` is `c` once frames of link `l` have been cut short: its settings, its time and the frame that is cut through from `l` are
kept. -/
structure Clipped (l : Nat) (c d : Channel) : Prop where
  follows : Follows c d
  time : d.time = c.time
  hw : ∀ k, k < 256 → d.hw 0x4B08 k = c.hw 0x4B08 k
  cut : (d.cuts.find? fun y => y.ingress == l) = c.cuts.find? fun y => y.ingress == l

theorem Clipped.refl (l : Nat) (c : Channel) : Clipped l c c := ⟨.refl c, rfl, fun _ _ => rfl, rfl⟩

theorem Clipped.trans {l : Nat} {c d e : Channel} (a : Clipped l c d) (b : Clipped l d e) : Clipped l c e :=
  ⟨a.follows.trans b.follows, b.time.trans a.time, fun k hk => (b.hw k hk).trans (a.hw k hk), b.cut.trans a.cut⟩

theorem find?_modCut (c : Channel) (l i : Nat) (f : CutSt → CutSt) (hf : ∀ y, (f y).ingress = y.ingress) :
    ((c.modCut i f).cuts.find? fun y => y.ingress == l) =
      (c.cuts.find? fun y => y.ingress == l).map fun y => if y.ingress = i then f y else y := by
  have keeps : ((fun y : CutSt => y.ingress == l) ∘ fun y => if y.ingress = i then f y else y) = fun y => y.ingress == l := by
    funext y
    by_cases h : y.ingress = i <;> simp [h, hf]
  unfold Channel.modCut
  rw [List.find?_map, keeps]

theorem clipped_cutLine (c : Channel) (cx : Ctx) {l : Nat} (h4 : l ≤ 4) : Clipped l c (c.cutLine cx (48 + l)) := by
  have line : ∀ d : Channel, d.setLine (48 + l) none = d.setPort (48 + l) { d.port (48 + l) with line := none } := fun d =>
    if_pos (by omega)
  unfold Channel.cutLine
  split
  · exact .refl l c
  split
  · rw [line]
    exact ⟨follows_setPort c _ _, rfl, fun _ _ => rfl, rfl⟩
  · rw [line]
    exact ⟨(follows_emit c _).trans (follows_setPort _ _ _), rfl, fun _ _ => rfl, rfl⟩

/-- A frame that is being received from `l` is not one of those that `l` sends. -/
theorem clipped_cutShort (c : Channel) (cx : Ctx) {l : Nat} {x : CutSt} (h4 : x.egress ≤ 4) (hi : x.ingress ≠ l) :
    Clipped l c (c.cutShort cx x) := by
  have low : x.egress < 256 := by omega
  have marked : Clipped l c (c.modCut x.ingress fun y => { y with fate := 0x91 }) := by
    refine ⟨follows_rest rfl rfl, rfl, fun _ _ => rfl, ?_⟩
    rw [find?_modCut c l x.ingress (fun y => { y with fate := 0x91 }) fun _ => rfl]
    cases h : c.cuts.find? fun y => y.ingress == l with
    | none => rfl
    | some y =>
      have own : y.ingress = l := by simpa using List.find?_some h
      exact congrArg some (if_neg fun e => hi (e.symm.trans own))
  refine marked.trans ?_
  unfold Channel.cutShort
  generalize (c.modCut x.ingress fun y => { y with fate := 0x91 }) = d
  have counted : Clipped l d (d.inc 0x427B x.egress) :=
    ⟨follows_inc d low (by decide), rfl, fun k hk => hw_congr rfl (reg_inc_ne d low hk (by simp)), rfl⟩
  exact counted.trans ⟨(follows_dropCode _ _).trans (follows_emit _ _), rfl, fun _ _ => rfl, rfl⟩

theorem clipped_cutShorts (cx : Ctx) {l : Nat} (cuts : List CutSt) (h : ∀ x, x ∈ cuts → x.egress ≤ 4 ∧ x.ingress ≠ l) :
    ∀ c : Channel, Clipped l c (cuts.foldl (fun c x => c.cutShort cx x) c) := by
  induction cuts with
  | nil => exact Clipped.refl l
  | cons x cuts ih =>
    intro c
    obtain ⟨h4, hi⟩ := h x List.mem_cons_self
    exact (clipped_cutShort c cx h4 hi).trans (ih (fun y hy => h y (List.mem_cons_of_mem x hy)) _)

/-- The channel once the frames that link `l` was sending have been cut short. -/
def Channel.clip (c : Channel) (cx : Ctx) (l : Nat) : Channel :=
  (c.cuts.filter fun x => x.egress == l && x.fate == 0).foldl (fun c x => c.cutShort cx x) (c.cutLine cx (48 + l))

theorem clipped_clip (c : Channel) (cx : Ctx) {l : Nat} (h4 : l ≤ 4) (h : ∀ y, y ∈ c.cuts → y.ingress = l → y.egress ≠ l) :
    Clipped l c (c.clip cx l) := by
  refine (clipped_cutLine c cx h4).trans (clipped_cutShorts cx _ (fun x hx => ?_) _)
  obtain ⟨hx, own⟩ := List.mem_filter.1 hx
  simp only [Bool.and_eq_true, beq_iff_eq] at own
  exact ⟨by omega, fun hi => h x hx hi own.1⟩

/-- A frame that was cut through from the link goes out stomped. -/
theorem follows_linkLost (c : Channel) (cx : Ctx) {l : Nat} {x : CutSt}
    (hx : ((c.clip cx l).cuts.find? fun y => y.ingress == l) = some x) (hf : x.fate = 0) :
    Follows ((c.clip cx l).cutSent cx x x.head true) (c.linkLost cx l) := by
  have lost : c.linkLost cx l =
      (((c.clip cx l).finishCut cx x x.head true).2.setPort (48 + l) { (c.clip cx l).port (48 + l) with holding := true }).storeCut cx
        (((c.clip cx l).finishCut cx x x.head true).2.fabricFrame l x.rxMax x.head ⟨9, false⟩) 9
        (some ((c.clip cx l).finishCut cx x x.head true).1) := by
    unfold Channel.linkLost
    dsimp only
    have found : (((c.cuts.filter fun x => x.egress == l && x.fate == 0).foldl (fun c x => c.cutShort cx x)
        (c.cutLine cx (48 + l))).cuts.find? fun x => x.ingress == l) = some x := hx
    simp only [found, hf, if_true]
    rfl
  rw [lost, finishCut_eq]
  exact (follows_sendDue _ (48 + x.egress)).trans ((follows_setPort _ _ _).trans (follows_storeCut _ cx _ _ _))

theorem follows_macDrop (c : Channel) (cx : Ctx) (r : Nat × Nat) {p : Nat} (hp : p ≤ 52) (code : Nat) : Follows c (c.macDrop cx r p code) := by
  have line : ∀ {i : Nat}, i ≠ 0x4275 ∧ i ≠ 0x4276 → Follows c (c.inc i p) := fun h => follows_inc c (by omega) h
  have counted : Follows c (c.countTxDrop p code) := by
    unfold Channel.countTxDrop
    refine .ite ((line (by decide)).trans (follows_flag _ (by decide) (by decide) _)) (.ite ((line (by decide)).trans
      (follows_flag _ (by decide) (by decide) _)) (.ite (line (by decide)) ?_))
    rw [if_pos hp]
    exact .ite (.refl c) (follows_inc c (by omega) (by decide))
  unfold Channel.macDrop
  split
  · exact .refl c
  next f x hx =>
  dsimp only
  split
  · exact counted.trans (follows_discard _ cx r code)
  · exact counted.trans (follows_discard _ cx r code)
  · exact counted.trans ((follows_mirror _ cx _ _).trans (follows_discard _ cx r code))

/-- What follows a link's loss only adds to what goes out. -/
theorem follows_fabricDown (c : Channel) (cx : Ctx) {l : Nat} (h4 : l ≤ 4) (hu : c.linkUp (48 + l) = true) :
    Follows (c.linkLost cx l) (c.fabricDown' cx l) := by
  have low : l < 256 := by omega
  unfold Channel.fabricDown'
  rw [if_neg (by simp [hu])]
  dsimp only
  refine Follows.trans ?_ (follows_reselect _ _)
  refine Follows.trans ?_ (follows_setPort _ _ _)
  refine Follows.trans ?_ (follows_put (i := 0x4805) _ (by omega) (by decide) 0)
  refine Follows.trans ?_ (follows_flag (i := 0x425D) _ low (by decide) 1)
  have unset : ∀ d : Channel, Follows d (d.setLink l LinkSt.empty) := fun d => follows_rest rfl rfl
  refine Follows.trans ?_ (unset _)
  refine Follows.trans ?_ (follows_put (i := 0x4256) _ low (by decide) 0)
  refine Follows.trans ?_ (follows_put (i := 0x4251) _ low (by decide) 0)
  exact follows_foldl (fun d r => follows_macDrop d cx r (p := 48 + l) (by omega) 0x91) _ _

/-- The frame that a link was receiving when it is lost goes out stomped, with what had arrived of it. -/
theorem lost_stomped {c : Channel} (cx : Ctx) {l : Nat} {x : CutSt} {b : List Byte} (h4 : l ≤ 4) (hx : (c.cuts.find? fun y => y.ingress == l) = some x)
    (he : x.egress ≤ 4) (hf : x.fate = 0) (hu : c.linkUp (48 + l) = true) (h : ∀ y, y ∈ c.cuts → y.ingress = l → y.egress ≠ l) :
    Sent.frame cx.ch (48 + x.egress) (stomped (c.timePtp (48 + x.egress) (x.leaving b) x.tx x.rx x.sum).1) false ∈
      ((c.modCut l fun y => { y with head := b }).fabricDown' cx l).box.out := by
  have own : x.ingress = l := by simpa using List.find?_some hx
  have arrived : ((c.modCut l fun y => { y with head := b }).cuts.find? fun y => y.ingress == l) = some { x with head := b } := by
    rw [find?_modCut c l l (fun y => { y with head := b }) fun _ => rfl, hx]
    exact congrArg some (if_pos own)
  have clip := clipped_clip (c.modCut l fun y => { y with head := b }) cx h4 fun y hy hi => by
    obtain ⟨z, hz, rfl⟩ := List.mem_map.1 hy
    by_cases e : z.ingress = l
    · simp only [e, if_true]
      exact h z hz e
    · simp [e] at hi
  have lost := follows_linkLost (c.modCut l fun y => { y with head := b }) cx (clip.cut.trans arrived) hf
  have down := follows_fabricDown (c.modCut l fun y => { y with head := b }) cx h4 hu
  obtain ⟨-, -, more, out⟩ := cutSent_followed _ cx _ true he (lost.trans down)
  have body : ((c.modCut l fun y => { y with head := b }).clip cx l).cutBody { x with head := b } b =
      (c.timePtp (48 + x.egress) (x.leaving b) x.tx x.rx x.sum).1 := by
    have hw := clip.hw (48 + x.egress) (by omega)
    unfold Channel.cutBody Channel.timePtp
    rw [hw, clip.time]
    rfl
  have bytes : ((c.modCut l fun y => { y with head := b }).clip cx l).cutBytes { x with head := b } b true =
      stomped (c.timePtp (48 + x.egress) (x.leaving b) x.tx x.rx x.sum).1 := by
    unfold Channel.cutBytes
    rw [body]
    rfl
  rw [out, ← bytes]
  exact List.mem_append_right _ List.mem_cons_self

end Sys2Proof.Machine
end

section
namespace Sys2Proof.Machine
/-! The obligation on fabric frames, from the rows of reception and of cut-through. -/

section
variable {s : State} {ch : Ch} {l : Nat} (hc : s.present ch = true) (h1 : 1 ≤ l) (h4 : l ≤ 4)
include hc h1 h4

theorem cutThroughStart_answers {head : List Byte} {ok : Channel → Prop} (h : ok ((s.chan ch).startCut (s.ctx ch) l head).emptied) :
    answersOn (.cutThroughStart ch l head) ch s fun t => ok (t.chan ch) :=
  answersOn_onCh (f := fun cx c => c.startCut cx l head) rfl hc (isLink_of h1 h4) fun t own _ => by
    rw [own]
    exact h

theorem cutThroughEnd_answers {tail : List Byte} {err : Option LineErr} {fec : Nat} {ok : State → Prop}
    (h : ∀ t, t.chan ch = ((s.chan ch).endCut (s.ctx ch) l tail err fec).emptied →
      t.sent = s.sent ++ ((s.chan ch).endCut (s.ctx ch) l tail err fec).box.out → ok t) :
    answersOn (.cutThroughEnd ch l tail err fec) ch s ok :=
  answersOn_onCh (f := fun cx c => c.endCut cx l tail err fec) rfl hc (isLink_of h1 h4) h

/-- Where a frame is cut through to, and what it holds from then on. -/
theorem cutThroughStart_begins {head : List Byte} {out tag : Nat} (h : (s.chan ch).cutTarget (s.ctx ch) l head = some (out, tag)) :
    let c := s.chan ch
    let x := c.cutBegun (s.ctx ch) l head out tag
    let d := c.withCut (s.ctx ch) l head out tag
    let ptp := (findPtp true (c.hw 0x4B08 (48 + out)) (x.leaving head)).isSome && c.hwBit 0x4B08 (48 + out) 0
    answersOn (.cutThroughStart ch l head) ch s fun t =>
      (t.chan ch).cuts = c.cuts ++ [x] ∧ (ptp = false → t.chan ch = d.emptied) ∧
      (ptp = true → ∃ e, t.chan ch = (d.queueStamp (48 + out) e).emptied ∧ e % 2 ^ 96 = x.tx % 2 ^ 96) := by
  intro c x d ptp
  obtain ⟨cuts, plain, stamped⟩ := startCut_facts h
  refine cutThroughStart_answers hc h1 h4 (ok := fun e => e.cuts = c.cuts ++ [x] ∧ (ptp = false → e = d.emptied) ∧
    (ptp = true → ∃ n, e = (d.queueStamp (48 + out) n).emptied ∧ n % 2 ^ 96 = x.tx % 2 ^ 96))
    ⟨cuts, fun hp => congrArg Channel.emptied (plain hp), fun hp => ?_⟩
  obtain ⟨n, noted, time⟩ := stamped hp
  exact ⟨n, congrArg Channel.emptied noted, time⟩

/-- The end of a frame that is still cut through. -/
theorem cutThroughEnd_sends {tail : List Byte} {err : LineErr} {fec : Nat} {x : CutSt}
    (hx : ((s.chan ch).cuts.find? fun x => x.ingress == l) = some x) (he : x.egress ≤ 4) (hf : x.fate = 0) :
    let c := s.chan ch
    let body := c.cutBody x ((x.whole tail).take ((x.whole tail).length - 4))
    answersOn (.cutThroughEnd ch l tail (some err) fec) ch s fun t => counts c (t.chan ch) 0x4275 x.egress 1 ∧
      (c.torn x (x.bad tail err) = true → (∃ more, putsOut s t (c.box.out ++ Sent.frame ch (48 + x.egress) (stomped body) false :: more)) ∧
        counts c (t.chan ch) 0x4276 x.egress 1) ∧
      (c.torn x (x.bad tail err) = false →
        ∃ more, putsOut s t (c.box.out ++ Sent.frame ch (48 + x.egress) (body ++ fcsBytes body) true :: more)) := by
  intro c body
  refine cutThroughEnd_answers hc h1 h4 fun t own sent => ?_
  obtain ⟨through, stomp, more, out⟩ := cutSent_followed c (s.ctx ch) _ (x.bad tail err) he
    (follows_endCut (s.ctx ch) tail fec hx err hf h4)
  rw [own, counts_emptied, counts_emptied]
  refine ⟨through, fun torn => ⟨⟨more, ?_⟩, stomp torn⟩, fun torn => ⟨more, ?_⟩⟩
  all_goals
    rw [putsOut, sent, out, Channel.cutBytes, torn]
    rfl

/-- The loss of the link that a frame was cut through from. -/
theorem cutThroughEnd_loses {tail : List Byte} {fec : Nat} {x : CutSt}
    (hx : ((s.chan ch).cuts.find? fun x => x.ingress == l) = some x) (he : x.egress ≤ 4) :
    let c := s.chan ch
    let b := x.head ++ tail
    answersOn (.cutThroughEnd ch l tail none fec) ch s fun t =>
      t.chan ch = ((c.modCut l fun y => { y with head := b }).fabricDown' (s.ctx ch) l).emptied ∧
      (x.fate = 0 → c.linkUp (48 + l) = true → (∀ y, y ∈ c.cuts → y.ingress = l → y.egress ≠ l) →
        Sent.frame ch (48 + x.egress) (stomped (c.timePtp (48 + x.egress) (x.leaving b) x.tx x.rx x.sum).1) false ∈ t.sent) := by
  intro c b
  refine cutThroughEnd_answers hc h1 h4 fun t own sent => ?_
  rw [endCut_lost (s.ctx ch) tail fec hx] at own sent
  refine ⟨own, fun hf hu h => ?_⟩
  rw [sent]
  exact List.mem_append_right _ (lost_stomped (s.ctx ch) h4 hx he hf hu h)

end

/-- The bytes, the length and the cells of a frame decide whether its FCS is inverted. -/
theorem torn_iff (c : Channel) (x : CutSt) (tail : List Byte) (err : LineErr) : c.torn x (x.bad tail err) = true ↔
    (fabricRx x.rxMax (x.head ++ tail) err).code ≠ 0 ∨ (x.whole tail).length < (x.head ++ tail).length ∨
      x.cells.any c.damage.cells.contains = true := by
  unfold Channel.torn CutSt.bad
  rw [Bool.or_eq_true, Bool.or_eq_true, bne_iff_ne, Nat.blt_eq, or_assoc]

/-- Settles O52: reception by the branches of the link's checks, the routes by the tag, a cut-through by what its start and its end put
out and count, and by what everything after them keeps. -/
theorem fabricFrames : Obligations.FabricFrames := by
  unfold Obligations.FabricFrames
  refine ⟨fun s ch l b err fec hc h1 h4 hb => ?_, fun top b err hb => ?_, fun c cx l tag _ _ => ?_, fun s ch l head hc h1 h4 => ?_,
    fun s ch l tail err fec hc h1 h4 => ?_⟩
  · obtain ⟨idle, tail⟩ := fabricFrame_down (err := err) (fec := fec) hc h1 h4 hb
    refine ⟨idle, tail, fun hu hh => ?_⟩
    obtain ⟨bad, control, dropped, relay, forward, data⟩ := fabricFrame_up (err := err) (fec := fec) hc h1 h4 hb hu hh
    dsimp only at bad control dropped relay forward data ⊢
    rw [relayed_eq, fabricCheck_eq] at dropped relay forward data
    refine ⟨bad, control, dropped, relay, forward, fun hd h0 hr hw hn hroom => ?_, fun e h hd h0 hr hn hroom => ?_,
      fun hd h0 hr hw hn hroom => ?_⟩
    all_goals
      have stored := data hd h0 hr hroom
      simp only [Route.transit, hn, Option.isNone_none, Option.isNone_some, Bool.and_true, Bool.and_false, Option.getD_none,
        Option.getD_some] at stored
    · rw [hw] at stored
      exact stored
    · exact stored
    · rw [hw] at stored
      exact stored
  · exact ⟨fabricRx_line hb, fun w => fabricRx_fec hb, fabricRx_short hb, fabricRx_long hb,
      fun he h64 ht => fabricRx_good hb he h64 ht, fun he h64 ht => fabricRx_broken hb he h64 ht⟩
  · exact ⟨route_spent, route_group, fun h0 hg hm hp => route_here h0 hg hm hp, fun h0 hg hm hp => route_nowhere h0 hg hm hp,
      fun h hg hm => route_last hg hm h, fun h hg hm hs => route_pathless (Nat.lt_of_succ_lt h) hg hm h hs,
      fun h hg hm hs => route_on (Nat.lt_of_succ_lt h) hg hm h hs⟩
  · refine ⟨fun h => ?_, fun out tag h => ?_⟩
    · exact cutThroughStart_answers hc h1 h4 (ok := fun d => d = (s.chan ch).emptied) (congrArg Channel.emptied (startCut_none h))
    · obtain ⟨ctl, ctlOut, sel, queued, room, own, paused, busy, short, len, whole, hops, aware⟩ := cutTarget_facts h
      exact ⟨ctl, ctlOut, sel, queued, room, own, paused, busy, short, len, whole, hops, aware, cutThroughStart_begins hc h1 h4 h⟩
  · refine ⟨fun err h => cutThroughEnd_answers hc h1 h4 fun t own _ => ?_, fun x hx _ he => ⟨fun hf => ?_, fun hf => ?_,
      cutThroughEnd_loses hc h1 h4 hx he⟩⟩
    · rw [own, endCut_none (s.ctx ch) tail fec err h]
    · obtain ⟨t, run, beside, through, stomp, good⟩ := cutThroughEnd_sends (tail := tail) (err := err) (fec := fec) hc h1 h4 hx he hf
      rw [← Bool.not_eq_true, torn_iff] at good
      rw [torn_iff] at stomp
      exact ⟨t, run, beside, through, stomp, good⟩
    · exact cutThroughEnd_answers hc h1 h4 fun t own _ => by rw [own, endCut_short (s.ctx ch) tail fec hx err hf]

end Sys2Proof.Machine
end

section
namespace Sys2Proof.Machine
/-! EGRESS_EDIT writes the body of the copy that it found, with that copy's tag, to every copy of the number; O57 gives each of them the
tag of its own, as the `x` of its record update hides the copy found. The two differ where two copies of a frame bear one number. -/

/-- A host copy for port 1, numbered 0, whose cells have all moved. -/
def twinCopy (tag : Option Nat) : Copy := Copy.mk0 0 0 .host .moved 1 0 tag

/-- A frame of no bytes with two copies numbered 0: the first without a fabric tag, the second with one. -/
def twinCopies : State :=
  { State.reset with chA := { State.reset.chA with
      frames := [{ Frame.fresh 0 [] 1 0 0 with copies := [twinCopy none, twinCopy (some 0)] }] } }

/-- The bytes of every copy of a channel. -/
def Channel.copyBytes (c : Channel) : List (Option (List Byte)) := c.frames.flatMap fun f => f.copies.map Copy.bytes

/-- The bytes of the copies of channel A after a command that answers. -/
def copyBytesAfter (o : Host.Outcome State Fault Refusal) : Option (List (Option (List Byte))) :=
  match o with
  | .next t => some t.chA.copyBytes
  | _ => none

theorem twinCopies_edited : copyBytesAfter (exec (.egressEdit .a 0 0) twinCopies) = some [some [], some []] := by decide +kernel

/-- Each copy with the tag of its own. -/
def ownTag (x : Copy) : Copy := { x with pos := .edited, bytes := some (withTag [] x.tag) }

theorem twinCopies_ownTag : (twinCopies.chA.modCopy (0, 0) ownTag).emptied.copyBytes = [some [], some (tagBytes 0)] := by decide +kernel

/-- Refutes O57: the clause on EGRESS_EDIT gives the second copy of `twinCopies` its own tag, and the command writes it the untagged
bytes of the first. -/
theorem not_schedulersAndTransmission : ¬ Obligations.SchedulersAndTransmission := by
  intro h
  have awake : pipeRuns twinCopies .a := ⟨rfl, by decide⟩
  obtain ⟨-, -, -, pipeline, -⟩ := h
  obtain ⟨-, -, -, -, edit⟩ := pipeline twinCopies .a awake
  have found : twinCopies.chA.copyOf (0, 0) =
      some ({ Frame.fresh 0 [] 1 0 0 with copies := [twinCopy none, twinCopy (some 0)] }, twinCopy none) := rfl
  obtain ⟨-, loads, -⟩ := edit 0 0 _ _ found
  obtain ⟨t, run, -, own⟩ := loads rfl (by decide)
  have own : t.chA = (twinCopies.chA.modCopy (0, 0) ownTag).emptied := own
  have edited := twinCopies_edited
  rw [run] at edited
  have same : t.chA.copyBytes = [some [], some []] := Option.some.inj edited
  rw [own, twinCopies_ownTag] at same
  exact absurd same (by decide)

end Sys2Proof.Machine
end
